-- ==== Sys2Proof/Word.lean ====
section
/-!
DEFINITION. The words and the element numbers of the SD512 (00_scope.md R1, R3, R4, R8).
An element is named by its number inside its family, so a number outside the family cannot be written.
-/

namespace Sys2Proof

/-- A 32-bit word of a ring entry, a register or a result (R4). -/
abbrev Word := BitVec 32
/-- A 64-bit pattern instruction word (R44). -/
abbrev IWord := BitVec 64
/-- Vector engine VE00–VE31 (R1). -/
abbrev Eng := Fin 32
/-- What runs a burst: 0–31 a vector engine, 32–35 raster engine RSE0–RSE3 (R39, R258). -/
abbrev Runner := Fin 36
/-- Site S000–S127. -/
abbrev Site := Fin 128
/-- Host partition HP0–HP15. -/
abbrev Part := Fin 16
/-- Pin group PG00–PG15. -/
abbrev Grp := Fin 16
/-- Logical channel CH000–CH511. -/
abbrev Chan := Fin 512
/-- Module lane 0–527 (R3). -/
abbrev Lane := Fin 528
/-- DPS channel DPS00–DPS17 (R164). -/
abbrev Dps := Fin 18
/-- Capture unit CU00–CU15. -/
abbrev Cu := Fin 16
/-- CAP trigger CT00–CT31. -/
abbrev Trg := Fin 32
/-- Host stream HS00–HS63. -/
abbrev Hs := Fin 64
/-- Measurement set MS000–MS255. -/
abbrev MSet := Fin 256
/-- Converter PADC00–PADC16. -/
abbrev Conv := Fin 17
/-- Raster engine RSE0–RSE3. -/
abbrev Rse := Fin 4
/-- Memory channel MC00–MC31. -/
abbrev Mc := Fin 32
/-- Pseudo-channel element 2 × channel + pseudo-channel (R305). -/
abbrev Pc := Fin 64
/-- HBM stack. -/
abbrev Stack := Fin 2
/-- Ngulos port: 0 U-A, 1 U-B, 2–5 D0–D3 (R354). -/
abbrev Port := Fin 6
/-- Time domain: 0 A, 1 B. -/
abbrev Dom := Fin 2
/-- Serial lane 0–37 (R357). -/
abbrev SLane := Fin 38
/-- Host port H0–H3. -/
abbrev HPort := Fin 4
/-- Temperature sensor SN00–SN47 (R420). -/
abbrev Sensor := Fin 48
/-- Ngulos trigger number 0x00–0xFF (R347). -/
abbrev NTrg := Fin 256
/-- Matching-store index 0–4,095 (R297). -/
abbrev TaskIx := Fin 4096
/-- Image handle 0x00–0x3F of a partition (R95). -/
abbrev Handle := Fin 64
/-- Event source 0x000–0x5FF (R1). -/
abbrev Src := Fin 1536
/-- MARK output MARK0–MARK7. -/
abbrev MarkOut := Fin 8
/-- CHIME output CHIME0–CHIME3. -/
abbrev ChimeOut := Fin 4

/-- Upper division ⌈a / b⌉ of the spec's formulas. -/
def ceilDiv (a b : Nat) : Nat := (a + (b - 1)) / b

/-- Smallest multiple of `m` that is at least `a`. -/
def roundUp (a m : Nat) : Nat := ceilDiv a m * m

end Sys2Proof
end

