-- ==== Sys2Proof/Syntax.lean ====
section
/-!
DEFINITION. The commands of the block: one constructor of `Instr` per row of spec/opcode_table.json, in the
table's order. The table gives no bits, so an operand is what the row's rule says the step needs: the engine,
site, channel or port it happens at, the fields of the instruction or of the command's record, and, for a step
of the hardware, what the outside world shows in it (a reading, a comparator state, a received block). A record
that a command reads from host memory by DMA is given by its fields; `rsvd` says that some reserved field of it
is not 0.
-/

namespace Sys2Proof

/-- Comparator state at a strobe (06_capture_acquisition.md, Compare). -/
inductive Cmp where
  | low
  | mid
  | high
  /-- An excursion of at least 200 ps from the expected state inside a WINDOW strobe (R131). -/
  | excursion
  deriving DecidableEq, Repr

/-- Cause of a streaming shortfall (R109). -/
inductive Short where
  | lateFetch | refresh | retrain | fence | sequencer | prefetch | instr
  deriving DecidableEq, Repr

/-- How an HBM read came back (R312). -/
inductive Ecc where
  | good | corrected | uncorrectable
  deriving DecidableEq, Repr

/-- What a TRAIN block asks for (R363 PHASE). -/
inductive TrainPhase where
  | align | equalize | confirm | exit | enterIdle
  deriving DecidableEq, Repr

/-- What enters or leaves current limit (row CURRENT_LIMIT; R151, R161, R166). -/
inductive LimitAt where
  | stage (d : Dps)
  | driver (l : Lane)
  | clamp (g : Grp)
  deriving DecidableEq, Repr

/-- A requester of memory service, in the order of classes of R308. -/
inductive MemClass where
  | stream | instr | dmaFloor | fill | log | dma
  deriving DecidableEq, Repr

/-- What a sch.abort names (R300, R390). -/
inductive AbortOf where
  | task (i : TaskIx)
  | queue (q : Fin 8192)
  | site (s : Site)
  deriving DecidableEq, Repr

/-- What hlt.unfence can return to service, and a resource ID that names none of them (R449). -/
inductive RepairUnit where
  | engine (e : Eng)
  | lane (l : Lane)
  | raster (r : Rse)
  /-- BLOCK and KIND name none of the three kinds. -/
  | badKind
  /-- BLOCK and KIND name one of them, ELEMENT is beyond its last element. -/
  | badElement
  deriving DecidableEq, Repr

/-- A unit of reference calibration (R464). -/
inductive CalUnit where
  | group (g : Grp)
  | dps (d : Dps)
  deriving DecidableEq, Repr

/-- How a calibration attempt ended (R465, R466, R470). -/
inductive CalEnd where
  /-- Both readings agree, values in range, temperature steady. -/
  | pass
  /-- A quantity failed; its number and lane go into the REF_REJECT payload. -/
  | fail (quantity lane : Nat)
  /-- CALREF_V (1) or CALREF_T (2) check failed. -/
  | refAbsent (which : Nat)
  deriving DecidableEq, Repr

/-- One segment of a pattern image (R92) with its instructions and vectors. A vector is the number that its b_v bits
spell, the first bit least significant (R90). -/
structure Segment where
  firstInstr : Nat
  instrs     : List IWord
  /-- VEC_GRANULE. -/
  granule    : Nat
  /-- Vectors stored, in order; a run of equal vectors is written once with its length. -/
  vectors    : List (Nat × Nat)
  format     : Nat
  /-- Byte at 0x16: [1:0] RESIDENCY, 0 AUTO, 1 RESIDENT, 2 STREAMED, 3 reserved; [7:2] reserved. -/
  residency  : Nat
  /-- A reserved byte at 0x17–0x1F is not 0. -/
  rsvd       : Bool
  deriving DecidableEq, Repr

/-- A pattern image as the loader reads it from host memory (R91–R93). A format is the list of the 128-bit values of
its groups, PG00 first; groups that the list does not reach hold 0. -/
structure Image where
  /-- The signature verifies (R378). -/
  signed     : Bool
  magic      : Nat
  version    : Nat
  hdrSize    : Nat
  /-- The reserved field at 0x0E. -/
  rsvd       : Nat
  segtabOff  : Nat
  fmttabOff  : Nat
  instrOff   : Nat
  instrCount : Nat
  vecOff     : Nat
  vecBytes   : Nat
  formats    : List (List (BitVec 128))
  segments   : List Segment
  /-- Length of the image in bytes. -/
  bytes      : Nat
  deriving DecidableEq, Repr

/-- Engine clocks of the instructions as a microcode image states them in its header; the defaults are those of the
released image (02, Sequencer throughput). -/
structure UCosts where
  /-- VEC, RPT, LOOP, RET, MARK, SIGNAL, TSET, STREAM, CAPON, CAPOFF, STAMP, INJ, FAILSTOP, HALT. -/
  plain     : Nat := 2
  wait      : Nat := 3
  endl      : Nat := 3
  call      : Nat := 4
  jmp       : Nat := 5
  /-- JF, JNF falling through, transferring; `clr` is added with CLR = 1. -/
  jfFall    : Nat := 8
  jfTake    : Nat := 11
  clr       : Nat := 1
  matchSet  : Nat := 6
  matchIter : Nat := 10
  /-- Added when an instruction transfers. -/
  redirect  : Nat := 2
  deriving DecidableEq, Repr

/-- A microcode image (R70, R80): its version, its microwords from control-store address 0x000 on, its costs. An image
without words is a released one, whose content the spec does not give (notes/assumptions/87.md). -/
structure UImage where
  version : Nat
  words   : List (BitVec 40) := []
  costs   : UCosts := {}
  deriving DecidableEq, Repr

/-- One channel entry of a timing-set record (R126); times in units of 0.25 ps. -/
structure TsEntry where
  driveFmt : Nat
  cmpMode  : Nat
  d        : List Nat
  c        : List Nat
  rsvd     : Bool
  deriving DecidableEq, Repr

/-- A tmg.set record (R126). Entries are given by position; a position that carries no entry is all 0. -/
structure TsRec where
  group   : Nat
  ts      : Nat
  define  : Bool
  period  : Nat
  entries : List (Fin 32 × TsEntry)
  rsvd    : Bool
  deriving DecidableEq, Repr

/-- One entry of a rate table (R136): T_B in 2^-24 ns, SLOPE, DWELL bits. -/
structure RateEntry where
  tb    : Nat
  slope : Int
  dwell : Nat
  deriving DecidableEq, Repr

/-- A tmg.rate_set record (R136). -/
structure RateRec where
  group   : Nat
  mode    : Nat
  entries : List RateEntry
  rsvd    : Bool
  deriving DecidableEq, Repr

/-- One step of a power sequence (R173). -/
structure SeqStep where
  channel    : Nat
  waitSettle : Bool
  vout       : Nat
  delay      : Nat
  deriving DecidableEq, Repr

/-- A dps.seq_set record (R173). -/
structure SeqRec where
  site  : Nat
  steps : List SeqStep
  rsvd  : Bool
  deriving DecidableEq, Repr

/-- A cap.stream_open descriptor (R205). -/
structure StreamDesc where
  stream    : Nat
  msix      : Nat
  base      : Nat
  size      : Nat
  prodAddr  : Nat
  consAddr  : Nat
  watermark : Nat
  rsvd      : Bool
  deriving DecidableEq, Repr

/-- A sch.site_define record (R274). -/
structure SiteRec where
  site    : Nat
  define  : Bool
  linked  : Bool
  members : Nat
  dps     : BitVec 18
  linkId  : Nat
  home    : Nat
  chMap   : BitVec 512
  rsvd    : Bool
  deriving DecidableEq, Repr

/-- An operand slot (R279). -/
structure Slot where
  key       : Nat
  tkind     : Nat
  consume   : Bool
  anyResult : Bool
  scope     : Site
  rsvd      : Bool
  deriving DecidableEq, Repr

/-- A sch.submit task descriptor (R276). -/
structure TaskDesc where
  queue       : Fin 8192
  kind        : Nat
  pausable    : Bool
  linked      : Bool
  issueDone   : Bool
  noAffinity  : Bool
  eclass      : Fin 8
  source      : Nat
  nops        : Nat
  linkTrig    : NTrg
  entry       : Nat
  runLimit    : Nat
  waitTimeout : Nat
  extraSites  : List Site
  outKey      : Nat
  slots       : List Slot
  rsvd        : Bool
  deriving DecidableEq, Repr

/-- An ngl.chime record (R353). -/
structure ChimeRec where
  output : Nat
  enable : Bool
  invert : Bool
  t0     : Nat
  period : Nat
  width  : Nat
  count  : Nat
  rsvd   : Bool
  deriving DecidableEq, Repr

/-- An ngl.lane_scan descriptor (R371). -/
structure ScanDesc where
  lane     : Nat
  phStep   : Nat
  vStep    : Nat
  phMin    : Int
  phMax    : Int
  vMin     : Int
  vMax     : Int
  dwellExp : Nat
  rsvd     : Bool
  /-- RESULT: host address of the result. -/
  result   : Nat := 0
  deriving DecidableEq, Repr

/-- A partition-table record (R397). -/
structure PartRec where
  part        : Nat
  enable      : Bool
  system      : Bool
  evtGlobal   : Bool
  config      : Bool
  modReset    : Bool
  service     : Bool
  engReserve  : Nat
  msReserve   : Nat
  msLimit     : Nat
  streamShare : Nat
  hbmPages    : Nat
  dps         : BitVec 18
  units       : BitVec 16
  xtrig       : BitVec 2
  chime       : BitVec 4
  marks       : BitVec 8
  raster      : BitVec 4
  capTriggers : BitVec 32
  streams     : BitVec 64
  sites       : BitVec 128
  channels    : BitVec 512
  tmuSets     : BitVec 256
  nglTriggers : BitVec 256
  timingSets  : BitVec 1024
  rsvd        : Bool
  deriving DecidableEq, Repr

/-- A command entry of the ring (R381). -/
structure CmdEntry where
  tag     : Nat
  opcode  : BitVec 16
  len     : Nat
  commit  : Bool
  list    : Bool
  staged  : Bool
  ordered : Bool
  rsvd    : Bool
  /-- Host address at which the transfer of the command's record or result ends in a DMA error (R389). -/
  dma     : Option Nat
  deriving DecidableEq, Repr

/-- How a command's transfer between HBM and host memory ended (R312, R389). -/
inductive XferEnd where
  | good
  /-- A word with an uncorrectable error was read at the HBM address. -/
  | uncorrectable (addr : Nat)
  /-- A DMA error at the host address. -/
  | dmaError (addr : Nat)
  deriving DecidableEq, Repr

/-- Host registers with a companion word (R379, Acc RL), and the RL parameters of the block tables. -/
inductive RlReg where
  | serial
  | time
  | ferrTime
  /-- An RL parameter: its 32-bit parameter ID (R8). -/
  | param (id : Nat)
  deriving DecidableEq, Repr

/-- An event record as it travels in a LOG frame (R333, R437). -/
structure WireRec where
  source   : Nat
  reaction : Nat
  time     : Nat
  payload  : List Nat
  conseq   : Bool := false
  forced   : Bool := false
  coalesced : Bool := false
  lost     : Bool := false
  count    : Nat := 1
  node     : Nat := 0
  primary  : Nat := 0x7FF
  first    : Nat := 0
  deriving DecidableEq, Repr

/-- The nodes that a frame goes to and comes from (12 R333). -/
structure FrameEnds where
  dst : Nat
  src : Nat
  deriving DecidableEq, Repr

/-- SEQ and CRC-32 of a frame (12 R333). -/
structure FrameSeal where
  seq : Nat
  crc : BitVec 32
  deriving DecidableEq, Repr

/-- What SOF and EOF of a received frame hold beside its class and length: nodes, SEQ, CRC-32 (12 R333). -/
structure FrameHdr extends FrameEnds, FrameSeal where
  deriving DecidableEq, Repr

/-- The port that a frame arrives on, with the frame's header and check code. -/
structure FrameRx where
  port : Port
  h    : FrameHdr
  deriving DecidableEq, Repr

/-- The port that a control block arrives on, with the block's CRC-8 (12 R329). -/
structure BlockRx where
  port : Port
  crc  : BitVec 8
  deriving DecidableEq, Repr

/-- The port that a C0 block arrives on, with the CRC-8 of each of its two copies (12 R330). -/
structure C0Rx where
  port : Port
  crcs : BitVec 8 × BitVec 8
  deriving DecidableEq, Repr

/-- RESULT and REASON of a STOP block (12 R330, R351). -/
structure StopCause where
  result : Nat
  reason : Nat
  deriving DecidableEq, Repr

/-- What a TRAIN block says of its sender's receiver: the preset that it asks for, and whether it is locked (13 R363). -/
structure RxState where
  preset : Nat
  locked : Bool
  deriving DecidableEq, Repr

/-- A lane whose connection change is over, with the self-check of the switch (05 R160, R181). -/
structure ConnDone where
  chan        : Chan
  selfCheckOk : Bool
  deriving DecidableEq, Repr

/-- A firmware image of `sup.fw_load`: its version and the microcode image that it holds (14 R401; 02 R80). -/
structure FwImage where
  version : Nat
  ucode   : UImage
  deriving DecidableEq, Repr

/-- The commands of the block, one per row of spec/opcode_table.json, in its order. -/
inductive Instr where
  -- Pattern instructions, executed by the micro-sequencer of engine `e` (02_vector_engines.md)
  | vec (e : Eng) (count : Nat)
  | rpt (e : Eng) (count : Nat)
  | loop (e : Eng) (count : Nat)
  | endl (e : Eng)
  | call (e : Eng) (segment : Nat)
  | ret (e : Eng)
  | jmp (e : Eng) (segment lpop : Nat)
  | jf (e : Eng) (segment lpop : Nat) (clr : Bool)
  | jnf (e : Eng) (segment lpop : Nat) (clr : Bool)
  | matchLoop (e : Eng) (segment maxIter : Nat) (sense toFail : Bool)
  | matchDecide (e : Eng)
  | wait (e : Eng) (ns : Bool) (count : Nat)
  | wtrg (e : Eng) (trigger timeout : Nat) (latch toFail : Bool)
  | wtrgTo (e : Eng)
  | mark (e : Eng) (output : MarkOut) (act : Fin 4)
  | signal (e : Eng) (token : Nat)
  | tset (e : Eng) (ts : Fin 64) (groups : BitVec 16) (off : Bool)
  | stream (e : Eng) (value : Nat) (stream : Nat) (act : Fin 3)
  | capon (e : Eng) (config : Nat)
  | capoff (e : Eng) (config : Nat)
  | stamp (e : Eng) (mset : Nat) (disarm : Bool)
  | inj (e : Eng) (group : Grp) (conv : Nat)
  | failstop (e : Eng) (en : Bool)
  | halt (e : Eng)
  | controlDescriptorAct (r : Runner)
  | illegalOpcodeTrap (e : Eng) (opcode : Nat)
  | controlStoreScrub (e : Eng) (parityError : Bool) (addr : Nat)
  -- Bursts (02, 03, 04, 06, 10)
  | taskDispatch (i : TaskIx)
  | loopStoreFillDone (e : Eng) (ecc : Ecc) (x : Pc)
  | islandFilled (r : Runner) (g : Grp)
  | burstStartTick (r : Runner)
  | granuleDelivered (e : Eng) (ecc : Ecc) (x : Pc) (gran : Nat)
  | positionMissing (r : Runner) (cause : Short) (mc : Option Mc)
  | pauseResume (r : Runner)
  | stretchLimitReached (r : Runner)
  | compareResultFinal (r : Runner) (seen : List (Chan × List Cmp))
  | asyncEventAct (r : Runner)
  | runLimitExpiry (r : Runner)
  | burstEnd (r : Runner)
  | burstResultFinal (r : Runner)
  -- Scheduler and governor (10)
  | tokenArrival (scope : Site) (kind : Fin 7) (key : Nat) (result : BitVec 16)
  | tokenOverflowDrain
  | waitTimeoutExpiry (i : TaskIx)
  | admitPatienceExpiry
  | affPatienceExpiry (i : TaskIx)
  | linkTimeoutExpiry (r : Runner)
  | linkMemberLost (site : Site) (node : Nat)
  | budgetRecompute
  | c1Stall (port : Port)
  -- DUT power and pin front end (05)
  | dpsStepAdmitted (site : Site)
  | dpsSeedSweepEnd (d : Dps) (hi lo cur : Bool)
  | dpsRampEnd (d : Dps)
  | dpsSettled (d : Dps)
  | seqDelayExpiry (site : Site)
  | seqTimeout (site : Site)
  | dpsOffLevelReached (d : Dps)
  | dischSlow (d : Dps)
  | windowFault (d : Dps)
  | senseOpen (d : Dps)
  | dpsStageTrip (d : Dps) (loopFault : Bool)
  | laneOvercurrent (l : Lane)
  | laneOvervoltage (l : Lane)
  | laneSeedSweepEnd (l : Lane) (selfCheckOk : Bool)
  | connChangeComplete (done : ConnDone)
  | pmuSettled (g : Grp)
  -- Acquisition (06)
  | xtrigEdge (input : Fin 2) (falling : Bool) (t : Nat)
  | captureRingEnd (u : Cu)
  | streamProdUpdate (h : Hs)
  | streamConsRead (h : Hs) (cons : Nat)
  | epochDue
  | streamError (h : Hs) (addr : Nat)
  -- Time measurement (07)
  | rawRecordClose (m : MSet)
  | stampEdge (l : Lane) (vcl rising : Bool) (stamp : Nat)
  | msTimeout (m : MSet)
  | freqGateClose (m : MSet) (stamp edges : Nat)
  | oscTcompUpdate (temp : Int)
  | oscAgeingStep
  | oscWarm
  | oscFault
  -- Parametric converters (08)
  | regIntervalDue (c : Conv)
  | injConversionStart (c : Conv)
  | conversionEnd (c : Conv) (outputs : List Int) (clamp ovr : Bool)
  | selfcalStart (c : Conv)
  | selfcalEnd (c : Conv) (zeroMean refMean : Int)
  | padcPowerupWarm (c : Conv)
  | hkSlotEnd (value : Int)
  -- Raster engines (09)
  | rseVblank (n : Rse)
  | rseFrameChecked (n : Rse) (crcs : List Nat) (invalid : BitVec 16) (syncLost : Bool)
  | rsePixelUnderrun (n : Rse) (layer : Bool) (count : Nat)
  | latTolReport (n : Rse) (tol : Nat)
  -- Memory (11)
  | refreshDue (x : Pc)
  | stackTempRead (k : Stack) (reading : Option Int)
  | retrainDue (m : Mc)
  | retrainDeferExpiry (m : Mc)
  | retrainDone (m : Mc) (good : Bool)
  | parityAlert (x : Pc) (sameCommandThird : Bool)
  | lpEntry (x : Pc) (selfRefresh : Bool)
  | lpExit (x : Pc)
  | memRequestServed (x : Pc) (cls : MemClass) (write : Bool) (p : Part) (addr : Nat) (ecc : Ecc)
  -- Ngulos fabric and time (12)
  | tickSend
  | tickReceive (rx : BlockRx) (dom : Dom) (master usLo depart arrival : Nat)
  | tickLoss (dom : Dom)
  | timeLock
  | domainRevert
  | c0TriggerReceive (rx : C0Rx) (dom : Dom) (number : NTrg) (tShort t : Nat)
  | ngulosTriggerAct (number : NTrg)
  | c0StopReceive (rx : C0Rx) (all : Bool) (linkId : Nat) (cause : StopCause) (node : Nat)
  | echoSend (port : Port)
  | echoRequestReceive (rx : BlockRx) (sendTime t : Nat)
  | echoReplyReceive (rx : BlockRx) (t1 t4 turnaround : Nat)
  | flowReceive (rx : BlockRx) (xoff : Bool) (credits ackSeq : Nat) (nak : Bool)
  | c1ReplayTimeout (port : Port)
  | tokenFrame (port : Port) (h : FrameHdr) (scope : Site) (kind : Fin 7) (key : Nat) (result : BitVec 16)
  | linkReadyFrame (port : Port) (ends : FrameEnds) (fcs : FrameSeal) (linkId : Nat)
  | linkResultFrame (port : Port) (ends : FrameEnds) (fcs : FrameSeal) (linkId : Nat) (result : BitVec 16)
  | announce (rx : FrameRx) (addr : Nat) (withdraw : Bool)
  | timeSet (rx : FrameRx) (dom : Dom) (master hops time : Nat)
  | timeSetPeriodic
  | timeLabel (rx : FrameRx) (dom : Dom) (seconds time : Nat)
  | alarmFrame (port : Port) (ends : FrameEnds) (fcs : FrameSeal) (event : Src) (count time : Nat)
  | logFrame (port : Port) (ends : FrameEnds) (fcs : FrameSeal) (rec : WireRec)
  | logDrop (port : Port) (ends : FrameEnds) (fcs : FrameSeal) (count : Nat)
  | alarmSend (event : Src)
  | chimeEdge (c : ChimeOut)
  -- Serial lanes (13)
  | trainBlockReceive (rx : BlockRx) (phase : TrainPhase) (standby refIndep : Bool) (farPort node : Nat) (rec : RxState)
  | trainingComplete (port : Port) (ppm : Int)
  | trainTimeoutExpiry (port : Port)
  | blockLockLoss (port : Port)
  | elasticOverflow (port : Port)
  | activityDetect (port : Port)
  | fastExitFail (port : Port)
  | standbyCheckDue (port : Port) (ok : Bool)
  | standbyReturn
  | retryIntervalExpiry (port : Port)
  | laneScanDone (l : SLane) (counts : List Nat) (incomplete : Bool)
  | hostLinkDown (h : HPort) (refclk : Bool)
  | hostLinkUp (h : HPort) (rate width : Nat)
  | functionLevelReset (p : Part)
  -- Supply, hot plug, thermal (15)
  | vinMate (vin : Nat)
  | prechargeComplete
  | resetRelease (ga : BitVec 6)
  | supplyReset (vinStayed : Bool)
  | vinWarn (vinFilt : Nat)
  | vinHigh
  | vinOv (vin : Nat)
  | ovRecovery
  | inputLimit
  | prsntNLoss
  | prsntNAssert
  | ejectNAssert
  | ejectNRelease
  | ejectGraceExpiry
  | ejectSafe
  | sensorRead (n : Sensor) (reading second : Option Int)
  | sensorRestore (n : Sensor)
  | throttleDwellComplete (stack : Option Stack)
  | stopGraceExpiry
  | thermalTrip (n : Sensor)
  | inconvShutdown
  | pIdleMeasure (power : Nat)
  | referenceCompUpdate
  -- Timing islands (04)
  | pllLock (g : Grp)
  | pllUnlock (g : Grp)
  | pllRelock (g : Grp) (ok : Bool)
  | ebFault (g : Grp)
  | tsParity (g : Grp)
  | islandTempRead (g : Grp) (tIsl : Int)
  | tcStep (l : Lane)
  | statDeskewStep (l : Lane) (drive : Bool)
  -- Event fabric and firmware (16)
  | consequenceWindowClose
  | gongReadback
  | fwWatchdog
  | fabricParity
  | sramUe
  | sramCorr
  | firmwareBoot (activeOk otherOk : Bool) (pprFailed : List Mc)
  | bootTimeout
  | serviceLockExpiry
  -- Host rings and registers (14)
  | msixCoalTimeout (p : Part) (evt : Bool)
  | cplDmaError (p : Part) (addr : Nat)
  | evtDmaError (p : Part) (addr : Nat)
  | cmdTail (p : Part) (count : Nat) (written : List CmdEntry)
  | cmdTake (p : Part)
  | cmdEnable (p : Part) (enable : Bool)
  | ringStop (p : Part)
  | ringResume (p : Part)
  | cplCons (p : Part) (count : Nat)
  | evtCons (p : Part) (count : Nat)
  | ferrClear (p : Part)
  | linkLostClear (p : Part)
  | partReset (p : Part) (key : Word)
  | modReset (p : Part) (key : Word)
  | rlLowRead (p : Part) (reg : RlReg)
  | registerWrite (p : Part) (offset : Nat) (value : Word)
  | partResetAck (p : Part)
  | partResetComplete (p : Part)
  | resetAckTimeout (p : Part)
  -- Prorax commands: the partition, the tag, the operands (14 R390, 16 R455, 17 R475)
  | sysNop (p : Part) (tag : Nat)
  | sysParamGet (p : Part) (tag : Nat) (ids : List Nat) (list staged : Bool)
  | sysParamSet (p : Part) (tag : Nat) (pairs : List (Nat × Int)) (commit list : Bool)
  | paramListDone (p : Part) (tag : Nat)
  | sysParamCommit (p : Part) (tag : Nat)
  | sysParamDiscard (p : Part) (tag : Nat)
  | sysResetPartition (p : Part) (tag : Nat) (target : Part)
  | sysResetModule (p : Part) (tag : Nat)
  | sysServiceUnlock (p : Part) (tag : Nat) (seconds : Nat)
  | veImageLoad (p : Part) (tag : Nat) (image : Image)
  | imageLoadDone (p : Part) (h : Handle)
  | veImageUnload (p : Part) (tag : Nat) (handle : Nat)
  | veImageInfo (p : Part) (tag : Nat) (handle entry : Nat)
  | veUcodeLoad (p : Part) (tag : Nat) (verified : Bool) (image : UImage)
  | ucodeEngineLoad (e : Eng) (readBackOk : Bool)
  | tmgSet (p : Part) (tag : Nat) (recs : List TsRec) (commit : Bool)
  | tmgGet (p : Part) (tag : Nat) (group : Grp) (ts : Fin 64)
  | tmgCheck (p : Part) (tag : Nat) (site : Site) (group : Grp) (sets : BitVec 64)
  | tmgRateSet (p : Part) (tag : Nat) (rec : RateRec) (commit : Bool)
  | tmgRemap (p : Part) (tag : Nat) (group : Grp) (pos : Fin 32)
  | tmgUnremap (p : Part) (tag : Nat) (group : Grp)
  | dpsSeqSet (p : Part) (tag : Nat) (rec : SeqRec)
  | dpsPowerUp (p : Part) (tag : Nat) (site : Site)
  | dpsPowerDown (p : Part) (tag : Nat) (site : Site)
  | capLogRead (p : Part) (tag : Nat) (site : Site) (first count : Nat)
  | capLogRelease (p : Part) (tag : Nat) (site : Site)
  | capCaptureRead (p : Part) (tag : Nat) (u : Cu) (first count : Nat)
  | hostTransferDone (p : Part) (tag : Nat) (how : XferEnd)
  | capTrigger (p : Part) (tag : Nat) (t : Trg)
  | capStreamOpen (p : Part) (tag : Nat) (desc : StreamDesc)
  | capStreamClose (p : Part) (tag : Nat) (h : Hs)
  | tmuArm (p : Part) (tag : Nat) (m : MSet) (ref : Nat)
  | tmuDisarm (p : Part) (tag : Nat) (m : MSet)
  | tmuResult (p : Part) (tag : Nat) (m : MSet)
  | padcConvert (p : Part) (tag : Nat) (c : Conv)
  | padcSelfcal (p : Part) (tag : Nat) (c : Conv)
  | schSiteDefine (p : Part) (tag : Nat) (rec : SiteRec)
  | schSubmit (p : Part) (tag : Nat) (desc : TaskDesc)
  | schAbort (p : Part) (tag : Nat) (what : AbortOf)
  | schToken (p : Part) (tag : Nat) (slot : Slot) (node : Nat) (remote : Bool)
  | schTokenClear (p : Part) (tag : Nat) (slot : Slot) (all : Bool)
  | schTaskInfo (p : Part) (tag : Nat) (i : TaskIx)
  | memWrite (p : Part) (tag : Nat) (addr : Nat) (bytes : List (BitVec 8))
  | memRead (p : Part) (tag : Nat) (addr len : Nat)
  | memFence (p : Part) (tag : Nat) (m : Mc)
  | memRemap (p : Part) (tag : Nat) (target : Part)
  | memRepair (p : Part) (tag : Nat) (m : Option Mc)
  | nglConfig (p : Part) (tag : Nat)
  | nglTrigger (p : Part) (tag : Nat) (number : NTrg) (lead : Bool) (time : Nat)
  | nglStop (p : Part) (tag : Nat) (linkId : Nat) (all : Bool) (result reason : Nat)
  | nglTimeLabel (p : Part) (tag : Nat) (seconds : Nat)
  | nglChime (p : Part) (tag : Nat) (rec : ChimeRec)
  | nglLaneScan (p : Part) (tag : Nat) (desc : ScanDesc)
  | nglPrbs (p : Part) (tag : Nat) (lane pattern mode inject : Nat)
  | nglLaneRetrain (p : Part) (tag : Nat) (lane : Nat)
  | supPartSet (p : Part) (tag : Nat) (rec : PartRec)
  | supPartGet (p : Part) (tag : Nat) (target : Part)
  | supFwLoad (p : Part) (tag : Nat) (verified : Bool) (image : FwImage) (minHandover : Nat)
  | supFwHandover (p : Part) (tag : Nat)
  | handoverDrainDone
  | handoverDrainTimeout
  | handoverResume (us : Nat)
  | handoverRevert
  | hltForce (p : Part) (tag : Nat) (source : Nat) (payload : List Nat)
  | hltAlarmAck (p : Part) (tag : Nat)
  | hltFerrRead (p : Part) (tag : Nat) (block : Nat)
  | hltFerrClear (p : Part) (tag : Nat) (block : Nat)
  | hltUnfence (p : Part) (tag : Nat) (unit : RepairUnit)
  | unfenceSelftestDone (unit : RepairUnit) (ok : Bool)
  | hltFwSelect (p : Part) (tag : Nat) (bankB : Bool)
  | calRun (p : Part) (tag : Nat) (groups dps : Nat)
  | calUnitStart
  | calAttemptEnd (u : CalUnit) (outcome : CalEnd)
  | calStore (p : Part) (tag : Nat)
  | storeIntervalExpiry
  | storeStepVerified (ok : Bool)
  | calStatClear (p : Part) (tag : Nat) (g : Grp)
  -- Rudiment monitor (16)
  | help
  | peek (id : Nat)
  | poke (id : Nat) (value : Int)
  | faults
  | temps
  | time
  | lanes
  | fw
  | fwSelect (bankB : Bool)
  | rudimentReset
  -- Rows the table gives after the others
  /-- `ls`: the loop-store words read for the position (R83). -/
  | positionEmitted (r : Runner) (ls : Ecc)
  | blockLockGain (port : Port)
  | prbsCheckerLock (l : SLane) (relock : Bool)
  | blockSend (port : Port)
  | winStateChange (d : Dps) (hi lo cur : Bool) (t : Nat)
  | currentLimit (at_ : LimitAt) (enters : Bool)
  | vinHighClear
  | cmpFault (g : Grp)
  | tmuFault (lane : Option Lane) (set : Option MSet)
  | padcFault (c : Conv)
  | rseFault (n : Rse)
  | msParity (i : TaskIx)
  deriving DecidableEq, Repr

end Sys2Proof
end

