-- ==== Sys2Proof/WellFormed.lean ====
section
/-!
DEFINITION. When a command is well formed: every operand lies in the field that carries it (02 R44–R61 for pattern
instructions, 14 R381 for the tag, 00 R4 for words). What a well-formed command may still name wrongly (a segment
beyond the table, a parameter out of range) is checked by the module, with the status the spec gives.
-/

namespace Sys2Proof

/-- COUNT of VEC, RPT and LOOP: 1 to 2^32 − 1 (02 R47, R49). -/
def okCount (n : Nat) : Bool := decide (1 ≤ n) && decide (n < 2 ^ 32)

/-- A 24-bit segment number (02 R45). -/
def okSegment (n : Nat) : Bool := decide (n < 2 ^ 24)

/-- LPOP: 0 to 8 (02 R51). -/
def okLpop (n : Nat) : Bool := decide (n ≤ 8)

/-- A 32-bit word. -/
def okWord (n : Nat) : Bool := decide (n < 2 ^ 32)

/-- An 8-bit field. -/
def okByte (n : Nat) : Bool := decide (n < 256)

/-- A command tag: 16 bits (14 R381). -/
def okTag (n : Nat) : Bool := decide (n < 2 ^ 16)

/-- A TRIGGER selector that is not reserved (02 R60). -/
def okSelector (n : Nat) : Bool :=
  decide (n < 4096) &&
    (decide (n / 256 = 0) || (decide (n / 256 = 1 ∨ n / 256 = 2) && decide (n % 256 / 2 = 0)) || decide (n / 256 = 3))

/-- An opcode that the opcode table of 02 reserves. -/
def reservedOpcode (n : Nat) : Bool := decide (n = 0) || (decide (0x17 ≤ n) && decide (n ≤ 0x3F))

/-- Every operand fits its field. -/
def Instr.wf : Instr → Bool
  | .vec _ count => okCount count
  | .rpt _ count => okCount count
  | .loop _ count => okCount count
  | .endl _ => true
  | .call _ segment => okSegment segment
  | .ret _ => true
  | .jmp _ segment lpop => okSegment segment && okLpop lpop
  | .jf _ segment lpop _ => okSegment segment && okLpop lpop
  | .jnf _ segment lpop _ => okSegment segment && okLpop lpop
  | .matchLoop _ segment maxIter _ _ => okSegment segment && decide (1 ≤ maxIter) && decide (maxIter < 2 ^ 24)
  | .matchDecide _ => true
  | .wait _ _ count => decide (1 ≤ count) && decide (count < 2 ^ 48)
  | .wtrg _ trigger timeout _ _ => okSelector trigger && okWord timeout
  | .wtrgTo _ => true
  | .mark _ _ _ => true
  | .signal _ token => decide (token < 2 ^ 48)
  | .tset _ _ _ _ => true
  | .stream _ value strm _ => okWord value && okByte strm
  | .capon _ config => okByte config
  | .capoff _ config => okByte config
  | .stamp _ mset _ => decide (mset < 4096)
  | .inj _ _ conv => okByte conv
  | .failstop _ _ => true
  | .halt _ => true
  | .controlDescriptorAct _ => true
  | .illegalOpcodeTrap _ opcode => reservedOpcode opcode
  | .controlStoreScrub _ _ addr => decide (addr < 4096)
  | .taskDispatch _ => true
  | .loopStoreFillDone _ _ _ => true
  | .islandFilled _ _ => true
  | .burstStartTick _ => true
  | .granuleDelivered _ _ _ _ => true
  | .positionMissing _ _ _ => true
  | .pauseResume _ => true
  | .stretchLimitReached _ => true
  | .compareResultFinal _ _ => true
  | .asyncEventAct _ => true
  | .runLimitExpiry _ => true
  | .burstEnd _ => true
  | .burstResultFinal _ => true
  | .tokenArrival _ _ key _ => decide (key < 2 ^ 48)
  | .tokenOverflowDrain => true
  | .waitTimeoutExpiry _ => true
  | .admitPatienceExpiry => true
  | .affPatienceExpiry _ => true
  | .linkTimeoutExpiry _ => true
  | .linkMemberLost _ _ => true
  | .budgetRecompute => true
  | .c1Stall _ => true
  | .dpsStepAdmitted _ => true
  | .dpsSeedSweepEnd _ _ _ _ => true
  | .dpsRampEnd _ => true
  | .dpsSettled _ => true
  | .seqDelayExpiry _ => true
  | .seqTimeout _ => true
  | .dpsOffLevelReached _ => true
  | .dischSlow _ => true
  | .windowFault _ => true
  | .senseOpen _ => true
  | .dpsStageTrip _ _ => true
  | .laneOvercurrent _ => true
  | .laneOvervoltage _ => true
  | .laneSeedSweepEnd _ _ => true
  | .connChangeComplete _ => true
  | .pmuSettled _ => true
  | .xtrigEdge _ _ _ => true
  | .captureRingEnd _ => true
  | .streamProdUpdate _ => true
  | .streamConsRead _ cons => okWord cons
  | .epochDue => true
  | .streamError _ _ => true
  | .rawRecordClose _ => true
  | .stampEdge _ _ _ _ => true
  | .msTimeout _ => true
  | .freqGateClose _ _ _ => true
  | .oscTcompUpdate _ => true
  | .oscAgeingStep => true
  | .oscWarm => true
  | .oscFault => true
  | .regIntervalDue _ => true
  | .injConversionStart _ => true
  | .conversionEnd _ _ _ _ => true
  | .selfcalStart _ => true
  | .selfcalEnd _ _ _ => true
  | .padcPowerupWarm _ => true
  | .hkSlotEnd _ => true
  | .rseVblank _ => true
  | .rseFrameChecked _ crcs _ _ => crcs.all okWord
  | .rsePixelUnderrun _ _ _ => true
  | .latTolReport _ _ => true
  | .refreshDue _ => true
  | .stackTempRead _ _ => true
  | .retrainDue _ => true
  | .retrainDeferExpiry _ => true
  | .retrainDone _ _ => true
  | .parityAlert _ _ => true
  | .lpEntry _ _ => true
  | .lpExit _ => true
  | .memRequestServed _ _ _ _ _ _ => true
  | .tickSend => true
  | .tickReceive _ _ _ usLo _ _ => okWord usLo
  | .tickLoss _ => true
  | .timeLock => true
  | .domainRevert => true
  | .c0TriggerReceive _ _ _ tShort _ => okWord tShort
  | .ngulosTriggerAct _ => true
  | .c0StopReceive _ _ _ _ _ => true
  | .echoSend _ => true
  | .echoRequestReceive _ _ _ => true
  | .echoReplyReceive _ _ _ _ => true
  | .flowReceive _ _ _ _ _ => true
  | .c1ReplayTimeout _ => true
  | .tokenFrame _ _ _ _ key _ => decide (key < 2 ^ 48)
  | .linkReadyFrame _ _ _ _ => true
  | .linkResultFrame _ _ _ _ _ => true
  | .announce _ _ _ => true
  | .timeSet _ _ _ _ _ => true
  | .timeSetPeriodic => true
  | .timeLabel _ _ _ _ => true
  | .alarmFrame _ _ _ _ _ _ => true
  | .logFrame _ _ _ _ => true
  | .logDrop _ _ _ _ => true
  | .alarmSend _ => true
  | .chimeEdge _ => true
  | .trainBlockReceive _ _ _ _ _ _ _ => true
  | .trainingComplete _ _ => true
  | .trainTimeoutExpiry _ => true
  | .blockLockLoss _ => true
  | .elasticOverflow _ => true
  | .activityDetect _ => true
  | .fastExitFail _ => true
  | .standbyCheckDue _ _ => true
  | .standbyReturn => true
  | .retryIntervalExpiry _ => true
  | .laneScanDone _ counts _ => counts.all okWord
  | .hostLinkDown _ _ => true
  | .hostLinkUp _ rate width => decide (1 ≤ rate) && decide (1 ≤ width)
  | .functionLevelReset _ => true
  | .vinMate _ => true
  | .prechargeComplete => true
  | .resetRelease _ => true
  | .supplyReset _ => true
  | .vinWarn _ => true
  | .vinHigh => true
  | .vinOv _ => true
  | .ovRecovery => true
  | .inputLimit => true
  | .prsntNLoss => true
  | .prsntNAssert => true
  | .ejectNAssert => true
  | .ejectNRelease => true
  | .ejectGraceExpiry => true
  | .ejectSafe => true
  | .sensorRead _ _ _ => true
  | .sensorRestore _ => true
  | .throttleDwellComplete _ => true
  | .stopGraceExpiry => true
  | .thermalTrip _ => true
  | .inconvShutdown => true
  | .pIdleMeasure _ => true
  | .referenceCompUpdate => true
  | .pllLock _ => true
  | .pllUnlock _ => true
  | .pllRelock _ _ => true
  | .ebFault _ => true
  | .tsParity _ => true
  | .islandTempRead _ _ => true
  | .tcStep _ => true
  | .statDeskewStep _ _ => true
  | .consequenceWindowClose => true
  | .gongReadback => true
  | .fwWatchdog => true
  | .fabricParity => true
  | .sramUe => true
  | .sramCorr => true
  | .firmwareBoot _ _ _ => true
  | .bootTimeout => true
  | .serviceLockExpiry => true
  | .msixCoalTimeout _ _ => true
  | .cplDmaError _ _ => true
  | .evtDmaError _ _ => true
  | .cmdTail _ count _ => okWord count
  | .cmdTake _ => true
  | .cmdEnable _ _ => true
  | .ringStop _ => true
  | .ringResume _ => true
  | .cplCons _ count => okWord count
  | .evtCons _ count => okWord count
  | .ferrClear _ => true
  | .linkLostClear _ => true
  | .partReset _ _ => true
  | .modReset _ _ => true
  | .rlLowRead _ _ => true
  | .registerWrite _ offset _ => decide (offset < 0x2000)
  | .partResetAck _ => true
  | .partResetComplete _ => true
  | .resetAckTimeout _ => true
  | .sysNop _ tag => okTag tag
  | .sysParamGet _ tag ids _ _ => okTag tag && decide (ids ≠ []) && ids.all okWord
  | .sysParamSet _ tag pairs _ _ => okTag tag && decide (pairs ≠ []) && pairs.all (fun x => okWord x.1)
  | .paramListDone _ tag => okTag tag
  | .sysParamCommit _ tag => okTag tag
  | .sysParamDiscard _ tag => okTag tag
  | .sysResetPartition _ tag _ => okTag tag
  | .sysResetModule _ tag => okTag tag
  | .sysServiceUnlock _ tag seconds => okTag tag && okWord seconds
  | .veImageLoad _ tag _ => okTag tag
  | .imageLoadDone _ _ => true
  | .veImageUnload _ tag handle => okTag tag && okWord handle
  | .veImageInfo _ tag handle entry => okTag tag && okWord handle && okWord entry
  | .veUcodeLoad _ tag _ image => okTag tag && okWord image.version
  | .ucodeEngineLoad _ _ => true
  | .tmgSet _ tag recs _ => okTag tag && decide (recs ≠ [])
  | .tmgGet _ tag _ _ => okTag tag
  | .tmgCheck _ tag _ _ _ => okTag tag
  | .tmgRateSet _ tag _ _ => okTag tag
  | .tmgRemap _ tag _ _ => okTag tag
  | .tmgUnremap _ tag _ => okTag tag
  | .dpsSeqSet _ tag _ => okTag tag
  | .dpsPowerUp _ tag _ => okTag tag
  | .dpsPowerDown _ tag _ => okTag tag
  | .capLogRead _ tag _ first count => okTag tag && okWord first && okWord count
  | .capLogRelease _ tag _ => okTag tag
  | .capCaptureRead _ tag _ first count => okTag tag && okWord first && okWord count
  | .hostTransferDone _ tag _ => okTag tag
  | .capTrigger _ tag _ => okTag tag
  | .capStreamOpen _ tag _ => okTag tag
  | .capStreamClose _ tag _ => okTag tag
  | .tmuArm _ tag _ ref => okTag tag && decide (ref < 2 ^ 64)
  | .tmuDisarm _ tag _ => okTag tag
  | .tmuResult _ tag _ => okTag tag
  | .padcConvert _ tag _ => okTag tag
  | .padcSelfcal _ tag _ => okTag tag
  | .schSiteDefine _ tag _ => okTag tag
  | .schSubmit _ tag _ => okTag tag
  | .schAbort _ tag _ => okTag tag
  | .schToken _ tag _ _ _ => okTag tag
  | .schTokenClear _ tag _ _ => okTag tag
  | .schTaskInfo _ tag _ => okTag tag
  | .memWrite _ tag addr bytes => okTag tag && decide (addr < 2 ^ 64) && decide (bytes ≠ [])
  | .memRead _ tag addr len => okTag tag && decide (addr < 2 ^ 64) && decide (1 ≤ len)
  | .memFence _ tag _ => okTag tag
  | .memRemap _ tag _ => okTag tag
  | .memRepair _ tag _ => okTag tag
  | .nglConfig _ tag => okTag tag
  | .nglTrigger _ tag _ _ t => okTag tag && decide (t < 2 ^ 64)
  | .nglStop _ tag linkId _ result reason => okTag tag && okWord linkId && okWord result && okWord reason
  | .nglTimeLabel _ tag seconds => okTag tag && decide (seconds < 2 ^ 64)
  | .nglChime _ tag _ => okTag tag
  | .nglLaneScan _ tag _ => okTag tag
  | .nglPrbs _ tag lane pattern mode inject => okTag tag && okWord lane && okWord pattern && okWord mode && okWord inject
  | .nglLaneRetrain _ tag lane => okTag tag && okWord lane
  | .supPartSet _ tag _ => okTag tag
  | .supPartGet _ tag _ => okTag tag
  | .supFwLoad _ tag _ image minHandover =>
    okTag tag && okWord image.version && okWord minHandover && okWord image.ucode.version
  | .supFwHandover _ tag => okTag tag
  | .handoverDrainDone => true
  | .handoverDrainTimeout => true
  | .handoverResume _ => true
  | .handoverRevert => true
  | .hltForce _ tag source payload => okTag tag && okWord source && payload.all okWord
  | .hltAlarmAck _ tag => okTag tag
  | .hltFerrRead _ tag block => okTag tag && okWord block
  | .hltFerrClear _ tag block => okTag tag && okWord block
  | .hltUnfence _ tag _ => okTag tag
  | .unfenceSelftestDone _ _ => true
  | .hltFwSelect _ tag _ => okTag tag
  | .calRun _ tag groups dps => okTag tag && okWord groups && okWord dps
  | .calUnitStart => true
  | .calAttemptEnd _ _ => true
  | .calStore _ tag => okTag tag
  | .storeIntervalExpiry => true
  | .storeStepVerified _ => true
  | .calStatClear _ tag _ => okTag tag
  | .help => true
  | .peek id => okWord id
  | .poke id _ => okWord id
  | .faults => true
  | .temps => true
  | .time => true
  | .lanes => true
  | .fw => true
  | .fwSelect _ => true
  | .rudimentReset => true
  | .positionEmitted _ _ => true
  | .blockLockGain _ => true
  | .prbsCheckerLock _ _ => true
  | .blockSend _ => true
  | .winStateChange _ _ _ _ _ => true
  | .currentLimit _ _ => true
  | .vinHighClear => true
  | .cmpFault _ => true
  | .tmuFault _ _ => true
  | .padcFault _ => true
  | .rseFault _ => true
  | .msParity _ => true

end Sys2Proof
end

