-- ==== Sys2Proof/Decode.lean ====
section
/-!
DEFINITION. Decoding. The table gives its rows no bits, so no word spells a command (`decodeTableWord`). Pattern
instructions have an encoding of their own, which the image loader reads (02 R44 and the opcode table of 02):
`decodePat` and its inverse `encodePat`.
-/

namespace Sys2Proof

/-- The command that a word spells by the table's bits: the table gives none. -/
def decodeTableWord (_nbits _w : Nat) : Option Instr := none

/-- Field [hi:lo] of a 64-bit word. -/
def wordField (n hi lo : Nat) : Nat := n / 2 ^ lo % 2 ^ (hi + 1 - lo)

/-- OPCODE, MOD and OPERAND in their places (02 R44). -/
def patWord (opcode mod operand : Nat) : IWord := BitVec.ofNat 64 (opcode * 2 ^ 58 + mod * 2 ^ 48 + operand)

/-- Word of a pattern instruction (02, opcode table); none for any other command. -/
def encodePat : Instr → Option IWord
  | .vec _ n => some (patWord 0x01 0 n)
  | .rpt _ n => some (patWord 0x02 0 n)
  | .loop _ n => some (patWord 0x03 0 n)
  | .endl _ => some (patWord 0x04 0 0)
  | .call _ seg => some (patWord 0x05 0 seg)
  | .ret _ => some (patWord 0x06 0 0)
  | .jmp _ seg lpop => some (patWord 0x07 lpop seg)
  | .jf _ seg lpop clr => some (patWord 0x08 (lpop + 16 * clr.toNat) seg)
  | .jnf _ seg lpop clr => some (patWord 0x09 (lpop + 16 * clr.toNat) seg)
  | .matchLoop _ seg maxIter sense toFail =>
    some (patWord 0x0A (sense.toNat + 2 * toFail.toNat) (seg + maxIter * 2 ^ 24))
  | .wait _ ns n => some (patWord 0x0B ns.toNat n)
  | .wtrg _ trig timeout latch toFail =>
    some (patWord 0x0C (latch.toNat + 2 * toFail.toNat) (trig + timeout * 2 ^ 16))
  | .mark _ out act => some (patWord 0x0D act.val out.val)
  | .signal _ tok => some (patWord 0x0E 0 tok)
  | .tset _ ts groups off => some (patWord 0x0F off.toNat (ts.val + groups.toNat * 2 ^ 32))
  | .stream _ v k act => some (patWord 0x10 act.val (v + k * 2 ^ 32))
  | .capon _ cfg => some (patWord 0x11 0 cfg)
  | .capoff _ cfg => some (patWord 0x12 0 cfg)
  | .stamp _ m disarm => some (patWord 0x13 disarm.toNat m)
  | .inj _ g conv => some (patWord 0x14 0 (g.val + conv * 2 ^ 8))
  | .failstop _ en => some (patWord 0x15 en.toNat 0)
  | .halt _ => some (patWord 0x16 0 0)
  | _ => none

/-- A number of a fixed family. -/
def toFin (k n : Nat) (h : 0 < k) : Fin k := ⟨n % k, Nat.mod_lt n h⟩

/-- The instruction that a word holds for engine `e`; none where the opcode, a bit or a field value is reserved
(02 R46). A count of 0 and an LPOP above 8 are decoded: the loader refuses them with statuses of their own. -/
def decodePat (e : Eng) (w : IWord) : Option Instr :=
  let n := w.toNat
  let m := wordField n 57 48
  let o := wordField n 47 0
  match wordField n 63 58 with
  | 0x01 => if m = 0 ∧ o < 2 ^ 32 then some (.vec e o) else none
  | 0x02 => if m = 0 ∧ o < 2 ^ 32 then some (.rpt e o) else none
  | 0x03 => if m = 0 ∧ o < 2 ^ 32 then some (.loop e o) else none
  | 0x04 => if m = 0 ∧ o = 0 then some (.endl e) else none
  | 0x05 => if m = 0 ∧ o < 2 ^ 24 then some (.call e o) else none
  | 0x06 => if m = 0 ∧ o = 0 then some (.ret e) else none
  | 0x07 => if m < 16 ∧ o < 2 ^ 24 then some (.jmp e o m) else none
  | 0x08 => if m < 32 ∧ o < 2 ^ 24 then some (.jf e o (m % 16) (m / 16 == 1)) else none
  | 0x09 => if m < 32 ∧ o < 2 ^ 24 then some (.jnf e o (m % 16) (m / 16 == 1)) else none
  | 0x0A => if m < 4 then some (.matchLoop e (o % 2 ^ 24) (o / 2 ^ 24) (m % 2 == 1) (m / 2 == 1)) else none
  | 0x0B => if m < 2 then some (.wait e (m == 1) o) else none
  | 0x0C =>
    if m < 4 ∧ wordField o 15 12 = 0 ∧ okSelector (o % 2 ^ 12) then
      some (.wtrg e (o % 2 ^ 12) (o / 2 ^ 16) (m % 2 == 1) (m / 2 == 1))
    else none
  | 0x0D => if m < 4 ∧ o < 8 then some (.mark e (toFin 8 o (by decide)) (toFin 4 m (by decide))) else none
  | 0x0E => if m = 0 then some (.signal e o) else none
  | 0x0F =>
    if m < 2 ∧ wordField o 31 6 = 0 then
      some (.tset e (toFin 64 o (by decide)) (BitVec.ofNat 16 (o / 2 ^ 32)) (m == 1))
    else none
  | 0x10 => if m < 3 ∧ o < 2 ^ 40 then some (.stream e (o % 2 ^ 32) (o / 2 ^ 32) (toFin 3 m (by decide))) else none
  | 0x11 => if m = 0 ∧ o < 256 then some (.capon e o) else none
  | 0x12 => if m = 0 ∧ o < 256 then some (.capoff e o) else none
  | 0x13 => if m < 2 ∧ o < 4096 then some (.stamp e o (m == 1)) else none
  | 0x14 =>
    if m = 0 ∧ wordField o 7 4 = 0 ∧ o < 2 ^ 16 then some (.inj e (toFin 16 o (by decide)) (o / 2 ^ 8)) else none
  | 0x15 => if m < 2 ∧ o = 0 then some (.failstop e (m == 1)) else none
  | 0x16 => if m = 0 ∧ o = 0 then some (.halt e) else none
  | _ => none

end Sys2Proof
end

