-- ==== Sys2Proof/Config.lean ====
section
/-!
DEFINITION. What one module fixes and what the spec leaves open. Every constant without a body is a value the
spec does not give: no statement can learn it, so a statement holds for every choice.
-/

namespace Sys2Proof.Config

/-- A value the spec calls undefined, drawn anew each time (notes/assumptions/1.md). -/
opaque freeNat : Nat → Nat

/-- MARK_DELAY of an output in ps: fixed per output, not stated (02 R62, R85). -/
opaque markDelay : Nat → Nat

/-- CHIME_DELAY of an output in ps: not stated (12 R356). -/
opaque chimeDelay : Nat → Nat

/-- Activity profile of a segment of an image at the parameters and timing sets given, in units of 0.01 W: the spec
names it and gives no formula (03 R95, 10 R289). -/
opaque activity : Image → Nat → List (Nat × Int) → List TsRec → Nat

/-- Estimate E of a raster burst for an engine, in units of 0.01 W: no formula given (10, The governor). -/
opaque rasterActivity : Nat → List (Nat × Int) → Nat

/-- HBM address of a granule of an image in units of 256 bytes, by the image's partition and handle: the spec does not
say where in a partition's space an image lies (03 R116). -/
opaque granuleAddr (key granule : Nat) : Nat

/-- Bank and row of an address of a pseudo-channel: the spec gives no address mapping (11 R312, R318). -/
opaque rowOf (x addr : Nat) : Nat × Nat

/-- Spare rows of a bank of a pseudo-channel when none is used, as the stack reports (11 R318, R322). -/
opaque spareRows (x bank : Nat) : Nat

/-- Pages of the module, as partition 0 holds them at reset, that lie on a row (11 R306, R318). -/
opaque rowPages (x bank row : Nat) : List Nat

/-- In a ring, the clockwise direction from one node to another has no more hops than the other (12 R325). -/
opaque ringClockwise (own node : Nat) : Bool

/-- TC_COEF of a module lane, in units of 0.001 ps/°C: from the calibration store (04 R138, R147). -/
opaque tcCoef : Nat → Int

/-- OSC_TCOMP at an oven temperature beyond the ends of its table: 07 R235 states no value there. -/
opaque oscTcomp : Int → Int

/-- Points of the OSC_TCOMP table of the calibration store, 0–15: oven temperature in 0.01 °C, correction (07 R235,
17 R458). -/
opaque oscPoint : Nat → Int × Int

/-- Module serial number, 64 bits (14 R379). -/
opaque serial : Nat

/-- Hardware revision, one byte (18 R482). -/
opaque hwRev : Nat

/-- Correction in LSB that the coefficients of the calibration store give a voltage reference at a temperature (15
R428; notes/assumptions/104.md). -/
opaque refTarget (unit : Nat) (temp : Int) : Int

/-- Factory internal-reference value of a converter in µV (08 R251, 17 R458). -/
opaque padcRef (c : Nat) : Int

/-- GiB per HBM stack: SD512-A48 (11 R305, 18 R490; notes/assumptions/3.md). -/
def gibPerStack : Nat := 24

end Sys2Proof.Config
end

