-- ==== Sys2Proof/Machine/State.lean ====
section
/-!
DEFINITION. The state of the SD512: every register, FIFO, counter, mode, queue and pin that spec/ gives the
module (INVENTORY.md, State), as plain data. A family of like elements is a sparse table: a list of
(element, value) in rising element order, where an element that is not listed holds its reset value.
The default of every field is its reset value; where the spec states none, notes/assumptions/2.md names it.
-/

namespace Sys2Proof.Machine

/-- A sparse table keyed by element number. -/
abbrev Tbl (α : Type) := List (Nat × α)

/-- Status codes of a completion (14 R384). -/
inductive Status where
  | ok | accepted | busy | noCredit | badOpcode | badParam | outOfRange
  | deniedWorld | deniedPartition | conflict | fenced | timeout | internal
  deriving DecidableEq, Repr

/-- Site results (01 R34, R35). -/
inductive Res where
  | pass | fail | invalid | aborted | skipped
  deriving DecidableEq, Repr

/-- A site result: RESULT, REASON and STRETCHED of R34. -/
structure SiteResult where
  res       : Res := .pass
  reason    : Nat := 0
  stretched : Bool := false
  deriving DecidableEq, Repr

/-- Reaction classes (16 R432), by their codes 1–5. -/
inductive React where
  | note | alarm | fence | siteInvalid | fatal
  deriving DecidableEq, Repr

/-- ENG_STATE (02 R85). -/
inductive EngMode where
  | idle | prefill | running | draining | loading | fenced
  deriving DecidableEq, Repr

/-- Driver of a lane: off, or the level it drives (04 R130, 05 R152). -/
inductive Drv where
  | off | low | high | vtt
  deriving DecidableEq, Repr

/-- An edge on a pin (04 R120): its time in units of 0.25 ps, the driver and the active load from then on. -/
structure PinEdge where
  t     : Nat
  drive : Drv
  load  : Bool
  deriving DecidableEq, Repr

/-- LANE_STATUS [2:0] (05 R183): the state of R155, OPEN, PMU, or in a burst. -/
inductive LaneMode where
  | hiz | hold | driveLow | driveHigh | vtt | opened | pmu | burst
  deriving DecidableEq, Repr

/-- DPS_STATE (05 R184). -/
inductive DpsMode where
  | off | sweep | ramping | settling | on | limited | discharging | fenced
  deriving DecidableEq, Repr

/-- PORT_STATE (12 R326, R356). -/
inductive PortMode where
  | off | training | active | standby | down
  deriving DecidableEq, Repr

/-- Why a burst ends early (02 R67, 16 R432). -/
inductive EndWay where
  /-- Lanes to stop state at the act cycle. -/
  | stop
  /-- Lanes to safe state and DPS discharge (machine check). -/
  | safe
  /-- Underrun hold (03 R110). -/
  | hold
  /-- C0 stop: not cycle aligned (02 R66). -/
  | c0
  /-- Lanes stay as they are, in the end state of R64 (05 R172 REPORT with a REACT of 4 or above). -/
  | keep
  /-- The burst runs to its end and only its result is decided (04 R141, 05 R172 REPORT). -/
  | atEnd
  deriving DecidableEq, Repr

/-- One terminating condition of a burst: module time at which it takes effect, first cycle changed by it, how the
pins end, and the result it gives (01 R37). -/
structure Term where
  /-- Event source of the condition, 0x7FF for none. -/
  src    : Nat := 0x7FF
  time   : Nat
  act    : Nat
  way    : EndWay
  result : SiteResult
  deriving DecidableEq, Repr

/-- Entry of the loop stack (02 R49). -/
structure LoopEnt where
  count : Nat
  ip    : Nat
  vp    : Nat
  deriving DecidableEq, Repr

/-- Entry of the return stack (02 R50). -/
structure RetEnt where
  ip : Nat
  vp : Nat
  deriving DecidableEq, Repr

/-- What a committed run descriptor issues (02 R47, R48, R73 POSTV). -/
inductive RunKind where
  | seq | repeated | hold
  deriving DecidableEq, Repr

/-- A committed run descriptor: positions `first` to `first + n − 1`, of which the pump has written `done` to the
islands, issued by the instruction at `ip`. A MATCH body repeats `wrap` vectors from `vp`. -/
structure RunDesc where
  kind  : RunKind
  first : Nat
  n     : Nat
  done  : Nat := 0
  vp    : Nat
  wrap  : Nat := 0
  ip    : Nat
  inMatch : Bool := false
  /-- Loop depth and count of the top loop entry at the issue (03 R116). -/
  ldep  : Nat := 0
  left  : Nat := 0
  /-- A run of a streamed segment: bits per vector (0 for any other run), bit offset of its first vector within its
  first granule, number of that granule in the burst's stream (03 R103, R107). -/
  bits  : Nat := 0
  ofs   : Nat := 0
  sq    : Nat := 0
  deriving DecidableEq, Repr

/-- A position that the pump has written to the islands and that is not emitted yet (02 R42): its vector, none for a
hold position. -/
structure Column where
  vec   : Option Nat
  ip    : Nat
  inMatch : Bool := false
  ldep  : Nat := 0
  left  : Nat := 0
  deriving DecidableEq, Repr

/-- Buffer of a site in an island: its write and read pointers, counted in positions, and the lowest fill seen
(02 R40; 04 R123, R124). The islands of a burst are written together (03 R108), so the columns stand once, in the
burst. -/
structure IslBuf where
  grp  : Nat
  site : Nat
  wr   : Nat := 0
  rd   : Nat := 0
  low  : Nat := 256
  deriving DecidableEq, Repr

/-- A granule requested for a place of the stream, not delivered yet: the place, the granule of the image. -/
structure GranReq where
  sq   : Nat
  gran : Nat
  deriving DecidableEq, Repr

/-- A granule prefetched for the head of a target of the transfer at `ip` (02 R55, 03 R103). -/
structure HeadReq where
  ip   : Nat
  gran : Nat
  here : Bool := false
  deriving DecidableEq, Repr

/-- Stream buffer of a burst (03 R103, R107): 2,048 granules, requested in the order in which the committed path needs
them and freed once the pump has read them. Places of the stream are numbered from 0; a granule that is needed again
takes a new place. -/
structure Strm where
  /-- Runs of granules that the path needs and that are not requested yet: first granule, number. -/
  todo  : List (Nat × Nat) := []
  /-- Places that the committed path has taken, requested, freed. -/
  need  : Nat := 0
  asked : Nat := 0
  freed : Nat := 0
  out   : List GranReq := []
  heads : List HeadReq := []
  deriving DecidableEq, Repr

/-- Where a position was emitted: for STOP_POS, STOP_IP and the records that mark it (02 R58, R61, R67). Times in units
of 0.25 ps. -/
structure PosAt where
  pos   : Nat
  cycle : Nat
  start : Nat
  seg   : Nat
  vec   : Nat
  ip    : Nat
  /-- Start of the next cycle. -/
  next  : Nat := 0
  deriving DecidableEq, Repr

/-- A record of a time-out with TOFAIL that waits until its position is final (06 R190). -/
structure Owed where
  kind  : Nat
  pos   : Nat
  place : Option PosAt
  deriving DecidableEq, Repr

/-- A pause: its cause, the granule awaited by its number in the image, the memory channel of that granule, and the
payload of its first hold cycle (03 R109, R111, R116). -/
structure Pause where
  cause : Short
  gran  : Option Nat := none
  mc    : Option Nat := none
  words : List Nat := []
  deriving DecidableEq, Repr

/-- Instructions aligned to the next position (02 R62). -/
inductive Ctl where
  | mark (output : MarkOut) (act : Fin 4)
  | signal (token : Nat)
  | tset (ts : Fin 64) (groups : BitVec 16) (off : Bool)
  | stream (value stream : Nat) (act : Fin 3)
  | capon (config : Nat)
  | capoff (config : Nat)
  | stamp (mset : Nat) (disarm : Bool)
  | inj (group : Grp) (conv : Nat)
  | failstop (en : Bool)
  deriving DecidableEq, Repr

/-- A committed control descriptor and the position in whose cycle it acts. -/
structure CtlDesc where
  pos : Nat
  ctl : Ctl
  deriving DecidableEq, Repr

/-- The match unit (02 R56–R58): body, limits, position of the first iteration, failing iterations seen. -/
structure MatchSt where
  body    : Nat
  /-- Positions of the body. -/
  len     : Nat
  maxIter : Nat
  sense   : Bool
  toFail  : Bool
  first   : Nat
  /-- Iterations whose result is still undecided start at this number (from 1). -/
  decided : Nat
  /-- Iterations in which a strobe in JF_SCOPE failed. -/
  failing : List Nat
  /-- Armed by MTCH of a routine, which marks the iteration ends itself (R73). -/
  micro   : Bool := false
  ends    : List Nat := []
  deriving DecidableEq, Repr

/-- An armed trigger wait (02 R59–R61) and the position that waits for its trigger. -/
structure WtrgSt where
  selector : Nat
  pos      : Nat
  timeout  : Nat
  toFail   : Bool
  latch    : Bool
  deriving DecidableEq, Repr

/-- A field of an emitted vector: channel, channel code (R86), field, CMP_MODE of the timing set in force (04 R131). -/
structure FieldAt where
  chan  : Chan
  code  : BitVec 4
  field : BitVec 5
  cmp   : Nat
  /-- Programmed times of its data bits' drive edges, and of its strobes, in module time (04 R130–R132, R135); units of
  0.25 ps. -/
  edges   : List Nat := []
  strobes : List Nat := []
  /-- Total deskew of the compare path and CH_CMP_OFS (04 R137). -/
  shift : Int := 0
  deriving DecidableEq, Repr

/-- An emitted position whose compare result is not yet final (02 R43, 06 R187). -/
structure Flight where
  pos     : Nat
  cycle   : Nat
  seg     : Nat
  vec     : Nat
  /-- Module time of its cycle start in units of 0.25 ps. -/
  start   : Nat
  /-- Length of its cycle in units of 0.25 ps. -/
  period  : Nat := 0
  inMatch : Bool
  /-- Groups whose control byte has MASK set: no strobe is raised. -/
  masked  : List Grp
  /-- Groups whose control byte has VFLAG set (03 R89). -/
  vflags  : List Grp
  /-- A hold position: no strobe is raised. -/
  hold    : Bool
  /-- Capture units that record the position (06 R197). -/
  caps    : List Nat
  fields  : List FieldAt
  failstop : Bool
  deriving DecidableEq, Repr

/-- Where a burst stands (02, 03 R99, 04 R121). -/
inductive BPhase where
  | filling | prefill | waitTrig | started | running | draining
  deriving DecidableEq, Repr

/-- A burst on its runner: what was dispatched, the architectural state of the sequencer (02 R41, R72), the
elastic-buffer side, and the results so far (02 R67, 14 R399). -/
structure Burst where
  task     : Nat
  part     : Part
  tag      : Nat
  /-- Queue of its task. -/
  queue    : Nat := 0
  sites    : List Site
  home     : Site
  handle   : Nat
  entry    : Nat
  raster   : Bool := false
  pausable : Bool := false
  linked   : Bool := false
  linkTrig : Nat := 0
  runLimit : Nat := 0
  issueDone : Bool := false
  outKey   : Nat := 0
  groups   : List Grp := []
  demand   : Nat := 0
  charge   : Nat := 0
  phase    : BPhase := .prefill
  filled   : List Grp := []
  startTick : Option Nat := none
  /-- When the last island of the burst had sent FILLED (04 R122, 10 R295). -/
  filledAt : Nat := 0
  /-- Act time of the start trigger of a linked burst that came before (04 R122). -/
  linkT    : Option Nat := none
  /-- Bank of each group's timing sets the burst is bound to (04 R128). -/
  banks    : List (Grp × Bool) := []
  ip       : Nat := 0
  vp       : Nat := 0
  vix      : Nat := 0
  loops    : List LoopEnt := []
  rets     : List RetEnt := []
  tso      : List (Grp × Nat) := []
  fsEn     : Bool := false
  matchTo  : Bool := false
  trigTo   : Bool := false
  /-- Triggers of the burst's selectors sampled and not yet consumed: selector, cycle (02 R59). -/
  latched  : List (Nat × Nat) := []
  jf       : List Nat := []
  unit     : Option MatchSt := none
  matchIter : Nat := 0
  /-- The run queue (02 R42), and what the pump has written ahead. -/
  runs     : List RunDesc := []
  cols     : List Column := []
  bufs     : List IslBuf := []
  strm     : Strm := {}
  ctls     : List CtlDesc := []
  halted   : Bool := false
  emitted  : Nat := 0
  cycle    : Nat := 0
  /-- Time from the start of cycle 0 to the start of the next cycle, in units of 0.25 ps (04 R120). -/
  elapsed  : Nat := 0
  flight   : List Flight := []
  paused   : Option Pause := none
  /-- Period of the cycle in progress, in units of 0.25 ps. -/
  period   : Nat := 0
  /-- Vector last issued, and vector last emitted, as numbers within the image. -/
  lastIssued : Option Nat := none
  lastEmit : Option Nat := none
  holds    : Nat := 0
  stretched : Bool := false
  waits    : List WtrgSt := []
  failFlag : Bool := false
  /-- Sites whose fail flag is set (06 R186). -/
  failSites : List Site := []
  /-- The last position emitted, and the one before it. -/
  lastAt   : Option PosAt := none
  prevAt   : Option PosAt := none
  owed     : List Owed := []
  fsHit    : Bool := false
  terms    : List Term := []
  /-- Ended early: the last position emitted as programmed (02 R67). -/
  stopped  : Bool := false
  stopAt   : Option PosAt := none
  /-- Time of a stop inside a cycle: strobes from then on are masked (02 R66); units of 0.25 ps. -/
  maskFrom : Option Nat := none
  injDropped : Bool := false
  frames   : Nat := 0
  /-- Measurement sets and converters that the program names (07 R239, 08 R255). -/
  sets     : List Nat := []
  convs    : List Nat := []
  deriving DecidableEq, Repr

/-- A resident set in a loop store (03 R99, R100), most recently used first. -/
structure LsSet where
  part   : Nat
  handle : Nat
  bytes  : Nat
  deriving DecidableEq, Repr

/-- Micro-sequencer state that is not architectural, and what an interrupt reports (02 R72, R74, R76, R77). -/
structure Micro where
  temps : List (Nat × BitVec 48) := []
  z : Bool := false
  n : Bool := false
  c : Bool := false
  res : Bool := false
  ulink : Nat := 0
  /-- Microwords since the last commit point (R76). -/
  gap   : Nat := 0
  /-- Address of the instruction that executes, and where its routine goes on after a COMMIT inside it. -/
  ir    : Nat := 0
  pc    : Option Nat := none
  /-- IP has been written since the dispatch of that instruction. -/
  moved : Bool := false
  /-- LAST_IP (R77). -/
  lastIp : Nat := 0
  deriving DecidableEq, Repr

structure EngSt where
  mode   : EngMode := .idle
  mchk   : Nat := 0
  lsCorr : Nat := 0
  /-- Control store (R75, R80). -/
  ucode  : UImage := { version := 0x00010000 }
  retried : Bool := false
  ls     : List LsSet := []
  micro  : Micro := {}
  fences : Nat := 0
  /-- Fenced by a broken sensor of its quarter and by nothing else (15 R420). -/
  sensorFence : Bool := false
  deriving DecidableEq, Repr

/-- Image states (03 R96). -/
inductive ImgMode where
  | loading | ready | damaged
  deriving DecidableEq, Repr

structure ImgSt where
  mode  : ImgMode
  img   : Image
  tag   : Nat
  /-- Resident segments and their size (03 R97, R98). -/
  resident : List Nat := []
  size  : Nat := 0
  /-- Memory channels that hold its granules (03 R102). -/
  mcs   : List Nat := []
  deriving DecidableEq, Repr

/-- A fail-log record (06 R191): KIND, GROUP, STROBES, FAIL_MASK, position, cycle, segment, vector. -/
structure FailRec where
  kind    : Nat
  group   : Nat
  strobes : Nat
  mask    : Nat
  pos     : Nat
  cycle   : Nat
  seg     : Nat
  vec     : Nat
  deriving DecidableEq, Repr

/-- The fail log of a site (06 R189–R194); its records stand in the partition's HBM space. -/
structure LogSt where
  /-- Records that reached the log writer since the start tick. -/
  total    : Nat := 0
  lostRate : Nat := 0
  /-- LOST_FULL. -/
  lostFull : Nat := 0
  held     : Bool := false
  deriving DecidableEq, Repr

/-- Phases of a power sequence (05 R174, R175). -/
inductive SeqPhase where
  | waitAdmit | sweep | ramp | settle | delay
  deriving DecidableEq, Repr

structure SeqRun where
  up    : Bool
  step  : Nat
  phase : SeqPhase
  part  : Part
  tag   : Nat
  /-- Module time of the phase's end or limit. -/
  due   : Nat
  deriving DecidableEq, Repr

structure SiteSt where
  /-- The definition in force (10 R274). -/
  defn     : Option SiteRec := none
  engine   : Nat := 0xFF
  seq      : Option SeqRec := none
  seqRun   : Option SeqRun := none
  failCount : Nat := 0
  firstFail : Option Nat := none
  underrun : Nat := 0
  stretch  : Nat := 0
  ebMin    : Nat := 0
  shed     : Bool := false
  /-- Lanes held in SAFE_MODE until the next dps.power_up completes OK (05 R172, 15 R412). -/
  safe     : Bool := false
  log      : LogSt := {}
  started  : BitVec 8 := 0xFF
  deriving DecidableEq, Repr

/-- Running sums of statistical calibration: count, and sum in units of 1/64 ps (17 R460, R461). -/
structure Sums where
  count : Nat := 0
  sum   : Int := 0
  deriving DecidableEq, Repr

structure LaneSt where
  mode   : LaneMode := .opened
  limit  : Bool := false
  sweep  : Bool := false
  fenced : Bool := false
  /-- In the idle state: CONN = 1 and no burst of its site since (05 R156). -/
  idle   : Bool := false
  /-- Vacated by a remap that stands: fenced while it does (04 R143). -/
  vacated : Bool := false
  drive  : Drv := .off
  load   : Bool := false
  /-- Edges of the cycles in flight, which lead to `drive` and `load`, and the driver before the first (04 R120, R123). -/
  edges  : List PinEdge := []
  base   : Drv := .off
  /-- Module time from which a connection change is complete (05 R160). -/
  changing : Bool := false
  tc     : Int := 0
  /-- A step of the correction waits for the next cycle start of the lane's site (04 R138). -/
  tcPend : Bool := false
  tcTarget : Int := 0
  tcAt   : Nat := 0
  refD   : Int := 0
  refC   : Int := 0
  /-- Offset in µV and gain less 1 in 10⁻⁶ of VIH, VIL, VTT, VCH, VCL, VCOM, ILOAD_SRC, ILOAD_SNK; empty: the factory
  values (17 R458). -/
  levels : List Int := []
  statD  : Int := 0
  statC  : Int := 0
  targetD : Int := 0
  targetC : Int := 0
  statAt : Nat := 0
  burstD : Sums := {}
  burstC : Sums := {}
  runD   : Sums := {}
  runC   : Sums := {}
  /-- CAL_STALE of the group was set during the burst: its sums are discarded (17 R460). -/
  burstDrop : Bool := false
  /-- The target of the path is clamped at its limit until a reference calibration is accepted (17 R462). -/
  clampD : Bool := false
  clampC : Bool := false
  lastStamp : Option Nat := none
  tmuFenced : Bool := false
  fences : Nat := 0
  deriving DecidableEq, Repr

/-- PLL_STATE (04 R147). -/
inductive Pll where
  | off | locking | locked | fenced
  deriving DecidableEq, Repr

structure GrpSt where
  pll      : Pll := .locking
  relockFails : Nat := 0
  /-- Fenced until module reset (EB_FAULT, TS_PARITY, three failed relocks). -/
  dead     : Bool := false
  /-- Fenced by a broken island sensor (15 R420). -/
  sensorFence : Bool := false
  /-- Fenced by an attempt of reference calibration (17 R465). -/
  calFence : Bool := false
  tIsl     : Int := 0
  calTemp  : Int := 0
  calStale : Bool := true
  tcClamp  : Bool := false
  bank     : Bool := false
  bank0    : Tbl TsRec := []
  bank1    : Tbl TsRec := []
  rate     : Option RateRec := none
  /-- Partition that owns the rate table, or the raster engine that wrote it (04 R134, 09 R262). -/
  rateOwner : Option (Nat ⊕ Nat) := none
  pmuConn  : Option Nat := none
  pmuClamp : Bool := false
  pmuSettled : Bool := false
  pmuAt    : Nat := 0
  l32      : Option Nat := none
  cmpFenced : Bool := false
  /-- Records waiting in the compare slice's FIFO (06 R193). -/
  fifo     : Nat := 0
  refState : Nat := 0
  refAttempts : Nat := 0
  refCount : Nat := 0
  refReject : Nat := 0
  refLast  : Nat := 0
  refTai   : Nat := 0
  statCount : Nat := 0
  statLast : Nat := 0
  statClear : Bool := false
  fences   : Nat := 0
  deriving DecidableEq, Repr

structure DpsSt where
  mode    : DpsMode := .off
  /-- Filtered comparators: above VWIN_HI, below VWIN_LO, above IWIN_HI (05 R170). -/
  hi      : Bool := false
  lo      : Bool := false
  cur     : Bool := false
  known   : Bool := false
  blanked : Bool := true
  settled : Bool := false
  outSince : Option Nat := none
  inSince  : Option Nat := none
  /-- Present setpoint as a voltage code. -/
  vout    : Nat := 0
  demand  : Nat := 0
  due     : Nat := 0
  dischAt : Option Nat := none
  slow    : Bool := false
  limited : Bool := false
  localSense : Bool := false
  /-- Fenced: TRIP lifts per 15 R427, LOOP and a sensor fence do not. -/
  tripped : Bool := false
  loopFault : Bool := false
  sensorFence : Bool := false
  refState : Nat := 0
  refAttempts : Nat := 0
  refCount : Nat := 0
  refReject : Nat := 0
  refLast  : Nat := 0
  refTai   : Nat := 0
  calTemp  : Int := 0
  /-- Voltage, current and window-threshold corrections; empty: the factory values (17 R458). -/
  corr     : List Int := []
  hkV      : Int := 0
  hkI      : Int := 0
  hkVAt    : Nat := 0
  hkIAt    : Nat := 0
  deriving DecidableEq, Repr

/-- A capture unit (06 R195–R199). A sample of a STREAM unit is its position and its word; one of a RING unit is its
position and its number, by which it lies in the buffer. -/
structure CuSt where
  mode    : Nat := 0
  samples : List (Nat × Nat) := []
  /-- First recorded position a, and the position of the CAPOFF. -/
  first   : Nat := 0
  upto    : Option Nat := none
  /-- Samples recorded so far, kept or not. -/
  taken   : Nat := 0
  /-- Buffer of a RING capture, as it stood at its CAPON: address, samples (06 R197, R199). -/
  base    : Nat := 0
  size    : Nat := 0
  /-- Positions of CAPOFFs that have not closed their DATA record yet (06 R197). -/
  cuts    : List Nat := []
  trig    : Option Nat := none
  trigTime : Nat := 0
  /-- Samples recorded at or after the trigger position. -/
  post    : Nat := 0
  extra   : Nat := 0
  ignored : Nat := 0
  startTime : Nat := 0
  flags   : BitVec 8 := 0
  site    : Nat := 0
  deriving DecidableEq, Repr

/-- A CAP trigger (06 R201–R204). -/
structure TrgSt where
  fires   : Nat := 0
  ignored : Nat := 0
  refused : Nat := 0
  /-- Cycle start (0.25 ps) of the last fire's trigger position. -/
  lastFire : Option Nat := none
  holdLeft : Nat := 0
  lastPos : Option Nat := none
  deriving DecidableEq, Repr

/-- Records of a host stream (06 R207, R208): TYPE, SOURCE, RFLAGS, full time, words from 2 on. -/
structure StrmRec where
  type   : Nat
  source : Nat
  rflags : Nat
  time   : Nat
  len    : Nat
  words  : List Nat
  deriving DecidableEq, Repr

/-- HS_STATE (06 R217). -/
inductive HsMode where
  | closed | open_ | losing | error
  deriving DecidableEq, Repr

structure HsSt where
  mode    : HsMode := .closed
  desc    : Option StreamDesc := none
  prod    : Nat := 0
  /-- Producer count last written to PROD_ADDR. -/
  prodOut : Nat := 0
  cons    : Nat := 0
  recs    : List StrmRec := []
  /-- Records that CAP holds to merge its sources in module time; a GAP among them ends a loss (06 R209). -/
  wait    : List StrmRec := []
  /-- Bytes in the staging buffer that the port has not taken (06 R212). -/
  staged  : Nat := 0
  lost    : Nat := 0
  gapRecs : Nat := 0
  gapSamples : Nat := 0
  firstLoss : Nat := 0
  lastLoss : Nat := 0
  deriving DecidableEq, Repr

/-- A measurement set (07 R221–R233). Stamps in units of 2^-9 ns, REF and the end of the burst in units of 1/64 ps. -/
structure MsSt where
  armed   : Bool := false
  published : Bool := false
  fenced  : Bool := false
  ref     : Nat := 0
  lateArm : Bool := false
  starts  : List Nat := []
  stops   : List Nat := []
  count   : Nat := 0
  min     : Int := 0
  max     : Int := 0
  sum     : Int := 0
  sumSq   : Int := 0
  subLsb  : Bool := false
  overR   : Bool := false
  warm    : Bool := false
  stale   : Bool := false
  missed  : Nat := 0
  ignored : Nat := 0
  rawLost : Nat := 0
  afterMiss : Bool := false
  lastVal : Nat := 0
  /-- FREQUENCY: the last E0, START edges since, time of the last one; closed gates whose value is not formed yet, as
  count, length, stamp of E1 (07 R226). -/
  e0      : Option Nat := none
  edges   : Nat := 0
  lastEdge : Nat := 0
  gates   : List (Nat × Nat × Nat) := []
  seq     : Nat := 0
  /-- Words 2–15 of the latest result (R230), and when it was published. -/
  result  : List Nat := []
  pubAt   : Nat := 0
  /-- SOURCE of that record: the site, 0xFF for none. -/
  src     : Nat := 0xFF
  raw     : List Nat := []
  rawAt   : Nat := 0
  fifo    : Nat := 0
  rawLossTold : Bool := false
  /-- Time of the last 0x561, for a host-armed set (07 R232). -/
  rawToldAt : Nat := 0
  /-- Stamps from this time on are not taken: the end of the burst (07 R224). -/
  upto    : Option Nat := none
  deriving DecidableEq, Repr

/-- A running conversion (08 R246–R249). -/
structure ConvRun where
  injected : Bool
  setting  : Nat
  pos      : Nat
  start    : Nat
  settled  : Bool
  /-- The clamp of the PMU has been active during the conversion. -/
  clamped  : Bool
  deriving DecidableEq, Repr

/-- A converter (08 R246–R253). -/
structure PadcSt where
  warmed  : Bool := false
  ofs     : Int := 0
  gain    : Int := 4194304
  accepted : Bool := false
  /-- Internal-reference value in µV of the last accepted reference calibration; none: the factory value (17 R458). -/
  ref     : Option Int := none
  calTemp : Int := 0
  calCount : Nat := 0
  /-- Running conversion: injected, setting, position of the INJ, start time, PMU_SETTLED at the start. -/
  running : Option ConvRun := none
  /-- Pending injected request: setting, position, time from which it may start. -/
  pending : Option (Nat × Nat × Nat) := none
  /-- Partition and tag of the burst whose request is pending, and whether that burst has raised INJ_DROP. -/
  pendBy  : Part × Nat := (0, 0)
  pendTold : Bool := false
  singles : Nat := 0
  calWait : Bool := false
  /-- PADC_AUTOCAL asked for it. -/
  calAuto : Bool := false
  calRun  : Bool := false
  /-- Start of the running self-calibration. -/
  calAt   : Nat := 0
  calCmd  : Option (Part × Nat) := none
  nextDue : Nat := 0
  skipped : Nat := 0
  dropBusy : Nat := 0
  dropPend : Nat := 0
  dropCal : Nat := 0
  acceptedInj : Nat := 0
  seq     : Nat := 0
  result  : List Nat := []
  fenced  : Bool := false
  deriving DecidableEq, Repr

/-- Checking of the frames of a raster burst up to frame `upto`, before later values applied: rectangles by their size and
expected CRC, CHK_SKIP, RSE_STREAM, CHK_SYNC, and whether check channels are mapped (09 R269–R271). -/
structure ChkSet where
  upto   : Nat
  rects  : List (Nat × Nat)
  skip   : Nat
  stream : Nat
  sync   : Bool
  on     : Bool
  deriving DecidableEq, Repr

/-- A raster engine (09). Committed values of the layers and rectangles wait in two stages for their blanking. -/
structure RseSt where
  fenced  : Bool := false
  /-- Vertical blankings of the burst that have begun. -/
  blanks  : Nat := 0
  stage1  : Tbl Int := []
  stage2  : Tbl Int := []
  /-- The stage holds values of a missed commit (R266). -/
  late1   : Bool := false
  late2   : Bool := false
  /-- First frames that use missed values and whose COMMIT_LATE is still to be recorded. -/
  lateRec : List Nat := []
  /-- RSE_STATE [8]. -/
  late    : Bool := false
  /-- Frames checked in the burst. -/
  checked : Nat := 0
  /-- How earlier frames are checked, in rising order of their last frame. -/
  chks    : List ChkSet := []
  underPix : Nat := 0
  /-- Missing pixels by frame (R267). -/
  pix     : Tbl Nat := []
  off0    : Bool := false
  off1    : Bool := false
  /-- Pixels of each layer still to be repeated, and the last pixel that arrived (09 R267, native). -/
  miss0   : Nat := 0
  miss1   : Nat := 0
  last0   : Nat := 0
  last1   : Nat := 0
  latTol  : Nat := 0
  mismatch : Bool := false
  fences  : Nat := 0
  deriving DecidableEq, Repr

/-- Where a task stands in the matching store (10 R282–R290). -/
inductive TaskMode where
  | waiting | ready
  deriving DecidableEq, Repr

structure TaskSt where
  desc    : TaskDesc
  part    : Part
  tag     : Nat
  order   : Nat
  at_     : Nat
  mode    : TaskMode := .waiting
  readyAt : Nat := 0
  e       : Nat := 0
  failedAdmit : Option Nat := none
  patience : Option Nat := none
  /-- The wait for the engine cap has been reported (03 R104). -/
  capTold : Bool := false
  deriving DecidableEq, Repr

/-- A token-table entry (10 R281). -/
structure Tok where
  scope  : Site
  kind   : Nat
  key    : Nat
  count  : Nat
  result : Nat
  deriving DecidableEq, Repr

/-- A token on its way: scope, kind, key, RESULT. -/
structure TokIn where
  scope  : Site
  kind   : Nat
  key    : Nat
  result : Nat
  deriving DecidableEq, Repr

/-- The governor (10 R289–R292). Powers in units of 0.01 W. -/
structure Gov where
  budget  : Nat := 40000
  supply  : Nat := 40000
  thermal : Nat := 40000
  /-- The task that holds admission closed (R290). -/
  head    : Option Nat := none
  closed  : Bool := false
  lastBreak : Tbl Nat := []
  lastServed : Nat := 15
  deriving DecidableEq, Repr

/-- A home task whose final completion waits for the combined result (10 R296). -/
structure LinkOwn where
  part   : Part
  tag    : Nat
  result : List Nat
  issue  : Bool
  outKey : Nat
  home   : Site
  deriving DecidableEq, Repr

/-- A linked site as its home module sees it (10 R294, R296). -/
structure LinkSt where
  ready   : List Nat := []
  /-- Result code per member, with the module time that ranks it (01 R38; notes/assumptions/98.md). -/
  results : List (Nat × Nat × Nat) := []
  endedAt : Option Nat := none
  /-- The final completion of the home module's task waits for the combined result. -/
  own     : Option LinkOwn := none
  deriving DecidableEq, Repr

/-- A row of the memory: pseudo-channel element, bank, row (11 R305, R312). -/
structure MemRow where
  pc   : Nat
  bank : Nat
  row  : Nat
  deriving DecidableEq, Repr

/-- A memory channel (11). -/
structure McSt where
  /-- MC_STATE (11 R322). -/
  mode    : Nat := 1
  corr    : Nat := 0
  ue      : Nat := 0
  replay  : Nat := 0
  lastTrain : Nat := 0
  trainFlag : Bool := false
  deferred : Option Nat := none
  /-- A retraining of R311 that waits for another pause of its stack. -/
  urgent  : Bool := false
  trainTemp : Int := 0
  alerts  : List Nat := []
  /-- Corrected errors of the last 24 h: time and row (11 R312). -/
  errs    : List (Nat × MemRow) := []
  /-- Repair candidates, in the order in which they arose, and those that are scheduled (11 R318). -/
  cands   : List MemRow := []
  sched   : List MemRow := []
  /-- Rows repaired, each with a spare row of its bank. -/
  repaired : List MemRow := []
  deriving DecidableEq, Repr

/-- A pseudo-channel (11 R313, R319). -/
structure PcSt where
  owed    : Nat := 0
  lastRef : Nat := 0
  power   : Nat := 0
  idleAt  : Nat := 0
  served  : Nat := 0
  /-- Start of a refresh catch-up in progress. -/
  catchAt : Option Nat := none
  deriving DecidableEq, Repr

structure StackSt where
  temp    : Int := 0
  doubled : Bool := false
  throttle : Bool := false
  stop    : Bool := false
  missing : Bool := false
  lastRead : Nat := 0
  deriving DecidableEq, Repr

/-- A block waiting on a port, in the order of classes of 12 R334. -/
inductive Frame where
  /-- C0 trigger: domain, number, act time. -/
  | trig (dom : Dom) (number : NTrg) (t : Nat)
  | stop (all : Bool) (linkId result reason node : Nat)
  /-- Domain, master, microsecond; module time of the microsecond in ns, once sent DEPART in units of 2^-9 ns. -/
  | tick (dom : Dom) (master us t : Nat)
  | flow (xoff : Bool) (credits ack : Nat) (nak : Bool)
  | filler
  /-- Once sent, the send time in units of 2^-9 ns. -/
  | echoReq (t : Nat)
  /-- Receipt of the request in ns; once sent, the turnaround in units of 2^-9 ns. -/
  | echoReply (t : Nat)
  | token (dst src : Nat) (tok : TokIn)
  | linkReady (dst src linkId : Nat)
  | linkResult (dst src linkId result : Nat)
  | announce (dst src addr : Nat) (withdraw : Bool)
  | timeSet (dst src : Nat) (dom : Dom) (master hops time : Nat)
  | timeLabel (src : Nat) (dom : Dom) (seconds time : Nat)
  | alarm (dst src : Nat) (event : Src) (count time : Nat)
  | log (dst src : Nat) (rec : WireRec)
  | logDrop (dst src n : Nat)
  deriving DecidableEq, Repr

/-- An Ngulos port (12 R326–R340, 13 R362–R369). -/
structure PortSt where
  mode    : PortMode := .off
  far     : Nat := 0
  farAddr : Nat := 0
  lock    : Bool := false
  /-- Consecutive failed training attempts of this retraining (13 R369). -/
  attempts : Nat := 0
  /-- The training is a retraining of a port that was up, or a lane_retrain command. -/
  retrain : Bool := false
  /-- The training is the single attempt of a DOWN port (13 R369). -/
  retry   : Bool := false
  /-- The receiver of the far end holds block lock. -/
  farLock : Bool := false
  retrainCmd : Option (Part × Nat) := none
  phase   : Option TrainPhase := none
  farStandby : Bool := false
  trainDue : Nat := 0
  exiting : Bool := false
  ppm     : Int := 0
  /-- Last ECHO exchanges, newest first (at most 64), in units of 2^-16 ns. -/
  echoes  : List Int := []
  delay   : Int := 0
  delayValid : Bool := false
  c0      : List Frame := []
  c1      : List Frame := []
  c2      : List Frame := []
  c3      : List Frame := []
  /-- What has left the port, with its SEQ where it has one. -/
  sent    : List (Nat × Frame) := []
  /-- Next SEQ of C1 and of C2. -/
  seq     : Nat := 0
  seq2    : Nat := 0
  /-- Module time at which unacknowledged frames are replayed (12 R336). -/
  ackDue  : Nat := 0
  /-- Blocks sent while C2 waited, newest first: C2 or not, how many (R334). -/
  recent  : List (Bool × Nat) := []
  /-- Module times of the C0 blocks of the last 64 block times (R339). -/
  c0Times : List Nat := []
  /-- Frames sent and not acknowledged: SEQ, frame (32). -/
  replay  : List (Nat × Frame) := []
  credits : Nat := 16
  xoffIn  : Bool := false
  xoffOut : Bool := false
  /-- Token held for lack of a token entry (10 R298), since when. -/
  held    : Option (TokIn × Nat) := none
  stalled : Bool := false
  c3Since : Nat := 0
  xoffCount : Nat := 0
  crcErr  : Nat := 0
  c0Lost  : Nat := 0
  activeAt : Nat := 0
  /-- SEQ that the next C1 and the next C2 frame received must have; the last one received in order (12 R332, R333). -/
  rxSeq   : Nat := 0
  rxSeq2  : Nat := 0
  lastRx  : Nat := 0xFFF
  /-- Blocks sent since the last FILLER block (13 R366). -/
  sinceFill : Nat := 0
  /-- Module time of the last block or CRC error (12 R355). -/
  errAt   : Option Nat := none
  /-- Module time at which the next ECHO request is due (12 R340). -/
  echoDue : Nat := 0
  deriving DecidableEq, Repr

/-- A time domain as the module tracks it (12 R341–R345). -/
structure DomSt where
  tracked : Bool := false
  master  : Nat := 0
  hops    : Nat := 0
  /-- D_X in units of 2^-16 ns: the mean of the last 16 ticks' values. -/
  d       : Int := 0
  ds      : List Int := []
  lastTick : Nat := 0
  foreign : Nat := 0
  foreignMaster : Nat := 0
  since   : Nat := 0
  deriving DecidableEq, Repr

/-- Module time (12 R341–R345, R352). -/
structure TimeSt where
  valid   : Bool := true
  lock    : Bool := true
  joined  : Bool := false
  /-- DOMAIN_SEL: 0 A, 1 B, 2 holdover. -/
  sel     : Nat := 0
  /-- C_SEL in units of 2^-16 ns. -/
  c       : Int := 0
  inLockSince : Option Nat := none
  lockedOnce : Bool := true
  /-- What is left of the slew of C_SEL below one unit, in units of 10^-9 (12 R345). -/
  slewRem : Nat := 0
  todSec  : Nat := 0
  todMt   : Nat := 0
  nextEpoch : Nat := 500000000
  deriving DecidableEq, Repr

/-- A pending act-at-T trigger (12 R349): number, act time in the selected domain. -/
structure PendTrig where
  number : NTrg
  t      : Nat
  /-- Received later than T − 60 ns, or with the table of 64 full: it acts in the cycle of its arrival. -/
  late   : Bool := false
  deriving DecidableEq, Repr

structure NtrgSt where
  rx   : Nat := 0
  late : Nat := 0
  deriving DecidableEq, Repr

/-- A CHIME output (12 R353). -/
structure ChimeSt where
  cfg   : Option ChimeRec := none
  /-- CHIME_STATE: 0 idle, 1 waiting for T0, 2 running. -/
  state : Nat := 0
  level : Bool := false
  done  : Nat := 0
  next  : Nat := 0
  queued : Option ChimeRec := none
  deriving DecidableEq, Repr

/-- A serial lane (13 R374); LANE_STATE follows from its port and its PRBS test. -/
structure SLaneSt where
  /-- Far end detected. -/
  far     : Bool := false
  retrains : Nat := 0
  prbs    : Option (Nat × Nat × Nat) := none
  /-- The checker has locked since the test started. -/
  prbsLock : Bool := false
  prbsRelock : Nat := 0
  scan    : Option (Part × Nat × ScanDesc × Nat) := none
  deriving DecidableEq, Repr

structure HostLink where
  up    : Bool := true
  rate  : Nat := 5
  width : Nat := 8
  /-- Common-clock mode, else SRIS: chosen on entry to Detect (13 R359). -/
  common : Bool := true
  deriving DecidableEq, Repr

/-- A completion (14 R383); `data` is what the command wrote to host memory before it. -/
structure Cpl where
  tag    : Nat
  status : Status
  opcode : BitVec 16
  final  : Bool
  result : List Nat
  data   : List Int
  deriving DecidableEq, Repr

/-- An event record (16 R437). -/
structure EvRec where
  source   : Nat
  react    : Nat
  conseq   : Bool := false
  forced   : Bool := false
  coalesced : Bool := false
  remote   : Bool := false
  lost     : Bool := false
  count    : Nat := 1
  time     : Nat
  node     : Nat := 0
  primary  : Nat := 0x7FF
  firstShort : Nat := 0
  payload  : List Nat := []
  deriving DecidableEq, Repr

/-- A source held while a ring is full (16 R439): source, count, latest time, first short time, reaction. -/
structure HeldSrc where
  source : Nat
  count  : Nat
  time   : Nat
  first  : Nat
  react  : Nat
  deriving DecidableEq, Repr

/-- The first-error record of a partition (14 R380). -/
structure PartFerr where
  kind   : Nat
  detail : Nat
  lo     : Nat
  hi     : Nat
  time   : Nat
  deriving DecidableEq, Repr

/-- A tag without a final completion (14 R382); `taken`: CMD_TAKE passed it and its row has not run. -/
structure TagUse where
  tag    : Nat
  opcode : BitVec 16
  taken  : Bool
  /-- DMA error of the command's own record or result. -/
  dma    : Option Nat := none
  deriving DecidableEq, Repr

/-- A LIST command whose list is being moved by DMA (14 R392). -/
structure ListCmd where
  tag    : Nat
  pairs  : List (Nat × Int)
  set    : Bool
  commit : Bool
  staged : Bool
  deriving DecidableEq, Repr

/-- A host function: register file, rings, tags (14 R379–R389). -/
structure FnSt where
  tail    : Nat := 0
  head    : Nat := 0
  ring    : List CmdEntry := []
  enable  : Bool := false
  stop    : Bool := false
  cplBase : Nat := 0
  cplSize : Nat := 0
  cplMsix : Nat := 0
  cplAddr : Nat := 0
  cplProd : Nat := 0
  cplCons : Nat := 0
  cplTold : Nat := 0
  cpls    : List Cpl := []
  cplHeld : List Cpl := []
  /-- 512 completions have come to be held and CPL_HOLD_FULL is not yet raised (14 R387). -/
  holdFull : Bool := false
  cplErr  : Bool := false
  evtBase : Nat := 0
  evtMsix : Nat := 0
  evtAddr : Nat := 0
  evtProd : Nat := 0
  evtCons : Nat := 0
  evtTold : Nat := 0
  evts    : List EvRec := []
  evtHeld : List HeldSrc := []
  evtErr  : Bool := false
  evtLost : Nat := 0
  evtLostTold : Nat := 0
  msixSent : Nat := 0
  linkLost : Bool := false
  /-- First-error record: KIND, DETAIL, FERR_ADDR low and high, TIME (14 R380). -/
  ferr    : Option PartFerr := none
  scratch : List (Nat × Nat) := []
  /-- RESET_STATE PART. -/
  reset   : Nat := 0
  resetAt : Nat := 0
  /-- Requesters of the reset by command, for their final completions. -/
  resetBy : List (Part × Nat) := []
  /-- Tags without a final completion: tag, opcode, whether the row of the command has run. -/
  tags    : List TagUse := []
  /-- Companion words latched by an RL read: register or parameter, words (00 R6). -/
  latch   : List (RlReg × List Nat) := []
  staged  : Tbl Int := []
  stagedTs : List TsRec := []
  stagedRate : List RateRec := []
  /-- A LIST command whose list is being moved: tag, IDs or pairs, set, commit, staged. -/
  listCmd : List ListCmd := []
  deriving DecidableEq, Repr

/-- A committed value whose apply point has not come (14 R391). -/
structure PendVal where
  part  : Part
  id    : Nat
  value : Int
  deriving DecidableEq, Repr

/-- A host transfer in progress: the command's final completion data (14 R390). -/
structure Xfer where
  part   : Part
  tag    : Nat
  opcode : BitVec 16
  data   : List Int
  /-- Bytes to be written to HBM at the end, with their address (mem.write). -/
  write  : Option (Nat × List (BitVec 8))
  addr   : Nat
  /-- Byte ranges of the partition's space that the transfer reads: address and length. -/
  reads  : List (Nat × Nat) := []
  deriving DecidableEq, Repr

/-- An event counted inside a consequence window whose record waits for the close (16 R441). -/
structure WinEv where
  source  : Nat
  count   : Nat
  time    : Nat
  first   : Nat
  react   : Nat
  payload : List Nat
  forced  : Bool
  /-- Rings that take the record. -/
  rings   : List Nat
  deriving DecidableEq, Repr

/-- A consequence window (16 R441): primary source, sources covered, close time, counted sources. -/
structure Win where
  primary : Nat
  covers  : List (Nat × Nat)
  close   : Nat
  counted : List WinEv
  deriving DecidableEq, Repr

/-- An element that a source or its payload names (14 R398). -/
inductive Elem where
  | site (k : Nat) | chan (c : Nat) | lane (l : Nat) | grp (g : Nat) | runner (r : Nat) | dps (d : Nat)
  | unit (u : Nat) | trg (t : Nat) | stream (h : Nat) | set (m : Nat) | conv (c : Nat) | rse (n : Nat)
  | part (p : Nat)
  deriving DecidableEq, Repr

/-- A first-error record of a block (16 R442). -/
structure FErr where
  time    : Nat
  addr    : Nat
  master  : Nat
  access  : Nat
  element : Nat
  source  : Nat
  count   : Nat
  /-- The element itself, where the error names one (16 R443). -/
  elem    : Option Elem := none
  deriving DecidableEq, Repr

/-- A unit that a reaction fences (16 R441, R448). -/
inductive FUnit where
  | engine (e : Nat)
  /-- A pin group; `relock`: the fence of 04 R119, which a relock lifts; otherwise until module reset. -/
  | group (g : Nat) (relock : Bool)
  | groupSensor (g : Nat)
  | slice (g : Nat)
  | lane (l : Nat)
  /-- A DPS channel; TRIP is lifted per 15 R427, LOOP until module reset. -/
  | dps (d : Nat) (trip : Bool)
  | dpsSensor (d : Nat)
  | rse (n : Nat)
  | tmuLane (l : Nat)
  | tmuSet (m : Nat)
  | conv (c : Nat)
  | mc (m : Nat)
  deriving DecidableEq, Repr

/-- Error codes of Rudiment that a parsed command can meet (16 R451). -/
inductive RudErr where
  | denied | range | nofw
  deriving DecidableEq, Repr

/-- What Rudiment prints for a command (16 R454). -/
inductive RudOut where
  | help
  | err (e : RudErr)
  /-- `poke` and `fw select`. -/
  | done
  /-- `peek`: the value, and for an RL parameter its companion words. -/
  | value (v : Int) (more : List Nat)
  /-- Sticky sources with count and latest time; first-error records by block; fenced units; FATAL_STATE. -/
  | faults (sticky : List (Nat × Nat × Nat)) (ferr : List (Nat × FErr)) (fenced : List FUnit) (fatal : Int)
  /-- SNS_TEMP and SNS_STATE of SN00–SN47; T_DIE, T_HBM of the stacks, THERM_STATE. -/
  | temps (sensors : List (Int × Nat)) (tDie tHbm0 tHbm1 : Int) (therm : Nat)
  /-- Module time, DOMAIN_SEL, TIME_STATE, OSC_STATE, TOD_SEC. -/
  | time (now sel state osc tod : Nat)
  /-- LANE_STATE of serial lanes 0–37; pin lanes that are fenced or remapped. -/
  | lanes (serial : List Nat) (pins : List Nat)
  /-- FW_STATE, FW_BANK, FW_VER_A, FW_VER_B. -/
  | fw (state bank verA verB : Nat)
  deriving DecidableEq, Repr

/-- The event fabric (16). -/
structure EvtSt where
  count  : Tbl Nat := []
  conseq : Tbl Nat := []
  /-- Alarms not yet sent to ALARM_SINK (12 R337): count, time of the latest, frame queued. -/
  sticky : Tbl (Nat × Nat × Bool) := []
  wins   : List Win := []
  ferr   : Tbl FErr := []
  gong   : Bool := false
  gongFirst : Nat := 0x7FF
  tabor  : Bool := true
  fatal  : Bool := false
  fatalSrc : Nat := 0x7FF
  /-- The 1,024-record buffer used while records cannot be written (R438), per partition. -/
  buffer : List (Part × EvRec) := []
  deriving DecidableEq, Repr

/-- A broken or valid sensor (15 R421, R431). -/
structure SnsSt where
  raw     : Option Int := none
  lastRead : Nat := 0
  /-- 0 valid, 1 RANGE, 2 STALE, 3 NEIGHBOUR. -/
  broken  : Nat := 0
  latched : Bool := false
  fencing : Bool := false
  /-- Times at which it became broken. -/
  breakAt : List Nat := []
  /-- Consecutive readings that differ from the neighbour's. -/
  apart   : Nat := 0
  /-- Broken, and valid, fresh and in agreement since. -/
  goodSince : Option Nat := none
  deriving DecidableEq, Repr

/-- Supply and hot plug (15 R406–R419). Voltages in 10 mV, currents 10 mA, powers 0.01 W. -/
structure SupSt where
  vin     : Nat := 4800
  vinFilt : Nat := 4800
  below   : Bool := false
  high    : Bool := false
  pIdle   : Nat := 7200
  switchOn : Bool := true
  precharged : Bool := true
  /-- Module time from which the SMBus slave answers (18 R482). -/
  smbFrom : Nat := 0
  prsnt   : Bool := true
  eject   : Bool := false
  released : Bool := true
  condSince : Nat := 0
  ga      : BitVec 6 := 0x3F
  hp      : Nat := 1
  ejectAt : Nat := 0
  ejected : Bool := false
  /-- Cause of the supply reset to be reported after boot: 1 UNDERVOLTAGE, 2 OVERVOLTAGE, 3 INPUT_TRIP. -/
  cause   : Nat := 0
  ovAt    : Option Nat := none
  deriving DecidableEq, Repr

/-- Thermal stages (15 R423–R427). -/
structure ThermSt where
  dieThrottle : Bool := false
  dieStop : Bool := false
  dieTrip : Bool := false
  inTrip  : Bool := false
  inStop  : Bool := false
  coolant : Bool := false
  /-- First of the consecutive readings above 95 °C (R424). -/
  dieDwell : Option Nat := none
  hbmDwell : Tbl Nat := []
  /-- Orderly stop held since (R426). -/
  stop    : Option Nat := none
  tripSrc : Nat := 0xFF
  tripAt  : Nat := 0
  /-- A module reset requested before a die trip has cooled (R427). -/
  resetWaits : Option Nat := none
  deriving DecidableEq, Repr

/-- Firmware and banks (14 R401–R403, 16 R447, R450). -/
structure FwSt where
  /-- FW_STATE: 0 booting, 1 running, 2 hand-over, 3 monitor only. -/
  state   : Nat := 1
  bank    : Bool := false
  next    : Bool := false
  validA  : Bool := true
  validB  : Bool := false
  fellBack : Bool := false
  verA    : Nat := 0x00010000
  verB    : Nat := 0
  /-- The image in the inactive bank may start by hand-over (RESULT1 of sup.fw_load). -/
  mayHand : Bool := false
  /-- Hand-over: 0 none, 1 draining, 2 frozen. -/
  hand    : Nat := 0
  handCmd : Option (Part × Nat) := none
  handDue : Nat := 0
  ucodeCmd : Option (Part × Nat) := none
  /-- The running microcode image, and those of the two banks (02 R79, R80). -/
  ucode   : UImage := { version := 0x00010000 }
  ucodeA  : UImage := { version := 0x00010000 }
  ucodeB  : UImage := { version := 0 }
  ucodeTodo : List Nat := []
  bootRetry : Bool := false
  lastCause : Nat := 0
  /-- Partition whose reset escalated, told after the boot (14 R395, R404). -/
  escPart : Option Part := none
  /-- Rudiment is unlocked until then, by this partition (16 R453). -/
  svcUntil : Option Nat := none
  svcBy   : Part := 0
  deriving DecidableEq, Repr

/-- A running calibration (17 R464–R469). -/
structure CalSt where
  /-- Units in the order of the queue, each with the command whose completion counts it. -/
  queue   : List (CalUnit × Option (Part × Nat)) := []
  /-- The unit under calibration and its attempt, from 1. -/
  running : Option (CalUnit × Nat) := none
  runOwn  : Option (Part × Nat) := none
  startedAt : Nat := 0
  /-- T_ISL of the group, or the stage temperature of the channel, at the start of the attempt (17 R466). -/
  startTemp : Int := 0
  /-- Result masks of a command: part, tag, RESULT0–RESULT4. -/
  cmds    : List (Part × Nat × List Nat) := []
  deriving DecidableEq, Repr

/-- Stored state of a unit of reference calibration: 0–15 a group, 16–33 a DPS channel (17 R471). -/
structure StoredRef where
  unit  : Nat
  state : Nat
  temp  : Int
  count : Nat
  reject : Nat
  tai   : Nat
  corr  : List Int := []
  deriving DecidableEq, Repr

/-- Stored reference values of a lane (17 R458). -/
structure LaneCal where
  refD   : Int
  refC   : Int
  levels : List Int
  deriving DecidableEq, Repr

/-- A slot of the calibration flash: its header, and the field section (17 R471). -/
structure SlotSt where
  gen   : Nat := 0xFFFFFFFF
  crc   : Nat := 0xFFFFFFFF
  magic : Nat := 0xFFFFFFFF
  format : Nat := 0xFFFF
  length : Nat := 0xFFFFFFFF
  /-- CRC-32 that the bytes of the slot give: their layout is not stated, so a free value
  (notes/assumptions/105.md). -/
  sum   : Nat := 0
  refs  : List StoredRef := []
  lanes : Tbl LaneCal := []
  /-- Internal-reference values of the converters. -/
  convs : Tbl Int := []
  ageing : Int := 0
  deriving DecidableEq, Repr

structure StoreSt where
  slot0   : SlotSt := {}
  slot1   : SlotSt := {}
  active  : Bool := false
  pending : Bool := false
  /-- Step of R472 in progress: 1 erase, 2 DATA, 3 CRC, 4 GENERATION; 0 none. -/
  step    : Nat := 0
  /-- Start of the last store since module reset. -/
  lastAt  : Option Nat := none
  writes  : Nat := 0
  /-- `cal.store` commands that wait; `true`: for the store after the running one. -/
  cmds    : List (Part × Nat × Bool) := []
  snap    : SlotSt := {}
  deriving DecidableEq, Repr

structure OscSt where
  state  : Nat := 0
  ageing : Int := 0
  tcomp  : Int := 0
  steer  : Int := 0
  temp   : Int := 0
  /-- Module times of the last update of OSC_TCOMP and of the last step of OSC_AGEING (07 R235). -/
  tcompAt : Nat := 0
  ageAt  : Nat := 0
  deriving DecidableEq, Repr

/-- Why a step stops with a fault. -/
inductive Fault where
  /-- Raised by the supply rows on a VIN beyond the absolute maximum rating, −60 V to 66 V: 18 R478 states no
  behaviour there. Safe: the model stops where the spec says nothing. -/
  | beyondRating
  deriving DecidableEq, Repr

/-- Why a step has no meaning. -/
inductive Refusal where
  /-- Raised by an arm of `exec` that has no meaning yet. Safe: nothing is claimed of it. -/
  | notModelled (mnemonic : String)
  deriving DecidableEq, Repr

/-- The partition-table entry of a partition that holds nothing (14 R397). -/
def PartRec.none (p : Nat) : PartRec :=
  { part := p, enable := false, system := false, evtGlobal := false, config := false, modReset := false
    service := false, engReserve := 0, msReserve := 0, msLimit := 0, streamShare := 0, hbmPages := 0
    dps := 0, units := 0, xtrig := 0, chime := 0, marks := 0, raster := 0, capTriggers := 0, streams := 0
    sites := 0, channels := 0, tmuSets := 0, nglTriggers := 0, timingSets := 0, rsvd := false }

/-- The 4 KiB pages of the module: SD512-A48, 48 GiB (11 R305, 18 R490; notes/assumptions/3.md). -/
def modulePages : Nat := 12582912

/-- HP0 at module reset: enabled, system partition, every resource and right (14 R397). -/
def PartRec.hp0 : PartRec :=
  { part := 0, enable := true, system := true, evtGlobal := false, config := true, modReset := true
    service := true, engReserve := 32, msReserve := 4096, msLimit := 4096, streamShare := 98304
    hbmPages := modulePages
    dps := BitVec.allOnes 18, units := BitVec.allOnes 16, xtrig := BitVec.allOnes 2, chime := BitVec.allOnes 4
    marks := BitVec.allOnes 8, raster := BitVec.allOnes 4, capTriggers := BitVec.allOnes 32
    streams := BitVec.allOnes 64, sites := BitVec.allOnes 128, channels := BitVec.allOnes 512
    tmuSets := BitVec.allOnes 256, nglTriggers := BitVec.allOnes 256, timingSets := BitVec.allOnes 1024
    rsvd := false }

/-- A MARK output (02 R62): its level, and the end of a pulse in units of 0.25 ps. -/
structure MarkSt where
  level : Bool := false
  till  : Option Nat := none
  deriving DecidableEq, Repr

/-- Parameters, partitions, functions and host transfers (00, 14). -/
structure HostSt where
  /-- Applied values of the RW parameters, by parameter ID; an unlisted ID holds its reset value (00 R8–R11). -/
  params   : Tbl Int := []
  pendVals : List PendVal := []
  /-- Channels whose MUX_MODE was committed by an owner before the present one (04 R130). -/
  muxMoved : List Nat := []
  fn       : Tbl FnSt := []
  ptab     : Tbl PartRec := [(0, PartRec.hp0)]
  sysPart  : Part := 0
  xfers    : List Xfer := []
  /-- Partition whose ring is served, and entries taken from it in this turn (14 R389). -/
  turn     : Nat × Nat := (0, 0)
  deriving DecidableEq, Repr

/-- Vector engines, bursts, images, MARK outputs (02, 03). -/
structure VeSt where
  eng      : Tbl EngSt := []
  bursts   : Tbl Burst := []
  /-- Bursts that have ended and whose result is not final yet, oldest first, with their runner (02 R64, 06 R187). -/
  drain    : List (Nat × Burst) := []
  marks    : Tbl MarkSt := []
  images   : Tbl ImgSt := []
  deriving DecidableEq, Repr

/-- Sites, lanes, pin groups, DPS channels (04, 05). -/
structure PinSt where
  site     : Tbl SiteSt := []
  lane     : Tbl LaneSt := []
  grp      : Tbl GrpSt := []
  dps      : Tbl DpsSt := []
  deriving DecidableEq, Repr

/-- Compare, capture, streams, time measurement, converters (06, 07, 08). -/
structure AcqSt where
  chFail   : Tbl Nat := []
  /-- Module time up to which the log writer has emptied the FIFOs of the compare slices (06 R193). -/
  fifoAt   : Nat := 0
  /-- Module time up to which the exporter has emptied the FIFOs of raw values (07 R232). -/
  expAt    : Nat := 0
  /-- Group whose turn is next (07 R232). -/
  expNext  : Nat := 0
  cu       : Tbl CuSt := []
  trg      : Tbl TrgSt := []
  hs       : Tbl HsSt := []
  /-- Module time up to which the host ports have taken what the staging buffers of the streams held (06 R212). -/
  strmAt   : Nat := 0
  ms       : Tbl MsSt := []
  osc      : OscSt := {}
  padc     : Tbl PadcSt := []
  hkSlot   : Nat := 0
  hkStale  : Bool := true
  /-- Start of the slot in progress of the housekeeping scan (08 R254). -/
  hkAt     : Nat := 0
  /-- Module time at which the references of the converters are warm (08 R251). -/
  warmAt   : Nat := 300000000
  deriving DecidableEq, Repr

/-- Scheduler, tokens, governor, linked sites (10). -/
structure SchSt where
  tasks    : Tbl TaskSt := []
  nextOrder : Nat := 0
  tokens   : List Tok := []
  tokFifo  : List TokIn := []
  tokLost  : Tbl Nat := []
  gov      : Gov := {}
  link     : Tbl LinkSt := []
  deriving DecidableEq, Repr

/-- Pages of a partition's space granted together: how many, and the channels they take in turn (11 R306). A page on
a fenced channel is POISONED (11 R316, R317). -/
structure PageRun where
  count : Nat
  chans : List Nat
  deriving DecidableEq, Repr

/-- Memory channels and the HBM space (11). -/
structure MemSt where
  mc       : Tbl McSt := []
  pc       : Tbl PcSt := []
  stack    : Tbl StackSt := []
  /-- Content of the partitions' HBM space: partition × 2^36 + byte address; an unlisted byte reads 0 (11 R305). -/
  hbm      : List Host.Cell := []
  /-- Pages granted to each partition, in order of their numbers (11 R306). -/
  pages    : Tbl (List PageRun) := [(0, [{ count := modulePages, chans := List.range 32 }])]
  /-- 64-byte blocks with an uncorrectable word: keys of `hbm` divided by 64 (11 R312). -/
  bad      : List Nat := []
  /-- Pages of rows whose repair failed, as partition and page; they are POISONED (11 R318). -/
  dead     : List (Nat × Nat) := []
  /-- Such pages that no partition holds any more, by their channel. -/
  lost     : List Nat := []
  deriving DecidableEq, Repr

/-- Ngulos ports, time, triggers, lanes (12, 13). -/
structure NglSt where
  port     : Tbl PortSt := []
  dom      : Tbl DomSt := []
  tm       : TimeSt := {}
  route    : Tbl Nat := []
  pendTrig : List PendTrig := []
  ntrg     : Tbl NtrgSt := []
  noRoute  : Nat := 0
  c3Dropped : Nat := 0
  /-- Time of the last 0x0F6 (12 R338). -/
  c3Told   : Nat := 0
  chime    : Tbl ChimeSt := []
  slane    : Tbl SLaneSt := []
  hlink    : Tbl HostLink := []
  deriving DecidableEq, Repr

/-- Supply, sensors, thermal stages, the safe state (15, 01 R26). -/
structure PwrSt where
  sup      : SupSt := {}
  sns      : Tbl SnsSt := []
  therm    : ThermSt := {}
  /-- Corrections of the voltage references in LSB (15 R428). -/
  refCorr  : Tbl Int := []
  /-- The G1 safe state is in force (01 R26). -/
  safe     : Bool := false
  deriving DecidableEq, Repr

/-- Calibration runs, the calibration flash, self-tests (16 R449, 17). -/
structure CalAll where
  run      : CalSt := {}
  store    : StoreSt := {}
  /-- Self-tests of hlt.unfence in progress: unit, partition, tag (16 R449). -/
  unfence  : List (RepairUnit × Part × Nat) := []
  deriving DecidableEq, Repr

/-- The state of the module. -/
structure State where
  /-- Commands that wait, first in first out. -/
  pending  : List Instr := []
  /-- Module time in ns (12 R341); a register read shows it modulo 2^64. -/
  now      : Nat := 0
  /-- Free values drawn so far: the model's own field (notes/assumptions/1.md). -/
  free     : Nat := 0
  host     : HostSt := {}
  evt      : EvtSt := {}
  fw       : FwSt := {}
  /-- What Rudiment printed, newest first (16 R451). -/
  uart     : List RudOut := []
  ve       : VeSt := {}
  pf       : PinSt := {}
  acq      : AcqSt := {}
  rse      : Tbl RseSt := []
  sch      : SchSt := {}
  mem      : MemSt := {}
  ngl      : NglSt := {}
  pwr      : PwrSt := {}
  cal      : CalAll := {}
  deriving DecidableEq, Repr

/-- The machine right after reset: every field at the default above, nothing placed in its queue. -/
def State.reset : State := {}

end Sys2Proof.Machine
end

