-- ==== Sys2Proof/Machine/Ops.lean ====
section
/-!
DEFINITION. The named operations over the state: sparse tables, the elements of the module, module time, free
values. Every meaning reads and writes the state through these.
-/

/-- Least of a list. -/
def Sys2Proof.minOf : List Nat → Option Nat
  | [] => none
  | a :: r => some (r.foldl min a)

namespace Sys2Proof.Machine

/-- What a command answers. -/
abbrev Out : Type := Host.Outcome State Fault Refusal

/-- Value under `k`, `d` when `k` is not listed. -/
def Tbl.get {α : Type} : Tbl α → α → Nat → α
  | [], d, _ => d
  | (j, v) :: r, d, k => if j = k then v else Tbl.get r d k

/-- Value under `k`, if listed. -/
def Tbl.find {α : Type} : Tbl α → Nat → Option α
  | [], _ => none
  | (j, v) :: r, k => if j = k then some v else Tbl.find r k

/-- List `v` under `k`, keeping rising order of keys. -/
def Tbl.put {α : Type} : Tbl α → Nat → α → Tbl α
  | [], k, v => [(k, v)]
  | (j, w) :: r, k, v =>
    if k < j then (k, v) :: (j, w) :: r
    else if j = k then (k, v) :: r
    else (j, w) :: Tbl.put r k v

/-- Unlist `k`. -/
def Tbl.del {α : Type} : Tbl α → Nat → Tbl α
  | [], _ => []
  | (j, v) :: r, k => if j = k then Tbl.del r k else (j, v) :: Tbl.del r k

/-- Change the value under `k`. -/
def Tbl.upd {α : Type} (t : Tbl α) (d : α) (k : Nat) (f : α → α) : Tbl α :=
  Tbl.put t k (f (Tbl.get t d k))

/-- Apply `f` to the state for each element of a list, in order. -/
def foldS {α : Type} (l : List α) (f : α → State → State) (s : State) : State :=
  l.foldl (fun s a => f a s) s

/-- Bit `i` of a number. -/
def bit (n i : Nat) : Nat := n / 2 ^ i % 2

/-- Field [hi:lo] of a number. -/
def bits (n hi lo : Nat) : Nat := n / 2 ^ lo % 2 ^ (hi + 1 - lo)

/-- 1 for true. -/
def b2n (b : Bool) : Nat := if b then 1 else 0

/-- Counter that stops at `m`. -/
def satAdd (n k m : Nat) : Nat := min (n + k) m

/-- Numbers of the bits set in a mask, rising. -/
def bitList {w : Nat} (m : BitVec w) : List Nat := (List.range w).filter (fun i => m.getLsbD i)

/-- Low and high word of a value read as 64 bits (R4). -/
def words64 (n : Int) : List Nat :=
  let m := (n % (2 ^ 64 : Int)).toNat
  [m % 2 ^ 32, m / 2 ^ 32]

/-- Value as one 32-bit word, two's complement. -/
def word32 (n : Int) : Nat := (n % (2 ^ 32 : Int)).toNat

/-- Vector engine `k`. -/
def State.engAt (s : State) (k : Nat) : EngSt := Tbl.get s.ve.eng {} k

/-- Change vector engine `k`. -/
def State.updEng (s : State) (k : Nat) (f : EngSt → EngSt) : State :=
  { s with ve.eng := Tbl.upd s.ve.eng {} k f }

/-- MARK output `k`. -/
def State.markAt (s : State) (k : Nat) : MarkSt := Tbl.get s.ve.marks {} k

/-- Change MARK output `k`. -/
def State.updMark (s : State) (k : Nat) (f : MarkSt → MarkSt) : State :=
  { s with ve.marks := Tbl.upd s.ve.marks {} k f }

/-- Site `k`. -/
def State.siteAt (s : State) (k : Nat) : SiteSt := Tbl.get s.pf.site {} k

/-- Change site `k`. -/
def State.updSite (s : State) (k : Nat) (f : SiteSt → SiteSt) : State :=
  { s with pf.site := Tbl.upd s.pf.site {} k f }

/-- Module lane `k`. -/
def State.laneAt (s : State) (k : Nat) : LaneSt := Tbl.get s.pf.lane {} k

/-- Change module lane `k`. -/
def State.updLane (s : State) (k : Nat) (f : LaneSt → LaneSt) : State :=
  { s with pf.lane := Tbl.upd s.pf.lane {} k f }

/-- Pin group `k`. -/
def State.grpAt (s : State) (k : Nat) : GrpSt := Tbl.get s.pf.grp {} k

/-- Change pin group `k`. -/
def State.updGrp (s : State) (k : Nat) (f : GrpSt → GrpSt) : State :=
  { s with pf.grp := Tbl.upd s.pf.grp {} k f }

/-- DPS channel `k`. -/
def State.dpsAt (s : State) (k : Nat) : DpsSt := Tbl.get s.pf.dps {} k

/-- Change DPS channel `k`. -/
def State.updDps (s : State) (k : Nat) (f : DpsSt → DpsSt) : State :=
  { s with pf.dps := Tbl.upd s.pf.dps {} k f }

/-- Failing strobes of a channel `k`. -/
def State.chFailAt (s : State) (k : Nat) : Nat := Tbl.get s.acq.chFail 0 k

/-- Change failing strobes of a channel `k`. -/
def State.updChFail (s : State) (k : Nat) (f : Nat → Nat) : State :=
  { s with acq.chFail := Tbl.upd s.acq.chFail 0 k f }

/-- Capture unit `k`. -/
def State.cuAt (s : State) (k : Nat) : CuSt := Tbl.get s.acq.cu {} k

/-- Change capture unit `k`. -/
def State.updCu (s : State) (k : Nat) (f : CuSt → CuSt) : State :=
  { s with acq.cu := Tbl.upd s.acq.cu {} k f }

/-- CAP trigger `k`. -/
def State.trgAt (s : State) (k : Nat) : TrgSt := Tbl.get s.acq.trg {} k

/-- Change CAP trigger `k`. -/
def State.updTrg (s : State) (k : Nat) (f : TrgSt → TrgSt) : State :=
  { s with acq.trg := Tbl.upd s.acq.trg {} k f }

/-- Host stream `k`. -/
def State.hsAt (s : State) (k : Nat) : HsSt := Tbl.get s.acq.hs {} k

/-- Change host stream `k`. -/
def State.updHs (s : State) (k : Nat) (f : HsSt → HsSt) : State :=
  { s with acq.hs := Tbl.upd s.acq.hs {} k f }

/-- Measurement set `k`. -/
def State.msAt (s : State) (k : Nat) : MsSt := Tbl.get s.acq.ms {} k

/-- Change measurement set `k`. -/
def State.updMs (s : State) (k : Nat) (f : MsSt → MsSt) : State :=
  { s with acq.ms := Tbl.upd s.acq.ms {} k f }

/-- Converter `k`. -/
def State.padcAt (s : State) (k : Nat) : PadcSt := Tbl.get s.acq.padc {} k

/-- Change converter `k`. -/
def State.updPadc (s : State) (k : Nat) (f : PadcSt → PadcSt) : State :=
  { s with acq.padc := Tbl.upd s.acq.padc {} k f }

/-- Raster engine `k`. -/
def State.rseAt (s : State) (k : Nat) : RseSt := Tbl.get s.rse {} k

/-- Change raster engine `k`. -/
def State.updRse (s : State) (k : Nat) (f : RseSt → RseSt) : State :=
  { s with rse := Tbl.upd s.rse {} k f }

/-- Linked site, by LINK_ID `k`. -/
def State.linkAt (s : State) (k : Nat) : LinkSt := Tbl.get s.sch.link {} k

/-- Change linked site, by LINK_ID `k`. -/
def State.updLink (s : State) (k : Nat) (f : LinkSt → LinkSt) : State :=
  { s with sch.link := Tbl.upd s.sch.link {} k f }

/-- Memory channel `k`. -/
def State.mcAt (s : State) (k : Nat) : McSt := Tbl.get s.mem.mc {} k

/-- Change memory channel `k`. -/
def State.updMc (s : State) (k : Nat) (f : McSt → McSt) : State :=
  { s with mem.mc := Tbl.upd s.mem.mc {} k f }

/-- Pseudo-channel `k`. -/
def State.pcAt (s : State) (k : Nat) : PcSt := Tbl.get s.mem.pc {} k

/-- REF_OWED: a catch-up issues one refresh every 350 ns from its start (11 R313). -/
def PcSt.owedAt (p : PcSt) (now : Nat) : Nat :=
  match p.catchAt with
  | some t => p.owed - ((now - t) / 350 + 1)
  | none => p.owed

/-- Change pseudo-channel `k`. -/
def State.updPc (s : State) (k : Nat) (f : PcSt → PcSt) : State :=
  { s with mem.pc := Tbl.upd s.mem.pc {} k f }

/-- HBM stack `k`. -/
def State.stackAt (s : State) (k : Nat) : StackSt := Tbl.get s.mem.stack {} k

/-- Change HBM stack `k`. -/
def State.updStack (s : State) (k : Nat) (f : StackSt → StackSt) : State :=
  { s with mem.stack := Tbl.upd s.mem.stack {} k f }

/-- Ngulos port `k`. -/
def State.portAt (s : State) (k : Nat) : PortSt := Tbl.get s.ngl.port {} k

/-- Change Ngulos port `k`. -/
def State.updPort (s : State) (k : Nat) (f : PortSt → PortSt) : State :=
  { s with ngl.port := Tbl.upd s.ngl.port {} k f }

/-- Time domain `k`. -/
def State.domAt (s : State) (k : Nat) : DomSt := Tbl.get s.ngl.dom {} k

/-- Change time domain `k`. -/
def State.updDom (s : State) (k : Nat) (f : DomSt → DomSt) : State :=
  { s with ngl.dom := Tbl.upd s.ngl.dom {} k f }

/-- Trigger number `k`. -/
def State.ntrgAt (s : State) (k : Nat) : NtrgSt := Tbl.get s.ngl.ntrg {} k

/-- Change trigger number `k`. -/
def State.updNtrg (s : State) (k : Nat) (f : NtrgSt → NtrgSt) : State :=
  { s with ngl.ntrg := Tbl.upd s.ngl.ntrg {} k f }

/-- CHIME output `k`. -/
def State.chimeAt (s : State) (k : Nat) : ChimeSt := Tbl.get s.ngl.chime {} k

/-- Change CHIME output `k`. -/
def State.updChime (s : State) (k : Nat) (f : ChimeSt → ChimeSt) : State :=
  { s with ngl.chime := Tbl.upd s.ngl.chime {} k f }

/-- Serial lane `k`. -/
def State.slaneAt (s : State) (k : Nat) : SLaneSt := Tbl.get s.ngl.slane {} k

/-- Change serial lane `k`. -/
def State.updSlane (s : State) (k : Nat) (f : SLaneSt → SLaneSt) : State :=
  { s with ngl.slane := Tbl.upd s.ngl.slane {} k f }

/-- Host port link `k`. -/
def State.hlinkAt (s : State) (k : Nat) : HostLink := Tbl.get s.ngl.hlink {} k

/-- Change host port link `k`. -/
def State.updHlink (s : State) (k : Nat) (f : HostLink → HostLink) : State :=
  { s with ngl.hlink := Tbl.upd s.ngl.hlink {} k f }

/-- Temperature sensor `k`. -/
def State.snsAt (s : State) (k : Nat) : SnsSt := Tbl.get s.pwr.sns {} k

/-- Change temperature sensor `k`. -/
def State.updSns (s : State) (k : Nat) (f : SnsSt → SnsSt) : State :=
  { s with pwr.sns := Tbl.upd s.pwr.sns {} k f }

/-- Host function `k`. -/
def State.fnAt (s : State) (k : Nat) : FnSt := Tbl.get s.host.fn {} k

/-- Change host function `k`. -/
def State.updFn (s : State) (k : Nat) (f : FnSt → FnSt) : State :=
  { s with host.fn := Tbl.upd s.host.fn {} k f }

/-- The burst kept under `k`, if any. -/
def State.burstAt (s : State) (k : Nat) : Option Burst := Tbl.find s.ve.bursts k

/-- Put a burst under `k`. -/
def State.putBurst (s : State) (k : Nat) (v : Burst) : State :=
  { s with ve.bursts := Tbl.put s.ve.bursts k v }

/-- Remove the burst under `k`. -/
def State.delBurst (s : State) (k : Nat) : State :=
  { s with ve.bursts := Tbl.del s.ve.bursts k }

/-- Change the burst under `k`; nothing when there is none. -/
def State.updBurst (s : State) (k : Nat) (f : Burst → Burst) : State :=
  match s.burstAt k with
  | some v => s.putBurst k (f v)
  | none => s

/-- The image kept under `k`, if any. -/
def State.imageAt (s : State) (k : Nat) : Option ImgSt := Tbl.find s.ve.images k

/-- Put a image under `k`. -/
def State.putImage (s : State) (k : Nat) (v : ImgSt) : State :=
  { s with ve.images := Tbl.put s.ve.images k v }

/-- Remove the image under `k`. -/
def State.delImage (s : State) (k : Nat) : State :=
  { s with ve.images := Tbl.del s.ve.images k }

/-- Change the image under `k`; nothing when there is none. -/
def State.updImage (s : State) (k : Nat) (f : ImgSt → ImgSt) : State :=
  match s.imageAt k with
  | some v => s.putImage k (f v)
  | none => s

/-- The task kept under `k`, if any. -/
def State.taskAt (s : State) (k : Nat) : Option TaskSt := Tbl.find s.sch.tasks k

/-- Put a task under `k`. -/
def State.putTask (s : State) (k : Nat) (v : TaskSt) : State :=
  { s with sch.tasks := Tbl.put s.sch.tasks k v }

/-- Remove the task under `k`. -/
def State.delTask (s : State) (k : Nat) : State :=
  { s with sch.tasks := Tbl.del s.sch.tasks k }

/-- Change the task under `k`; nothing when there is none. -/
def State.updTask (s : State) (k : Nat) (f : TaskSt → TaskSt) : State :=
  match s.taskAt k with
  | some v => s.putTask k (f v)
  | none => s

/-- One step toward a target. -/
def stepTo (a b : Int) : Int := if a < b then a + 1 else if b < a then a - 1 else a

/-! ## Module time and free values -/

/-- Module time never steps backward: it moves to `t`, or stays when `t` has passed (12 R341). -/
def State.moveTo (s : State) (t : Nat) : State := { s with now := max s.now t }

/-- A fresh value that the spec leaves undefined (notes/assumptions/1.md). -/
def State.freeVal (s : State) : Nat := Config.freeNat s.free

/-- Count a drawn free value. -/
def State.drawFree (s : State) : State := { s with free := s.free + 1 }

/-- Short time: the low 32 bits of module time (00, Numbers). -/
def shortTime (t : Nat) : Nat := t % 2 ^ 32

/-! ## Partitions and ownership (14 R397) -/

/-- Partition-table entry. -/
def State.part (s : State) (p : Nat) : PartRec := Tbl.get s.host.ptab (PartRec.none p) p

/-- First partition whose entry satisfies a test: the owner of a resource, which one entry holds. -/
def State.ownerBy (s : State) (f : PartRec → Bool) : Option Nat :=
  (List.range 16).find? (fun p => f (s.part p))

/-- The system partition holds CONFIG and MOD_RESET whatever RIGHTS says (14 R397). -/
def State.isSystem (s : State) (p : Nat) : Bool := s.host.sysPart.val == p
def State.rightConfig (s : State) (p : Nat) : Bool := s.isSystem p || (s.part p).config
def State.rightModReset (s : State) (p : Nat) : Bool := s.isSystem p || (s.part p).modReset
def State.rightService (s : State) (p : Nat) : Bool := (s.part p).service


/-- Owning partition of a site, if any (10 R304 SITE_PART). -/
def State.siteOwner (s : State) (k : Nat) : Option Nat := s.ownerBy (fun r => r.sites.getLsbD k)

/-- Resource ID (01 R32). -/
def resId (blk el kind : Nat) : Nat := blk * 2 ^ 24 + el * 2 ^ 12 + kind

/-- Parameter ID (00 R8). -/
def pid (blk el num : Nat) : Nat := blk * 2 ^ 24 + el * 2 ^ 12 + num

/-! ## Sites, channels, lanes (10 R274, 00 R2, R3) -/

/-- Channels of a site, rising. -/
def State.siteChans (s : State) (k : Nat) : List Nat :=
  match (s.siteAt k).defn with
  | some r => bitList r.chMap
  | none => []

/-- DPS channels of a site, rising. -/
def State.siteDps (s : State) (k : Nat) : List Nat :=
  match (s.siteAt k).defn with
  | some r => bitList r.dps
  | none => []

/-- The defined site of a channel. -/
def State.chanSite (s : State) (c : Nat) : Option Nat :=
  (List.range 128).find? (fun k => match (s.siteAt k).defn with
    | some r => r.chMap.getLsbD c
    | none => false)

/-- The defined site of a DPS channel (05 R184 DPS_SITE). -/
def State.dpsSite (s : State) (d : Nat) : Option Nat :=
  (List.range 128).find? (fun k => match (s.siteAt k).defn with
    | some r => r.dps.getLsbD d
    | none => false)

/-- Module lane that carries a channel (00 R2, R3, 04 R143). -/
def State.laneOf (s : State) (c : Nat) : Nat :=
  let g := c / 32
  if (s.grpAt g).l32 = some (c % 32) then 33 * g + 32 else 33 * g + c % 32

/-- Channel that a module lane carries (04 R142, R143). -/
def State.chanOf (s : State) (l : Nat) : Option Nat :=
  let g := l / 33
  let k := l % 33
  if k = 32 then ((s.grpAt g).l32).map (32 * g + ·)
  else if (s.grpAt g).l32 = some k then none
  else some (32 * g + k)

/-- Groups that hold a channel of a list, rising. -/
def groupsOf (cs : List Nat) : List Nat := (List.range 16).filter (fun g => cs.any (fun c => c / 32 == g))

/-- Lanes that carry the channels of a site. -/
def State.siteLanes (s : State) (k : Nat) : List Nat := (s.siteChans k).map s.laneOf

/-! ## Bursts -/

/-- Bursts in force, with their runner number (0–31 vector engine, 32–35 raster engine). -/
def State.burstList (s : State) : List (Nat × Burst) := s.ve.bursts

/-- Runner of the burst that a site is part of. -/
def State.siteRunner (s : State) (k : Nat) : Option Nat :=
  (s.ve.bursts.find? (fun x => x.2.sites.any (fun a => a.val == k))).map (·.1)

/-- A burst of the site is dispatched or running (10 R275). -/
def State.siteBusy (s : State) (k : Nat) : Bool := (s.siteRunner k).isSome

/-- Home site of a task. -/
def homeOf (d : TaskDesc) : Nat := d.queue.val / 64

/-- Sites of a task's burst. -/
def sitesOf (d : TaskDesc) : List Site :=
  toFin 128 (homeOf d) (by decide) :: d.extraSites

/-- A task of the site is queued, dispatched or running. -/
def State.siteTasked (s : State) (k : Nat) : Bool :=
  s.siteBusy k || s.sch.tasks.any (fun x => (sitesOf x.2.desc).any (fun a => a.val == k))

/-- Channels a burst's sites hold. -/
def State.burstChans (s : State) (b : Burst) : List Nat := b.sites.flatMap (fun k => s.siteChans k.val)

/-- Groups the burst uses: those of its sites' channels that its segments present. -/
def Burst.usesGroup (b : Burst) (g : Nat) : Bool := b.groups.any (fun x => x.val == g)

/-- Memory channels fenced (01 R21). -/
def State.fencedMcs (s : State) : Nat := ((List.range 32).filter (fun m => (s.mcAt m).mode == 3)).length

/-- Sum of the streaming reservations held, in units of 0.1 Gbit/s (03 R106, R117). -/
def State.streamHeld (s : State) : Nat :=
  (s.ve.bursts.map (·.2.demand)).sum + (s.ve.drain.map (·.2.demand)).sum

/-- Reservations that a partition's bursts hold. -/
def State.partStreamHeld (s : State) (p : Nat) : Nat :=
  (((s.ve.bursts ++ s.ve.drain).filter (fun x => x.2.part.val == p)).map (·.2.demand)).sum

/-! ## Bytes of the HBM space (11 R305, 00 R4)

A partition's space is its pages; the byte of address `a` of partition `p` stands under key `p × 2^36 + a`. -/

/-- Key of a byte. -/
def hbmKey (p a : Nat) : Nat := p * 2 ^ 36 + a

/-- Memory in its one canonical form: keys strictly rising, no byte that an unlisted key reads as. -/
def Memory.wf : List Host.Cell → Bool
  | [] => true
  | [(_, b)] => b != 0
  | (k, b) :: (j, c) :: r => decide (k < j) && (b != 0) && Memory.wf ((j, c) :: r)

/-- The byte under a key; an unlisted one reads 0: memory is written to zero with valid ECC (11 R305). -/
def Memory.read : List Host.Cell → Nat → BitVec 8
  | [], _ => 0
  | (j, b) :: r, k => if j = k then b else Memory.read r k

/-- Write one byte; writing 0 unlists it. -/
def Memory.write : List Host.Cell → Nat → BitVec 8 → List Host.Cell
  | [], k, v => if v = 0 then [] else [(k, v)]
  | (j, b) :: r, k, v =>
    if k < j then (if v = 0 then (j, b) :: r else (k, v) :: (j, b) :: r)
    else if j = k then (if v = 0 then r else (k, v) :: r)
    else (j, b) :: Memory.write r k v

/-- Write bytes from a key upward. -/
def Memory.writeList (m : List Host.Cell) (k : Nat) : List (BitVec 8) → List Host.Cell
  | [] => m
  | v :: r => Memory.writeList (Memory.write m k v) (k + 1) r

/-- Zero every byte whose key satisfies a test. -/
def Memory.clear (m : List Host.Cell) (f : Nat → Bool) : List Host.Cell := m.filter (fun c => !f c.1)


/-- Runs of pages of a partition's space. -/
def State.pageRuns (s : State) (p : Nat) : List PageRun := Tbl.get s.mem.pages [] p

/-- Memory channel of a page: pages are taken from the channels of their run in turn (11 R306). -/
def pageChan : List PageRun → Nat → Option Nat
  | [], _ => none
  | r :: rs, n => if n < r.count then r.chans[n % r.chans.length]? else pageChan rs (n - r.count)

/-- A page on a fenced channel, or on a row whose repair failed, is POISONED (11 R316, R318). -/
def State.poisoned (s : State) (p page : Nat) : Bool :=
  s.mem.dead.contains (p, page) ||
  match pageChan (s.pageRuns p) page with
  | some m => (s.mcAt m).mode == 3
  | none => false

/-- A slot of the calibration flash is valid (17 R471, R473). -/
def SlotSt.valid (x : SlotSt) : Bool :=
  x.gen != 0xFFFFFFFF && x.magic == 0x53444331 && x.format == 1 && decide (x.length ≤ 262112) && x.crc == x.sum

/-- Blocks with an uncorrectable word, without those that a test names: they are written again (11 R312). -/
def State.rewrite (s : State) (f : Nat → Bool) : State := { s with mem.bad := s.mem.bad.filter (fun k => !f k) }

/-- A block has an uncorrectable word: it fails until it is written again (11 R312). -/
def State.spoil (s : State) (k : Nat) : State :=
  if s.mem.bad.contains k then s else { s with mem.bad := s.mem.bad ++ [k] }

/-- A byte lies in a block with an uncorrectable word. -/
def State.badAt (s : State) (p a : Nat) : Bool := s.mem.bad.contains (hbmKey p a / 64)

/-- First block of a range of bytes that has an uncorrectable word, by its address. -/
def State.badIn (s : State) (p a len : Nat) : Option Nat :=
  minOf ((s.mem.bad.filter (fun k => decide (hbmKey p a / 64 ≤ k) && decide (64 * k < hbmKey p a + len))).map
    (fun k => 64 * k % 2 ^ 36))

/-- Write bytes that lie within one page of a partition's space; a POISONED page discards them (11 R317). A write to a
block writes the block again (11 R312; notes/assumptions/99.md). -/
def State.writeHbm (s : State) (p a : Nat) (bs : List (BitVec 8)) : State :=
  if s.poisoned p (a / 4096) then s
  else
    let s := s.rewrite (fun k => decide (hbmKey p a / 64 ≤ k) && decide (64 * k < hbmKey p a + bs.length))
    { s with mem.hbm := Memory.writeList s.mem.hbm (hbmKey p a) bs }

/-- One byte of a partition's space; a POISONED page reads 0 (11 R317). -/
def State.readHbm (s : State) (p a : Nat) : BitVec 8 :=
  if s.poisoned p (a / 4096) then 0 else Memory.read s.mem.hbm (hbmKey p a)

end Sys2Proof.Machine
end

