-- ==== Sys2Proof/Machine/Params.lean ====
section
/-!
DEFINITION. Parameters: the tables of every block, the checks of 00 R10, who may read and write (14 R393), staged
values, commits and apply points (14 R391).
-/

namespace Sys2Proof.Machine

/-- What indexes a parameter family (00 R8, 14 R393). -/
inductive Own where
  | scalar | part | site | chan | lane | grp | dps | cu | trg | hs | xtrig | ms | conv17 | conv | cset
  | rse | rseLayer | rseRect | mark | eng | mc | stack | pc | dom | port | ntrg | chime | slane | nlane | hport
  | sensor | src | ts
  deriving DecidableEq, Repr

/-- Elements of a family. -/
def Own.count : Own → Nat
  | .scalar => 1 | .part => 16 | .site => 128 | .chan => 512 | .lane => 528 | .grp => 16 | .dps => 18
  | .cu => 16 | .trg => 32 | .hs => 64 | .xtrig => 2 | .ms => 256 | .conv17 => 17 | .conv => 16 | .cset => 256
  | .rse => 4 | .rseLayer => 8 | .rseRect => 64 | .mark => 8 | .eng => 32 | .mc => 32 | .stack => 2 | .pc => 64
  | .dom => 2 | .port => 6 | .ntrg => 256 | .chime => 4 | .slane => 38 | .nlane => 6 | .hport => 4
  | .sensor => 48 | .src => 1536 | .ts => 1024

inductive PAcc where
  | rw | ro | rl
  deriving DecidableEq, Repr

/-- Apply points (14 R391) and the named ones of the tables. -/
inductive Apply where
  | commit | between | blanking | reset | nglConfig | training | detect | rowMode
  deriving DecidableEq, Repr

/-- The values a parameter takes (00 R10). -/
inductive Rng where
  | any
  | range (lo hi : Int)
  | rangeOr (lo hi x : Int)
  /-- Bit fields: bits outside the mask are ignored and read 0. -/
  | mask (m : Nat)
  | oneOf (l : List Int)
  | pow2 (hi : Nat)
  | multiple (k : Nat)
  /-- A range that is `lo`–`lv` on a low-voltage channel and `lo`–`hv` on a high-voltage one (05 R164). -/
  | dps (lo lv hv : Int)
  /-- EVT_CFG: REACT 0 or 2–5, MASK_NOTE, FORCE (16 R457). -/
  | evtCfg
  /-- MS_START and MS_STOP (07 R240). -/
  | edgeSel
  /-- RSE_CH: slots 0x00–0x22 (09 R261, R273). -/
  | rseCh
  deriving DecidableEq, Repr

structure PRow where
  name    : String
  num     : Nat
  span    : Nat
  own     : Own
  acc     : PAcc
  apply   : Apply
  reset   : Int
  rng     : Rng
  sysOnly : Bool
  secure  : Bool
  deriving DecidableEq, Repr

/-- One row of a block's table. -/
def mkRow (name : String) (num span : Nat) (own : Own) (acc : PAcc) (apply : Apply) (reset : Int) (rng : Rng)
    (sysOnly secure : Bool) : PRow :=
  { name, num, span, own, acc, apply, reset, rng, sysOnly, secure }

/-- Parameters of block SYS (14 R405), part 1. -/
def rowsSys1 : List PRow := [
  mkRow "RESET_ESCALATE" 0x001 1 .scalar .rw .commit 0 (.mask 0x1) true false,
  mkRow "HANDOVER_DRAIN" 0x002 1 .scalar .rw .commit 100 (.range 10 1000) true false,
  mkRow "SYS_PART" 0x003 1 .scalar .ro .commit 0 .any false false,
  mkRow "STAGED_COUNT" 0x004 1 .part .ro .commit 0 .any false false,
  mkRow "CPL_HELD_COUNT" 0x005 1 .part .ro .commit 0 .any false false,
  mkRow "CTRL_SSC" 0x006 1 .scalar .rw .reset 1 (.mask 0x1) true false ]

/-- Parameters of block SYS (14 R405). -/
def rowsSys : List PRow := rowsSys1

/-- Parameters of block VE (02 R85), part 1. -/
def rowsVe1 : List PRow := [
  mkRow "UCODE_VERSION" 0x001 1 .scalar .ro .commit 0 .any false false,
  mkRow "ENG_STATE" 0x002 1 .eng .ro .commit 0 .any false false,
  mkRow "ENG_SITE" 0x003 1 .eng .ro .commit 0 .any false false,
  mkRow "MCHK_COUNT" 0x004 1 .eng .ro .commit 0 .any false false,
  mkRow "LS_CORR_COUNT" 0x005 1 .eng .ro .commit 0 .any false false,
  mkRow "JF_SCOPE" 0x010 1 .site .rw .between 0 (.mask 0x1FFFF) false false,
  mkRow "FS_SCOPE" 0x011 1 .site .rw .between 0 (.mask 0x1FFFF) false false,
  mkRow "MARK_DELAY" 0x020 1 .mark .ro .commit 0 .any false false,
  mkRow "MARK_SITE" 0x021 1 .mark .rw .between 0xFFFF (.rangeOr 0 127 65535) false false ]

/-- Parameters of block VE (02 R85). -/
def rowsVe : List PRow := rowsVe1

/-- Parameters of block TMG (04 R147), part 1. -/
def rowsTmg1 : List PRow := [
  mkRow "PLL_STATE" 0x001 1 .grp .ro .commit 0 .any false false,
  mkRow "ISL_TEMP" 0x002 1 .grp .ro .commit 0 .any false false,
  mkRow "CAL_TEMP" 0x003 1 .grp .ro .commit 0 .any false false,
  mkRow "CAL_STALE" 0x004 1 .grp .ro .commit 0 .any false false,
  mkRow "STALE_POLICY" 0x005 1 .grp .rw .between 1 (.mask 0x1) false false,
  mkRow "START_LATENCY" 0x006 1 .scalar .ro .commit 0 .any false false,
  mkRow "BANK_STATE" 0x007 1 .grp .ro .commit 0 .any false false,
  mkRow "MUX_MODE" 0x010 1 .chan .rw .between 0 (.range 0 2) false false,
  mkRow "RSMP_GROUPS" 0x011 1 .site .rw .between 0 (.mask 0xFFFF) false false,
  mkRow "CH_DRV_OFS" 0x012 1 .chan .rw .between 0 (.range (-32768) 32767) false false,
  mkRow "CH_CMP_OFS" 0x013 1 .chan .rw .between 0 (.range (-32768) 32767) false false,
  mkRow "LANE_MAP" 0x020 1 .grp .ro .commit 0 .any false false,
  mkRow "LANE_FENCED" 0x021 1 .lane .ro .commit 0 .any false false,
  mkRow "TC_CORR" 0x030 1 .lane .ro .commit 0 .any false false,
  mkRow "DSK_TOTAL_D" 0x031 1 .lane .ro .commit 0 .any false false,
  mkRow "DSK_TOTAL_C" 0x032 1 .lane .ro .commit 0 .any false false,
  mkRow "TC_COEF" 0x033 1 .lane .ro .commit 0 .any false false,
  mkRow "EB_MIN_FILL" 0x040 1 .site .ro .commit 0 .any false false,
  mkRow "TS_OWNER" 0x041 1 .ts .ro .commit 0 .any false false ]

/-- Parameters of block TMG (04 R147). -/
def rowsTmg : List PRow := rowsTmg1

/-- Parameters of block PFE (05 R183), part 1. -/
def rowsPfe1 : List PRow := [
  mkRow "VIH" 0x001 1 .chan .rw .between 12000 (.range 0 64000) false false,
  mkRow "VIL" 0x002 1 .chan .rw .between 12000 (.range 0 64000) false false,
  mkRow "VTT" 0x003 1 .chan .rw .between 12000 (.range 0 64000) false false,
  mkRow "VCH" 0x004 1 .chan .rw .between 12000 (.range 0 64000) false false,
  mkRow "VCL" 0x005 1 .chan .rw .between 12000 (.range 0 64000) false false,
  mkRow "VCOM" 0x006 1 .chan .rw .between 12000 (.range 0 64000) false false,
  mkRow "ILOAD_SRC" 0x007 1 .chan .rw .between 0 (.range 0 48000) false false,
  mkRow "ILOAD_SNK" 0x008 1 .chan .rw .between 0 (.range 0 48000) false false,
  mkRow "CMP_HYST" 0x009 1 .chan .rw .between 40 (.range 0 400) false false,
  mkRow "CONN" 0x00A 1 .chan .rw .between 0 (.range 0 2) false false,
  mkRow "OFF_TERM" 0x00B 1 .chan .rw .between 0 (.mask 0x1) false false,
  mkRow "IDLE_MODE" 0x00C 1 .chan .rw .between 0 (.range 0 4) false false,
  mkRow "STOP_MODE" 0x00D 1 .chan .rw .between 1 (.range 0 4) false false,
  mkRow "SAFE_MODE" 0x00E 1 .chan .rw .between 0 (.range 0 4) false false,
  mkRow "PMU_MODE" 0x010 1 .grp .rw .between 0 (.range 0 2) false false,
  mkRow "PMU_FORCE_V" 0x011 1 .grp .rw .between 12000 (.range 0 64000) false false,
  mkRow "PMU_FORCE_I" 0x012 1 .grp .rw .between 0 (.range (-32000) 32000) false false,
  mkRow "PMU_IRANGE" 0x013 1 .grp .rw .between 4 (.range 0 4) false false,
  mkRow "PMU_CLAMP_HI" 0x014 1 .grp .rw .between 64000 (.range 0 64000) false false,
  mkRow "PMU_CLAMP_LO" 0x015 1 .grp .rw .between 0 (.range 0 64000) false false ]

/-- Parameters of block PFE (05 R183), part 2. -/
def rowsPfe2 : List PRow := [
  mkRow "PMU_ICLAMP" 0x016 1 .grp .rw .between 32000 (.range 1600 32000) false false,
  mkRow "PMU_SENSE" 0x017 1 .grp .rw .between 0 (.mask 0x1) false false,
  mkRow "PMU_STATE" 0x018 1 .grp .ro .commit 0 .any false false,
  mkRow "LANE_STATUS" 0x020 1 .lane .ro .commit 0 .any false false ]

/-- Parameters of block PFE (05 R183). -/
def rowsPfe : List PRow := rowsPfe1 ++ rowsPfe2

/-- Parameters of block DPS (05 R184), part 1. -/
def rowsDps1 : List PRow := [
  mkRow "DPS_SITE" 0x001 1 .dps .ro .commit 0 .any false false,
  mkRow "VOUT_SET" 0x002 1 .dps .rw .between 0 (.range 0 64000) false false,
  mkRow "ILIM_SRC" 0x003 1 .dps .rw .between 10 (.dps 10 10000 1000) false false,
  mkRow "ILIM_SNK" 0x004 1 .dps .rw .between 10 (.dps 10 2000 200) false false,
  mkRow "IRANGE" 0x005 1 .dps .rw .between 0 (.dps 0 3 2) false false,
  mkRow "RAMP_UP" 0x006 1 .dps .rw .between 100 (.range 1 10000) false false,
  mkRow "RAMP_DN" 0x007 1 .dps .rw .between 100 (.range 1 10000) false false,
  mkRow "SLOPE_K" 0x008 1 .dps .rw .between 75 (.range 50 150) false false,
  mkRow "COMP" 0x009 1 .dps .rw .between 0 (.range 0 3) false false,
  mkRow "SETTLE_TIME" 0x00A 1 .dps .rw .between 100 (.range 1 100000) false false,
  mkRow "SETTLE_TIMEOUT" 0x00B 1 .dps .rw .between 50 (.range 1 10000) false false,
  mkRow "VWIN_HI" 0x010 1 .dps .rw .between 64000 (.range 0 64000) false false,
  mkRow "VWIN_LO" 0x011 1 .dps .rw .between 0 (.range 0 64000) false false,
  mkRow "IWIN_HI" 0x012 1 .dps .rw .between 10000 (.dps 0 10000 1000) false false,
  mkRow "WIN_HYST" 0x013 1 .dps .rw .between 160 (.range 0 1600) false false,
  mkRow "WIN_DWELL" 0x014 1 .dps .rw .between 10 (.range 0 100000) false false,
  mkRow "FAULT_ACTION" 0x015 1 .dps .rw .between 1 (.range 0 2) false false,
  mkRow "WIN_STATE" 0x016 1 .dps .ro .commit 0 .any false false,
  mkRow "DISCH_RATE" 0x017 1 .dps .rw .between 100 (.range 1 10000) false false,
  mkRow "SENSE_MODE" 0x018 1 .dps .rw .between 1 (.mask 0x1) false false ]

/-- Parameters of block DPS (05 R184), part 2. -/
def rowsDps2 : List PRow := [
  mkRow "DPS_STATE" 0x019 1 .dps .ro .commit 0 .any false false,
  mkRow "DPS_DEMAND" 0x01A 1 .dps .ro .commit 0 .any false false ]

/-- Parameters of block DPS (05 R184). -/
def rowsDps : List PRow := rowsDps1 ++ rowsDps2

/-- Parameters of block CAP (06 R217), part 1. -/
def rowsCap1 : List PRow := [
  mkRow "FAIL_COUNT" 0x001 1 .site .rl .commit 0 .any false false,
  mkRow "FAIL_COUNT_HI" 0x002 1 .site .ro .commit 0 .any false false,
  mkRow "FIRST_FAIL" 0x003 1 .site .rl .commit 0 .any false false,
  mkRow "FIRST_FAIL_HI" 0x004 1 .site .ro .commit 0 .any false false,
  mkRow "LOG_MODE" 0x010 1 .site .rw .between 0 (.range 0 2) false false,
  mkRow "LOG_BASE" 0x011 1 .site .rw .between 0 (.range 0 4294967295) false false,
  mkRow "LOG_SIZE" 0x012 1 .site .rw .between 1 (.range 1 524288) false false,
  mkRow "LOG_HOLD" 0x013 1 .site .rw .between 0 (.mask 0x1) false false,
  mkRow "LOG_STREAM" 0x014 1 .site .rw .between 0xFF (.rangeOr 0 7 255) false false,
  mkRow "LOG_STATUS" 0x015 1 .site .ro .commit 0 .any false false,
  mkRow "STREAM_AUTO" 0x018 1 .site .rw .between 0xFF (.mask 0xFF) false false,
  mkRow "SITE_STREAM" 0x020 8 .site .rw .between 0xFF (.rangeOr 0 63 255) false false,
  mkRow "CH_FAIL_COUNT" 0x030 1 .chan .ro .commit 0 .any false false,
  mkRow "CU_SITE" 0x040 1 .cu .rw .between 0xFFFF (.rangeOr 0 127 65535) false false,
  mkRow "CU_CH" 0x041 4 .cu .rw .between 0xFFFF (.rangeOr 0 511 65535) false false,
  mkRow "CU_MODE" 0x045 1 .cu .rw .between 0 (.range 0 2) false false,
  mkRow "CU_SELECT" 0x046 1 .cu .rw .between 0 (.range 0 1) false false,
  mkRow "CU_BASE" 0x047 1 .cu .rw .between 0 (.range 0 4294967295) false false,
  mkRow "CU_SIZE" 0x048 1 .cu .rw .between 1 (.pow2 262144) false false,
  mkRow "CU_PRE" 0x049 1 .cu .rw .between 0 (.range 0 4294967295) false false ]

/-- Parameters of block CAP (06 R217), part 2. -/
def rowsCap2 : List PRow := [
  mkRow "CU_POST" 0x04A 1 .cu .rw .between 0 (.range 0 4294967295) false false,
  mkRow "CU_TRIG" 0x04B 1 .cu .rw .between 0xFF (.rangeOr 0 31 255) false false,
  mkRow "CU_STREAM" 0x04C 1 .cu .rw .between 0 (.range 0 7) false false,
  mkRow "CU_STATUS" 0x04D 1 .cu .ro .commit 0 .any false false,
  mkRow "TRG_SITE" 0x060 1 .trg .rw .between 0xFFFF (.rangeOr 0 127 65535) false false,
  mkRow "TRG_SRC" 0x061 1 .trg .rw .between 0 (.range 0 7) false false,
  mkRow "TRG_ARG" 0x062 1 .trg .rw .between 0 (.range 0 511) false false,
  mkRow "HO_MODE" 0x063 1 .trg .rw .between 0 (.range 0 2) false false,
  mkRow "HO_VALUE" 0x064 1 .trg .rw .between 1 (.range 1 4294967295) false false,
  mkRow "WIN_LO" 0x065 1 .trg .rw .between 0 (.range 0 4294967295) false false,
  mkRow "WIN_HI" 0x066 1 .trg .rw .between 0xFFFFFFFF (.range 0 4294967295) false false,
  mkRow "TRG_EXPORT" 0x067 1 .trg .rw .between 0 (.mask 0x1FF) false false,
  mkRow "EXPORT_LEAD" 0x068 1 .trg .rw .between 500 (.range 50 1000000) false false,
  mkRow "TRG_STREAM" 0x069 1 .trg .rw .between 0xFF (.rangeOr 0 7 255) false false,
  mkRow "TRG_COUNT" 0x06A 1 .trg .ro .commit 0 .any false false,
  mkRow "TRG_IGNORED" 0x06B 1 .trg .ro .commit 0 .any false false,
  mkRow "HS_STATE" 0x080 1 .hs .ro .commit 0 .any false false,
  mkRow "HS_LOST" 0x081 1 .hs .ro .commit 0 .any false false,
  mkRow "HS_OWNER" 0x082 1 .hs .ro .commit 0 .any false false,
  mkRow "CAP_DELAY" 0x0A0 1 .scalar .ro .commit 0 .any false false ]

/-- Parameters of block CAP (06 R217), part 3. -/
def rowsCap3 : List PRow := [
  mkRow "XTRIG_TERM" 0x0A1 1 .xtrig .rw .commit 0 (.mask 0x1) false false,
  mkRow "XTRIG_SITE" 0x0A2 1 .xtrig .rw .between 0xFFFF (.rangeOr 0 127 65535) false false ]

/-- Parameters of block CAP (06 R217). -/
def rowsCap : List PRow := rowsCap1 ++ rowsCap2 ++ rowsCap3

/-- Parameters of block RSE (09 R273), part 1. -/
def rowsRse1 : List PRow := [
  mkRow "RSE_SITE" 0x001 1 .rse .rw .between 0xFFFF (.rangeOr 0 127 65535) false false,
  mkRow "RSE_MODE" 0x002 1 .rse .rw .between 0x00 (.range 0 9) false false,
  mkRow "RSE_FRAC" 0x003 1 .rse .rw .between 0 (.mask 0x1) false false,
  mkRow "RSE_SER" 0x004 1 .rse .rw .between 1 (.oneOf [1, 2, 4]) false false,
  mkRow "RSE_MUX" 0x005 1 .rse .rw .between 2 (.range 1 2) false false,
  mkRow "OUT_FMT" 0x006 1 .rse .rw .between 1 (.range 0 2) false false,
  mkRow "RSE_COMPAT" 0x007 1 .rse .rw .between 0 (.mask 0x1) false false,
  mkRow "RSE_STREAM" 0x008 1 .rse .rw .between 0xFF (.rangeOr 0 7 255) false false,
  mkRow "CHK_SYNC" 0x009 1 .rse .rw .between 1 (.mask 0x1) false false,
  mkRow "CHK_DELAY" 0x00A 1 .rse .rw .between 0 (.range 0 65535) false false,
  mkRow "CHK_SKIP" 0x00B 1 .rse .rw .between 2 (.range 0 255) false false,
  mkRow "L_EN" 0x010 1 .rseLayer .rw .blanking 0 (.mask 0x1) false false,
  mkRow "L_FMT" 0x011 1 .rseLayer .rw .blanking 1 (.range 0 4) false false,
  mkRow "L_BASE" 0x012 1 .rseLayer .rw .blanking 0 (.range 0 4294967295) false false,
  mkRow "L_STRIDE" 0x013 1 .rseLayer .rw .blanking 0 (.multiple 64) false false,
  mkRow "L1_RECT" 0x014 1 .rse .rw .blanking 0 (.range 0 4294967295) false false,
  mkRow "L1_SIZE" 0x015 1 .rse .rw .blanking 0 (.range 0 4294967295) false false,
  mkRow "L1_ALPHA" 0x016 1 .rse .rw .blanking 255 (.range 0 255) false false,
  mkRow "BG_COLOUR" 0x017 1 .rse .rw .blanking 0 (.mask 0x3FFFFFFF) false false,
  mkRow "RECT_POS" 0x020 1 .rseRect .rw .blanking 0 (.range 0 4294967295) false false ]

/-- Parameters of block RSE (09 R273), part 2. -/
def rowsRse2 : List PRow := [
  mkRow "RECT_SIZE" 0x021 1 .rseRect .rw .blanking 0 (.range 0 4294967295) false false,
  mkRow "RECT_CRC" 0x022 1 .rseRect .rw .blanking 0 (.range 0 4294967295) false false,
  mkRow "RSE_CH" 0x030 1 .chan .rw .between 0 .rseCh false false,
  mkRow "LAT_TOL" 0x040 1 .rse .ro .commit 0 .any false false,
  mkRow "UNDERRUN_PIX" 0x041 1 .rse .ro .commit 0 .any false false,
  mkRow "RSE_STATE" 0x042 1 .rse .ro .commit 0 .any false false ]

/-- Parameters of block RSE (09 R273). -/
def rowsRse : List PRow := rowsRse1 ++ rowsRse2

/-- Parameters of block TMU (07 R240), part 1. -/
def rowsTmu1 : List PRow := [
  mkRow "MS_SITE" 0x001 1 .ms .rw .between 0xFFFF (.rangeOr 0 127 65535) false false,
  mkRow "MS_MODE" 0x002 1 .ms .rw .between 0 (.range 0 4) false false,
  mkRow "MS_START" 0x003 1 .ms .rw .between 0x000203FF .edgeSel false false,
  mkRow "MS_STOP" 0x004 1 .ms .rw .between 0x000203FF .edgeSel false false,
  mkRow "MS_PAIRING" 0x005 1 .ms .rw .between 0 (.range 0 1) false false,
  mkRow "MS_N" 0x006 1 .ms .rw .between 1 (.range 1 4294967295) false false,
  mkRow "MS_STAT_MODE" 0x007 1 .ms .rw .between 0 (.range 0 1) false false,
  mkRow "MS_REF_MODE" 0x008 1 .ms .rw .between 0 (.range 0 1) false false,
  mkRow "MS_GATE" 0x009 1 .ms .rw .between 1000 (.range 1 1000000) false false,
  mkRow "MS_TIMEOUT" 0x00A 1 .ms .rw .between 0 (.range 0 4294967295) false false,
  mkRow "MS_ARM_SRC" 0x00B 1 .ms .rw .between 0 (.range 0 1) false false,
  mkRow "MS_RAW" 0x00C 1 .ms .rw .between 0 (.mask 0x1) false false,
  mkRow "MS_STREAM" 0x00D 1 .ms .rw .between 0xFF (.rangeOr 0 7 255) false false,
  mkRow "MS_STATE" 0x00E 1 .ms .ro .commit 0 .any false false,
  mkRow "RES_SEQ" 0x010 1 .ms .rl .commit 0 .any false false,
  mkRow "RES_FLAGS" 0x011 1 .ms .ro .commit 0 .any false false,
  mkRow "RES_COUNT" 0x012 1 .ms .ro .commit 0 .any false false,
  mkRow "RES_MEAN_LO" 0x013 2 .ms .ro .commit 0 .any false false,
  mkRow "RES_DEV_LO" 0x015 2 .ms .ro .commit 0 .any false false,
  mkRow "RES_MIN_LO" 0x017 2 .ms .ro .commit 0 .any false false ]

/-- Parameters of block TMU (07 R240), part 2. -/
def rowsTmu2 : List PRow := [
  mkRow "RES_MAX_LO" 0x019 2 .ms .ro .commit 0 .any false false,
  mkRow "RES_MISSED" 0x01B 1 .ms .ro .commit 0 .any false false,
  mkRow "RES_IGNORED" 0x01C 1 .ms .ro .commit 0 .any false false,
  mkRow "RES_RAW_LOST" 0x01D 1 .ms .ro .commit 0 .any false false,
  mkRow "MS_OWNER" 0x020 1 .ms .ro .commit 0 .any false false,
  mkRow "OSC_STATE" 0x100 1 .scalar .ro .commit 0 .any false false,
  mkRow "OSC_AGEING" 0x101 1 .scalar .rw .commit 0 (.range (-1000000) 1000000) true false,
  mkRow "OSC_TCOMP" 0x102 1 .scalar .ro .commit 0 .any false false,
  mkRow "OSC_STEER" 0x103 1 .scalar .ro .commit 0 .any false false,
  mkRow "OSC_TOTAL" 0x104 1 .scalar .ro .commit 0 .any false false,
  mkRow "OSC_TEMP" 0x105 1 .scalar .ro .commit 0 .any false false ]

/-- Parameters of block TMU (07 R240). -/
def rowsTmu : List PRow := rowsTmu1 ++ rowsTmu2

/-- Parameters of block PADC (08 R257), part 1. -/
def rowsPadc1 : List PRow := [
  mkRow "PADC_STATE" 0x001 1 .conv17 .ro .commit 0 .any false false,
  mkRow "PADC_OFS" 0x002 1 .conv17 .ro .commit 0 .any false false,
  mkRow "PADC_GAIN" 0x003 1 .conv17 .ro .commit 0 .any false false,
  mkRow "PADC_CAL_TEMP" 0x004 1 .conv17 .ro .commit 0 .any false false,
  mkRow "PADC_CAL_COUNT" 0x005 1 .conv17 .ro .commit 0 .any false false,
  mkRow "PADC_AUTOCAL" 0x006 1 .conv17 .rw .commit 1 (.mask 0x1) false false,
  mkRow "REG_MODE" 0x010 1 .conv .rw .between 0 (.range 0 2) false false,
  mkRow "REG_CONV" 0x011 1 .conv .rw .between 0 (.range 0 15) false false,
  mkRow "REG_INTERVAL" 0x012 1 .conv .rw .between 1000 (.range 1 10000000) false false,
  mkRow "REG_SKIPPED" 0x013 1 .conv .ro .commit 0 .any false false,
  mkRow "CS_INPUT" 0x020 1 .cset .rw .between 0 (.range 0 4) false false,
  mkRow "CS_ORDER" 0x021 1 .cset .rw .between 3 (.range 1 5) false false,
  mkRow "CS_DECIM" 0x022 1 .cset .rw .between 1000 (.range 8 1048576) false false,
  mkRow "CS_AVG" 0x023 1 .cset .rw .between 1 (.range 1 65535) false false,
  mkRow "CS_DELAY" 0x024 1 .cset .rw .between 0 (.range 0 100000) false false,
  mkRow "CS_STREAM" 0x025 1 .cset .rw .between 0xFF (.rangeOr 0 7 255) false false,
  mkRow "INJ_DROP_BUSY" 0x030 1 .conv .ro .commit 0 .any false false,
  mkRow "INJ_DROP_PENDING" 0x031 1 .conv .ro .commit 0 .any false false,
  mkRow "INJ_DROP_CAL" 0x032 1 .conv .ro .commit 0 .any false false,
  mkRow "INJ_ACCEPTED" 0x033 1 .conv .ro .commit 0 .any false false ]

/-- Parameters of block PADC (08 R257), part 2. -/
def rowsPadc2 : List PRow := [
  mkRow "RES_SEQ" 0x040 1 .conv .rl .commit 0 .any false false,
  mkRow "RES_FLAGS" 0x041 1 .conv .ro .commit 0 .any false false,
  mkRow "RES_VALUE" 0x042 1 .conv .ro .commit 0 .any false false,
  mkRow "RES_POS_LO" 0x043 1 .conv .ro .commit 0 .any false false,
  mkRow "RES_POS_HI" 0x044 1 .conv .ro .commit 0 .any false false,
  mkRow "HK_VOUT" 0x080 1 .dps .ro .commit 0 .any false false,
  mkRow "HK_IOUT" 0x081 1 .dps .ro .commit 0 .any false false,
  mkRow "HK_STALE" 0x082 1 .scalar .ro .commit 0 .any false false ]

/-- Parameters of block PADC (08 R257). -/
def rowsPadc : List PRow := rowsPadc1 ++ rowsPadc2

/-- Parameters of block SCH (10 R304), part 1. -/
def rowsSch1 : List PRow := [
  mkRow "SITE_STATE" 0x001 1 .site .ro .commit 0 .any false false,
  mkRow "SITE_ENGINE" 0x002 1 .site .ro .commit 0 .any false false,
  mkRow "SITE_PART" 0x003 1 .site .ro .commit 0 .any false false,
  mkRow "AFF_PATIENCE" 0x004 1 .site .rw .commit 2 (.range 0 1000) false false,
  mkRow "LINK_LEAD" 0x005 1 .site .rw .between 20 (.range 1 10000) false false,
  mkRow "LINK_TIMEOUT" 0x006 1 .site .rw .between 10 (.range 1 1000) false false,
  mkRow "P_BUDGET" 0x010 1 .scalar .ro .commit 0 .any false false,
  mkRow "P_COMMITTED" 0x011 1 .scalar .ro .commit 0 .any false false,
  mkRow "P_SUPPLY" 0x012 1 .scalar .ro .commit 0 .any false false,
  mkRow "P_THERMAL" 0x013 1 .scalar .ro .commit 0 .any false false,
  mkRow "P_LIMIT" 0x014 1 .scalar .rw .commit 40000 (.range 0 40000) true false,
  mkRow "ADMIT_PATIENCE" 0x015 1 .scalar .rw .commit 10 (.range 1 1000) true false,
  mkRow "STOP_GRACE" 0x016 1 .scalar .rw .commit 5 (.range 0 50) true false,
  mkRow "GOV_STATE" 0x017 1 .scalar .ro .commit 0 .any false false,
  mkRow "ENG_POOL" 0x020 1 .scalar .ro .commit 0 .any false false,
  mkRow "ENG_SHARE_EFF" 0x021 1 .part .ro .commit 0 .any false false,
  mkRow "ENG_RUNNING" 0x022 1 .part .ro .commit 0 .any false false,
  mkRow "MS_USED" 0x023 1 .part .ro .commit 0 .any false false,
  mkRow "TOK_USED" 0x024 1 .part .ro .commit 0 .any false false,
  mkRow "TOK_LOST" 0x025 1 .part .ro .commit 0 .any false false ]

/-- Parameters of block SCH (10 R304), part 2. -/
def rowsSch2 : List PRow := [
  mkRow "TOKEN_QUOTA" 0x026 1 .part .rw .commit 128 (.range 0 2048) true false,
  mkRow "QUEUE_DEPTH" 0x100 64 .site .rw .commit 64 (.range 1 4096) false false,
  mkRow "QUEUE_PRIO" 0x140 64 .site .rw .commit 0 (.range 0 7) false false,
  mkRow "QUEUE_ORDER" 0x180 64 .site .rw .commit 0 (.range 0 1) false false,
  mkRow "QUEUE_FILL" 0x1C0 64 .site .ro .commit 0 .any false false ]

/-- Parameters of block SCH (10 R304). -/
def rowsSch : List PRow := rowsSch1 ++ rowsSch2

/-- Parameters of block MEM (03 R117, 11 R322), part 1. -/
def rowsMem1 : List PRow := [
  mkRow "STREAM_CAPACITY" 0x100 1 .scalar .ro .commit 0 .any false false,
  mkRow "STREAM_HELD" 0x101 1 .scalar .ro .commit 0 .any false false,
  mkRow "PART_STREAM_HELD" 0x102 1 .part .ro .commit 0 .any false false,
  mkRow "LS_FREE" 0x103 1 .eng .ro .commit 0 .any false false,
  mkRow "STRETCH_LIMIT" 0x110 1 .site .rw .between 1000 (.range 0 1000000) false false,
  mkRow "UNDERRUN_COUNT" 0x111 1 .site .ro .commit 0 .any false false,
  mkRow "STRETCH_COUNT" 0x112 1 .site .ro .commit 0 .any false false,
  mkRow "MEM_SIZE" 0x001 1 .scalar .ro .commit 0 .any false false,
  mkRow "MC_STATE" 0x002 1 .mc .ro .commit 0 .any false false,
  mkRow "STACK_TEMP" 0x003 1 .stack .ro .commit 0 .any false false,
  mkRow "STACK_STATE" 0x004 1 .stack .ro .commit 0 .any false false,
  mkRow "REF_OWED" 0x005 1 .pc .ro .commit 0 .any false false,
  mkRow "ROW_MODE" 0x006 1 .mc .rw .rowMode 1 (.range 0 1) true false,
  mkRow "ECC_CORR_COUNT" 0x007 1 .mc .ro .commit 0 .any false false,
  mkRow "ECC_UE_COUNT" 0x008 1 .mc .ro .commit 0 .any false false,
  mkRow "PAR_REPLAY_COUNT" 0x009 1 .mc .ro .commit 0 .any false false,
  mkRow "RETRAIN_PERIOD" 0x00A 1 .scalar .rw .commit 100 (.range 10 10000) true false,
  mkRow "RETRAIN_MAX_DEFER" 0x00B 1 .scalar .rw .commit 1000 (.range 0 10000) true false,
  mkRow "LAST_TRAIN" 0x00C 1 .mc .rl .commit 0 .any false false,
  mkRow "LAST_TRAIN_HI" 0x00D 1 .mc .ro .commit 0 .any false false ]

/-- Parameters of block MEM (03 R117, 11 R322), part 2. -/
def rowsMem2 : List PRow := [
  mkRow "TRAIN_FLAGS" 0x00E 1 .mc .ro .commit 0 .any false false,
  mkRow "PC_POWER" 0x010 1 .pc .ro .commit 0 .any false false,
  mkRow "LP_ENABLE" 0x011 1 .scalar .rw .commit 1 (.mask 0x1) true false,
  mkRow "DMA_TOL" 0x012 1 .scalar .rw .commit 10 (.range 1 1000) true false,
  mkRow "PPR_PENDING" 0x020 1 .mc .ro .commit 0 .any false false,
  mkRow "PPR_LEFT" 0x021 1 .mc .ro .commit 0 .any false false,
  mkRow "PPR_AUTO" 0x022 1 .scalar .rw .commit 0 (.mask 0x1) true false,
  mkRow "PART_HBM_PAGES" 0x030 1 .part .ro .commit 0 .any false false,
  mkRow "PART_HBM_FREE" 0x031 1 .part .ro .commit 0 .any false false,
  mkRow "PART_HBM_POISON" 0x032 1 .part .ro .commit 0 .any false false,
  mkRow "STREAM_ADMIT" 0x040 1 .scalar .ro .commit 0 .any false false ]

/-- Parameters of block MEM (03 R117, 11 R322). -/
def rowsMem : List PRow := rowsMem1 ++ rowsMem2

/-- Parameters of block NGL (12 R356, 13 R374), part 1. -/
def rowsNgl1 : List PRow := [
  mkRow "NGL_MODE" 0x001 1 .scalar .rw .nglConfig 0 (.range 0 2) true false,
  mkRow "NODE_ADDR" 0x002 1 .scalar .rw .nglConfig 0 (.range 0 16383) true false,
  mkRow "MAX_DEPTH" 0x003 1 .scalar .rw .nglConfig 32 (.range 2 32) true false,
  mkRow "DOMAIN_ROLE" 0x004 1 .dom .rw .nglConfig 0 (.range 0 1) true false,
  mkRow "PORT_STANDBY" 0x005 1 .scalar .rw .nglConfig 0 (.mask 0x3F) true false,
  mkRow "MASTER_FOLLOW" 0x006 1 .scalar .rw .commit 0 (.mask 0x1) true false,
  mkRow "PORT_STATE" 0x010 1 .port .ro .commit 0 .any false false,
  mkRow "LINK_DELAY" 0x011 1 .port .ro .commit 0 .any false false,
  mkRow "LINK_ASYM" 0x012 1 .port .rw .commit 0 (.range (-2000000) 2000000) true false,
  mkRow "FAR_ADDR" 0x013 1 .port .ro .commit 0 .any false false,
  mkRow "C0_XOFF_COUNT" 0x014 1 .port .ro .commit 0 .any false false,
  mkRow "CRC_ERR_COUNT" 0x015 1 .port .ro .commit 0 .any false false,
  mkRow "DOMAIN_SEL" 0x020 1 .scalar .ro .commit 0 .any false false,
  mkRow "DOMAIN_PREF" 0x021 1 .scalar .rw .commit 0 (.range 0 1) true false,
  mkRow "REVERT" 0x022 1 .scalar .rw .commit 1 (.mask 0x1) true false,
  mkRow "OFFSET_SLEW" 0x023 1 .scalar .rw .commit 0 (.range 0 1000) true false,
  mkRow "APPLIED_OFS" 0x024 1 .scalar .rl .commit 0 .any false false,
  mkRow "APPLIED_OFS_HI" 0x025 1 .scalar .ro .commit 0 .any false false,
  mkRow "DOMAIN_DIFF" 0x026 1 .dom .rl .commit 0 .any false false,
  mkRow "DOMAIN_DIFF_HI" 0x027 1 .dom .ro .commit 0 .any false false ]

/-- Parameters of block NGL (12 R356, 13 R374), part 2. -/
def rowsNgl2 : List PRow := [
  mkRow "MASTER_ADDR" 0x028 1 .dom .ro .commit 0 .any false false,
  mkRow "HOPS" 0x029 1 .dom .ro .commit 0 .any false false,
  mkRow "TIME_STATE" 0x02A 1 .scalar .ro .commit 0 .any false false,
  mkRow "MT_LO" 0x02B 1 .scalar .rl .commit 0 .any false false,
  mkRow "MT_HI" 0x02C 1 .scalar .ro .commit 0 .any false false,
  mkRow "NTRG_OWNER" 0x030 1 .ntrg .ro .commit 0 .any false false,
  mkRow "NTRG_SITE" 0x031 1 .ntrg .rw .between 0xFFFF (.rangeOr 0 127 65535) false false,
  mkRow "NTRG_RX_COUNT" 0x032 1 .ntrg .ro .commit 0 .any false false,
  mkRow "NTRG_LATE_COUNT" 0x033 1 .ntrg .ro .commit 0 .any false false,
  mkRow "STOP_ACCEPT" 0x040 1 .part .rw .commit 1 (.mask 0x1) true false,
  mkRow "ALARM_SINK" 0x041 1 .scalar .rw .commit 0 (.mask 0xBFFF) true false,
  mkRow "LOG_SINK" 0x042 1 .scalar .rw .commit 0 (.mask 0xBFFF) true false,
  mkRow "C3_DROPPED" 0x043 1 .scalar .ro .commit 0 .any false false,
  mkRow "NO_ROUTE_COUNT" 0x044 1 .scalar .ro .commit 0 .any false false,
  mkRow "TOD_SEC" 0x050 1 .scalar .rl .commit 0 .any false false,
  mkRow "TOD_SEC_HI" 0x051 1 .scalar .ro .commit 0 .any false false,
  mkRow "TOD_MT_LO" 0x052 1 .scalar .ro .commit 0 .any false false,
  mkRow "TOD_MT_HI" 0x053 1 .scalar .ro .commit 0 .any false false,
  mkRow "CHIME_STATE" 0x060 1 .chime .ro .commit 0 .any false false,
  mkRow "CHIME_DELAY" 0x061 1 .chime .ro .commit 0 .any false false ]

/-- Parameters of block NGL (12 R356, 13 R374), part 3. -/
def rowsNgl3 : List PRow := [
  mkRow "LANE_STATE" 0x080 1 .slane .ro .commit 0 .any false false,
  mkRow "LANE_CLK_MODE" 0x081 1 .nlane .rw .training 1 (.range 0 1) true false,
  mkRow "HOST_CLK_MODE" 0x082 1 .hport .rw .detect 0 (.range 0 2) true false,
  mkRow "LANE_SSC" 0x083 1 .nlane .rw .training 0 (.mask 0x1) true false,
  mkRow "LANE_TX_PRESET" 0x084 1 .nlane .rw .training 0xF (.rangeOr 0 10 15) true false,
  mkRow "RETRAIN_COUNT" 0x085 1 .slane .ro .commit 0 .any false false,
  mkRow "PPM_OFFSET" 0x086 1 .nlane .ro .commit 0 .any false false,
  mkRow "LANE_C0_LOST" 0x087 1 .nlane .ro .commit 0 .any false false,
  mkRow "PRBS_ERR" 0x088 1 .slane .rl .commit 0 .any false false,
  mkRow "PRBS_ERR_HI" 0x089 1 .slane .ro .commit 0 .any false false,
  mkRow "PRBS_BITS" 0x08A 1 .slane .ro .commit 0 .any false false,
  mkRow "PRBS_BITS_HI" 0x08B 1 .slane .ro .commit 0 .any false false,
  mkRow "PRBS_RELOCK" 0x08C 1 .slane .ro .commit 0 .any false false,
  mkRow "MARGIN_OWNER" 0x08D 1 .hport .rw .detect 0 (.range 0 1) true false,
  mkRow "TRAIN_TIMEOUT" 0x090 1 .scalar .rw .commit 50 (.range 10 1000) true false,
  mkRow "RETRY_INTERVAL" 0x091 1 .scalar .rw .commit 1000 (.range 100 60000) true false,
  mkRow "STANDBY_CHECK" 0x092 1 .scalar .rw .commit 100 (.range 1 10000) true false ]

/-- Parameters of block NGL (12 R356, 13 R374). -/
def rowsNgl : List PRow := rowsNgl1 ++ rowsNgl2 ++ rowsNgl3

/-- Parameters of block HLT (15 R431, 16 R457), part 1. -/
def rowsHlt1 : List PRow := [
  mkRow "VIN_FILT" 0x001 1 .scalar .ro .commit 0 .any false false,
  mkRow "VIN_WARN" 0x002 1 .scalar .rw .commit 4000 (.range 960 5760) true false,
  mkRow "VIN_STATE" 0x003 1 .scalar .ro .commit 0 .any false false,
  mkRow "IIN" 0x004 1 .scalar .ro .commit 0 .any false false,
  mkRow "P_IN" 0x005 1 .scalar .ro .commit 0 .any false false,
  mkRow "P_IDLE" 0x006 1 .scalar .ro .commit 0 .any false false,
  mkRow "HP_STATE" 0x010 1 .scalar .ro .commit 0 .any false false,
  mkRow "SHED_PRIO" 0x011 1 .site .rw .between 4 (.range 0 7) true false,
  mkRow "SHED_STATE" 0x012 1 .site .ro .commit 0 .any false false,
  mkRow "SNS_TEMP" 0x020 1 .sensor .ro .commit 0 .any false false,
  mkRow "SNS_RAW" 0x021 1 .sensor .ro .commit 0 .any false false,
  mkRow "SNS_STATE" 0x022 1 .sensor .ro .commit 0 .any false false,
  mkRow "T_DIE" 0x030 1 .scalar .ro .commit 0 .any false false,
  mkRow "T_HBM" 0x031 1 .stack .ro .commit 0 .any false false,
  mkRow "THERM_STATE" 0x032 1 .scalar .ro .commit 0 .any false false,
  mkRow "TRIP_SOURCE" 0x033 1 .scalar .ro .commit 0 .any false false,
  mkRow "EVT_CFG" 0x100 1 .src .rw .commit 0 .evtCfg true true,
  mkRow "EVT_COUNT" 0x101 1 .src .ro .commit 0 .any false false,
  mkRow "CONSEQ_COUNT" 0x102 1 .src .ro .commit 0 .any false false,
  mkRow "GONG_STATE" 0x103 1 .scalar .ro .commit 0 .any false false ]

/-- Parameters of block HLT (15 R431, 16 R457), part 2. -/
def rowsHlt2 : List PRow := [
  mkRow "TABOR_STATE" 0x104 1 .scalar .ro .commit 0 .any false false,
  mkRow "FATAL_STATE" 0x105 1 .scalar .ro .commit 0 .any false false,
  mkRow "EVT_HELD" 0x106 1 .part .ro .commit 0 .any false false,
  mkRow "FW_BANK" 0x110 1 .scalar .ro .commit 0 .any false false,
  mkRow "FW_VER_A" 0x111 1 .scalar .ro .commit 0 .any false false,
  mkRow "FW_VER_B" 0x112 1 .scalar .ro .commit 0 .any false false,
  mkRow "FW_WDOG" 0x113 1 .scalar .rw .commit 500 (.range 100 5000) true false,
  mkRow "SVC_STATE" 0x120 1 .scalar .ro .commit 0 .any false false ]

/-- Parameters of block HLT (15 R431, 16 R457). -/
def rowsHlt : List PRow := rowsHlt1 ++ rowsHlt2

/-- Parameters of block CAL (17 R477), part 1. -/
def rowsCal1 : List PRow := [
  mkRow "CALREF_V_VALUE" 0x001 1 .scalar .rw .commit 0 (.rangeOr 2000000 5000000 0) true false,
  mkRow "CALREF_T_PERIOD" 0x002 1 .scalar .rw .commit 0 (.rangeOr 10000000 100000000 0) true false,
  mkRow "STORE_MIN_INTERVAL" 0x003 1 .scalar .rw .commit 600 (.range 60 86400) true false,
  mkRow "STORE_STATE" 0x004 1 .scalar .ro .commit 0 .any false false,
  mkRow "STORE_GEN" 0x005 1 .scalar .ro .commit 0 .any false false,
  mkRow "STORE_WRITES" 0x006 1 .scalar .ro .commit 0 .any false false,
  mkRow "STAT_MIN_TRANS" 0x007 1 .scalar .rw .commit 65536 (.range 4096 16777216) true false,
  mkRow "REF_STATE" 0x010 1 .grp .ro .commit 0 .any false false,
  mkRow "REF_COUNT" 0x011 1 .grp .ro .commit 0 .any false false,
  mkRow "REF_REJECT_COUNT" 0x012 1 .grp .ro .commit 0 .any false false,
  mkRow "REF_LAST" 0x013 1 .grp .rl .commit 0 .any false false,
  mkRow "REF_LAST_HI" 0x014 1 .grp .ro .commit 0 .any false false,
  mkRow "REF_LAST_TAI" 0x015 1 .grp .ro .commit 0 .any false false,
  mkRow "DPS_REF_STATE" 0x020 1 .dps .ro .commit 0 .any false false,
  mkRow "DPS_REF_COUNT" 0x021 1 .dps .ro .commit 0 .any false false,
  mkRow "DPS_REF_REJECT_COUNT" 0x022 1 .dps .ro .commit 0 .any false false,
  mkRow "DPS_REF_LAST" 0x023 1 .dps .rl .commit 0 .any false false,
  mkRow "DPS_REF_LAST_HI" 0x024 1 .dps .ro .commit 0 .any false false,
  mkRow "DPS_REF_LAST_TAI" 0x025 1 .dps .ro .commit 0 .any false false,
  mkRow "DPS_CAL_TEMP" 0x026 1 .dps .ro .commit 0 .any false false ]

/-- Parameters of block CAL (17 R477), part 2. -/
def rowsCal2 : List PRow := [
  mkRow "DPS_STALE_POLICY" 0x027 1 .dps .rw .between 1 (.mask 0x1) false false,
  mkRow "STAT_EN" 0x030 1 .chan .rw .between 1 (.mask 0x1) false false,
  mkRow "STAT_DSK_D" 0x031 1 .lane .ro .commit 0 .any false false,
  mkRow "STAT_DSK_C" 0x032 1 .lane .ro .commit 0 .any false false,
  mkRow "STAT_COUNT" 0x033 1 .grp .ro .commit 0 .any false false,
  mkRow "STAT_LAST" 0x034 1 .grp .rl .commit 0 .any false false,
  mkRow "STAT_LAST_HI" 0x035 1 .grp .ro .commit 0 .any false false ]

/-- Parameters of block CAL (17 R477). -/
def rowsCal : List PRow := rowsCal1 ++ rowsCal2

/-- The table of a block; none for a reserved code and for SUP, which has no parameter (00 R9). -/
def blockRows : Nat → List PRow
  | 0 => rowsSys | 1 => rowsVe | 2 => rowsTmg | 3 => rowsPfe | 4 => rowsDps | 5 => rowsCap | 6 => rowsRse
  | 7 => rowsTmu | 8 => rowsPadc | 9 => rowsSch | 10 => rowsMem | 11 => rowsNgl | 13 => rowsHlt | 14 => rowsCal
  | _ => []

def pidBlk (id : Nat) : Nat := id / 2 ^ 24 % 256
def pidEl (id : Nat) : Nat := id / 2 ^ 12 % 4096
def pidNum (id : Nat) : Nat := id % 4096

/-- Row of a block and a number. -/
def rowOf (blk num : Nat) : Option PRow :=
  (blockRows blk).find? (fun r => decide (r.num ≤ num) && decide (num < r.num + r.span))

/-- Row of a parameter ID. -/
def idRow (id : Nat) : Option PRow := rowOf (pidBlk id) (pidNum id)

/-- Reset value: the table's; IWIN_HI differs on HV channels (05 R184), NODE_ADDR comes from GA (12 R323). -/
def resetValue (ga : BitVec 6) (id : Nat) : Int :=
  if pidBlk id = 4 ∧ pidNum id = 0x012 ∧ 16 ≤ pidEl id then 1000
  else if pidBlk id = 11 ∧ pidNum id = 0x002 then (ga.toNat : Int)
  else match idRow id with
    | some r => r.reset
    | none => 0

/-- The applied value of an RW parameter. -/
def State.par (s : State) (id : Nat) : Int :=
  match Tbl.find s.host.params id with
  | some v => v
  | none => resetValue s.pwr.sup.ga id

/-- The same by block, element and number, as a natural number. -/
def State.parN (s : State) (blk el num : Nat) : Nat := (s.par (pid blk el num)).toNat

/-- The value lies in the set the parameter takes (00 R10). -/
def Rng.ok (r : Rng) (el : Nat) (v : Int) : Bool :=
  match r with
  | .any => true
  | .range lo hi => decide (lo ≤ v) && decide (v ≤ hi)
  | .rangeOr lo hi x => (decide (lo ≤ v) && decide (v ≤ hi)) || decide (v = x)
  | .mask _ => decide (0 ≤ v) && decide (v < 2 ^ 32)
  | .oneOf l => l.contains v
  | .pow2 hi => (List.range 32).any (fun k => decide (v = 2 ^ k)) && decide (v ≤ hi)
  | .multiple k => decide (0 ≤ v) && decide (v < 2 ^ 32) && decide (v.toNat % k = 0)
  | .dps lo lv hv => decide (lo ≤ v) && decide (v ≤ if el < 16 then lv else hv)
  | .evtCfg => decide (0 ≤ v) && decide (v < 2 ^ 32) &&
      (decide (v.toNat % 8 = 0) || (decide (2 ≤ v.toNat % 8) && decide (v.toNat % 8 ≤ 5)))
  | .edgeSel => decide (0 ≤ v) && decide (v < 2 ^ 32) &&
      (decide (bits v.toNat 9 0 < 512) || decide (bits v.toNat 9 0 = 0x3FF)) && decide (bits v.toNat 18 17 ≠ 0)
  | .rseCh => decide (0 ≤ v) && decide (v < 2 ^ 32) &&
      [4, 10, 16, 22].all (fun lo => decide (bits v.toNat (lo + 5) lo ≤ 0x22))

/-- The value as held: bits that no field names are dropped (00 R10). FORCE of EVT_CFG reads 0. -/
def Rng.norm (r : Rng) (v : Int) : Int :=
  match r with
  | .mask m => ((v.toNat &&& m : Nat) : Int)
  | .evtCfg => ((v.toNat &&& 0x17 : Nat) : Int)
  | .edgeSel => ((v.toNat &&& 0x703FF : Nat) : Int)
  | .rseCh => ((v.toNat &&& 0x0FFFFFFF : Nat) : Int)
  | _ => v

/-- Event sources that a chapter leaves unlisted or reserved (16 R436 and the chapters' tables). -/
def reservedSrc (n : Nat) : Bool :=
  let r (a b : Nat) : Bool := decide (a ≤ n) && decide (n ≤ b)
  r 0x006 0x007 || r 0x00B 0x00F || r 0x049 0x04F || r 0x05A 0x07F || r 0x094 0x0AF || r 0x0B8 0x0BE ||
  r 0x0F9 0x0FF || (r 0x200 0x2FF && decide (9 ≤ n % 16)) || r 0x536 0x53F || r 0x546 0x54F || r 0x565 0x56F ||
  r 0x574 0x57F || r 0x5CA 0x5CF || r 0x5D3 0x5DF || r 0x5E7 0x5FF || decide (1536 ≤ n)

/-- REACT 3 or 4 is accepted for sources whose ID range belongs to a single unit (16 R433): engines, groups, lanes,
DPS channels, raster engines, memory channels. -/
def singleUnitSrc (n : Nat) : Bool :=
  let r (a b : Nat) : Bool := decide (a ≤ n) && decide (n ≤ b)
  r 0x100 0x533 || r 0x550 0x55F || r 0x580 0x5BF

/-! ## Who may read and write (14 R393) -/

/-- The partition owns the channel. -/
def State.ownsChan (s : State) (p c : Nat) : Bool := (s.part p).channels.getLsbD c

/-- The partition owns every channel of the group. -/
def State.ownsGrp (s : State) (p g : Nat) : Bool := (List.range 32).all (fun k => s.ownsChan p (32 * g + k))

/-- The partition owns at least one channel of the group. -/
def State.ownsSomeOfGrp (s : State) (p g : Nat) : Bool := (List.range 32).any (fun k => s.ownsChan p (32 * g + k))

/-- Channel of a group with CONN = 2 (05 R159). -/
def State.pmuChan (s : State) (g : Nat) : Option Nat :=
  ((List.range 32).map (32 * g + ·)).find? (fun c => s.par (pid 3 c 0x00A) == 2)

/-- The partition owns the PMU and the converter of the group: it owns the channel with CONN = 2, and without one
the system partition does (05 R159, 08 R241). -/
def State.ownsPmu (s : State) (p g : Nat) : Bool :=
  match s.pmuChan g with
  | some c => s.ownsChan p c
  | none => s.isSystem p

/-- A lane belongs to the owner of the channel it carries, and without a channel as its group does. -/
def State.ownsLane (s : State) (p l : Nat) : Bool :=
  match s.chanOf l with
  | some c => s.ownsChan p c
  | none => s.ownsGrp p (l / 33)

/-- The partition owns the unit that an event source's ID range belongs to. -/
def State.ownsSrc (s : State) (p n : Nat) : Bool :=
  let r (a b : Nat) : Bool := decide (a ≤ n) && decide (n ≤ b)
  if r 0x100 0x1FF then
    match s.burstAt ((n - 0x100) / 8) with
    | some b => b.part.val == p
    | none => false
  else if r 0x200 0x2FF then s.ownsSomeOfGrp p ((n - 0x200) / 16)
  else if r 0x300 0x50F then s.ownsLane p (n - 0x300)
  else if r 0x510 0x533 then (s.part p).dps.getLsbD ((n - 0x510) / 2)
  else if r 0x550 0x55F then (s.part p).raster.getLsbD ((n - 0x550) / 4)
  else if r 0x080 0x08F then n - 0x080 == p
  else false

/-- The source's ID range belongs to an element. -/
def srcHasElem (n : Nat) : Bool :=
  let r (a b : Nat) : Bool := decide (a ≤ n) && decide (n ≤ b)
  r 0x100 0x533 || r 0x550 0x55F || r 0x080 0x08F || r 0x580 0x5BF || r 0x0B0 0x0B7 || r 0x0C0 0x0EF || r 0x010 0x03F

/-- The partition owns element `el` of the family; none for a family the partition table assigns to nobody. -/
def State.ownsElem (s : State) (p : Nat) (o : Own) (el : Nat) : Option Bool :=
  let r := s.part p
  match o with
  | .scalar => none
  | .part => some (p == el)
  | .site => some (r.sites.getLsbD el)
  | .chan => some (r.channels.getLsbD el)
  | .lane => some (s.ownsLane p el)
  | .grp => some (s.ownsGrp p el)
  | .dps => some (r.dps.getLsbD el)
  | .cu => some (r.units.getLsbD el)
  | .trg => some (r.capTriggers.getLsbD el)
  | .hs => some (r.streams.getLsbD el)
  | .xtrig => some (r.xtrig.getLsbD el)
  | .ms => some (r.tmuSets.getLsbD el)
  | .conv17 => if el = 16 then none else some (s.ownsPmu p el)
  | .conv => some (s.ownsPmu p el)
  | .cset => some (s.ownsPmu p (el / 16))
  | .rse => some (r.raster.getLsbD el)
  | .rseLayer => some (r.raster.getLsbD (el / 2))
  | .rseRect => some (r.raster.getLsbD (el / 16))
  | .mark => some (r.marks.getLsbD el)
  | .chime => some (r.chime.getLsbD el)
  | .ntrg => some (r.nglTriggers.getLsbD el)
  | .ts => some (r.timingSets.getLsbD el)
  | .src => some (s.ownsSrc p el || (r.evtGlobal && !srcHasElem el))
  | .eng | .mc | .stack | .pc | .dom | .port | .slane | .nlane | .hport | .sensor => none

/-- PMU parameters (05 R159). -/
def isPmuParam (id : Nat) : Bool :=
  pidBlk id == 3 && decide (0x010 ≤ pidNum id) && decide (pidNum id ≤ 0x018)

/-- The partition owns the site of a DPS channel; without a site, the channel (08 R241). -/
def State.ownsDpsSite (s : State) (p d : Nat) : Bool :=
  match s.dpsSite d with
  | some k => (s.part p).sites.getLsbD k
  | none => (s.part p).dps.getLsbD d

/-- May the partition read the parameter (14 R393; 08 R241: converters and readings of DPS channels only by their
owner). -/
def State.mayRead (s : State) (p : Nat) (r : PRow) (id : Nat) : Bool :=
  let el := pidEl id
  match r.own with
  | .scalar => true
  | .conv => s.ownsPmu p el
  | .cset => s.ownsPmu p (el / 16)
  | .conv17 => el == 16 || s.ownsPmu p el
  | .grp => s.isSystem p || s.ownsSomeOfGrp p el
  | .dps => if pidBlk id = 8 then s.ownsDpsSite p el else (s.part p).dps.getLsbD el || s.isSystem p
  | o => match s.ownsElem p o el with
    | some b => b || s.isSystem p
    | none => true

/-- May the partition write the parameter (14 R393 and the writer each chapter names). -/
def State.mayWrite (s : State) (p : Nat) (r : PRow) (id : Nat) : Bool :=
  let el := pidEl id
  if r.sysOnly then s.isSystem p
  else if isPmuParam id then s.ownsPmu p el
  else match r.own with
    | .scalar | .part => s.isSystem p
    | .grp =>
      s.ownsGrp p el || (s.isSystem p && (List.range 16).all (fun q => !s.ownsGrp q el))
    | o => match s.ownsElem p o el with
      | some b => b
      | none => s.isSystem p

/-- Why a read is refused: the order of 14 R389 puts malformed IDs before rights. No host reads a secure parameter
(14 R377, R393). -/
def State.readCheck (s : State) (p id : Nat) : Option Status :=
  match idRow id with
  | none => some .badParam
  | some r =>
    if r.own.count ≤ pidEl id then some .outOfRange
    else if r.secure then some .deniedWorld
    else if s.mayRead p r id then none
    else some .deniedPartition

/-- A conversion runs with a setting (08 R257). -/
def State.convRuns (s : State) (c setting : Nat) : Bool := (s.padcAt c).running.any (fun r => r.setting == setting)

/-- A conversion runs with the setting that a value of the PADC block belongs to, or names as REG_CONV (08 R257). -/
def State.convHolds (s : State) (id : Nat) : Bool :=
  let el := pidEl id
  let num := pidNum id
  (decide (0x020 ≤ num) && decide (num ≤ 0x025) && s.convRuns (el / 16) (el % 16)) ||
    (decide (0x010 ≤ num) && decide (num ≤ 0x012) && s.convRuns el (s.parN 8 el 0x011))

/-- A check channel with a constant slot (09 R263). -/
def constCheck (v : Nat) : Bool :=
  bit v 2 == 1 && [4, 10, 16, 22].any (fun lo => let k := bits v (lo + 5) lo; k == 0x21 || k == 0x22)

/-- Why staging a value is refused (00 R10, 14 R391, R393). -/
def State.writeCheck (s : State) (p id : Nat) (v : Int) : Option Status :=
  match idRow id with
  | none => some .badParam
  | some r =>
    if r.own.count ≤ pidEl id then some .outOfRange
    else if r.acc ≠ .rw then some .badParam
    else if !s.mayWrite p r id then some (if r.secure then .deniedWorld else .deniedPartition)
    else if !r.rng.ok (pidEl id) v then some .outOfRange
    else if pidBlk id = 13 ∧ pidNum id = 0x100 ∧
        (reservedSrc (pidEl id) ∨ ((v.toNat % 8 = 3 ∨ v.toNat % 8 = 4) ∧ ¬ singleUnitSrc (pidEl id))) then
      some .badParam
    else if pidBlk id = 11 ∧ pidNum id = 0x083 ∧ v.toNat % 2 = 1 ∧ s.parN 11 (pidEl id) 0x081 = 1 then
      some .conflict
    else if pidBlk id = 8 ∧ s.convHolds id then some .busy
    else if r.rng = .rseCh ∧ constCheck v.toNat then some .badParam
    else if pidBlk id = 2 ∧ pidNum id = 0x010 ∧ (s.chanSite (pidEl id)).any s.siteTasked then some .busy
    else none

/-- Store an applied value. -/
def State.setPar (s : State) (id : Nat) (v : Int) : State :=
  { s with
    host.params := Tbl.put s.host.params id v
    host.muxMoved := if pidBlk id = 2 ∧ pidNum id = 0x010 then s.host.muxMoved.filter (· != pidEl id)
      else s.host.muxMoved }

/-- Sites whose bursts hold back a value of the element (14 R391, 06 R217, 02 R85). -/
def State.elemSites (s : State) (r : PRow) (id : Nat) (v : Int) : List Nat :=
  let el := pidEl id
  let old := s.par id
  let siteVals := (if 0 ≤ old ∧ old < 128 then [old.toNat] else []) ++ (if 0 ≤ v ∧ v < 128 then [v.toNat] else [])
  let named (num : Nat) : List Nat :=
    let x := s.parN (pidBlk id) el num
    (if x < 128 then [x] else []) ++ (if r.num = num then siteVals else [])
  match r.own with
  | .site => [el]
  | .chan => (s.chanSite el).toList
  | .lane => match s.chanOf el with
    | some c => (s.chanSite c).toList
    | none => []
  | .grp => if isPmuParam id then ((s.pmuChan el).bind s.chanSite).toList
      else (List.range 128).filter (fun k => (s.siteChans k).any (fun c => c / 32 == el))
  | .conv | .conv17 => ((s.pmuChan el).bind s.chanSite).toList
  | .cset => ((s.pmuChan (el / 16)).bind s.chanSite).toList
  | .dps => (s.dpsSite el).toList
  | .cu => named 0x040
  | .trg => named 0x060
  | .ms => named 0x001
  | .rse => named 0x001
  | .rseLayer | .rseRect => []
  | .mark => siteVals
  | .xtrig => siteVals
  | .ntrg => siteVals
  | _ => []

/-- An apply point that a running burst holds back; the values of a set whose burst has ended wait for its publication
(07 R224). -/
def State.heldBack (s : State) (r : PRow) (id : Nat) (v : Int) : Bool :=
  match r.apply with
  | .between => (s.elemSites r id v).any (fun k => s.siteBusy k) ||
      (r.own == .ms && (s.msAt (pidEl id)).armed && (s.msAt (pidEl id)).upto.isSome)
  | .rowMode => s.ve.bursts.any (fun x => decide (0 < x.2.demand))
  | .commit => false
  | .blanking | .reset | .nglConfig | .training | .detect => true

end Sys2Proof.Machine
end

