-- ==== Sys2Proof/Machine/Rings.lean ====
section
/-!
DEFINITION. The rings of a host function: completions, event records, MSI-X, tags, the first-error record of a
partition (14 R380–R389, 16 R437–R440).
-/

namespace Sys2Proof.Machine

/-- STATUS code (14 R384). -/
def Status.code : Status → Nat
  | .ok => 0x0000 | .accepted => 0x0001 | .busy => 0x0100 | .noCredit => 0x0101 | .badOpcode => 0x0200
  | .badParam => 0x0201 | .outOfRange => 0x0202 | .deniedWorld => 0x0300 | .deniedPartition => 0x0301
  | .conflict => 0x0400 | .fenced => 0x0401 | .timeout => 0x0500 | .internal => 0x0600

/-- Site result as the 16-bit SITE_RESULT (01 R34). -/
def SiteResult.code (r : SiteResult) : Nat :=
  (match r.res with | .pass => 0 | .fail => 1 | .invalid => 2 | .aborted => 3 | .skipped => 4) * 2 ^ 13 +
    r.reason * 2 ^ 4 + b2n r.stretched

/-- SITE_RESULT of INVALID with a reason (01 R36). -/
def invalidRes (reason : Nat) : SiteResult := { res := .invalid, reason }
def abortedRes : SiteResult := { res := .aborted }
def skippedRes : SiteResult := { res := .skipped }

/-- REASON codes (01 R36). -/
def rUNDERRUN : Nat := 1
def rMCHK : Nat := 2
def rFENCE : Nat := 3
def rTHERMAL : Nat := 4
def rSUPPLY : Nat := 5
def rLATE : Nat := 6
def rCAL : Nat := 7
def rOVERTIME : Nat := 8

/-- Link of the port of a partition (14 R375). -/
def State.linkUp (s : State) (p : Nat) : Bool := (s.hlinkAt (p / 4)).up

/-- Firmware does not run: the freeze of a hand-over, or monitor only (14 R402, 16 R438, R447). -/
def State.frozen (s : State) : Bool := s.fw.hand == 2 || s.fw.state == 3

/-- Entries of a ring that are not consumed, of free-running 32-bit counts. -/
def ringFill (prod cons : Nat) : Nat := (prod + (2 ^ 32 - cons % 2 ^ 32)) % 2 ^ 32

/-- Message decision: max(1, COAL_COUNT) entries are unannounced (14 R379). -/
def msixDue (reg unannounced : Nat) : Bool := decide (max 1 (bits reg 15 8) ≤ unannounced)

/-- A partition's first-error record holds the first error until it is cleared (14 R380). -/
def FnSt.noteErr (f : FnSt) (kind detail lo hi time : Nat) : FnSt :=
  match f.ferr with
  | some _ => f
  | none => { f with ferr := some { kind, detail, lo, hi, time } }

/-- Record an error in the function's first-error record. -/
def State.fnErr (s : State) (p kind detail lo hi : Nat) : State :=
  s.updFn p (fun f => f.noteErr kind detail lo hi s.now)

/-! ## Completions -/

/-- A completion can be written: room in the ring, no CPL_ERR, link up, firmware running (14 R383, R386, R387). -/
def State.cplWritable (s : State) (p : Nat) : Bool :=
  let f := s.fnAt p
  decide (ringFill f.cplProd f.cplCons < f.cplSize) && !f.cplErr && s.linkUp p && !s.frozen

/-- Write one completion into the ring, and its message when due. -/
def FnSt.writeCpl (f : FnSt) (c : Cpl) : FnSt :=
  let prod := (f.cplProd + 1) % 2 ^ 32
  let due := msixDue f.cplMsix (ringFill prod f.cplTold)
  { f with
    cpls := f.cpls ++ [c]
    cplProd := prod
    cplTold := if due then prod else f.cplTold
    msixSent := if due then f.msixSent + 1 else f.msixSent }

/-- Hold a completion; 512 of them stop the intake of the partition (14 R387). -/
def FnSt.holdCpl (f : FnSt) (c : Cpl) : FnSt :=
  { f with cplHeld := f.cplHeld ++ [c], holdFull := f.holdFull || decide (f.cplHeld.length = 511) }

/-- Post a completion: written, or held in SRAM after those already held (14 R387). A final completion frees its
tag (14 R381). -/
def State.post (s : State) (p : Nat) (c : Cpl) : State :=
  let s := if c.final then s.updFn p (fun f => { f with tags := f.tags.filter (fun t => t.tag != c.tag) }) else s
  if s.cplWritable p && (s.fnAt p).cplHeld.isEmpty then s.updFn p (fun f => f.writeCpl c)
  else s.updFn p (fun f => f.holdCpl c)

/-- Write held completions in order while the ring has room. -/
def FnSt.flush (room : Nat) (f : FnSt) : FnSt :=
  ((f.cplHeld.take room).foldl (fun f c => f.writeCpl c) f) |> fun g => { g with cplHeld := f.cplHeld.drop room }

/-- Write what is held as far as the ring allows (14 R387). -/
def State.flushCpl (s : State) (p : Nat) : State :=
  if s.cplWritable p then
    s.updFn p (fun f => f.flush (f.cplSize - ringFill f.cplProd f.cplCons))
  else s

/-- First or only completion, and final completion, of a command. -/
def State.complete (s : State) (p tag : Nat) (op : BitVec 16) (st : Status) (result : List Nat)
    (data : List Int := []) : State :=
  s.post p { tag, status := st, opcode := op, final := st != .accepted, result, data }

/-- Statuses that the partition's first-error record takes as KIND 1 (14 R380). -/
def Status.isFerr : Status → Bool
  | .badOpcode | .badParam | .deniedWorld | .deniedPartition => true
  | _ => false

/-- A command refused with a status: nothing changed but the completion and the first-error record. -/
def State.refuseCmd (s : State) (p tag : Nat) (op : BitVec 16) (st : Status) (result : List Nat) : State :=
  let s := s.complete p tag op st result
  if st.isFerr then s.fnErr p 1 st.code (op.toNat * 2 ^ 16 + tag) (result.headD 0) else s

/-! ## Event records -/

/-- Room in a partition's event ring of 4,096 entries (16 R439). -/
def FnSt.evtFree (f : FnSt) : Nat := 4096 - ringFill f.evtProd f.evtCons

/-- Records can be written: ring programmed and enabled, no EVT_ERR, link up (14 R386, 16 R440). -/
def State.evtWritable (s : State) (p : Nat) : Bool :=
  let f := s.fnAt p
  f.enable && !f.evtErr && s.linkUp p

/-- Write one event record, and its message when due. -/
def FnSt.writeEvt (f : FnSt) (r : EvRec) : FnSt :=
  let prod := (f.evtProd + 1) % 2 ^ 32
  let due := msixDue f.evtMsix (ringFill prod f.evtTold)
  { f with
    evts := f.evts ++ [r]
    evtProd := prod
    evtTold := if due then prod else f.evtTold
    msixSent := if due then f.msixSent + 1 else f.msixSent }

/-- Add an occurrence to the held count of its source; a count saturates (16 R439). -/
def holdSrc (l : List HeldSrc) (r : EvRec) : List HeldSrc :=
  if l.any (fun h => h.source == r.source) then
    l.map (fun h => if h.source == r.source then
      { h with count := satAdd h.count r.count 0xFFFFFFFF, time := r.time, react := max h.react r.react } else h)
  else l ++ [{ source := r.source, count := r.count, time := r.time, first := r.firstShort, react := r.react }]

def FnSt.hold (f : FnSt) (r : EvRec) : FnSt := { f with evtHeld := holdSrc f.evtHeld r }
def FnSt.lose (f : FnSt) : FnSt := { f with evtLost := satAdd f.evtLost 1 0xFFFFFFFF }

/-- What becomes of a record: written, dropped and counted, or its source held (16 R439). -/
inductive Fate where
  | write | buffer | drop | hold
  deriving DecidableEq, Repr

/-- The three rules of 16 R439 over the ring, or over the 1,024-record buffer while the firmware does not run. -/
def State.fate (s : State) (p : Nat) (r : EvRec) : Fate :=
  let room := if s.frozen then 1024 - s.evt.buffer.length
    else if s.evtWritable p && (s.fnAt p).evtHeld.isEmpty then (s.fnAt p).evtFree else 0
  if r.react ≤ 1 then (if 64 < room then (if s.frozen then .buffer else .write) else .drop)
  else if 0 < room then (if s.frozen then .buffer else .write) else .hold

/-- Deliver a record to one partition. -/
def State.deliver (s : State) (p : Nat) (r : EvRec) : State :=
  match s.fate p r with
  | .write => s.updFn p (fun f => f.writeEvt r)
  | .buffer =>
    match (if p < 16 then some (⟨p % 16, Nat.mod_lt _ (by decide)⟩ : Part) else none) with
    | some q => { s with evt.buffer := s.evt.buffer ++ [(q, r)] }
    | none => s
  | .drop => s.updFn p FnSt.lose
  | .hold => s.updFn p (fun f => f.hold r)

/-- Deliver a record to several partitions. -/
def State.deliverAll (s : State) (ps : List Nat) (r : EvRec) : State :=
  ps.foldl (fun s p => s.deliver p r) s

/-- The COALESCED record of a held source (16 R439). -/
def HeldSrc.toRec (h : HeldSrc) (node : Nat) : EvRec :=
  { source := h.source, react := h.react, coalesced := true, count := h.count, time := h.time, node,
    firstShort := h.first }

/-- When space returns: one COALESCED record for each held source, then one LOST record (16 R439). -/
def State.drainEvts (s : State) (p : Nat) : State :=
  let f := s.fnAt p
  if s.frozen || !s.evtWritable p then s
  else
    let node := s.parN 11 0 0x002
    let n := min f.evtFree f.evtHeld.length
    let f : FnSt := (f.evtHeld.take n).foldl (fun g h => g.writeEvt (h.toRec node)) { f with evtHeld := f.evtHeld.drop n }
    let f : FnSt := if f.evtHeld.isEmpty && decide (f.evtLostTold < f.evtLost) && decide (0 < f.evtFree) then
        { f.writeEvt { source := 0x7FF, react := 0, lost := true, count := f.evtLost - f.evtLostTold, time := s.now
                       node, firstShort := shortTime s.now } with evtLostTold := f.evtLost }
      else f
    s.updFn p (fun _ => f)

/-! ## Tags (14 R381, R389) -/

/-- Another command of the partition with the tag has no final completion yet. -/
def State.tagBusy (s : State) (p tag : Nat) (op : BitVec 16) : Bool :=
  (s.fnAt p).tags.any (fun t => t.tag == tag && !(t.taken && t.opcode == op))

/-- The command's row runs: its tag is in use until its final completion. -/
def FnSt.useTag (f : FnSt) (tag : Nat) (op : BitVec 16) : FnSt :=
  { f with tags := f.tags.filter (fun t => t.tag != tag) ++ [{ tag, opcode := op, taken := false }] }

/-- Host address at which a DMA of the command that CMD_TAKE passed fails. -/
def FnSt.dmaOf (f : FnSt) (tag : Nat) (op : BitVec 16) : Option Nat :=
  f.tags.findSome? (fun t => if t.tag = tag ∧ t.taken = true ∧ t.opcode = op then t.dma else none)

/-- INTERNAL, with kind 7: a DMA error prevented the command (14 R389). -/
def State.dmaFail (s : State) (p tag : Nat) (op : BitVec 16) (addr : Nat) : State :=
  (s.complete p tag op .internal []).fnErr p 7 0 (addr % 2 ^ 32) (addr / 2 ^ 32 % 2 ^ 32)

/-- A command: the checks of 14 R389 in order, then its effect. `checks` are its own, each a reason that holds, its
status and its result words; the first that holds decides. -/
def State.command (s : State) (p : Part) (tag : Nat) (op : BitVec 16) (rsvd : Bool) (right : Bool)
    (checks : List (Bool × Status × List Nat)) (effect : State → State) : State :=
  if s.tagBusy p tag op then
    (s.updFn p (fun f => f.noteErr 1 Status.badParam.code (op.toNat * 2 ^ 16 + tag) 0 s.now)).updFn p
      (fun f => if s.cplWritable p && f.cplHeld.isEmpty then
          f.writeCpl { tag, status := .badParam, opcode := op, final := true, result := [], data := [] }
        else f.holdCpl { tag, status := .badParam, opcode := op, final := true, result := [], data := [] })
  else
    let dma := (s.fnAt p).dmaOf tag op
    let s := s.updFn p (fun f => f.useTag tag op)
    if rsvd then s.refuseCmd p tag op .badParam []
    else if !(s.part p).enable || !right then s.refuseCmd p tag op .deniedPartition []
    else if dma.isSome then s.dmaFail p tag op (dma.getD 0)
    else match checks.find? (·.1) with
      | some (_, st, res) => s.refuseCmd p tag op st res
      | none => effect s

end Sys2Proof.Machine
end

