-- ==== Sys2Proof/Machine/Lanes.lean ====
section
/-!
DEFINITION. Pin states outside a burst and the discharge of DPS channels (05 R155–R158, R178).
-/

namespace Sys2Proof.Machine

/-- Driver of a lane at a time in units of 0.25 ps: what the last edge up to it has left (04 R120, R123). -/
def LaneSt.pin (l : LaneSt) (q : Nat) : Drv :=
  (((l.edges.takeWhile (fun e => decide (e.t ≤ q))).getLast?).map (·.drive)).getD l.base

/-- The driver takes a state now: no edge is left in the queue. -/
def LaneSt.set (d : Drv) (load : Bool) (l : LaneSt) : LaneSt :=
  { l with drive := d, base := d, edges := [], load, idle := false }

/-- A lane takes at the time `q` the state of a value of IDLE_MODE, STOP_MODE or SAFE_MODE (05 R155). A lane whose
output switch is open is not switched, one in its seed sweep is (R158); HOLD keeps driver, load and PMU switch as they
are. -/
def LaneSt.take (q v : Nat) (l : LaneSt) : LaneSt :=
  if l.mode = .opened ∧ l.sweep = false then l
  else match v with
    | 0 => { l.set .off false with mode := .hiz }
    | 1 => { l.set (l.pin q) l.load with mode := if l.mode = .pmu then .pmu else .hold }
    | 2 => { l.set .low false with mode := .driveLow }
    | 3 => { l.set .high false with mode := .driveHigh }
    | 4 => { l.set .vtt false with mode := .vtt }
    | _ => l

/-- The lane goes off with its output switch open: fenced, vacated or not configured (05 R155). -/
def LaneSt.open_ (l : LaneSt) : LaneSt :=
  { l.set .off false with mode := .opened, sweep := false, limit := false, changing := false }

/-- Committed value of a parameter that waits for its apply point (14 R391, 09 R266). -/
def State.pendingOf (s : State) (id : Nat) : Option Int :=
  match (s.host.pendVals.filter (fun x => x.id == id)).getLast? with
  | some x => some x.value
  | none => s.rse.findSome? (fun x => match Tbl.find x.2.stage2 id with
    | some v => some v
    | none => Tbl.find x.2.stage1 id)

/-- The site of a channel holds the safe state. -/
def State.chanSafe (s : State) (c : Nat) : Bool :=
  match s.chanSite c with
  | some k => (s.siteAt k).safe
  | none => false

/-- Stop state of a channel's lane at a time (05 R157). The safe state wins over it (01 R33, 05 R172). -/
def State.stopChan (s : State) (q c : Nat) : State :=
  if s.pwr.safe || s.chanSafe c then s else s.updLane (s.laneOf c) (LaneSt.take q (s.parN 3 c 0x00D))

/-- SAFE_MODE as the safe-state path holds it: copied when it is committed, before it applies (05 R158). -/
def State.safeMode (s : State) (c : Nat) : Nat :=
  ((s.pendingOf (pid 3 c 0x00E)).getD (s.par (pid 3 c 0x00E))).toNat

/-- Safe state of a channel's lane, applied without the islands (05 R158); a seed sweep still runs to its end (R163). -/
def State.safeChan (s : State) (c : Nat) : State :=
  s.updLane (s.laneOf c) (LaneSt.take (4000 * s.now) (s.safeMode c))

/-- Channel that the PMU of a group is connected to: the switch of its lane is closed (05 R155, R183). -/
def State.pmuOn (s : State) (g : Nat) : Option Nat :=
  (s.grpAt g).pmuConn.filter (fun c => decide ((s.laneAt (s.laneOf c)).mode = .pmu))

/-- Stop state of a site's lanes at a time in units of 0.25 ps. -/
def State.stopSiteAt (s : State) (q k : Nat) : State := (s.siteChans k).foldl (fun s c => s.stopChan q c) s

/-- Stop state of a site's lanes. -/
def State.stopSite (s : State) (k : Nat) : State := s.stopSiteAt (4000 * s.now) k

/-- The site's lanes take SAFE_MODE. -/
def State.safeSite (s : State) (k : Nat) : State := (s.siteChans k).foldl State.safeChan s

/-- Every lane that carries a channel takes SAFE_MODE (01 R26). -/
def State.safeAllLanes (s : State) : State := ((List.range 512)).foldl State.safeChan s

/-- A DPS channel is on: admitted and not yet off (05 R177). -/
def DpsSt.on (d : DpsSt) : Bool := decide (d.mode ≠ .off) && decide (d.mode ≠ .fenced)

/-- Controlled discharge of a channel that is on (05 R178). -/
def DpsSt.discharge (now : Nat) (d : DpsSt) : DpsSt :=
  if d.on && decide (d.mode ≠ .discharging) then
    { d with mode := .discharging, blanked := true, settled := false, dischAt := some now, slow := false, vout := 0 }
  else d

/-- The channel is off: its demand leaves the committed load (05 R177). -/
def DpsSt.turnOff (d : DpsSt) : DpsSt :=
  { d with mode := if d.mode = .fenced then .fenced else .off, vout := 0, demand := 0, blanked := true
           settled := false, known := false, hi := false, lo := false, cur := false
           dischAt := none, slow := false, limited := false
           outSince := none, inSince := none }

/-- Discharge of one channel. -/
def State.dischargeDps (s : State) (d : Nat) : State := s.updDps d (DpsSt.discharge s.now)

/-- A power sequence in progress ends when its channels discharge or its rails go; the spec names no status for its
command, the model gives FENCED (notes/assumptions/24.md). -/
def State.dropSeq (s : State) (k : Nat) : State :=
  match (s.siteAt k).seqRun with
  | some r =>
    (s.updSite k (fun t => { t with seqRun := none })).complete r.part.val r.tag
      (if r.up then 0x0402 else 0x0403) .fenced []
  | none => s

/-- All DPS channels of a site discharge together; its power sequence ends. -/
def State.dischargeSite (s : State) (k : Nat) : State := (s.siteDps k).foldl State.dischargeDps (s.dropSeq k)

/-- Every DPS channel begins its controlled discharge (01 R26). -/
def State.dischargeAll (s : State) : State := (List.range 18).foldl State.dischargeDps s

/-! ## Abandoning a reference calibration (17 R466, R469, R470) -/

/-- The unit is the group, or the DPS channel. -/
def isGroup (g : Nat) : CalUnit → Bool
  | .group x => x.val == g
  | .dps _ => false
def isDps (d : Nat) : CalUnit → Bool
  | .dps x => x.val == d
  | .group _ => false

/-- How a unit's calibration ended. -/
inductive CalHow where
  | accepted | rejected | abandoned
  deriving DecidableEq, Repr

/-- The result word and its bit. -/
def calBit : CalUnit → CalHow → Nat × Nat
  | .group g, .accepted => (0, 2 ^ g.val)
  | .group g, .rejected => (0, 2 ^ (16 + g.val))
  | .group g, .abandoned => (1, 2 ^ g.val)
  | .dps d, .accepted => (2, 2 ^ d.val)
  | .dps d, .rejected => (3, 2 ^ d.val)
  | .dps d, .abandoned => (4, 2 ^ d.val)

/-- The end of a unit enters the result masks of its command. -/
def CalSt.mark (u : CalUnit) (how : CalHow) (own : Option (Part × Nat)) (c : CalSt) : CalSt :=
  { c with cmds := c.cmds.map (fun x =>
      if own = some (x.1, x.2.1) then (x.1, x.2.1, x.2.2.modify (calBit u how).1 (· + (calBit u how).2)) else x) }

/-- A command of the queue has a unit left. -/
def CalSt.owes (c : CalSt) (o : Part × Nat) : Bool :=
  c.queue.any (fun x => x.2 == some o) || c.runOwn == some o

/-- A unit's calibration has ended; a command with no unit left completes OK with its masks. -/
def State.calDone (s : State) (u : CalUnit) (how : CalHow) (own : Option (Part × Nat)) : State :=
  let c := s.cal.run.mark u how own
  let s : State := { s with cal.run := { c with cmds := c.cmds.filter (fun x => c.owes (x.1, x.2.1)) } }
  (c.cmds.filter (fun x => !c.owes (x.1, x.2.1))).foldl (fun s x => s.complete x.1.val x.2.1 0x0E01 .ok x.2.2) s

/-- A lane of a group after its calibration: with CONN = 1 it sweeps and then takes IDLE_MODE (05 R156, R163), the one
on the PMU returns to it; in the safe state it stays open. -/
def State.calLane (s : State) (l : Nat) : State :=
  match s.chanOf l with
  | none => s
  | some c => s.updLane l (fun x =>
      if s.pwr.safe ∨ x.fenced ∨ x.vacated then x
      else match s.parN 3 c 0x00A with
        | 1 => { x with sweep := true }
        | 2 => { x with mode := .pmu }
        | _ => x)

/-- The fence of an attempt on a group is lifted. -/
def State.calRelease (s : State) (u : CalUnit) : State :=
  match u with
  | .group g =>
    ((List.range 33).map (33 * g.val + ·)).foldl State.calLane (s.updGrp g.val (fun x => { x with calFence := false }))
  | .dps _ => s

/-- Every unit of the queue is abandoned. -/
def calDropAll : List (CalUnit × Option (Part × Nat)) → State → State
  | [], s => s
  | (u, own) :: r, s => calDropAll r ((({ s with cal.run := { s.cal.run with queue := r } } : State)).calDone u .abandoned own)

/-- A running attempt on a unit that satisfies a test is abandoned: its values and state are kept; with `all`, the
units of the queue too. -/
def State.calAbandon (s : State) (f : CalUnit → Bool) (all : Bool) : State :=
  match s.cal.run.running with
  | none => s
  | some (u, _) =>
    if !f u then s
    else
      let own := s.cal.run.runOwn
      let s := (({ s with cal.run := { s.cal.run with running := none, runOwn := none } } : State).calRelease u).calDone
        u .abandoned own
      if all then calDropAll s.cal.run.queue s else s

/-- Demand P_DPS in units of 0.01 W (05 R177): VOUT_SET × ILIM_SRC / 0.85 + P0, rounded up. The voltage code counts
125 µV (LV) or 875 µV (HV), the limit 0.1 mA. -/
def dpsDemand (d code ilim : Nat) : Nat :=
  let uv := if d < 16 then 125 else 875
  let p0 := if d < 16 then 50 else 100
  -- µV × 0.1 mA = 10^-10 W, in units of 0.01 W divide by 10^8; ÷ 0.85 = × 100 / 85
  ceilDiv (code * uv * ilim * 100) (85 * 10 ^ 8) + p0

end Sys2Proof.Machine
end

