-- ==== Sys2Proof/Machine/Fabric.lean ====
section
/-!
DEFINITION. The event fabric: what one occurrence of a source does (16 R432–R446): counts, alarm, first-error
capture, records, consequence windows, and the reactions FENCE, SITE_INVALID and FATAL. `State.raise` is the one
operation that every meaning raises an event with.
-/

namespace Sys2Proof.Machine

/-- An occurrence of a source. -/
structure Occ where
  src     : Nat
  payload : List Nat := []
  forced  : Bool := false
  /-- Elements that its payload names. -/
  names   : List Elem := []
  /-- Partitions whose ring takes the record beside 14 R398, for a source that names them itself. -/
  also    : List Nat := []
  /-- First-error ADDR, MASTER, ACCESS where the occurrence names them (16 R442). -/
  err     : Option (Nat × Nat × Nat) := none
  /-- The terminating condition of one runner's burst that the occurrence is, where its row states it (01 R37). -/
  cond    : Option (Nat × Term) := none
  deriving DecidableEq, Repr

/-- Cause of an occurrence: PAYLOAD0 [3:0] (16 R437). -/
def Occ.cause (o : Occ) : Nat := o.payload.headD 0 % 16

/-- `n` lies in [a, b]. -/
def inR (n a b : Nat) : Bool := decide (a ≤ n) && decide (n ≤ b)

/-- Reaction of the source's chapter for its cause; a cause of 0 or a reserved one takes the highest of the source's
causes (16 R433, R435; the event tables of every chapter). -/
def defaultReact (src cause : Nat) : Nat :=
  if inR src 0x010 0x03F then
    let n := src - 0x010
    if cause = 4 then 1 else if n = 22 ∨ n = 23 ∨ n = 46 ∨ n = 47 then 2 else 3
  else if inR src 0x080 0x08F then
    if cause = 1 ∨ cause = 4 ∨ cause = 5 then 1 else 2
  else if inR src 0x0B0 0x0B7 then (if src % 2 = 0 then 1 else 2)
  else if inR src 0x0C0 0x0EF then
    (if src % 8 = 0 ∨ src % 8 = 5 ∨ src % 8 = 7 then 2 else 1)
  else if inR src 0x100 0x1FF then
    (if src % 8 = 0 ∨ src % 8 = 1 ∨ src % 8 = 2 ∨ src % 8 = 4 then 4 else 1)
  else if inR src 0x200 0x2FF then
    (if src % 16 ≤ 2 then 3 else if src % 16 = 3 then 2 else 1)
  else if inR src 0x300 0x50F then 3
  else if inR src 0x510 0x533 then
    (if src % 2 = 0 then 2 else if cause = 3 then 2 else 3)
  else if inR src 0x550 0x55F then (if src % 4 = 3 then 3 else 1)
  else if inR src 0x580 0x5BF then
    if src % 2 = 0 then 1
    else if cause = 2 ∨ cause = 6 then 3
    else if cause = 3 ∨ cause = 4 ∨ cause = 5 then 2 else 4
  else match src with
    | 0x001 | 0x008 | 0x042 | 0x046 | 0x056 | 0x059 => 5
    | 0x545 | 0x562 | 0x573 => 3
    | 0x000 | 0x005 | 0x041 | 0x044 | 0x045 | 0x047 | 0x050 | 0x051 | 0x055 | 0x091 | 0x092 => 2
    | 0x0F0 | 0x0F1 | 0x0F2 | 0x0F8 | 0x543 | 0x564 | 0x572 => 2
    | 0x5C3 | 0x5C4 | 0x5C8 | 0x5C9 | 0x5D2 => 2
    | 0x5E1 | 0x5E2 | 0x5E3 | 0x5E4 | 0x5E5 | 0x5E6 => 2
    | 0x090 => if cause = 1 ∨ cause = 2 ∨ cause = 3 then 1 else 2
    | _ => 1

/-- Block whose first-error record the source feeds (16 R436). -/
def srcBlock (n : Nat) : Nat :=
  if n < 0x080 then 13 else if n < 0x0C0 then 12 else if n < 0x100 then 11 else if n < 0x200 then 1
  else if n < 0x300 then 2 else if n < 0x510 then 3 else if n < 0x540 then 4 else if n < 0x550 then 5
  else if n < 0x560 then 6 else if n < 0x570 then 7 else if n < 0x580 then 8 else if n < 0x5C0 then 10
  else if n < 0x5E0 then 9 else 14

/-- Unit that the source's ID range belongs to: the element of its first-error record (16 R442). -/
def srcUnitNo (n : Nat) : Option Nat :=
  if inR n 0x010 0x03F then some (n - 0x010)
  else if inR n 0x080 0x08F then some (n - 0x080)
  else if inR n 0x0B0 0x0B7 then some ((n - 0x0B0) / 2)
  else if inR n 0x0C0 0x0EF then some ((n - 0x0C0) / 8)
  else if inR n 0x100 0x1FF then some ((n - 0x100) / 8)
  else if inR n 0x200 0x2FF then some ((n - 0x200) / 16)
  else if inR n 0x300 0x50F then some (n - 0x300)
  else if inR n 0x510 0x533 then some ((n - 0x510) / 2)
  else if inR n 0x550 0x55F then some ((n - 0x550) / 4)
  else if inR n 0x580 0x5BF then some ((n - 0x580) / 2)
  else none

/-- The unit that a REACT of 3 or 4 on the source fences or invalidates (16 R433). -/
def srcUnit (n : Nat) : Option FUnit :=
  if inR n 0x100 0x1FF then some (.engine ((n - 0x100) / 8))
  else if inR n 0x200 0x2FF then some (.group ((n - 0x200) / 16) false)
  else if inR n 0x300 0x50F then some (.lane (n - 0x300))
  else if inR n 0x510 0x533 then some (.dps ((n - 0x510) / 2) false)
  else if inR n 0x550 0x55F then some (.rse ((n - 0x550) / 4))
  else if inR n 0x580 0x5BF then some (.mc ((n - 0x580) / 2))
  else none

/-- Fence units of a sensor (15 R420). -/
def sensorUnits (n : Nat) : List FUnit :=
  if n < 16 then [.groupSensor n]
  else if n < 20 then (List.range 8).map (fun i => .engine (8 * (n - 16) + i))
  else if n < 22 then (List.range 16).map (fun i => .mc (16 * (n - 20) + i))
  else if n = 24 ∨ n = 25 then (List.range 16).map (fun i => .mc (16 * (n - 24) + i))
  else if n = 26 ∨ n = 27 then (List.range 16).map (fun i => .mc (16 * (n - 26) + i))
  else if inR n 28 45 then [.dpsSensor (n - 28)]
  else []

/-- The units that the source's chapter names for a FENCE of this occurrence. A forced TMU_FAULT names a module lane
when its payload is one (notes/assumptions/12.md). -/
def Occ.fences (o : Occ) : List FUnit :=
  let n := o.src
  let w := o.payload.headD 0
  if inR n 0x010 0x03F then (if o.cause = 4 then [] else sensorUnits (n - 0x010))
  else if inR n 0x100 0x1FF then
    (if n % 8 = 0 ∨ n % 8 = 1 ∨ n % 8 = 2 ∨ n % 8 = 4 then [.engine ((n - 0x100) / 8)] else [])
  else if inR n 0x200 0x2FF then
    (if n % 16 ≤ 2 then [.group ((n - 0x200) / 16) (n % 16 == 0)] else [])
  else if inR n 0x300 0x50F then [.lane (n - 0x300)]
  else if inR n 0x510 0x533 then
    (if n % 2 = 1 ∧ o.cause ≠ 3 then [.dps ((n - 0x510) / 2) (o.cause == 1)] else [])
  else if n = 0x545 then (if w < 16 then [.slice w] else [])
  else if inR n 0x550 0x55F then (if n % 4 = 3 then [.rse ((n - 0x550) / 4)] else [])
  else if n = 0x562 then
    (if o.names.any (fun e => match e with | .set _ => true | _ => false) then (if w < 256 then [.tmuSet w] else [])
     else if w < 528 then [.tmuLane w] else [])
  else if n = 0x573 then (if w < 17 then [.conv w] else [])
  else if inR n 0x580 0x5BF then
    (if n % 2 = 1 ∧ (o.cause = 2 ∨ o.cause = 6) then [.mc ((n - 0x580) / 2)] else [])
  else []

/-- Consequence set of a fenced unit, as ranges of sources (16 R441). -/
def FUnit.conseq : FUnit → List (Nat × Nat)
  | .engine e => [(0x100 + 8 * e, 0x107 + 8 * e), (0x5D0, 0x5D1)]
  | .group g _ | .groupSensor g | .slice g =>
    [(0x200 + 16 * g, 0x20F + 16 * g), (0x300 + 33 * g, 0x320 + 33 * g), (0x540, 0x540), (0x545, 0x545),
     (0x562, 0x562), (0x570, 0x570)]
  | .lane l => [(0x562, 0x562), (0x300 + l, 0x300 + l)]
  | .dps d _ | .dpsSensor d => [(0x510 + 2 * d, 0x511 + 2 * d), (0x003, 0x003), (0x534, 0x535)]
  | .rse n => [(0x550 + 4 * n, 0x553 + 4 * n)]
  | .tmuLane _ | .tmuSet _ => [(0x560, 0x562)]
  | .conv _ => [(0x570, 0x573)]
  | .mc m => [(0x580 + 2 * m, 0x581 + 2 * m), (0x540, 0x540), (0x542, 0x542), (0x5D0, 0x5D2)]

/-! ## Ending bursts (02 R65, R67; 01 R37) -/

/-- Rank of conditions of one nanosecond: INVALID by REASON, ABORTED, a fail-stop (01 R37). -/
def SiteResult.rank (r : SiteResult) : Nat :=
  match r.res with
  | .invalid => r.reason
  | .aborted => 100
  | _ => 200

/-- The condition that comes first (01 R37). -/
def firstTerm : List Term → Option Term
  | [] => none
  | t :: ts =>
    match firstTerm ts with
    | none => some t
    | some u =>
      if t.time < u.time ∨ (t.time = u.time ∧ t.result.rank ≤ u.result.rank) then some t else some u

/-! ## Cycles in module time (04 R120) -/

/-- Start of the burst's next cycle in module time, units of 0.25 ps. -/
def Burst.nextStart (b : Burst) : Nat := ((b.startTick.getD 0) + 128) * 4000 + b.elapsed

/-- Start of the cycle in progress. -/
def Burst.curStart (b : Burst) : Nat := b.nextStart - b.period

/-- Whole nanoseconds of a time in 0.25 ps. -/
def nsOf (q : Nat) : Nat := q / 4000

/-- Cycle that is in progress at the island. -/
def Burst.curCycle (b : Burst) : Nat := b.cycle - 1

/-- The cycle that contains a module time in 0.25 ps, at the period of the cycle in progress. -/
def Burst.cycleAt (b : Burst) (q : Nat) : Nat :=
  if b.nextStart ≤ q then b.cycle + (q - b.nextStart) / max 1 b.period
  else b.cycle - ceilDiv (b.nextStart - q) (max 1 b.period)

/-- Start of a cycle in module time, at the same period. -/
def Burst.cycleStart (b : Burst) (k : Nat) : Nat :=
  if b.cycle ≤ k then b.nextStart + (k - b.cycle) * b.period else b.nextStart - (b.cycle - k) * b.period

/-- The burst has passed its start tick. -/
def Burst.isStarted (b : Burst) : Bool := b.startTick.isSome && decide (b.phase ≠ .started)

/-- Emission stops: nothing further is issued; the last position emitted as programmed is fixed, which a stop inside its
cycle (`cut`) does not leave so (02 R67). -/
def Burst.stopNow (b : Burst) (cut : Bool := false) : Burst :=
  { b with
    phase := .draining, halted := true, stopped := true
    runs := [], cols := [], strm := {}, ctls := [], waits := [], unit := none, paused := none
    startTick := if b.isStarted then b.startTick else none
    stopAt := if b.stopped then b.stopAt else if cut then b.prevAt else b.lastAt }

/-- A stop at a module time falls into the cycle of the last position emitted. -/
def Burst.cuts (now : Nat) (b : Burst) : Bool :=
  b.lastAt.any (fun x => decide (x.cycle + 1 = b.cycle)) && decide (4000 * now < b.nextStart)

/-- The pins stop at a module time, not at a cycle boundary: strobes after it are masked (02 R66). -/
def Burst.cutNow (now : Nat) (b : Burst) : Burst :=
  { b.stopNow (b.cuts now) with maskFrom := some (b.maskFrom.getD (4000 * now)) }

/-- WINDOW of a DPS channel (05 R182). -/
def isWindow (src : Nat) : Bool := inR src 0x510 0x533 && src % 2 == 0

/-- A terminating condition of a burst, sampled now. One that ends the pins at a cycle boundary is sampled in the cycle
that contains this time and acts 48 cycles after it (02 R65); before the start tick, and for a C0 stop, the burst stops
at once. A window fault takes its own module time (05 R172). After a machine check the pump issues nothing further
(02 R78). -/
def Burst.endBy (now : Nat) (way : EndWay) (result : SiteResult) (src : Nat) (b : Burst) : Burst :=
  let immediate := !b.isStarted || way == .hold || way == .c0
  let k := b.cycleAt (4000 * now)
  let t : Term :=
    { src, time := if immediate || way == .atEnd || isWindow src then now else nsOf (b.cycleStart k)
      act := if immediate then b.curCycle else k + 48, way, result }
  let b := { b with terms := b.terms ++ [t], runs := if way == .safe then [] else b.runs }
  if !immediate || way == .atEnd then b else if way == .c0 then b.cutNow now else b.stopNow

/-- An early end interrupts the micro-sequencer: what is staged is discarded, and LAST_IP is the address of the
instruction that the last commit point left to execute (02 R77). A machine check is no interrupt (R78). -/
def State.interrupt (s : State) (r : Nat) (way : EndWay) : State :=
  match s.burstAt r with
  | some b => if way = .atEnd ∨ way = .safe ∨ 32 ≤ r then s
    else s.updEng r (fun x => { x with micro := { x.micro with lastIp := b.ip, pc := none } })
  | none => s

/-- A condition on the burst of a runner. -/
def State.endBurst (s : State) (r : Nat) (way : EndWay) (result : SiteResult) (src : Nat := 0x7FF) : State :=
  (s.interrupt r way).updBurst r (Burst.endBy s.now way result src)

/-- The G1 safe state reaches the burst's lanes: it ends in this cycle (01 R26, 15 R427). -/
def State.cutBurst (s : State) (r : Nat) (result : SiteResult) (src : Nat) : State :=
  (s.interrupt r .c0).updBurst r (fun b => Burst.cutNow s.now { b with terms := b.terms ++
    [{ src, time := s.now, act := b.curCycle, way := .c0, result }] })

/-- Runners whose burst satisfies a test. -/
def State.runnersBy (s : State) (f : Burst → Bool) : List Nat := (s.ve.bursts.filter (fun x => f x.2)).map (·.1)

/-- Runners whose burst uses a unit (02 R67; 06 R216, 07 R239, 08 R255). A memory channel is no unit of a burst
(03 R113). -/
def State.usersOf (s : State) (u : FUnit) : List Nat :=
  match u with
  | .engine e => s.runnersBy (fun _ => true) |>.filter (· == e)
  | .group g _ | .groupSensor g | .slice g => s.runnersBy (fun b => b.usesGroup g)
  | .lane l =>
    match s.chanOf l with
    | some c => s.runnersBy (fun b => (s.burstChans b).contains c)
    | none => []
  | .dps d _ | .dpsSensor d =>
    match s.dpsSite d with
    | some k => s.runnersBy (fun b => b.sites.any (fun a => a.val == k))
    | none => []
  | .rse n => s.runnersBy (fun _ => true) |>.filter (· == 32 + n)
  | .tmuLane l =>
    s.runnersBy (fun b => b.sets.any (fun m =>
      [s.parN 7 m 0x003, s.parN 7 m 0x004].any (fun v => bits v 9 0 != 0x3FF && s.laneOf (bits v 9 0) == l)))
  | .tmuSet m => s.runnersBy (fun b => b.sets.contains m)
  | .conv c => s.runnersBy (fun b => b.convs.contains c)
  | .mc _ => []

/-! ## Effective engine shares (10 R287) -/

/-- Engines in service. -/
def State.pool (s : State) : Nat := ((List.range 32).filter (fun e => (s.engAt e).mode != .fenced)).length

/-- Take one engine from the largest share, ties to the higher partition. -/
def cutShare (l : List (Nat × Nat)) : List (Nat × Nat) :=
  let m := (l.map (·.2)).foldl max 0
  match (l.filter (fun x => x.2 == m)).getLast? with
  | some (p, _) => l.map (fun x => if x.1 = p then (p, x.2 - 1) else x)
  | none => l

/-- Shares cut one engine at a time until they fit; at most 32 cuts are needed. -/
def fitShares : Nat → Nat → List (Nat × Nat) → List (Nat × Nat)
  | 0, _, l => l
  | k + 1, pool, l => if (l.map (·.2)).sum ≤ pool then l else fitShares k pool (cutShare l)

/-- Effective engine shares of the partitions (ENG_SHARE_EFF). -/
def State.shares (s : State) : List (Nat × Nat) :=
  fitShares 512 s.pool ((List.range 16).map (fun p => (p, (s.part p).engReserve)))

def State.shareOf (s : State) (p : Nat) : Nat := Tbl.get s.shares 0 p

/-! ## Fencing a unit -/

/-- An image holds a granule on the channel (03 R102). -/
def ImgSt.onMc (i : ImgSt) (m : Nat) : Bool := i.mcs.contains m

/-- Channels of the module that are unfenced, rising. -/
def State.freeMcs (s : State) : List Nat := (List.range 32).filter (fun m => (s.mcAt m).mode != 3)

/-- The unit leaves service. -/
def State.fenceState (s : State) (u : FUnit) : State :=
  match u with
  | .engine e => s.updEng e (fun x =>
      { x with mode := .fenced, sensorFence := false, fences := x.fences + (if x.mode = .fenced then 0 else 1) })
  | .group g relock => s.updGrp g (fun x =>
      if relock then { x with pll := .fenced, fences := x.fences + 1 }
      else { x with dead := true, pll := .fenced, fences := x.fences + 1 })
  | .groupSensor g => s.updGrp g (fun x => { x with sensorFence := true })
  | .slice g => s.updGrp g (fun x => { x with cmpFenced := true })
  | .lane l => s.updLane l (fun x =>
      { x.open_ with fenced := true, fences := x.fences + (if x.fenced then 0 else 1) })
  | .dps d trip => s.updDps d (fun x =>
      { x.turnOff with mode := .fenced, tripped := x.tripped || trip, loopFault := x.loopFault || !trip })
  | .dpsSensor d => s.updDps d (fun x => { x.turnOff with mode := .fenced, sensorFence := true })
  | .rse n => s.updRse n (fun x => { x with fenced := true, fences := x.fences + (if x.fenced then 0 else 1) })
  | .tmuLane l => s.updLane l (fun x => { x with tmuFenced := true })
  | .tmuSet m => s.updMs m (fun x => { x with fenced := true })
  | .conv c => s.updPadc c (fun x => { x with fenced := true, running := none, pending := none })
  | .mc m => s.updMc m (fun x => { x with mode := 3, deferred := none })

/-- Open the consequence window of a fence: 20 ms (16 R441). A fence inside a window keeps its primary. -/
def State.openWindow (s : State) (primary : Nat) (u : FUnit) : State :=
  { s with evt.wins := s.evt.wins ++ [{ primary, covers := u.conseq, close := s.now + 20000000, counted := [] }] }

/-- How a fence of this source ends the bursts that use the unit: a machine check of the engine takes the safe state
and gives MCHK (02 R67, 09 R259), a DPS or other unit gives FENCE. -/
def fenceEnd (src : Nat) : EndWay × Nat :=
  if inR src 0x100 0x1FF && (src % 8 == 0 || src % 8 == 1 || src % 8 == 2 || src % 8 == 4) then (.safe, rMCHK)
  else if inR src 0x550 0x55F && src % 4 == 3 then (.stop, rMCHK)
  else (.stop, rFENCE)

/-- A fenced memory channel: images with a granule on it become DAMAGED, and a load of one ends FENCED with nothing
kept (03 R96, 11 R316). -/
def State.damageImages (rz : Occ → State → State) (m : Nat) (s : State) : State :=
  (s.ve.images.filter (fun x => x.2.onMc m && x.2.mode != .damaged)).foldl (fun s x =>
    let p := x.1 / 64
    let h := x.1 % 64
    if x.2.mode = .loading then (s.delImage x.1).complete p x.2.tag 0x0101 .fenced []
    else rz { src := 0x5D2, payload := [h, p, m], names := [.part p] }
      (s.putImage x.1 { x.2 with mode := .damaged })) s

/-! ## Underrun hold (03 R110, R112) -/

/-- The lane is switched by the vectors of its burst: its output switch is closed, it is not on the PMU, and its site
does not hold the safe state (05 R155, R172). -/
def LaneSt.follows (l : LaneSt) : Bool := decide (l.mode ≠ .opened) && decide (l.mode ≠ .pmu)

/-- Lanes of a burst: those that follow its vectors take a mode. -/
def State.lanesMode (s : State) (b : Burst) (m : LaneMode) : State :=
  (s.burstChans b).foldl (fun s c =>
    if s.chanSafe c then s
    else s.updLane (s.laneOf c) (fun l => if l.follows then { l with mode := m, idle := false } else l)) s

/-- Payload of 0x5D0 and 0x5D1 with another cause (03 R116). -/
def setCause (code : Nat) (words : List Nat) : List Nat :=
  words.modify 0 (fun w => w % 2 ^ 12 + code * 2 ^ 12 + w / 2 ^ 16 * 2 ^ 16)

/-- The burst ends in underrun hold in its next cycle: its lanes keep their drive state. -/
def State.underrun (rz : Occ → State → State) (s : State) (r : Nat) (b : Burst) (words : List Nat) : State :=
  let t : Term := { src := 0x5D0, time := max s.now (nsOf b.nextStart), act := b.cycle, way := .hold
                    result := invalidRes rUNDERRUN }
  let s := rz { src := 0x5D0, payload := words, names := b.sites.map (fun k => .site k.val), cond := some (r, t) }
    ((s.putBurst r b).lanesMode b .hold)
  (s.interrupt r .hold).updBurst r (fun b => Burst.stopNow { b with terms := b.terms ++ [t] })

/-- Hold cycles of a pause up to the cycle that contains this time. -/
def Burst.pausedTo (now : Nat) (b : Burst) : Burst :=
  let n := b.cycleAt (4000 * now) - b.cycle
  { b with cycle := b.cycle + n, elapsed := b.elapsed + n * b.period, holds := b.holds + n }

/-- A fenced memory channel ends the bursts that pause for a granule on it: that granule will never arrive (03 R112). -/
def State.fencePauses (rz : Occ → State → State) (m : Nat) (s : State) : State :=
  s.ve.bursts.foldl (fun s x =>
    match x.2.paused with
    | some p =>
      if p.mc = some m then
        let b := x.2.pausedTo s.now
        State.underrun rz s x.1 b (setCause 4 p.words)
      else s
    | none => s) s

/-- A change of the effective shares raises POOL_SHRINK to every partition (10 R287). -/
def State.poolEvent (rz : Occ → State → State) (before : List (Nat × Nat)) (s : State) : State :=
  if s.shares = before then s
  else rz { src := 0x5C4, payload := [s.pool, 0], also := List.range 16 } s

/-- Fence one unit with all its effects. -/
def State.fence (rz : Occ → State → State) (src primary : Nat) (u : FUnit) (s : State) : State :=
  let shares := s.shares
  let (way, reason) := fenceEnd src
  let s := (s.usersOf u).foldl (fun s r => s.endBurst r way (invalidRes reason) src) s
  let s := (s.fenceState u).openWindow primary u
  match u with
  | .engine _ => s.poolEvent rz shares
  | .mc m => (s.damageImages rz m).fencePauses rz m
  | .group g _ | .groupSensor g => s.calAbandon (isGroup g) false
  | .dps d _ | .dpsSensor d =>
    let s := s.calAbandon (isDps d) false
    match s.dpsSite d with
    | some k => s.dropSeq k
    | none => s
  | _ => s

/-! ## Safe state and the FATAL state (01 R26, 16 R446) -/

/-- Result a FATAL source gives the bursts it ends (01 R36). -/
def fatalReason (src : Nat) : Nat :=
  if src = 0x042 ∨ src = 0x046 then rTHERMAL
  else if src = 0x001 ∨ src = 0x008 then rSUPPLY
  else rFENCE

/-- The G1 safe state: every lane takes its SAFE_MODE, every DPS channel discharges, every burst ends. -/
def State.safeState (s : State) (reason src : Nat) : State :=
  let s := s.ve.bursts.foldl (fun s x => s.cutBurst x.1 (invalidRes reason) src) s
  let s := (List.range 128).foldl State.dropSeq s
  ({ s.safeAllLanes.dischargeAll with pwr.safe := true } : State).calAbandon (fun _ => true) true

/-- The FATAL state: TABOR stops, the first source is named. -/
def State.enterFatal (s : State) (src : Nat) : State :=
  { s with
    evt.tabor := false
    evt.fatal := true
    evt.fatalSrc := if s.evt.fatal then s.evt.fatalSrc else src }

/-! ## WINDOW faults (05 R172) -/

/-- The SETTLED entry of a site takes INVALID(SUPPLY), when it exists (10 R281). -/
def State.settledInvalid (s : State) (k : Nat) : State :=
  { s with sch.tokens := s.sch.tokens.map (fun t =>
      if t.scope.val = k ∧ t.kind = 1 then { t with result := (invalidRes rSUPPLY).code } else t) }

/-- FAULT_ACTION of a window fault: REPORT, STOP or SAFE. -/
def State.windowAction (s : State) (d src : Nat) (eff : Nat) : State :=
  match s.dpsSite d with
  | none => s
  | some k =>
    let s := s.settledInvalid k
    let act := s.parN 4 d 0x015
    let s := match s.siteRunner k with
      | some r => s.endBurst r (if act ≠ 0 then .stop else if eff < 4 then .atEnd else .keep) (invalidRes rSUPPLY) src
      | none => s
    if act = 0 then s
    else if act = 1 then (if (s.siteRunner k).isSome then s else s.stopSite k)
    else ((s.safeSite k).dischargeSite k).updSite k (fun t => { t with safe := true })

/-! ## One occurrence -/

/-- Partitions that own an element. -/
def State.ownersOf (s : State) (e : Elem) : List Nat :=
  let by_ (f : PartRec → Bool) : List Nat := (List.range 16).filter (fun p => f (s.part p))
  match e with
  | .site k => by_ (fun r => r.sites.getLsbD k)
  | .chan c => by_ (fun r => r.channels.getLsbD c)
  | .lane l => match s.chanOf l with
    | some c => by_ (fun r => r.channels.getLsbD c)
    | none => []
  | .grp g => (List.range 16).filter (fun p => s.ownsSomeOfGrp p g)
  | .runner r => match s.burstAt r with
    | some b => [b.part.val]
    | none => []
  | .dps d => by_ (fun r => r.dps.getLsbD d)
  | .unit u => by_ (fun r => r.units.getLsbD u)
  | .trg t => by_ (fun r => r.capTriggers.getLsbD t)
  | .stream h => by_ (fun r => r.streams.getLsbD h)
  | .set m => by_ (fun r => r.tmuSets.getLsbD m)
  | .conv c => (List.range 16).filter (fun p => s.ownsPmu p c)
  | .rse n => by_ (fun r => r.raster.getLsbD n)
  | .part p => [p]

/-- Elements that the source's ID range names. -/
def srcElems (n : Nat) : List Elem :=
  match srcUnitNo n with
  | none => []
  | some u =>
    if inR n 0x080 0x08F then [.part u]
    else if inR n 0x100 0x1FF then [.runner u]
    else if inR n 0x200 0x2FF then [.grp u]
    else if inR n 0x300 0x50F then [.lane u]
    else if inR n 0x510 0x533 then [.dps u]
    else if inR n 0x550 0x55F then [.rse u]
    else []

/-- Rings that take the record: the system partition, the owners of the elements named, and without one every
partition with EVT_GLOBAL (14 R398). -/
def State.rings (s : State) (o : Occ) : List Nat :=
  let owners := (srcElems o.src ++ o.names).flatMap s.ownersOf ++ o.also
  let global := if (srcElems o.src ++ o.names).isEmpty && o.also.isEmpty then
      (List.range 16).filter (fun p => (s.part p).evtGlobal && o.src != 0x054) else []
  (List.range 16).filter (fun p => p == s.host.sysPart.val || owners.contains p || global.contains p)

/-- First-error capture (16 R442): the first is kept, later ones count. -/
def FErr.add (l : Tbl FErr) (blk : Nat) (e : FErr) : Tbl FErr :=
  match Tbl.find l blk with
  | some f => Tbl.put l blk { f with count := satAdd f.count 1 0xFFFF }
  | none => Tbl.put l blk e

/-- Word of the payload that names an element first, for a source whose ID range belongs to no unit (16 R437, R442 and
the chapters' event tables). -/
def elemWord (src : Nat) : Option Nat :=
  if src = 0x0BF then some 2
  else if src = 0x5D2 ∨ src = 0x5E0 ∨ src = 0x5E1 then some 1
  else if [0x003, 0x042, 0x043, 0x044, 0x048, 0x052, 0x054, 0x092, 0x093, 0x0F5, 0x534, 0x535, 0x5C0, 0x5C5, 0x5C6,
      0x5D0, 0x5D1, 0x5E2].contains src || inR src 0x540 0x545 || inR src 0x560 0x562 || inR src 0x570 0x573
    then some 0
  else none

/-- ELEMENT of the first-error record of an occurrence (16 R442). -/
def Occ.element (o : Occ) : Nat :=
  match srcUnitNo o.src with
  | some u => u
  | none => match elemWord o.src with
    | some i => if o.src = 0x5D0 ∨ o.src = 0x5D1 then bits (o.payload.getD i 0) 6 0 else o.payload.getD i 0
    | none => 0

/-- Effects of ALARM: GONG_N, sticky bit and count of 12 R337, first-error record (16 R432, R442, R445). -/
def State.alarm (s : State) (o : Occ) : State :=
  let (addr, master, access) := o.err.getD (0, 0xFF, 6)
  let (n, _, q) := Tbl.get s.evt.sticky (0, 0, false) o.src
  { s with
    evt.gong := true
    evt.gongFirst := if s.evt.gongFirst = 0x7FF then o.src else s.evt.gongFirst
    evt.sticky := Tbl.put s.evt.sticky o.src (satAdd n 1 0xFFFFFFFF, s.now, q)
    evt.ferr := FErr.add s.evt.ferr (srcBlock o.src)
      { time := s.now, addr, master, access, element := o.element, source := o.src
        count := 0, elem := (srcElems o.src ++ o.names).head? } }

/-- The record of an occurrence (16 R437). -/
def State.recordOf (s : State) (o : Occ) (eff : Nat) (after : Option Nat) : EvRec :=
  { source := o.src, react := eff, forced := o.forced, conseq := after.isSome, primary := after.getD 0x7FF
    time := s.now, node := s.parN 11 0 0x002, firstShort := shortTime s.now, payload := o.payload }

/-- Port that leads to a node in a ring: the direction with fewer hops, else the other (12 R325). The spec does not say how a
module knows the ring's order: a constant of the ring (notes/assumptions/102.md). -/
def State.ringPort (s : State) (node : Nat) : Option Nat :=
  let up (p : Nat) : Bool := (s.portAt p).mode == .active
  let (a, b) := if Config.ringClockwise (s.parN 11 0 0x002) node then (2, 0) else (0, 2)
  if up a then some a else if up b then some b else none

/-- Port that leads to a node (12 R327): table entry, else upstream on the traffic tree; in a ring R325. -/
def State.portTo (s : State) (node : Nat) : Option Nat :=
  if s.parN 11 0 0x001 = 2 then s.ringPort node
  else match Tbl.find s.ngl.route node with
  | some p => some p
  | none =>
    if (s.portAt 0).mode == .active then some 0
    else if (s.portAt 1).mode == .active then some 1 else none

/-- Queue a C3 frame; a full queue of 64 drops it, counted, with event 0x0F6 at most once per second (12 R338). -/
def State.queueC3 (rz : Occ → State → State) (dst : Nat) (f : Frame) (s : State) : State :=
  match s.portTo dst with
  | none => { s with ngl.noRoute := s.ngl.noRoute + 1 }
  | some p =>
    if (s.portAt p).c3.length < 64 then s.updPort p (fun x => { x with c3 := x.c3 ++ [f] })
    else
      let s : State := { (s.updPort p (fun x => { x with c3Since := x.c3Since + 1 })) with
        ngl.c3Dropped := s.ngl.c3Dropped + 1 }
      if s.ngl.c3Told + 1000000000 ≤ s.now ∨ s.ngl.c3Told = 0 then
        rz { src := 0x0F6 } { s with ngl.c3Told := max 1 s.now }
      else s

/-- A NOTE record in the system partition's ring also goes to LOG_SINK (16 R438). -/
def State.sendLog (rz : Occ → State → State) (r : EvRec) (s : State) : State :=
  let sink := s.parN 11 0 0x042
  if bit sink 15 = 1 ∧ r.react = 1 ∧ bits sink 13 0 ≠ s.parN 11 0 0x002 ∧ r.remote = false then
    s.queueC3 rz (bits sink 13 0) (.log (bits sink 13 0) (s.parN 11 0 0x002)
      { source := r.source, reaction := r.react, time := r.time, payload := r.payload, conseq := r.conseq, forced := r.forced
        coalesced := r.coalesced, lost := r.lost, count := r.count, node := r.node, primary := r.primary
        first := r.firstShort })
  else s

/-- Write the record of an occurrence to its rings, POOL_SHRINK with the share of each partition (10 R287); the first
record that a ring drops raises EVT_DROP (16 R439, R456). -/
def State.writeRecord (rz : Occ → State → State) (ps : List Nat) (r : EvRec) (s : State) : State :=
  let starts := ps.filter (fun p => s.fate p r == .drop && (s.fnAt p).evtLost == (s.fnAt p).evtLostTold)
  let s := if r.source = 0x5C4 then
      ps.foldl (fun s p => s.deliver p { r with payload := r.payload.set 1 (s.shareOf p) }) s
    else s.deliverAll ps r
  let s := if ps.contains s.host.sysPart.val && !(s.fate s.host.sysPart.val r == .drop) then s.sendLog rz r else s
  if r.source = 0x054 then s else starts.foldl (fun s p => rz { src := 0x054, payload := [p] } s) s

/-- The earliest open window whose set holds the source (16 R441). -/
def coverIx (now src : Nat) : List Win → Nat → Option Nat
  | [], _ => none
  | w :: ws, i =>
    if decide (now < w.close) && w.covers.any (fun c => inR src c.1 c.2) then some i else coverIx now src ws (i + 1)

/-- Count a consequent occurrence in a window. -/
def Win.count (w : Win) (o : Occ) (eff now : Nat) (rings : List Nat) : Win :=
  if w.counted.any (fun c => c.source == o.src) then
    { w with counted := w.counted.map (fun c => if c.source = o.src then
        { c with count := c.count + 1, time := now, react := max c.react eff
                 rings := (List.range 16).filter (fun p => c.rings.contains p || rings.contains p) } else c) }
  else { w with counted := w.counted ++
    [{ source := o.src, count := 1, time := now, first := shortTime now, react := eff, payload := o.payload
       forced := o.forced, rings }] }

/-- Runners whose burst an occurrence ends: users of what it fences, a DPS window's site, a stale group's bursts under
STALE_POLICY = 1, and every burst for a FATAL one (01 R37; 05 R172, 04 R141, 16 R435). -/
def State.struck (s : State) (o : Occ) (eff : Nat) : List Nat :=
  let us := o.fences ++ (if 3 ≤ eff then (srcUnit o.src).toList else [])
  us.flatMap s.usersOf ++
  (if isWindow o.src then ((s.dpsSite ((o.src - 0x510) / 2)).bind s.siteRunner).toList else []) ++
  (if inR o.src 0x200 0x2FF && o.src % 16 == 4 && s.parN 2 ((o.src - 0x200) / 16) 0x005 == 1
    then s.usersOf (.group ((o.src - 0x200) / 16) 0) else []) ++
  (if eff = 5 then s.ve.bursts.map (·.1) else [])

/-- The condition that an occurrence is for the bursts it ends. -/
def State.condOf (s : State) (o : Occ) (eff : Nat) : Term :=
  { src := o.src, time := s.now, act := 0, way := .atEnd
    result := invalidRes (if isWindow o.src then rSUPPLY else if eff = 5 then fatalReason o.src else rFENCE) }

/-- A condition comes after another one in the order of 01 R37. -/
def Term.follows (t u : Term) : Bool :=
  decide (u.time < t.time) || (decide (u.time = t.time) && decide (u.result.rank ≤ t.result.rank))

/-- First condition of the bursts that the occurrence ends, where it comes after a condition of each of them: it is then
reported as consequent (01 R37). -/
def State.afterFirst (s : State) (o : Occ) (eff : Nat) : Option Nat :=
  let (rs, t) := match o.cond with
    | some (r, t) => ([r], t)
    | none => (s.struck o eff, s.condOf o eff)
  let bs := s.ve.bursts.filter (fun x => rs.contains x.1)
  if bs.isEmpty || bs.any (fun x => !x.2.terms.any t.follows) then none
  else ((bs.head?).bind (fun x => firstTerm x.2.terms)).map (·.src)

/-- The input switch opens: overvoltage (15 R409). -/
def State.openSwitch (s : State) : State :=
  { s with pwr.sup := { s.pwr.sup with switchOn := false, ovAt := some s.now, cause := 2 } }

/-- What the hardware does at a FATAL occurrence of the supply and thermal sources, forced ones too (15 R409, R419,
R427; 16 R435). -/
def State.hardware (s : State) (o : Occ) : State :=
  match o.src with
  | 0x001 => s.openSwitch
  | 0x008 => { s with pwr.sup := { s.pwr.sup with hp := 4 } }
  | 0x042 => { s with pwr.therm := { s.pwr.therm with
      dieTrip := true, tripSrc := o.payload.headD 0 % 256, tripAt := s.now } }
  | 0x046 => { s with pwr.therm := { s.pwr.therm with inTrip := true, tripSrc := 46, tripAt := s.now } }
  | _ => s

/-- The reaction: fences, ended bursts, the safe state. -/
def State.react (rz : Occ → State → State) (o : Occ) (eff primary : Nat) (s : State) : State :=
  let chapter := o.fences
  let units := if eff = 3 then (if chapter.isEmpty then (srcUnit o.src).toList else chapter) else chapter
  let s := units.foldl (fun s u => s.fence rz o.src primary u) s
  let s := if eff = 4 ∧ chapter.isEmpty ∧ isWindow o.src = false then
      ((srcUnit o.src).toList.flatMap s.usersOf).foldl (fun s r => s.endBurst r .stop (invalidRes rFENCE) o.src) s
    else s
  let s := if isWindow o.src then s.windowAction ((o.src - 0x510) / 2) o.src eff else s
  if eff = 5 then ((s.hardware o).safeState (fatalReason o.src) o.src).enterFatal o.src else s

/-- What one occurrence does, given what raises the occurrences that follow from it. -/
def State.raiseWith (rz : Occ → State → State) (o : Occ) (s : State) : State :=
  let cfg := s.parN 13 o.src 0x100
  let eff := max (defaultReact o.src o.cause) (cfg % 8)
  let s : State := { s with evt.count := Tbl.upd s.evt.count 0 o.src (satAdd · 1 0xFFFFFFFF) }
  let s := if 2 ≤ eff then s.alarm o else s
  let after := s.afterFirst o eff
  match (if eff = 5 then none else coverIx s.now o.src s.evt.wins 0) with
  | some i =>
    let primary := (s.evt.wins[i]?.map (·.primary)).getD 0x7FF
    let s : State := { s with
      evt.wins := s.evt.wins.modify i (fun w => w.count o eff s.now (s.rings o))
      evt.conseq := Tbl.upd s.evt.conseq 0 o.src (satAdd · 1 0xFFFFFFFF) }
    s.react rz o eff primary
  | none =>
    let s := if eff = 1 ∧ bit cfg 4 = 1 then s else s.writeRecord rz (s.rings o) (s.recordOf o eff after)
    s.react rz o eff o.src

/-- Occurrences that follow from an occurrence, to a depth no cascade of the spec exceeds. -/
def raiseN : Nat → Occ → State → State
  | 0, _, s => s
  | n + 1, o, s => s.raiseWith (raiseN n) o

/-- One occurrence of a source. -/
def State.raise (s : State) (o : Occ) : State := raiseN 4 o s

/-- An occurrence, as `queueC3` and `deliver` take it. -/
def raiseTop (o : Occ) (s : State) : State := s.raise o

/-- An occurrence with a payload. -/
def State.event (s : State) (src : Nat) (payload : List Nat := []) (names : List Elem := []) : State :=
  s.raise { src, payload, names }

/-- PRECEDENCE_BREAK: guarantee kept, guarantee broken, written to the affected partition (01 R25). -/
def State.precedence (s : State) (kept broken p : Nat) : State :=
  s.raise { src := 0x0BF, payload := [kept, broken, p], names := [.part p] }

/-- World or partition tag-check failure in a block's space: first-error record with SOURCE 0x7FF (16 R442). -/
def State.tagCheck (s : State) (blk addr master access el : Nat) : State :=
  let e : FErr := { time := s.now, addr, master, access, element := el, source := 0x7FF, count := 0 }
  { s with evt.ferr := FErr.add s.evt.ferr blk e }

end Sys2Proof.Machine
end

