-- ==== Sys2Proof/Machine/Streams.lean ====
section
/-!
DEFINITION. Host streams: what writing a record does to the ring in host memory, losses and gaps, and the site-local
streams bound to host streams (06 R205–R212).
-/

namespace Sys2Proof.Machine

/-- Record types (06 R208). -/
def tPAD : Nat := 0x00
def tEPOCH : Nat := 0x01
def tMARK : Nat := 0x02
def tSTART : Nat := 0x03
def tSTOP : Nat := 0x04
def tTRIGGER : Nat := 0x05
def tGAP : Nat := 0x06
def tDATA : Nat := 0x07
def tFAIL : Nat := 0x08
def tBURSTEND : Nat := 0x09
def tTMU : Nat := 0x10
def tPADC : Nat := 0x11
def tRSE : Nat := 0x12

/-- Buffer size of an open stream. -/
def HsSt.size (h : HsSt) : Nat := (h.desc.map (·.size)).getD 0
def HsSt.unread (h : HsSt) : Nat := h.prod - h.cons
def HsSt.freeBytes (h : HsSt) : Nat := h.size - h.unread
def HsSt.watermark (h : HsSt) : Nat := (h.desc.map (·.watermark)).getD 0

/-- Bytes from the producer count to the end of the buffer, when a record of this length would cross it. -/
def HsSt.padFor (h : HsSt) (bytes : Nat) : Nat :=
  let at_ := h.prod % max 1 h.size
  if h.size < at_ + bytes then h.size - at_ else 0

/-- The two header words of a record (06 R207). -/
def StrmRec.header (r : StrmRec) : List Nat :=
  [r.type % 2 ^ 8 + r.len % 2 ^ 8 * 2 ^ 8 + r.source % 2 ^ 8 * 2 ^ 16 + r.rflags % 2 ^ 8 * 2 ^ 24, shortTime r.time]

/-- The words of a record as they stand in the ring; what no field names is 0 (06 R207, R208). -/
def StrmRec.image (r : StrmRec) : List Nat :=
  (r.header ++ r.words ++ List.replicate (8 * r.len) 0).take (8 * r.len)

/-- Put a record in the ring, preceded by a PAD record where it would cross the end (06 R206). -/
def HsSt.append (now : Nat) (r : StrmRec) (h : HsSt) : HsSt :=
  let pad := h.padFor (32 * r.len)
  let pads := if pad = 0 then [] else
    [{ type := tPAD, source := 0xFF, rflags := 0, time := now, len := pad / 32, words := [] : StrmRec }]
  { h with recs := h.recs ++ pads ++ [r], prod := h.prod + pad + 32 * r.len, staged := h.staged + pad + 32 * r.len }

/-- The EPOCH record of an instant (06 R208). -/
def epochRec (now dom : Nat) (lock : Bool) : StrmRec :=
  { type := tEPOCH, source := 0xFF, rflags := 0, time := now, len := 1
    words := [now % 2 ^ 32, now / 2 ^ 32 % 2 ^ 32, dom % 2 + 2 * b2n lock] }

/-- The GAP record of what was lost. -/
def HsSt.gapRec (now : Nat) (h : HsSt) : StrmRec :=
  { type := tGAP, source := 0xFF, rflags := 0, time := now, len := 2
    words := [h.gapRecs, h.gapSamples % 2 ^ 32, h.gapSamples / 2 ^ 32, h.firstLoss % 2 ^ 32, h.firstLoss / 2 ^ 32 % 2 ^ 32,
      h.lastLoss % 2 ^ 32, h.lastLoss / 2 ^ 32 % 2 ^ 32] }

/-- Samples that a DATA record carries (06 R208, word 3 [25:20]). -/
def StrmRec.samples (r : StrmRec) : Nat := if r.type = tDATA then bits (r.words[1]?.getD 0) 25 20 else 0

/-- A record is lost and counted (06 R212). -/
def HsSt.lose (r : StrmRec) (h : HsSt) : HsSt :=
  { h with
    mode := .losing, lost := satAdd h.lost 1 0xFFFFFFFF
    gapRecs := h.gapRecs + 1, gapSamples := h.gapSamples + r.samples
    firstLoss := if h.mode = .losing then h.firstLoss else r.time, lastLoss := r.time }

/-- A record is written to an open stream when there is room for it and for a GAP and an EPOCH, and in the staging
buffer of 64 KiB; else it is lost (06 R212). -/
def HsSt.write (r : StrmRec) (h : HsSt) : HsSt :=
  match h.mode with
  | .open_ =>
    let bytes := h.padFor (32 * r.len) + 32 * r.len
    if bytes + 96 ≤ h.freeBytes ∧ h.staged + bytes ≤ 65536 then h.append r.time r else h.lose r
  | .losing => h.lose r
  | .closed | .error => h

/-- CAP_DELAY: how long a record is held to merge the sources in module time (06 R209). -/
def capDelay : Nat := 1500

/-- The place of a record among those held: after all that are not later. -/
def holdRec (r : StrmRec) : List StrmRec → List StrmRec
  | [] => [r]
  | x :: xs => if x.time ≤ r.time then x :: holdRec r xs else r :: x :: xs

/-- The GAP and the EPOCH that end a loss (06 R209, R212). -/
def HsSt.resume (dom : Nat) (lock : Bool) (t : Nat) (h : HsSt) : HsSt :=
  { ((h.append t (h.gapRec t)).append t (epochRec t dom lock)) with mode := .open_, gapRecs := 0, gapSamples := 0 }

/-- Write the records whose CAP_DELAY has passed, in order. -/
def HsSt.release (now dom : Nat) (lock : Bool) (h : HsSt) : HsSt :=
  let due := h.wait.takeWhile (fun r => decide (r.time + capDelay ≤ now))
  due.foldl (fun h r => if r.type = tGAP then h.resume dom lock r.time else h.write r)
    { h with wait := h.wait.drop due.length }

/-- A record that is to be written. -/
def HsSt.push (r : StrmRec) (h : HsSt) : HsSt :=
  match h.mode with
  | .open_ | .losing => { h with wait := holdRec r h.wait }
  | .closed | .error => h

/-- MSIX of the stream's owner is sent when unread bytes reach the watermark (06 R206). -/
def State.streamMsix (s : State) (h : Nat) : State :=
  match s.ownerBy (fun r => r.streams.getLsbD h) with
  | some p => s.updFn p (fun f => { f with msixSent := f.msixSent + 1 })
  | none => s

/-- The link of the port of the stream's owner is down. -/
def State.streamDown (s : State) (h : Nat) : Bool :=
  match s.ownerBy (fun r => r.streams.getLsbD h) with
  | some p => !s.linkUp p
  | none => false

/-- Bytes that a host link moves in a time in ns: lanes × GT/s, coded 8b/10b below 8 GT/s and 128b/130b from there on
(01 R20; the lower rates by PCI Express, notes/assumptions/94.md, PRESUMED). -/
def HostLink.bytes (x : HostLink) (ns : Nat) : Nat :=
  if !x.up then 0
  else match x.rate with
    | 0 => 0
    | 1 => ns * x.width / 4
    | 2 => ns * x.width / 2
    | r => ns * x.width * 2 ^ (r - 3) * 128 / 130

/-- A port takes from the staging buffers of its streams, in rising order of the streams, what its link moves. -/
def takeStaged (port : Nat → Option Nat) (p : Nat) : Nat → Tbl HsSt → Tbl HsSt
  | _, [] => []
  | n, (k, h) :: l =>
    if port k = some p then
      let m := min n h.staged
      (k, { h with staged := h.staged - m }) :: takeStaged port p (n - m) l
    else (k, h) :: takeStaged port p n l

/-- The host ports have taken what they can up to now (06 R212). -/
def State.drainStreams (s : State) : State :=
  let port (h : Nat) : Option Nat := (s.ownerBy (fun r => r.streams.getLsbD h)).map (· / 4)
  let ns := s.now - s.acq.strmAt
  { s with
    acq.strmAt := max s.acq.strmAt s.now
    acq.hs := (List.range 4).foldl (fun l p => takeStaged port p ((s.hlinkAt p).bytes ns) l) s.acq.hs }

/-- Losses that the last GAP record of a stream tells. -/
def HsSt.gapTold (h : HsSt) : Nat :=
  (((h.recs.filter (fun r => r.type == tGAP)).getLast?).map (fun r => r.words.headD 0)).getD 0

/-- What a host stream holds and is due at a time is written: MSIX at the watermark and at a GAP, event STREAM_GAP
(06 R206, R209, R212, R216). -/
def State.streamWrite (s : State) (h t : Nat) : State :=
  let a := s.hsAt h
  let gap := a.wait.any (fun r => r.type == tGAP && decide (r.time + capDelay ≤ t))
  let s := s.drainStreams
  let b := (s.hsAt h).release t s.ngl.tm.sel s.ngl.tm.lock
  let s := s.updHs h (fun _ => b)
  let s := if gap ∨ (a.unread < a.watermark ∧ a.watermark ≤ b.unread) then s.streamMsix h else s
  if gap then s.event 0x542 [h, b.gapTold] [.stream h] else s

/-- A record for host stream `h`. -/
def State.streamPush (s : State) (h : Nat) (r : StrmRec) : State :=
  (s.updHs h (HsSt.push r)).streamWrite h s.now

/-- Domain and lock of the present EPOCH. -/
def State.epochNow (s : State) : StrmRec := epochRec s.now s.ngl.tm.sel s.ngl.tm.lock

/-- The losses end once free space reaches SIZE / 16: a GAP takes its place among the records of the stream (06 R212). -/
def State.streamRecover (s : State) (h : Nat) : State :=
  let a := s.hsAt h
  if a.mode = .losing ∧ a.size ≤ 16 * a.freeBytes ∧ s.streamDown h = false ∧ (a.wait.all (fun r => r.type != tGAP)) then
    s.streamPush h { type := tGAP, source := 0xFF, rflags := 0, time := s.now, len := 2, words := [] }
  else s

/-- Host stream bound to local stream `n` of a site (06 R217 SITE_STREAM). -/
def State.bound (s : State) (site n : Nat) : Option Nat :=
  let h := s.parN 5 site (0x020 + n)
  if n < 8 ∧ h < 64 then some h else none

/-- Record types that are produced only while the local stream is started (06 R210). -/
def needsStart (type : Nat) : Bool :=
  type == tDATA || type == tFAIL || type == tTMU || type == tPADC || type == tRSE

/-- A record of a site for its local stream `n`. -/
def State.sitePush (s : State) (site n : Nat) (r : StrmRec) : State :=
  match s.bound site n with
  | some h =>
    if needsStart r.type && !(s.siteAt site).started.getLsbD n then s
    else s.streamPush h { r with source := site }
  | none => s

/-- A record of a site for every local stream bound. -/
def State.sitePushAll (s : State) (site : Nat) (r : StrmRec) : State :=
  (List.range 8).foldl (fun s n => s.sitePush site n r) s

end Sys2Proof.Machine
end

