-- ==== Sys2Proof/Machine/Governor.lean ====
section
/-!
DEFINITION. The power budget and the committed load (01 R22, R23; 10 R289–R292; 15 R425). Powers are in units of
0.01 W, temperatures in units of 0.01 °C, voltages in units of 10 mV.
-/

namespace Sys2Proof.Machine

/-! ## Temperatures (15 R421–R423) -/

/-- A valid reading of a sensor. -/
def State.validTemp (s : State) (n : Nat) : Option Int :=
  if (s.snsAt n).broken = 0 ∧ (s.snsAt n).latched = false then (s.snsAt n).raw else none

/-- SNS_TEMP: the last reading, 150.00 °C when broken. -/
def State.snsTemp (s : State) (n : Nat) : Int :=
  if (s.snsAt n).broken = 0 ∧ (s.snsAt n).latched = false then (s.snsAt n).raw.getD 0 else 15000

/-- Highest of the valid readings; with none, the 150.00 °C that the zone acts at (notes/assumptions/20.md). -/
def State.hottest (s : State) (l : List Nat) : Int :=
  match l.filterMap s.validTemp with
  | [] => 15000
  | a :: r => r.foldl max a

/-- T_DIE. -/
def State.tDie (s : State) : Int := s.hottest (List.range 24)

/-- T_HBM of a stack. -/
def State.tHbm (s : State) (k : Nat) : Int := s.hottest [24 + k, 26 + k]

/-! ## Budget (01 R22) -/

/-- P_SUPPLY = min(400 W, 11.0 A × VIN × 0.94). -/
def pSupply (vinFilt : Nat) : Nat := min 40000 (vinFilt * 1034 / 100)

/-- P_THERMAL (15 R425). -/
def pThermal (throttle : Bool) (pIdle : Nat) (tDie : Int) : Nat :=
  if throttle then max pIdle (40000 - 15 * (tDie - 9500).toNat) else 40000

/-- P_BUDGET = min(P_SUPPLY, P_THERMAL, P_LIMIT). -/
def State.budgetNow (s : State) : Nat :=
  min (min (pSupply s.pwr.sup.vinFilt) (pThermal s.pwr.therm.dieThrottle s.pwr.sup.pIdle s.tDie)) (s.parN 9 0 0x014)

/-- Demands of the DPS channels that are on. -/
def State.dpsLoad (s : State) : Nat := ((List.range 18).map (fun d => (s.dpsAt d).demand)).sum

/-- Charges of the bursts that hold one. -/
def State.burstLoad (s : State) : Nat := ((s.ve.bursts ++ s.ve.drain).map (fun x => x.2.charge)).sum

/-- P_COMMITTED. -/
def State.pCommitted (s : State) : Nat := s.pwr.sup.pIdle + s.burstLoad + s.dpsLoad

/-- Admission is closed to every burst and DPS step: orderly stop, orderly removal, safe state, FATAL, hand-over
(10 R292; 15 R417; 16 R446; 14 R402). -/
def State.stopped (s : State) : Bool :=
  s.pwr.therm.stop.isSome || s.pwr.sup.hp != 1 || s.pwr.safe || s.evt.fatal || s.fw.hand == 2 || (s.fw.state != 1 && s.fw.state != 2)

/-- The admission test of 10 R289. -/
def State.fits (s : State) (e : Nat) : Bool := decide (s.pCommitted + e ≤ s.sch.gov.budget)

/-- The oldest ready task that failed admission holds all others out once it has waited ADMIT_PATIENCE (10 R290). -/
def State.closedBy (s : State) : Option Nat := if s.sch.gov.closed then s.sch.gov.head else none

/-- A DPS step is admitted (10 R289, R290). -/
def State.admitStep (s : State) (e : Nat) : Bool := !s.stopped && s.fits e && s.closedBy.isNone

/-! ## Shedding (15 R411, R412) -/

/-- Demand of a site's DPS channels. -/
def State.siteDemand (s : State) (k : Nat) : Nat := ((s.siteDps k).map (fun d => (s.dpsAt d).demand)).sum

/-- A site is being shed: its channels discharge and no sequence of it runs. -/
def State.beingShed (s : State) (k : Nat) : Bool :=
  (s.siteAt k).shed && (s.siteAt k).seqRun.isNone && (s.siteDps k).all (fun d =>
    !(s.dpsAt d).on || (s.dpsAt d).mode == .discharging)

/-- A site is eligible for shedding. -/
def State.shedOk (s : State) (k : Nat) : Bool :=
  let pr := s.parN 13 k 0x011
  decide (1 ≤ pr) && decide (pr ≤ 7) && (s.siteDps k).any (fun d => (s.dpsAt d).on) && !s.siteBusy k &&
    (s.siteAt k).seqRun.isNone && !s.beingShed k

/-- The next site to shed: lowest SHED_PRIO, ties to the higher number. -/
def State.nextShed (s : State) : Option Nat :=
  ((List.range 128).filter s.shedOk).foldl (fun acc k =>
    match acc with
    | none => some k
    | some j => if s.parN 13 k 0x011 ≤ s.parN 13 j 0x011 then some k else some j) none

/-- Shed one site. -/
def State.shed (s : State) (k : Nat) : State :=
  let s := ((s.safeSite k).dischargeSite k).settledInvalid k
  (s.updSite k (fun t => { t with shed := true, safe := true })).event 0x003 [k] [.site k]

/-- Demand of the sites that are being shed. -/
def State.sheddingLoad (s : State) : Nat :=
  (((List.range 128).filter s.beingShed).map s.siteDemand).sum

/-- Shed sites until P_REMAIN fits the budget or none is eligible. -/
def State.shedLoop : Nat → State → State
  | 0, s => s
  | n + 1, s =>
    if s.pCommitted - s.sheddingLoad ≤ s.sch.gov.budget then s
    else match s.nextShed with
      | some k => (s.shed k).shedLoop n
      | none => s

/-- Recompute P_BUDGET; event THROTTLE on leaving or reaching 400 W; shedding below VIN_WARN (01 R22, 10 R303,
15 R411). -/
def State.recompute (s : State) : State :=
  let old := s.sch.gov.budget
  let b := s.budgetNow
  let g : Gov := { s.sch.gov with
    budget := b, supply := pSupply s.pwr.sup.vinFilt
    thermal := pThermal s.pwr.therm.dieThrottle s.pwr.sup.pIdle s.tDie }
  let s : State := { s with sch.gov := g }
  let s := if (old < 40000) ≠ (b < 40000) then s.event 0x5C2 [b] else s
  if s.pwr.sup.below then s.shedLoop 128 else s

/-! ## Low-power states of the memory (11 R310, R319) -/

/-- Stack of a pseudo-channel. -/
def stackOf (x : Nat) : Nat := x / 32

/-- Host DMA, fills or log writes are pending. -/
def State.dmaPending (s : State) : Bool :=
  !s.host.xfers.isEmpty || s.ve.bursts.any (fun x => decide (x.2.phase = .filling)) ||
    s.ve.images.any (fun x => x.2.mode == .loading) || (List.range 16).any (fun g => decide (0 < (s.grpAt g).fifo))

/-- Smallest latency tolerance in ns; none when it is unlimited. -/
def State.tolerance (s : State) : Option Nat :=
  if s.ve.bursts.any (fun x => !x.2.raster) then some 0
  else minOf (((s.ve.bursts.filter (fun x => x.2.raster)).map (fun x => (s.rseAt (x.1 - 32)).latTol)) ++
    (if s.dmaPending then [1000 * s.parN 10 0 0x012] else []))

/-- The tolerance is at least a limit. -/
def State.tolerates (s : State) (ns : Nat) : Bool :=
  match s.tolerance with
  | some t => decide (ns ≤ t)
  | none => true

/-- Stack in the self-refresh of the HBM stop threshold (R310). -/
def State.stopRefresh (s : State) (k : Nat) : Bool := (s.stackAt k).stop && s.ve.bursts.isEmpty

/-- The pseudo-channel is active again; in self-refresh the stack has refreshed itself. -/
def State.wakePc (s : State) (x : Nat) : State :=
  s.updPc x (fun p => { p with power := 0, idleAt := s.now, lastRef := if p.power = 2 then s.now else p.lastRef })

/-- Smallest tolerance in ns that allows a low-power state. -/
def lowLimit (power : Nat) : Nat := if power = 1 then 1000 else 20000

/-- A low-power state that the present tolerance does not allow. -/
def State.mustWake (s : State) (x : Nat) : Bool :=
  let p := (s.pcAt x).power
  decide (p ≠ 0) && !s.tolerates (lowLimit p) && !(decide (p = 2) && s.stopRefresh (stackOf x))

/-- States that a falling tolerance no longer allows are left at once. -/
def State.leaveLow (s : State) : State :=
  (List.range 64).foldl (fun s x => if s.mustWake x then s.wakePc x else s) s

end Sys2Proof.Machine
end

