-- ==== Sys2Proof/Machine/Tokens.lean ====
section
/-!
DEFINITION. Operand tokens and the tasks that wait for them (10 R279–R283, R298, R299), and how a task that never
runs completes (10 R278, 14 R399).
-/

namespace Sys2Proof.Machine

/-- Table entries that a partition holds. -/
def State.tokUsed (s : State) (p : Nat) : Nat :=
  (s.sch.tokens.filter (fun t => s.siteOwner t.scope.val == some p)).length

def Tok.is (t : Tok) (scope kind key : Nat) : Bool :=
  decide (t.scope.val = scope) && decide (t.kind = kind) && decide (t.key = key)

def State.tokAt (s : State) (scope kind key : Nat) : Option Tok := s.sch.tokens.find? (fun t => t.is scope kind key)

/-- A new entry is available to the partition of a scope (10 R281, R298, R304). -/
def State.tokRoom (s : State) (scope : Nat) : Bool :=
  decide (s.sch.tokens.length < 2048) &&
    (match s.siteOwner scope with
     | some p => decide (s.tokUsed p < s.parN 9 p 0x026)
     | none => true)

/-- An arrival: COUNT goes up, saturating, RESULT is replaced; with no entry a new one is taken (10 R281). -/
def State.placeTok (s : State) (t : TokIn) : State :=
  if (s.tokAt t.scope.val t.kind t.key).isSome then
    { s with sch.tokens := s.sch.tokens.map (fun u =>
        if u.is t.scope.val t.kind t.key then { u with count := satAdd u.count 1 65535, result := t.result } else u) }
  else
    { s with sch.tokens := s.sch.tokens ++
        [{ scope := t.scope, kind := t.kind, key := t.key, count := 1, result := t.result }] }

/-- The entry exists or one can be taken. -/
def State.tokFits (s : State) (t : TokIn) : Bool :=
  (s.tokAt t.scope.val t.kind t.key).isSome || s.tokRoom t.scope.val

/-- A token issued inside the module: placed, held in the overflow FIFO of 64, or lost (10 R299). -/
def State.arrive (s : State) (t : TokIn) : State :=
  if s.tokFits t then s.placeTok t
  else if s.sch.tokFifo.length < 64 then { s with sch.tokFifo := s.sch.tokFifo ++ [t] }
  else
    let p := (s.siteOwner t.scope.val).getD 0
    let s : State := { s with sch.tokLost := Tbl.upd s.sch.tokLost 0 p (satAdd · 1 0xFFFFFFFF) }
    s.event 0x5C5 [t.scope.val, t.kind] [.site t.scope.val]

/-- Take one arrival; an entry at 0 is removed (10 R281). -/
def takeTok (l : List Tok) (x : Slot) : List Tok :=
  (l.map (fun t => if t.is x.scope.val x.tkind x.key then { t with count := t.count - 1 } else t)).filter
    (fun t => decide (0 < t.count))

/-- Every slot satisfied at once; each consuming slot takes an arrival of its own (10 R282). Answers the table after
consumption. -/
def matchSlots : List Slot → List Tok → List Tok → Option (List Tok)
  | [], _, left => some left
  | x :: r, full, left =>
    let here (l : List Tok) : Bool := l.any (fun t => t.is x.scope.val x.tkind x.key && decide (1 ≤ t.count))
    if x.consume then (if here left then matchSlots r full (takeTok left x) else none)
    else if here full then matchSlots r full left else none

/-- A slot without ANY_RESULT sees a result other than PASS (10 R283). -/
def State.seesFail (s : State) (d : TaskDesc) : Bool :=
  (d.slots.take d.nops).any (fun x => !x.anyResult &&
    (match s.tokAt x.scope.val x.tkind x.key with
     | some t => decide (bits t.result 15 13 ≠ 0)
     | none => false))

/-- Result words of a burst that reached no start tick, and of a task that never ran (14 R399, 02 R67). -/
def notRun (raster : Bool) (r : SiteResult) : List Nat :=
  [0xFFFFFFFF, 0xFFFF + r.code * 2 ^ 16, if raster then 0 else 0xFFFFFFFF, 0, 0, b2n raster * 2 ^ 29]

/-- The DONE token of a task (10 R280). -/
def doneTok (d : TaskDesc) (r : SiteResult) : TokIn :=
  { scope := toFin 128 (homeOf d) (by decide), kind := 2, key := d.outKey, result := r.code }

/-- A task leaves the matching store; admission that it held closed opens again (10 R290, R297). -/
def State.freeTask (s : State) (i : Nat) : State :=
  let s := s.delTask i
  if s.sch.gov.head = some i then { s with sch.gov := { s.sch.gov with head := none, closed := false } } else s

/-- A task leaves the matching store without having run: its final completion and its DONE token. -/
def State.dropTask (s : State) (i : Nat) (t : TaskSt) (st : Status) (words : List Nat) (done : SiteResult) : State :=
  let s := (s.freeTask i).complete t.part.val t.tag 0x0902 st words
  if t.desc.issueDone then s.arrive (doneTok t.desc done) else s

/-- Tasks that wait for tokens, in submission order. -/
def insertTask (x : Nat × TaskSt) : List (Nat × TaskSt) → List (Nat × TaskSt)
  | [] => [x]
  | y :: r => if x.2.order < y.2.order then x :: y :: r else y :: insertTask x r

def State.inOrder (s : State) (f : TaskSt → Bool) : List (Nat × TaskSt) :=
  (s.sch.tasks.filter (fun x => f x.2)).foldl (fun l x => insertTask x l) []

/-- A waiting task whose slots are all satisfied becomes ready, or ends SKIPPED. -/
def State.wakeTask (s : State) (x : Nat × TaskSt) : Option State :=
  match matchSlots (x.2.desc.slots.take x.2.desc.nops) s.sch.tokens s.sch.tokens with
  | none => none
  | some left =>
    let bad := s.seesFail x.2.desc
    let s : State := { s with sch.tokens := left }
    if bad then some (s.dropTask x.1 x.2 .ok (notRun (x.2.desc.kind == 1) skippedRes) skippedRes)
    else some (s.updTask x.1 (fun t => { t with mode := .ready, readyAt := s.now }))

/-- The oldest waiting task that can go on, does. -/
def State.wakeOne (s : State) : List (Nat × TaskSt) → Option State
  | [] => none
  | x :: r => match s.wakeTask x with
    | some t => some t
    | none => s.wakeOne r

/-- Wake tasks until none can go on: every round takes one out of the waiting. -/
def State.wakeAll : Nat → State → State
  | 0, s => s
  | n + 1, s =>
    match s.wakeOne (s.inOrder (fun t => t.mode == .waiting)) with
    | some t => t.wakeAll n
    | none => s

/-- Tasks that the present tokens make ready. -/
def State.wake (s : State) : State := s.wakeAll (s.sch.tasks.length + 1)

/-- A token issued inside the module, and what it makes ready. -/
def State.issueTok (s : State) (t : TokIn) : State := (s.arrive t).wake

/-- Space returned to the token table: the overflow FIFO drains in order while its first token fits (10 R299). -/
def State.drainTok : Nat → State → State
  | 0, s => s
  | n + 1, s =>
    match s.sch.tokFifo with
    | t :: r => if s.tokFits t then (({ s with sch.tokFifo := r } : State).placeTok t).drainTok n else s
    | [] => s

/-- A task that never ran ends, and what its DONE token makes ready. -/
def State.endTask (s : State) (i : Nat) (t : TaskSt) (st : Status) (words : List Nat) (done : SiteResult) : State :=
  (s.dropTask i t st words done).wake

end Sys2Proof.Machine
end

