-- ==== Sys2Proof/Machine/NglOps.lean ====
section
/-!
DEFINITION. Ngulos ports: what waits on a port in its class, routes, credits, domain time, and how a trigger is sent
and received (12 R327, R334–R337, R341–R349).
-/

namespace Sys2Proof.Machine

/-! ## Ports and routes (R324–R327) -/

/-- The port carries traffic. -/
def State.portUp (s : State) (p : Nat) : Bool := (s.portAt p).mode == .active

/-- Ports that are active, rising. -/
def State.upPorts (s : State) : List Nat := (List.range 6).filter s.portUp

/-- This module's node address (12 R323). -/
def State.node (s : State) : Nat := s.parN 11 0 0x002

/-- NGL_MODE. -/
def State.nglMode (s : State) : Nat := s.parN 11 0 0x001

/-- Upstream port of the traffic tree: U-A, or U-B when U-A does not carry traffic. -/
def State.upstream (s : State) : Option Nat :=
  if s.portUp 0 then some 0 else if s.portUp 1 then some 1 else none

/-- A D port of the traffic tree: its far end is a U-A, or announcements have come over it. -/
def State.trafficD (s : State) (p : Nat) : Bool :=
  decide (2 ≤ p) && s.portUp p && ((s.portAt p).far == 0 || s.ngl.route.any (fun x => x.2 == p))

/-- Active ports of the traffic tree; in a ring both directions. -/
def State.trafficPorts (s : State) : List Nat :=
  if s.nglMode = 2 then [0, 2].filter s.portUp
  else s.upstream.toList ++ (List.range 6).filter s.trafficD

/-- A D port or upstream port belongs to the tree of a domain. -/
def State.treePort (s : State) (dom p : Nat) : Bool :=
  s.portUp p &&
    (if s.nglMode = 2 then (if dom = 0 then p == 2 else p == 0)
     else if p < 2 then p == dom
     else (s.portAt p).far == dom)

/-- Port on which the ticks of a domain arrive. -/
def State.domPort (s : State) (dom : Nat) : Nat := if s.nglMode = 2 then (if dom = 0 then 0 else 2) else dom

/-! ## Queues (R334, R335) -/

/-- A trigger or a stop. -/
def Frame.isC0 : Frame → Bool
  | .trig .. | .stop .. => true
  | _ => false

def Frame.isTick : Frame → Bool
  | .tick .. => true
  | _ => false

/-- C0 blocks waiting on a port. -/
def PortSt.c0Len (p : PortSt) : Nat := (p.c0.filter Frame.isC0).length

/-- C0_XOFF that a port shows: another port's C0 queue is full. -/
def State.xoffFor (s : State) (p : Nat) : Bool := (List.range 6).any (fun q => q != p && (s.portAt q).xoffOut)

/-- Queue a FLOW block with the XOFF state, credits and the last frame received in order. -/
def State.sendFlow (s : State) (p credits : Nat) : State :=
  s.updPort p (fun y => { y with c0 := y.c0 ++ [.flow (s.xoffFor p) credits y.lastRx false] })

/-- FLOW on every other active port. -/
def State.flowOthers (s : State) (p : Nat) : State :=
  (s.upPorts.filter (fun q => q != p)).foldl (fun s q => s.sendFlow q 0) s

/-- C0_COND of a port with a cause (R339). -/
def State.c0Cond (s : State) (p cause : Nat) : State := s.event (0x0C2 + 8 * p) [cause]

/-- An XOFF on a port (R335). -/
def State.xoffEvent (s : State) (p : Nat) : State :=
  ((s.updPort p (fun x => { x with xoffCount := satAdd x.xoffCount 1 0xFFFFFFFF })).c0Cond p 1).event 0x0F5 [p]

/-- Queue a block of class C0 on a port; at 128 triggers and stops the ports that feed it are told to stop. -/
def State.queueC0 (s : State) (p : Nat) (f : Frame) : State :=
  let s := s.updPort p (fun x => { x with c0 := x.c0 ++ [f] })
  let x := s.portAt p
  if 128 ≤ x.c0Len ∧ x.xoffOut = false then
    ((s.updPort p (fun x => { x with xoffOut := true })).flowOthers p).xoffEvent p
  else s

/-- Queue a frame of class C1 on a port. -/
def State.queueC1 (s : State) (p : Nat) (f : Frame) : State := s.updPort p (fun x => { x with c1 := x.c1 ++ [f] })

/-- Queue a frame of class C2 on a port. -/
def State.queueC2 (s : State) (p : Nat) (f : Frame) : State := s.updPort p (fun x => { x with c2 := x.c2 ++ [f] })

/-- A frame that no route leads on is dropped and counted. -/
def State.noRoute (s : State) : State := { s with ngl.noRoute := satAdd s.ngl.noRoute 1 0xFFFFFFFF }

/-- A C1 frame for a node goes to the port that leads to it; without one it is counted in NO_ROUTE_COUNT. -/
def State.sendC1 (s : State) (node : Nat) (f : Frame) : State :=
  match s.portTo node with
  | some p => s.queueC1 p f
  | none => s.noRoute

/-- A block or frame for every module, forwarded on the traffic tree except to where it came from. -/
def State.broadcast (s : State) (from_ : Option Nat) (q : State → Nat → State) : State :=
  (s.trafficPorts.filter (fun p => decide (from_ ≠ some p))).foldl q s

/-- A unicast frame for another node that arrived on a port; without a route it is dropped with offset +4 of the
port (R327). -/
def State.forward (s : State) (port dst : Nat) (q : State → Nat → State) : State :=
  match s.portTo dst with
  | some p => q s p
  | none => s.noRoute.event (0x0C4 + 8 * port)

/-! ## Tokens held at a port (10 R298) -/

/-- A C1 credit goes back to the far end. -/
def State.returnCredit (s : State) (p : Nat) : State := s.sendFlow p 1

/-- Held tokens that now fit are placed, ports in rising order. -/
def State.drainHeld (s : State) : State :=
  (List.range 6).foldl (fun s p =>
    match (s.portAt p).held with
    | some (t, _) =>
      if s.tokFits t then
        ((s.placeTok t).updPort p (fun x => { x with held := none, stalled := false })).returnCredit p
      else s
    | none => s) s

/-! ## Domain time (R341, R348). Offsets in units of 2^-16 ns -/

/-- Selected time domain; in holdover the domain selected last stands in the frames as A. -/
def State.domSel (s : State) : Dom := if s.ngl.tm.sel = 1 then 1 else 0

/-- D_SEL − C_SEL; 0 in holdover. -/
def State.selError (s : State) : Int :=
  if s.ngl.tm.sel < 2 then (s.domAt s.ngl.tm.sel).d - s.ngl.tm.c else 0

/-- Module time of a domain time, both in ns (R348). -/
def State.toModule (s : State) (dom t : Nat) : Nat :=
  (((t * 65536 : Nat) : Int) - (s.domAt dom).d + s.selError).toNat / 65536

/-- Domain time of a module time, as the module tracks the domain. -/
def State.toDomain (s : State) (dom t : Nat) : Nat := (((t * 65536 : Nat) : Int) + (s.domAt dom).d).toNat / 65536

/-- Time in the selected domain of a module time. -/
def State.toSel (s : State) (t : Nat) : Nat := (((t * 65536 : Nat) : Int) + s.ngl.tm.c).toNat / 65536

/-- Module time of a time in the selected domain. -/
def State.ofSel (s : State) (t : Nat) : Nat := (((t * 65536 : Nat) : Int) - s.ngl.tm.c).toNat / 65536

/-- The value nearest to `base` that is `low` modulo `m`. -/
def nearest (m base low : Nat) : Nat :=
  let k := base - base % m + low % m
  if k + m / 2 < base then k + m else if base + m / 2 < k then k - m else k

/-! ## Triggers (R347–R349) -/

/-- A trigger received at `rx` that acts at module time `t`: pending, or LATE, when it acts in the cycle of its arrival at the
island, at most 60 ns after receipt: how long that takes is a free value (12 R349; notes/assumptions/100.md). A number without a receiving
site is counted and ignored. -/
def State.receiveTrig (s : State) (number : NTrg) (t rx : Nat) : State :=
  let s := s.updNtrg number.val (fun x => { x with rx := satAdd x.rx 1 0xFFFFFFFF })
  if s.parN 11 number.val 0x031 < 128 then
    let onTime := decide (rx + 60 ≤ t) && decide ((s.ngl.pendTrig.filter (fun x => !x.late)).length < 64)
    if onTime then { s with ngl.pendTrig := s.ngl.pendTrig ++ [{ number, t, late := false }] }
    else
      let at_ := rx + s.freeVal % 61
      let s : State := { s.drawFree with ngl.pendTrig := s.ngl.pendTrig ++ [{ number, t := at_, late := true }] }
      (s.updNtrg number.val (fun x => { x with late := satAdd x.late 1 0xFFFFFFFF })).event 0x0F4 [number.val]
        [.site (s.parN 11 number.val 0x031)]
  else s

/-- Send a trigger that acts at module time `t`: to every module over the traffic tree, with its time in the selected
domain, and to the sender itself (12 R348). In STANDALONE every port is off. -/
def State.sendTrig (s : State) (number : NTrg) (t : Nat) : State :=
  let f : Frame := .trig s.domSel number (s.toSel t)
  (s.broadcast none (fun s p => s.queueC0 p f)).receiveTrig number t (s.now + 40)

end Sys2Proof.Machine
end

