-- ==== Sys2Proof/Machine/Image.lean ====
section
/-!
DEFINITION. Pattern images: how instructions and vectors are found in one, the loader's checks (02 R45, R46, R56,
R68; 03 R86–R95), residency (03 R97, R98) and the streaming demand (03 R105, R106).
-/

namespace Sys2Proof

open Sys2Proof.Machine

/-! ## Segments, instructions, vectors -/

/-- VEC_COUNT. -/
def Segment.vecCount (g : Segment) : Nat := (g.vectors.map (·.1)).sum

/-- The element at a place of a list written in runs. -/
def runAt {α : Type} : List (Nat × α) → Nat → Option α
  | [], _ => none
  | (k, a) :: r, n => if n < k then some a else runAt r (n - k)

/-- Number of the first vector of a segment, vectors being numbered through the image. -/
def Image.vecBase (i : Image) (n : Nat) : Nat := ((i.segments.take n).map Segment.vecCount).sum

/-- First instruction of a segment. -/
def Image.firstOf (i : Image) (n : Nat) : Option Nat := (i.segments[n]?).map (·.firstInstr)

/-- Segment that holds an instruction. -/
def Image.segOfInstr (i : Image) (ip : Nat) : Option Nat :=
  i.segments.findIdx? (fun g => decide (g.firstInstr ≤ ip) && decide (ip < g.firstInstr + g.instrs.length))

/-- Segment that holds a vector, and the vector's place in it. -/
def segOfVecFrom : List Segment → Nat → Nat → Option (Nat × Nat)
  | [], _, _ => none
  | g :: r, k, v => if v < g.vecCount then some (k, v) else segOfVecFrom r (k + 1) (v - g.vecCount)

def Image.segOfVec (i : Image) (v : Nat) : Option (Nat × Nat) := segOfVecFrom i.segments 0 v

/-- The word at an instruction address. -/
def Image.wordAt (i : Image) (ip : Nat) : Option IWord :=
  (i.segOfInstr ip).bind (fun n => (i.segments[n]?).bind (fun g => g.instrs[ip - g.firstInstr]?))

/-- The instruction at an address, for engine `e`. -/
def Image.instrAt (i : Image) (e : Eng) (ip : Nat) : Option Instr := (i.wordAt ip).bind (decodePat e)

/-- Where execution goes on after the instruction at `ip` with VP `vp`: the next one, and after the last of a segment
the next segment's first with that segment's first vector (02 R45). -/
def Image.after (i : Image) (ip vp : Nat) : Nat × Nat :=
  match i.segOfInstr ip with
  | some n =>
    match i.segments[n]? with
    | some g => if ip + 1 < g.firstInstr + g.instrs.length then (ip + 1, vp)
      else match i.firstOf (n + 1) with
        | some f => (f, i.vecBase (n + 1))
        | none => (ip + 1, vp)
    | none => (ip + 1, vp)
  | none => (ip + 1, vp)

/-- Entry to a segment: its first instruction and its first vector (02 R45). -/
def Image.enter (i : Image) (n : Nat) : Option (Nat × Nat) := (i.firstOf n).map (fun f => (f, i.vecBase n))

/-! ## Formats (03 R86, R90, R93) -/

/-- Bits of a channel's field by its code. -/
def codeWidth (c : BitVec 4) : Nat :=
  match c.toNat with
  | 1 => 4 | 2 | 3 => 3 | 4 | 5 => 5 | _ => 0

/-- Channel codes of group `g` with the value `x`: position k has the code in bits [4k+3:4k] (R93). -/
def grpCodes (g : Nat) (x : BitVec 128) : List (Chan × BitVec 4) :=
  if x = 0 then [] else
    (List.range 32).map (fun k => (toFin 512 (32 * g + k) (by decide), x.extractLsb' (4 * k) 4))

/-- Channels that a format-table entry presents, in ascending order, with their codes (R86, R93). -/
def fmtChans (f : List (BitVec 128)) : List (Chan × BitVec 4) :=
  (((f.take 16).zipIdx).flatMap (fun x => grpCodes x.2 x.1)).filter (fun x => x.2 != 0)

/-- Channels that a format presents. -/
def Image.fmt (i : Image) (n : Nat) : List (Chan × BitVec 4) := fmtChans (i.formats[n]?.getD [])

/-- Present groups of a format, rising. -/
def fmtGroups (f : List (Chan × BitVec 4)) : List Nat :=
  (List.range 16).filter (fun g => f.any (fun x => x.1.val / 32 == g))

/-- Bits per vector b_v. -/
def fmtBits (f : List (Chan × BitVec 4)) : Nat :=
  8 * (fmtGroups f).length + (f.map (fun x => codeWidth x.2)).sum

def Image.segFmt (i : Image) (n : Nat) : List (Chan × BitVec 4) :=
  match i.segments[n]? with
  | some g => i.fmt g.format
  | none => []

def Image.segBits (i : Image) (n : Nat) : Nat := fmtBits (i.segFmt n)

/-- Fields of a group record: the format's channels of the group with their codes and fields. -/
def recFields (f : List (Chan × BitVec 4)) (g : Nat) (fields : List (BitVec 5)) :
    List ((Chan × BitVec 4) × BitVec 5) :=
  (f.filter (fun x => x.1.val / 32 == g)).zip fields

/-- The fields that the bits of `v` spell for the channels listed, the first bit least significant, and the bits left
over (R90). -/
def takeFields : List (Chan × BitVec 4) → Nat → List (BitVec 5) × Nat
  | [], v => ([], v)
  | x :: r, v =>
    let y := takeFields r (v / 2 ^ codeWidth x.2)
    (BitVec.ofNat 5 (v % 2 ^ codeWidth x.2) :: y.1, y.2)

/-- The group records of a vector: for each present group its control byte and its channels' fields in ascending
position (R89, R90). -/
def unpackVec (f : List (Chan × BitVec 4)) : List Nat → Nat → List (Grp × BitVec 8 × List (BitVec 5))
  | [], _ => []
  | g :: r, v =>
    let y := takeFields (f.filter (fun x => x.1.val / 32 == g)) (v / 256)
    (toFin 16 g (by decide), BitVec.ofNat 8 v, y.1) :: unpackVec f r y.2

/-- The number that `n` bytes from place `k` of a section spell, least significant first (00 R4). -/
def bytesAt (data : List (BitVec 8)) (k n : Nat) : Nat :=
  ((data.drop k).take n).foldr (fun b a => b.toNat + 256 * a) 0

/-- Vector `n` of a segment whose vectors begin at byte `start` of the image and have `b` bits each: they follow one
another without padding (R90). -/
def vecFromBytes (data : List (BitVec 8)) (start b n : Nat) : Nat :=
  bytesAt data (start + n * b / 8) (b / 8 + 2) / 2 ^ (n * b % 8) % 2 ^ b

/-- Records of the vectors of a segment, in its runs. -/
def Image.segVecs (i : Image) (g : Segment) : List (Nat × List (Grp × BitVec 8 × List (BitVec 5))) :=
  let f := i.fmt g.format
  g.vectors.map (fun x => (x.1, unpackVec f (fmtGroups f) x.2))

/-- The group records of a vector. -/
def Image.vecAt (i : Image) (v : Nat) : Option (List (Grp × BitVec 8 × List (BitVec 5))) :=
  (i.segOfVec v).bind (fun x => (i.segments[x.1]?).bind (fun g =>
    (runAt g.vectors x.2).map (fun w => unpackVec (i.fmt g.format) (fmtGroups (i.fmt g.format)) w)))

/-! ## What the program names -/

/-- Every instruction of the image with its address. -/
def Image.all (i : Image) : List (Nat × Instr) :=
  i.segments.flatMap (fun g => (g.instrs.zipIdx).filterMap (fun x =>
    (decodePat 0 x.1).map (fun c => (g.firstInstr + x.2, c))))

/-- Targets of CALL, and of MATCH. -/
def Image.callTargets (i : Image) : List Nat :=
  i.all.filterMap (fun x => match x.2 with | .call _ t => some t | _ => none)
def Image.matchTargets (i : Image) : List Nat :=
  i.all.filterMap (fun x => match x.2 with | .matchLoop _ t _ _ _ => some t | _ => none)

/-- Entry candidates: segments that no CALL and no MATCH targets (02 R46). -/
def Image.isEntry (i : Image) (n : Nat) : Bool :=
  decide (n < i.segments.length) && !i.callTargets.contains n && !i.matchTargets.contains n

/-- RESIDENCY of a segment. -/
def Image.residencyOf (i : Image) (n : Nat) : Nat := (i.segments[n]?.map (fun g => g.residency % 4)).getD 0

/-- Timing sets that a segment's control bytes select: group, set. -/
def Image.segSets (i : Image) (n : Nat) : List (Nat × Nat) :=
  match i.segments[n]? with
  | some g => ((i.segVecs g).flatMap (fun x => x.2.map (fun r => (r.1.val, r.2.1.toNat % 64)))).eraseDups
  | none => []

/-! ## Paths (02 R46) -/

/-- A point of a path: the instruction, its nesting since the CALL that is open, the loops open outside that CALL
(innermost first), the calls open, whether a vector was issued, and VP. -/
structure WNode where
  ip     : Nat
  nest   : List Nat
  outer  : List Nat
  depth  : Nat
  issued : Bool
  vp     : Nat
  deriving DecidableEq, Repr

/-- Every LOOP that is open at a point, innermost first. -/
def WNode.open_ (w : WNode) : List Nat := w.nest ++ w.outer

/-- A fault of an instruction: its address and the status the loader refuses it with. -/
structure Viol where
  ip : Nat
  st : Status
  deriving DecidableEq, Repr

/-- Successors inside one subroutine; a CALL is passed where `pass` says that its target can return. -/
def Image.localSucc (i : Image) (pass : Nat → Bool) (blocked : Instr → Bool) (ip : Nat) : List Nat :=
  match i.instrAt 0 ip with
  | none => []
  | some c =>
    let n := (i.after ip 0).1
    if blocked c then []
    else match c with
      | .ret _ | .halt _ => []
      | .call _ t => if pass t then [n] else []
      | .jmp _ t _ => (i.firstOf t).toList
      | .jf _ t _ _ | .jnf _ t _ _ => n :: (i.firstOf t).toList
      | .matchLoop .. => [n, (i.after n 0).1]
      | _ => [n]

/-- Addresses reached from those listed. -/
def reachFrom (succ : Nat → List Nat) : Nat → List Nat → List Nat → List Nat
  | 0, _, seen => seen
  | _ + 1, [], seen => seen
  | k + 1, a :: r, seen => if seen.contains a then reachFrom succ k r seen else reachFrom succ k (succ a ++ r) (a :: seen)

def Image.instrTotal (i : Image) : Nat := (i.segments.map (fun g => g.instrs.length)).sum

def isRet : Instr → Bool
  | .ret _ => true
  | _ => false

/-- Instructions that issue vectors (02 R46, WTRG). -/
def issuesVectors : Instr → Bool
  | .vec .. | .rpt .. | .matchLoop .. => true
  | _ => false

/-- Call targets from which a RET can be reached: the least fixed point, by as many rounds as there are targets. -/
def Image.returning (i : Image) (blocked : Instr → Bool) : Nat → List Nat
  | 0 => []
  | k + 1 =>
    let known := i.returning blocked k
    i.callTargets.eraseDups.filter (fun t =>
      (reachFrom (i.localSucc known.contains blocked) (4 * i.instrTotal + 4) (i.firstOf t).toList []).any
        (fun a => ((i.instrAt 0 a).map isRet).getD false))

/-- What the walk needs to know of the image: targets that return, and those that return without a vector. -/
structure WCtx where
  rets : List Nat
  dry  : List Nat

def Image.ctx (i : Image) : WCtx :=
  let k := i.callTargets.length + 1
  { rets := i.returning (fun _ => false) k, dry := i.returning issuesVectors k }

/-- A transfer target; one beyond the segment table is a fault of the instruction itself. -/
def Image.target (i : Image) (t : Nat) (f : Nat × Nat → List WNode) : List WNode × List Viol :=
  ((i.enter t).elim [] f, [])

/-- Execution goes on after the instruction, or the path reaches the end of the image without HALT. -/
def Image.goOn (i : Image) (ip vp : Nat) (f : Nat × Nat → List WNode) : List WNode × List Viol :=
  let x := i.after ip vp
  if (i.wordAt x.1).isSome then (f x, []) else ([], [{ ip, st := .badParam }])

def both (a b : List WNode × List Viol) : List WNode × List Viol := (a.1 ++ b.1, a.2 ++ b.2)

/-- A fault when a condition holds. -/
def faultIf (c : Bool) (ip : Nat) (st : Status) : List WNode × List Viol := ([], if c then [{ ip, st }] else [])

/-- A MATCH body that breaks 02 R56. -/
def Image.badBody (i : Image) (pmin : Option Nat) (t : Nat) : Bool :=
  let l := ((i.segments[t]?).map Segment.vecCount).getD 0
  i.residencyOf t == 2 || decide (l < 1) || decide (65536 < l) ||
    (match pmin with
     | some p => decide (l * p < 50000)
     | none => false)

/-- Faults of an instruction by itself, whether or not a path reaches it (02 R46): reserved encodings, counts of 0,
targets beyond the segment table, a CALL to a segment that cannot be resident, the rules of a MATCH body, an LPOP that
no depth reaches. -/
def Image.ownFaults (i : Image) (pmin : Option Nat) (ip : Nat) (w : IWord) : List Viol :=
  let bad (c : Bool) (st : Status) : List Viol := if c then [{ ip, st }] else []
  let beyond (t : Nat) : Bool := decide (i.segments.length ≤ t)
  match decodePat 0 w with
  | none => [{ ip, st := .badParam }]
  | some instr =>
    match instr with
    | .vec _ n | .rpt _ n | .loop _ n | .wait _ _ n => bad (decide (n = 0)) .outOfRange
    | .call _ t => bad (i.residencyOf t == 2) .badParam ++ bad (beyond t) .outOfRange
    | .jmp _ t lpop | .jf _ t lpop _ | .jnf _ t lpop _ => bad (decide (8 < lpop)) .badParam ++ bad (beyond t) .outOfRange
    | .matchLoop _ t maxIter _ _ => bad (decide (maxIter = 0) || beyond t || i.badBody pmin t) .outOfRange
    | _ => []

/-- Those of every instruction of the image. -/
def Image.allOwnFaults (i : Image) (pmin : Option Nat) : List Viol :=
  i.segments.flatMap (fun g => (g.instrs.zipIdx).flatMap (fun x => i.ownFaults pmin (g.firstInstr + x.2) x.1))

/-- The checks of one instruction on a path, and where the path goes on (02 R46). -/
def Image.visit (i : Image) (c : WCtx) (w : WNode) : List WNode × List Viol :=
  let ip := w.ip
  let next (f : WNode → WNode) := i.goOn ip w.vp (fun x => [{ f w with ip := x.1, vp := x.2 }])
  let segEnd := match i.segOfInstr ip with
    | some n => i.vecBase n + ((i.segments[n]?).map Segment.vecCount).getD 0
    | none => 0
  match i.instrAt 0 ip with
  | none => ([], [])
  | some instr =>
    match instr with
    | .vec _ n =>
      both (faultIf (decide (segEnd < w.vp + n)) ip .outOfRange)
        (i.goOn ip (min segEnd (w.vp + n)) (fun x => [{ w with ip := x.1, vp := x.2, issued := true }]))
    | .rpt _ _ =>
      both (faultIf (decide (segEnd < w.vp + 1)) ip .outOfRange)
        (i.goOn ip (min segEnd (w.vp + 1)) (fun x => [{ w with ip := x.1, vp := x.2, issued := true }]))
    | .loop .. =>
      both (faultIf (decide (8 ≤ w.open_.length)) ip .outOfRange)
        (if 8 ≤ w.open_.length then ([], []) else next (fun u => { u with nest := ip :: u.nest }))
    | .endl _ =>
      match w.nest with
      | [] => faultIf true ip .badParam
      | _ :: r => next (fun u => { u with nest := r })
    | .call _ t =>
      both (faultIf (decide (8 ≤ w.depth)) ip .outOfRange)
        (both
          (if 8 ≤ w.depth then ([], []) else i.target t (fun x =>
            [{ w with ip := x.1, vp := x.2, nest := [], outer := w.open_, depth := w.depth + 1 }]))
          (if c.rets.contains t then
             both (next (fun u => { u with issued := true }))
               (if c.dry.contains t then next id else ([], []))
           else ([], [])))
    | .ret _ => faultIf (decide (w.depth = 0) || decide (w.nest ≠ [])) ip .badParam
    | .jmp _ t lpop =>
      if w.nest.length < lpop then faultIf true ip .badParam
      else i.target t (fun x => [{ w with ip := x.1, vp := x.2, nest := w.nest.drop lpop }])
    | .jf _ t lpop _ | .jnf _ t lpop _ =>
      both (if w.nest.length < lpop then faultIf true ip .badParam
            else i.target t (fun x => [{ w with ip := x.1, vp := x.2, nest := w.nest.drop lpop }]))
        (next id)
    | .matchLoop .. =>
      let skip := match (i.goOn ip w.vp (fun x => [{ w with ip := x.1, vp := x.2, issued := true }])).1 with
        | n :: _ => i.goOn n.ip n.vp (fun x => [{ n with ip := x.1, vp := x.2 }])
        | [] => ([], [])
      both (next (fun u => { u with issued := true })) skip
    | .wtrg .. => both (faultIf (!w.issued) ip .badParam) (next id)
    | .halt _ => ([], [])
    | _ => next id

/-- Every point of every path from those listed, and the faults found on them. -/
def Image.walk (i : Image) (c : WCtx) : Nat → List WNode → List WNode → List Viol → List WNode × List Viol
  | 0, _, seen, bad => (seen, bad)
  | _ + 1, [], seen, bad => (seen, bad)
  | k + 1, a :: r, seen, bad =>
    if seen.contains a then i.walk c k r seen bad
    else
      let x := i.visit c a
      i.walk c k (x.1 ++ r) (a :: seen) (x.2 ++ bad)

/-- Vectors of the image. -/
def Image.vecTotal (i : Image) : Nat := (i.segments.map Segment.vecCount).sum

/-- Steps that no walk of the image uses up. A point is an instruction, eight loops open at most and how many of them
lie outside the last CALL, eight calls, a flag and a vector; each has three points after it at most. -/
def Image.walkFuel (i : Image) : Nat :=
  5 * ((i.instrTotal + 1) ^ 9 * 81 * 2 * (i.vecTotal + 1) + i.segments.length + 1)

/-- The path that begins at an entry segment. -/
def Image.startNode (i : Image) (n : Nat) : List WNode :=
  match i.enter n with
  | some x => [{ ip := x.1, nest := [], outer := [], depth := 0, issued := false, vp := x.2 }]
  | none => []

/-- Points of all paths from every entry candidate, with their faults. -/
def Image.walkAll (i : Image) (c : WCtx) : List WNode × List Viol :=
  i.walk c i.walkFuel (((List.range i.segments.length).filter i.isEntry).flatMap i.startNode) [] []

/-- Two paths that give one instruction different nestings (02 R46). -/
def nestFaults (ns : List WNode) : List Viol :=
  (ns.filter (fun a => ns.any (fun b => decide (a.ip = b.ip) && decide (a.nest ≠ b.nest)))).map
    (fun a => { ip := a.ip, st := .badParam })

/-- The violation at the lowest address; BAD_PARAM before OUT_OF_RANGE at one address. -/
def firstViol : List Viol → Option Viol
  | [] => none
  | v :: r =>
    match firstViol r with
    | none => some v
    | some u => if v.ip < u.ip ∨ (v.ip = u.ip ∧ v.st = .badParam) then some v else some u

/-! ## Throughput (02 R68) -/

/-- A point of a program unrolled: the iteration (first, second) of every open loop, and the open calls. -/
structure TNode where
  ip    : Nat
  its   : List (Nat × Bool)
  stack : List (Nat × List (Nat × Bool))
  deriving DecidableEq, Repr

/-- Engine clocks of an instruction at the costs of a microcode image, positions it issues, and the points that follow:
02, Sequencer throughput. -/
def Image.timed (i : Image) (u : UCosts) (pmin : Nat) (t : TNode) : List (Nat × Nat × Option TNode) :=
  let n := (i.after t.ip 0).1
  let go (j : Nat) : Option TNode := if (i.wordAt j).isSome then some { t with ip := j } else none
  let jump (g lpop : Nat) : Option TNode := (i.firstOf g).map (fun f => { t with ip := f, its := t.its.drop lpop })
  match i.instrAt 0 t.ip with
  | none => []
  | some c =>
    match c with
    | .vec _ k | .rpt _ k => [(u.plain, k, go n)]
    | .wait _ ns k => [(u.wait, if ns then max 1 (k * 4000 / max 1 pmin) else k, go n)]
    | .wtrg .. => [(u.wait, 0, go n)]
    | .loop .. =>
      [(u.plain, 0, if 8 ≤ t.its.length then none else (go n).map (fun x => { x with its := (t.ip, false) :: t.its }))]
    | .endl _ =>
      match t.its with
      | [] => []
      | (l, again) :: r =>
        let out := (u.endl, 0, (go n).map (fun x => { x with its := r }))
        let count := match i.instrAt 0 l with | some (.loop _ k) => k | _ => 0
        if again || decide (count ≤ 1) then [out]
        else [(u.endl + u.redirect, 0, some { t with ip := (i.after l 0).1, its := (l, true) :: r })]
    | .call _ g =>
      [(u.call + u.redirect, 0, if 8 ≤ t.stack.length then none
        else (i.firstOf g).map (fun f => { ip := f, its := [], stack := (n, t.its) :: t.stack }))]
    | .ret _ =>
      match t.stack with
      | [] => []
      | (a, its) :: r =>
        [(u.plain + u.redirect, 0, if (i.wordAt a).isSome then some { ip := a, its, stack := r } else none)]
    | .jmp _ g lpop => [(u.jmp + u.redirect, 0, jump g lpop)]
    | .jf _ g lpop clr | .jnf _ g lpop clr =>
      let c := if clr then u.clr else 0
      [(u.jfFall + c, 0, go n), (u.jfTake + u.redirect + c, 0, jump g lpop)]
    | .matchLoop _ g _ _ _ =>
      let l := max 1 (((i.segments[g]?).map Segment.vecCount).getD 1)
      let its := 1 + ceilDiv 224 l
      let cost := u.matchSet + u.matchIter * its + u.redirect
      [(cost, its * l, go n), (cost, its * l, go (i.after n 0).1)]
    | .halt _ => [(u.plain, 0, none)]
    | _ => [(u.plain, 0, go n)]

/-- Points of the unrolled program. -/
def Image.tnodes (i : Image) (u : UCosts) (pmin : Nat) : Nat → List TNode → List TNode → List TNode
  | 0, _, seen => seen
  | _ + 1, [], seen => seen
  | k + 1, a :: r, seen =>
    if seen.contains a then i.tnodes u pmin k r seen
    else i.tnodes u pmin k ((i.timed u pmin a).filterMap (·.2.2) ++ r) (a :: seen)

/-- A window: first instruction, where it goes on, its excess C × 1.25 ns − N × P_MIN in units of 0.25 ps. -/
abbrev Wnd := Nat × Option TNode × Int

/-- A window exceeds every one of a list with the same first instruction and the same end. -/
def Wnd.beats (w : Wnd) (l : List Wnd) : Bool :=
  l.all (fun v => decide (v.1 ≠ w.1) || decide (v.2.1 ≠ w.2.1) || decide (v.2.2 < w.2.2))

/-- Windows one instruction longer. One whose excess is not positive begins no shortest failing window. -/
def Image.longer (i : Image) (u : UCosts) (pmin : Nat) (l : List Wnd) : List Wnd :=
  l.flatMap (fun w =>
    match w.2.1 with
    | some t => (i.timed u pmin t).filterMap (fun x =>
        let ex := w.2.2 + (x.1 * 5000 : Int) - (x.2.1 * pmin : Int)
        if 0 < ex then some (w.1, x.2.2, ex) else none)
    | none => [])

/-- First instruction of the shortest failing window, windows growing by an instruction a round. A window that a shorter
one with its ends matches is dropped: what fails after it fails sooner after the shorter. `best` holds those met. -/
def Image.slow (i : Image) (u : UCosts) (pmin : Nat) : Nat → List Wnd → List Wnd → Option Nat
  | 0, _, _ => none
  | _ + 1, [], _ => none
  | k + 1, l, best =>
    match (l.filter (fun w => decide ((128 * pmin : Int) < w.2.2))).map (·.1) with
    | [] =>
      let more := (i.longer u pmin l).foldl (fun acc w => if w.beats (acc ++ best) then acc ++ [w] else acc) []
      i.slow u pmin k more (more ++ best)
    | a :: r => some (r.foldl min a)

/-- The throughput check over the paths from the given segments. The fuel is never used up: a point of the unrolled
program is an instruction with eight loops twice unrolled and eight calls at most, and each round raises the excess of
a window between two points, which fails above 128 × P_MIN. -/
def Image.throughput (i : Image) (u : UCosts) (pmin : Nat) (entries : List Nat) : Option Nat :=
  let start := entries.filterMap (fun n => (i.firstOf n).map (fun f => { ip := f, its := [], stack := [] : TNode }))
  let nodes := i.tnodes u pmin (3 * (2 * i.instrTotal + 2) ^ 90 + start.length) start []
  i.slow u pmin ((128 * pmin + 2) * (nodes.length + 1) ^ 2)
    (i.longer u pmin (nodes.map (fun t => (t.ip, some t, 0)))) []

/-! ## Faults outside instructions (02 R46, 03 R91–R93) -/

/-- First offset of a list of checks whose condition holds. -/
def firstBad (l : List (Bool × Nat)) : Option Nat := (l.find? (·.1)).map (·.2)

/-- Sections [start, length]. -/
def overlaps (a b : Nat × Nat) : Bool := decide (a.1 < b.1 + b.2) && decide (b.1 < a.1 + a.2)

def Image.sections (i : Image) : List (Nat × Nat) :=
  [(0, 64), (i.segtabOff, 32 * i.segments.length), (i.fmttabOff, 256 * i.formats.length),
   (i.instrOff, 8 * i.instrCount), (i.vecOff, i.vecBytes)]

/-- A section overlaps an earlier one or passes the image's end. -/
def Image.sectionBad (i : Image) (k : Nat) : Bool :=
  match i.sections[k]? with
  | some x => (i.sections.take k).any (overlaps x) || decide (i.bytes < x.1 + x.2)
  | none => false

/-- Header checks with the offset of each field. -/
def Image.headerBad (i : Image) : Option Nat :=
  firstBad [
    (i.magic != 0x53444931, 0x00), (i.version != 1, 0x04), (i.hdrSize != 0x40, 0x06),
    (decide (i.segments.length < 1) || decide (2 ^ 24 < i.segments.length), 0x08),
    (decide (i.formats.length < 1) || decide (256 < i.formats.length), 0x0C), (i.rsvd != 0, 0x0E),
    (decide (i.segtabOff % 8 ≠ 0) || i.sectionBad 1, 0x10), (decide (i.fmttabOff % 8 ≠ 0) || i.sectionBad 2, 0x18),
    (decide (i.instrOff % 8 ≠ 0) || i.sectionBad 3, 0x20), (decide (i.vecOff % 256 ≠ 0) || i.sectionBad 4, 0x30)]

/-- Segment-table checks. -/
def Image.segBad (i : Image) (n : Nat) (g : Segment) : List (Bool × Nat) :=
  let at_ := i.segtabOff + 32 * n
  [(decide (i.instrCount < g.firstInstr + g.instrs.length), at_), (decide (g.instrs.length < 1), at_ + 4),
   (decide (i.vecBytes < g.granule * 256 + ceilDiv (g.vecCount * fmtBits (i.fmt g.format)) 8), at_ + 8),
   (decide (2 ^ 32 ≤ g.vecCount), at_ + 0x10), (decide (i.formats.length ≤ g.format), at_ + 0x14),
   (decide (3 ≤ g.residency), at_ + 0x16), (g.rsvd, at_ + 0x17)]

/-- Format-table checks: reserved channel codes. -/
def Image.fmtBad (i : Image) (n : Nat) (f : List (BitVec 128)) : List (Bool × Nat) :=
  (fmtChans f).map (fun x => (decide (6 ≤ x.2.toNat), i.fmttabOff + 256 * n + 16 * (x.1.val / 32) + x.1.val % 32 / 2))

/-- Bit offsets of the fields of one group record, with a mark for a reserved state code (03 R87). -/
def fieldsBad : List ((Chan × BitVec 4) × BitVec 5) → Nat → List (Bool × Nat)
  | [], _ => []
  | x :: r, o => (x.1.2 == 1 && decide (0xB ≤ x.2.toNat), o) :: fieldsBad r (o + codeWidth x.1.2)

def recsBad (f : List (Chan × BitVec 4)) : List (Grp × BitVec 8 × List (BitVec 5)) → Nat → List (Bool × Nat)
  | [], _ => []
  | (g, _, fs) :: r, o =>
    let here := recFields f g.val fs
    fieldsBad here (o + 8) ++ recsBad f r (o + 8 + (here.map (fun x => codeWidth x.1.2)).sum)

/-- Vector checks of a segment: reserved state codes, at the byte that holds the field's first bit. -/
def vecsBad (f : List (Chan × BitVec 4)) (b start : Nat) :
    List (Nat × List (Grp × BitVec 8 × List (BitVec 5))) → Nat → List (Bool × Nat)
  | [], _ => []
  | (k, v) :: r, n => (recsBad f v (n * b)).map (fun x => (x.1, start + x.2 / 8)) ++ vecsBad f b start r (n + k)

/-- The first byte in error outside the instructions. -/
def Image.layoutBad (i : Image) : Option Nat :=
  match i.headerBad with
  | some o => some o
  | none => firstBad (
      (i.segments.zipIdx).flatMap (fun x => i.segBad x.2 x.1) ++
      (i.formats.zipIdx).flatMap (fun x => i.fmtBad x.2 x.1) ++
      i.segments.flatMap (fun g =>
        vecsBad (i.fmt g.format) (fmtBits (i.fmt g.format)) (i.vecOff + 256 * g.granule) (i.segVecs g) 0))

/-! ## Reachable parts of a program -/

/-- Points of the paths from an entry segment. -/
def Image.nodesFrom (i : Image) (n : Nat) : List WNode := (i.walk i.ctx i.walkFuel (i.startNode n) [] []).1

/-- Instructions reachable from an entry segment. -/
def Image.reach (i : Image) (n : Nat) : List (Nat × Instr) :=
  ((i.nodesFrom n).map (·.ip)).eraseDups.filterMap (fun ip => (i.instrAt 0 ip).map (fun c => (ip, c)))

/-- Segments that the program from an entry reaches, bodies of MATCH among them. -/
def Image.reachSegs (i : Image) (n : Nat) : List Nat :=
  ((i.reach n).flatMap (fun x => (i.segOfInstr x.1).toList ++ (match x.2 with
    | .matchLoop _ t _ _ _ => [t]
    | _ => []))).eraseDups

/-- Groups that the reachable segments present, rising. -/
def Image.reachGroups (i : Image) (n : Nat) : List Nat :=
  (List.range 16).filter (fun g => (i.reachSegs n).any (fun k => (fmtGroups (i.segFmt k)).contains g))

/-- Sets that TSET instructions of a program name: set, groups. -/
def tsetSets (l : List (Nat × Instr)) : List (Nat × Nat) :=
  l.flatMap (fun x => match x.2 with
    | .tset _ ts groups false => (bitList groups).map (fun g => (g, ts.val))
    | _ => [])

/-- The sets U of 04 R133: those of the control bytes of reachable segments and of reachable TSET, of the groups
given. -/
def Image.setsU (i : Image) (n : Nat) (groups : List Nat) : List (Nat × Nat) :=
  (((i.reachSegs n).flatMap i.segSets ++ tsetSets (i.reach n)).filter (fun x => groups.contains x.1)).eraseDups

/-- A program with fail-dependent control flow (02 R39). -/
def Image.failDep (i : Image) (n : Nat) : Bool :=
  (i.reach n).any (fun x => match x.2 with
    | .jf .. | .jnf .. | .matchLoop .. | .failstop .. => true
    | _ => false)

/-! ## Residency (03 R97, R98) -/

/-- Bytes of a resident segment in the loop store. -/
def Image.resBytes (i : Image) (n : Nat) : Nat :=
  match i.segments[n]? with
  | some g => 8 * g.instrs.length + 64 * ceilDiv (g.vecCount * i.segBits n) 512
  | none => 0

/-- Segments that must be resident. -/
def Image.mustReside (i : Image) : List Nat :=
  (List.range i.segments.length).filter (fun n => i.residencyOf n == 1 ||
    (i.residencyOf n != 2 && (i.callTargets.contains n || i.matchTargets.contains n)))

/-- Segment whose addition first exceeds the loop store. -/
def Image.overflow (i : Image) : List Nat → Nat → Option Nat
  | [], _ => none
  | n :: r, used => if 1048576 < used + i.resBytes n then some n else i.overflow r (used + i.resBytes n)

/-- COUNT of the LOOP at an address. -/
def Image.loopCount (i : Image) (l : Nat) : Nat :=
  match i.instrAt 0 l with
  | some (.loop _ k) => k
  | _ => 1

/-- Loops between an instruction of the body of `l` and `l` itself. -/
def innerLoops : List Nat → Nat → List Nat
  | [], _ => []
  | a :: r, l => if a = l then [] else a :: innerLoops r l

def prod (l : List Nat) : Nat := l.foldl (· * ·) 1

/-- Granules that one iteration of a loop fetches from the segments that satisfy a test: n_g of 03 R106. A streamed part
of the body is one VEC or RPT instruction at its VP (notes/assumptions/108.md, DESIGN CHOICE). -/
def Image.granules (i : Image) (nodes : List WNode) (l : Nat) (ok : Nat → Bool) : Nat :=
  let body := (nodes.filter (fun w => w.open_.contains l)).map (fun w => (w.ip, w.vp, innerLoops w.open_ l))
  (body.eraseDups.map (fun x =>
    match i.segOfInstr x.1 with
    | some n =>
      if ok n then
        let part (k : Nat) : Nat :=
          prod (x.2.2.map i.loopCount) * ceilDiv (((x.2.1 - i.vecBase n) * i.segBits n) % 2048 + k * i.segBits n) 2048
        match i.instrAt 0 x.1 with
        | some (.vec _ k) => part k
        | some (.rpt ..) => part 1
        | _ => 0
      else 0
    | none => 0)).sum

/-- Nesting of the LOOP at an address. -/
def nestAt (nodes : List WNode) (l : Nat) : List Nat := ((nodes.find? (fun w => w.ip == l)).map (·.nest)).getD []

/-- E of a LOOP: its COUNT times those of the loops that enclose it, on the path where they are the most. -/
def Image.turns (i : Image) (nodes : List WNode) (l : Nat) : Nat :=
  i.loopCount l * ((nodes.filter (fun w => w.ip == l)).map (fun w => prod (w.open_.map i.loopCount))).foldl max 1

/-- AUTO segments that a loop's body touches, its subroutines among them. -/
def Image.autoOf (i : Image) (nodes : List WNode) (l : Nat) : List Nat :=
  ((nodes.filter (fun w => w.open_.contains l && (match i.instrAt 0 w.ip with
      | some (.vec ..) | some (.rpt ..) => true
      | _ => false))).flatMap (fun w => (i.segOfInstr w.ip).toList)).eraseDups.filter (fun n => i.residencyOf n == 0)

/-- Refetch saving S = (E − 1) × 256 × n_g. -/
def Image.saving (i : Image) (nodes : List WNode) (l : Nat) : Nat :=
  (i.turns nodes l - 1) * 256 * i.granules nodes l (fun n => i.residencyOf n == 0)

/-- Loops by falling saving, ties to the lower address. -/
def insertLoop (x : Nat × Nat) : List (Nat × Nat) → List (Nat × Nat)
  | [] => [x]
  | y :: r => if y.2 < x.2 ∨ (y.2 = x.2 ∧ x.1 < y.1) then x :: y :: r else y :: insertLoop x r

/-- Add a loop's AUTO segments when they fit. -/
def Image.addLoop (i : Image) (nodes : List WNode) (res : List Nat) (l : Nat) : List Nat :=
  let more := (i.autoOf nodes l).filter (fun n => !res.contains n)
  if ((res ++ more).map i.resBytes).sum ≤ 1048576 then res ++ more else res

/-- The resident segments of an image. -/
def Image.residentSet (i : Image) : List Nat :=
  let nodes := (i.walkAll i.ctx).1
  let loops := ((nodes.map (·.ip)).eraseDups.filter (fun ip => match i.instrAt 0 ip with
    | some (.loop ..) => !(i.autoOf nodes ip).isEmpty
    | _ => false))
  let ranked := loops.foldl (fun acc l => insertLoop (l, i.saving nodes l) acc) []
  ranked.foldl (fun res x => i.addLoop nodes res x.1) i.mustReside

/-- Size of a resident set in bytes. -/
def Image.setBytes (i : Image) (res : List Nat) : Nat := (res.map i.resBytes).sum

/-! ## Demand (03 R105, R106) -/

/-- P_SEG in 0.25 ps under a table of periods: the sets of its control bytes and those of any TSET of the program;
`none` when none of them has a period. -/
def Image.pSeg (i : Image) (per : Nat → Nat → Option Nat) (tsets : List (Nat × Nat)) (n : Nat) : Option Nat :=
  minOf ((i.segSets n ++ tsets).filterMap (fun x => per x.1 x.2))

/-- The streamed volume of a LOOP's body in bytes: E × n_g × 256, fetched in full (R107). -/
def Image.volume (i : Image) (nodes : List WNode) (res : List Nat) (l : Nat) : Nat :=
  i.turns nodes l * i.granules nodes l (fun n => !res.contains n) * 256

/-- Shortest distances from the addresses listed, after as many rounds of relaxation. -/
def relaxN (edges : Nat → List (Nat × Nat)) : Nat → Tbl Nat → Tbl Nat
  | 0, d => d
  | k + 1, d =>
    relaxN edges k (d.foldl (fun acc x => (edges x.1).foldl (fun acc e =>
      match Tbl.find acc e.1 with
      | some o => if x.2 + e.2 < o then Tbl.put acc e.1 (x.2 + e.2) else acc
      | none => Tbl.put acc e.1 (x.2 + e.2)) acc) d)

/-- Fewest positions on a path from an address to one that satisfies a test. Calls count their shortest way to a RET,
loops nested in the way COUNT times; `stay` keeps the way inside the body. -/
def Image.fewest (i : Image) (nodes : List WNode) (pmax : Nat) : Nat → Nat → (Nat → Bool) → (Nat → Bool) → Option Nat
  | 0, _, _, _ => some 0
  | k + 1, start, goal, stay =>
    let isEndlOf (l a : Nat) : Bool := (nestAt nodes a).head? == some l &&
      (match i.instrAt 0 a with | some (.endl _) => true | _ => false)
    let edges (a : Nat) : List (Nat × Nat) :=
      if goal a then []
      else
        let n := (i.after a 0).1
        let out := match i.instrAt 0 a with
          | none => []
          | some c => match c with
            | .vec _ m | .rpt _ m => [(n, m)]
            | .wait _ ns m => [(n, if ns then ceilDiv (m * 4000) (max 1 pmax) else m)]
            | .jmp _ t _ => ((i.firstOf t).toList).map (fun f => (f, 0))
            | .jf _ t _ _ | .jnf _ t _ _ => (n, 0) :: ((i.firstOf t).toList).map (fun f => (f, 0))
            | .matchLoop _ t _ _ _ =>
              let l := max 1 (((i.segments[t]?).map Segment.vecCount).getD 1)
              let w := (1 + ceilDiv 224 l) * l
              [(n, w), ((i.after n 0).1, w)]
            | .call _ t =>
              match (i.firstOf t).bind (fun f => i.fewest nodes pmax k f
                  (fun b => ((i.instrAt 0 b).map isRet).getD false) (fun _ => true)) with
              | some w => [(n, w)]
              | none => []
            | .endl _ =>
              match (nestAt nodes a).head? with
              | some l =>
                match i.fewest nodes pmax k (i.after l 0).1 (isEndlOf l)
                    (fun b => (nestAt nodes b).contains l) with
                | some w => [(n, (i.loopCount l - 1) * w)]
                | none => [(n, 0)]
              | none => [(n, 0)]
            | .ret _ | .halt _ => []
            | _ => [(n, 0)]
        out.filter (fun e => stay e.1)
    let d := relaxN edges (i.instrTotal + 1) [(start, 0)]
    minOf ((d.filter (fun x => goal x.1)).map (·.2))

/-- Rate of one streamed loop body in 0.1 Gbit/s, rounded up; 0 when nothing of it is streamed. -/
def Image.loopRate (i : Image) (res : List Nat) (per : Nat → Nat → Option Nat) (tsets : List (Nat × Nat))
    (nodes : List WNode) (l : Nat) : Option Nat :=
  let ng := i.granules nodes l (fun n => !res.contains n)
  if ng = 0 then some 0
  else
    let segs := ((nodes.filter (fun w => w.open_.contains l)).flatMap (fun w =>
      match i.instrAt 0 w.ip with
      | some (.vec ..) | some (.rpt ..) => (i.segOfInstr w.ip).toList
      | some (.matchLoop _ t _ _ _) => [t]
      | _ => [])).eraseDups
    match minOf (segs.filterMap (i.pSeg per tsets)) with
    | none => none
    | some p =>
      let pmax := (segs.flatMap (fun n => (i.segSets n ++ tsets).filterMap (fun x => per x.1 x.2))).foldl max 1
      match i.fewest nodes pmax 17 (i.after l 0).1
          (fun a => (nestAt nodes a).head? == some l && (match i.instrAt 0 a with | some (.endl _) => true | _ => false))
          (fun a => (nestAt nodes a).contains l) with
      | some len => some (ceilDiv (40000 * 2048 * ng) (max 1 (len * p)))
      | none => some 0

/-- The demand D in units of 0.1 Gbit/s from an entry segment; `none` when it cannot be formed. -/
def Image.demand (i : Image) (res : List Nat) (per : Nat → Nat → Option Nat) (entry : Nat) : Option Nat :=
  let nodes := i.nodesFrom entry
  let tsets := tsetSets (i.reach entry)
  let segs := (i.reachSegs entry).filter (fun n => !res.contains n)
  let straight := segs.map (fun n => (i.pSeg per tsets n).map (fun p => ceilDiv (40000 * i.segBits n) p))
  let loops := ((i.reach entry).filter (fun x => match x.2 with | .loop .. => true | _ => false)).map
    (fun x => i.loopRate res per tsets nodes x.1)
  if (straight ++ loops).any Option.isNone then none
  else some ((straight ++ loops).filterMap id |>.foldl max 0)

end Sys2Proof
end

