-- ==== Sys2Proof/Machine/Timing.lean ====
section
/-!
DEFINITION. Timing sets: banks, periods, the edges an entry uses, the checks of `tmg.set` and of dispatch, and the
rate tables of the fractional-rate fallback (04 R125–R136). Times are in units of 0.25 ps.
-/

namespace Sys2Proof

open Sys2Proof.Machine

/-! ## Banks and periods -/

/-- A bank of a group. -/
def Machine.GrpSt.bankOf (g : GrpSt) (b : Bool) : Tbl TsRec := if b then g.bank1 else g.bank0

/-- A defined timing set of a bank of a group. -/
def Machine.State.tsOf (s : State) (g : Nat) (bank : Bool) (ts : Nat) : Option TsRec :=
  Tbl.find ((s.grpAt g).bankOf bank) ts

/-- The set in the current bank. -/
def Machine.State.tsNow (s : State) (g ts : Nat) : Option TsRec := s.tsOf g (s.grpAt g).bank ts

/-- PERIOD of a committed set. -/
def Machine.State.periodNow (s : State) (g ts : Nat) : Option Nat := (s.tsNow g ts).map (·.period)

/-- Owner of a timing set (04 R129). -/
def Machine.State.ownsTs (s : State) (p g ts : Nat) : Bool := (s.part p).timingSets.getLsbD (64 * g + ts)

/-- Sets that a partition may select: defined and owned (03 R96, R105). -/
def Machine.State.periodOwned (s : State) (p g ts : Nat) : Option Nat :=
  if s.ownsTs p g ts then s.periodNow g ts else none

/-- Entry of a channel position; a position that carries none is all 0 (04 R126). -/
def TsRec.entryAt (r : TsRec) (k : Nat) : TsEntry :=
  ((r.entries.find? (fun x => x.1.val == k)).map (·.2)).getD
    { driveFmt := 0, cmpMode := 0, d := [0, 0, 0, 0], c := [0, 0], rsvd := false }

def TsEntry.dAt (e : TsEntry) (i : Nat) : Nat := e.d[i]?.getD 0
def TsEntry.cAt (e : TsEntry) (i : Nat) : Nat := e.c[i]?.getD 0

/-- Data-multiplex factor of MUX_MODE; 1 in full format (04 R132). -/
def muxFactor (m : Nat) : Nat := if m = 1 then 2 else if m = 2 then 4 else 1

/-- Rounded to 0.25 ps. -/
def roundDiv (a b : Nat) : Nat := (2 * a + b) / (2 * max 1 b)

/-- Drive edges that a format can use (04 R130, R132). -/
def TsEntry.driveEdges (e : TsEntry) (period m : Nat) : List Nat :=
  match e.driveFmt with
  | 0 => [e.dAt 0]
  | 1 | 2 | 5 => [e.dAt 0, e.dAt 1]
  | 3 => [e.dAt 0, e.dAt 1, e.dAt 2]
  | 4 => [e.dAt 0, e.dAt 1, e.dAt 2, e.dAt 3]
  | _ => (List.range m).map (fun i => e.dAt 0 + roundDiv (i * period) m)

/-- Strobes that an entry can raise (04 R131, R132). -/
def TsEntry.strobes (e : TsEntry) (period m : Nat) : List Nat :=
  if e.driveFmt = 6 then (List.range m).map (fun i => e.cAt 0 + roundDiv (i * period) m)
  else if e.cmpMode = 0 then [e.cAt 0] else [e.cAt 0, e.cAt 1]

def lowest (l : List Nat) : Nat := (minOf l).getD 0
def highest (l : List Nat) : Nat := l.foldl max 0

/-! ## Checks of a tmg.set record (04 R127, R130) -/

/-- Used drive edges in their order, 250 ps apart. -/
def spaced : List Nat → Bool
  | a :: b :: r => decide (a + 1000 ≤ b) && spaced (b :: r)
  | _ => true

/-- The bit-spacing rule of a data-multiplex channel of factor `m` (04 R132). -/
def TsEntry.bitsOk (e : TsEntry) (period m : Nat) : Bool :=
  decide (1000 * m ≤ period) && decide (e.dAt 0 + roundDiv ((m - 1) * period) m < 4 * period) &&
    decide (e.cAt 0 + roundDiv ((m - 1) * period) m < 4 * period)

/-- The format fits the multiplex mode: 0–5 in full format, 6 in data-multiplex (04 R130). -/
def fmtFits (driveFmt mux : Nat) : Bool := if mux = 0 then decide (driveFmt ≤ 5) else decide (driveFmt = 6)

/-- MUX_MODE of a channel, when a commit of its present owner set it since the last reset and no other value is staged
(04 R130). -/
def Machine.State.muxSettled (s : State) (c : Nat) : Option Nat :=
  match Tbl.find s.host.params (pid 2 c 0x010) with
  | some v =>
    if s.host.muxMoved.contains c || (List.range 16).any (fun p => match Tbl.find (s.fnAt p).staged (pid 2 c 0x010) with
        | some w => decide (w ≠ v)
        | none => false) then none
    else some v.toNat
  | none => none

/-- Checks of the entry of one channel position. -/
def Machine.State.entryBad (s : State) (g k period : Nat) (e : TsEntry) : List (Bool × Status) :=
  let c := 32 * g + k
  let mux := s.parN 2 c 0x010
  let m := muxFactor mux
  let dm := decide (mux ≠ 0) && decide (e.driveFmt = 6)
  let edges := e.driveEdges period m
  [(e.rsvd, .badParam), (decide (7 ≤ e.driveFmt), .badParam), (decide (3 ≤ e.cmpMode), .badParam),
   ((match s.muxSettled c with
     | some v => !fmtFits e.driveFmt v
     | none => false), .badParam),
   ((edges ++ e.strobes period m).any (fun t => decide (4 * period ≤ t)), .outOfRange),
   (decide (e.driveFmt ≤ 5) && !spaced edges, .outOfRange),
   (decide (e.driveFmt ≤ 5) && decide (1 ≤ e.cmpMode) && decide (e.cAt 1 < e.cAt 0 + 1000), .outOfRange),
   (dm && !e.bitsOk period m, .outOfRange)]

/-- Checks of a whole record (04 R127). Entries of positions that carry no channel of the partition are ignored
(R126). -/
def Machine.State.tsBad (s : State) (p : Nat) (r : TsRec) : List (Bool × Status) :=
  [(r.rsvd, .badParam), (decide (15 < r.group) || decide (63 < r.ts), .outOfRange),
   (decide (r.period < 2500) || decide (4194304000 < r.period), .outOfRange)] ++
  (r.entries.filter (fun x => s.ownsChan p (32 * r.group + x.1.val))).flatMap
    (fun x => s.entryBad r.group x.1.val r.period x.2)

/-! ## Rate tables (04 R134–R136). Bit periods in units of 2^-24 ns -/

/-- Sum of the first `k` bit periods of an entry. -/
def RateEntry.sum (e : RateEntry) (k : Nat) : Int := (k * e.tb : Int) + e.slope * ((k * (k - 1) / 2 : Nat) : Int)

/-- Period of bit `k` of an entry. -/
def RateEntry.bit (e : RateEntry) (k : Nat) : Int := (e.tb : Int) + (k : Int) * e.slope

/-- Bits and length of one pass through the table. -/
def RateRec.bits (r : RateRec) : Nat := (r.entries.map (·.dwell)).sum
def RateRec.total (r : RateRec) : Int := (r.entries.map (fun e => e.sum e.dwell)).sum

/-- Sum of the first `k` bits of a pass, `k` at most its length. -/
def sumBits : List RateEntry → Nat → Int
  | [], _ => 0
  | e :: r, k => if k ≤ e.dwell then e.sum k else e.sum e.dwell + sumBits r (k - e.dwell)

/-- Period of the last bit of a pass. -/
def RateRec.lastBit (r : RateRec) : Int :=
  match r.entries.getLast? with
  | some e => e.bit (e.dwell - 1)
  | none => 0

/-- Σ T_q over the first `q` bits of a burst: MODE 0 wraps, MODE 1 holds the last period. -/
def RateRec.time (r : RateRec) (q : Nat) : Int :=
  let n := max 1 r.bits
  if q ≤ r.bits then sumBits r.entries q
  else if r.mode = 0 then ((q / n : Nat) : Int) * r.total + sumBits r.entries (q % n)
  else r.total + ((q - r.bits : Nat) : Int) * r.lastBit

/-- Shortest bit period of the table. -/
def RateRec.tmin (r : RateRec) : Nat :=
  lowest (r.entries.map (fun e => (min (e.bit 0) (e.bit (e.dwell - 1))).toNat))

/-- Units of 2^-24 ns as units of 0.25 ps, rounded. -/
def toQuarter (x : Int) : Nat := roundDiv (x.toNat * 4000) (2 ^ 24)

/-- Shortest cycle that the table produces for factor `m`, in units of 2^-24 of 0.25 ps, exactly. -/
def RateRec.cycleFine (r : RateRec) (m : Nat) : Nat := m * r.tmin * 4000

/-- The same in whole units of 0.25 ps, rounded down. -/
def RateRec.cycleMin (r : RateRec) (m : Nat) : Nat := r.cycleFine m / 2 ^ 24

/-- A limit of 04 R136 broken by an entry: 250 ps to 262,144 ns per bit. -/
def RateEntry.bad (e : RateEntry) : Bool :=
  decide (e.dwell < 1) || decide (2 ^ 32 ≤ e.dwell) || decide (2 ^ 48 ≤ e.tb) ||
    [e.bit 0, e.bit (e.dwell - 1)].any (fun t => decide (t < 4194304) || decide (262144 * 2 ^ 24 < t))

/-- Groups that a site runs resampled. -/
def Machine.State.rsmpGroup (s : State) (k g : Nat) : Bool := bit (s.parN 2 k 0x011) g == 1

/-! ## Checks over the sets a burst can select (04 R133) -/

/-- What a channel does in a set: period, drive edges, strobes, in units of 2^-24 of 0.25 ps. -/
structure ChTiming where
  ts     : Nat
  period : Nat
  drive  : List Nat
  strobe : List Nat
  fits   : Bool

/-- 0.25 ps in those units; 250 ps. -/
def fine : Nat := 2 ^ 24
def gap : Nat := 1000 * fine

/-- Bit times of a resampled channel within its cycle at the shortest bit period: each placed edge is rounded to
0.25 ps (04 R135). -/
def RateRec.bitTimes (t : RateRec) (m e : Nat) : List Nat :=
  (List.range m).map (fun i => (e + toQuarter ((i * t.tmin : Nat) : Int)) * fine)

/-- A channel's timing in a committed set of its group; in a resampled group the period is the shortest cycle of the
rate table (04 R135). -/
def Machine.State.chTiming (s : State) (k c ts : Nat) : Option ChTiming :=
  let g := c / 32
  (s.tsNow g ts).map (fun r =>
    let mux := s.parN 2 c 0x010
    let m := muxFactor mux
    let e := r.entryAt (c % 32)
    let plain : ChTiming :=
      { ts, period := r.period * fine, drive := (e.driveEdges r.period m).map (· * fine)
        strobe := (e.strobes r.period m).map (· * fine)
        fits := fmtFits e.driveFmt mux && (decide (mux = 0) || e.bitsOk r.period m) }
    if s.rsmpGroup k g then
      match (s.grpAt g).rate with
      | some t =>
        let p := t.cycleFine m
        { ts, period := p, drive := t.bitTimes m (e.dAt 0), strobe := t.bitTimes m (e.cAt 0)
          fits := fmtFits e.driveFmt mux && decide (gap * m ≤ p) &&
            (t.bitTimes m (e.dAt 0) ++ t.bitTimes m (e.cAt 0)).all (fun x => decide (x < 4 * p)) }
      | none => plain
    else plain)

/-- Order of a pair of sets. -/
def orderOk (a b : ChTiming) : Bool :=
  decide (highest a.drive + gap ≤ a.period + lowest b.drive) &&
    decide (highest a.strobe + gap ≤ a.period + lowest b.strobe)

/-- Overhang of a set. -/
def overhangOk (pmin : Nat) (a : ChTiming) : Bool :=
  decide (highest (a.drive ++ a.strobe) < a.period + 3 * pmin)

/-- First failing pair of a channel, if any: fit, order, overhang. -/
def pairBad (ts : List ChTiming) : Option (Nat × Nat) :=
  let pmin := lowest (ts.map (·.period))
  match ts.find? (fun a => !a.fits) with
  | some a => some (a.ts, a.ts)
  | none =>
    match (ts.flatMap (fun a => ts.map (fun b => (a, b)))).find? (fun x => !orderOk x.1 x.2) with
    | some x => some (x.1.ts, x.2.ts)
    | none => (ts.find? (fun a => !overhangOk pmin a)).map (fun a => (a.ts, a.ts))

/-- First channel of a site in a group that fails over the sets listed: lane, pair. -/
def Machine.State.edgeBad (s : State) (k g : Nat) (sets : List Nat) : Option (Nat × Nat × Nat) :=
  ((s.siteChans k).filter (fun c => c / 32 == g)).findSome? (fun c =>
    (pairBad (sets.filterMap (s.chTiming k c))).map (fun x => (s.laneOf c, x.1, x.2)))

/-! ## Resampled groups (04 R134) -/

/-- MUX_MODE values of a site's channels in a group. -/
def Machine.State.muxOf (s : State) (k g : Nat) : List Nat :=
  (((s.siteChans k).filter (fun c => c / 32 == g)).map (fun c => s.parN 2 c 0x010)).eraseDups

/-- A group that a site names is not fit to run resampled: a channel of the site in full format, two factors, a cycle
below 625 ps, or no rate table of the site's partition. -/
def Machine.State.rsmpUnfit (s : State) (p k g : Nat) : Bool :=
  let x := s.grpAt g
  let ms := s.muxOf k g
  x.rate.isNone || decide (x.rateOwner ≠ some (.inl p)) || decide (1 < ms.length) ||
    ms.any (fun m => decide (m = 0) || x.rate.any (fun t => decide (muxFactor m * t.tmin < 10485760)))

/-- Rate table and factor of a site's group that runs resampled; none for one that does not. -/
def Machine.State.rsmpShape (s : State) (k g : Nat) : Option (Nat × List RateEntry × List Nat) :=
  if s.rsmpGroup k g then (s.grpAt g).rate.map (fun t => (t.mode, t.entries, s.muxOf k g)) else none

/-- The resampled groups of a burst's sites agree. Every group that a site names must be fit; the groups that the burst
uses all run by one table with one factor, or none runs resampled. Answers the group whose rate table the refusal
names. -/
def Machine.State.rsmpBad (s : State) (p : Nat) (sites groups : List Nat) : Option Nat :=
  let named := sites.flatMap (fun k => ((List.range 16).filter (s.rsmpGroup k)).map (fun g => (k, g)))
  let used := sites.flatMap (fun k =>
    (groups.filter (fun g => (s.siteChans k).any (fun c => c / 32 == g))).map (fun g => (k, g)))
  match named.find? (fun x => s.rsmpUnfit p x.1 x.2) with
  | some x => some x.2
  | none =>
    match used with
    | [] => none
    | a :: rest => (rest.find? (fun x => decide (s.rsmpShape x.1 x.2 ≠ s.rsmpShape a.1 a.2))).map
        (fun x => if s.rsmpGroup x.1 x.2 then x.2 else a.2)

end Sys2Proof
end

