-- ==== Sys2Proof/Machine/Flags.lean ====
section
/-!
DEFINITION. The fail flags: what a strobe expects, which strobes of a position fail, the JF and fail-stop scopes, and
the raw-capture code of a state (02 R53, R57, R63; 03 R87, R88; 04 R131, R132; 06 R185, R195).
-/

namespace Sys2Proof.Machine

/-- What a strobe expects. -/
inductive Expect where
  /-- Never fails. -/
  | any
  | low | mid | high
  /-- LOW or HIGH (code V). -/
  | outside
  deriving DecidableEq, Repr

/-- A state seen at a strobe passes. -/
def Expect.ok : Expect → Cmp → Bool
  | .any, _ => true
  | .low, c => c == .low
  | .mid, c => c == .mid
  | .high, c => c == .high
  | .outside, c => c == .low || c == .high

/-- Expectation of a full-format state code (R185). -/
def expectOf (state : Nat) : Expect :=
  match state with
  | 2 => .low | 3 => .high | 5 | 9 => .mid | 6 => .outside | _ => .any

/-- The full-format code raises strobes: L, H, Z, V, W and C (R131). -/
def strobed (state : Nat) : Bool := [2, 3, 5, 6, 9, 10].contains state

/-- Data-multiplex factor of a channel code (R86). -/
def codeFactor (code : Nat) : Nat := if code = 2 ∨ code = 3 then 2 else if code = 4 ∨ code = 5 then 4 else 1

/-- Expectations of the strobes that a field of a channel code raises under a CMP_MODE, in their order; none for a field
that raises no strobe. -/
def expectsOf (code v cmp : Nat) : List Expect :=
  match code with
  | 1 => if strobed v then List.replicate (if cmp = 1 then 2 else 1) (expectOf v) else []
  | 3 | 5 =>
    let m := codeFactor code
    if bit v m = 1 then [] else (List.range m).map (fun i => if bit v i = 1 then Expect.high else .low)
  | _ => []

/-- Expectations of the strobes that a field of a position raises. -/
def FieldAt.expects (f : FieldAt) : List Expect :=
  (expectsOf f.code.toNat f.field.toNat f.cmp).take f.strobes.length

/-- A strobe that falls at or after a time is masked; strobes of a field follow one another (02 R66). -/
def FieldAt.cut (t : Nat) (f : FieldAt) : FieldAt :=
  { f with strobes := f.strobes.takeWhile (fun q => decide ((q : Int) + f.shift < (t : Int))) }

/-- The strobes of a position that a stop inside a cycle leaves. -/
def Flight.cut (t : Option Nat) (x : Flight) : Flight :=
  match t with
  | some t => { x with fields := x.fields.map (FieldAt.cut t) }
  | none => x

/-- The field is judged by the WINDOW rule: one strobe from C0 to C1 (R131). -/
def FieldAt.isWindow (f : FieldAt) : Bool := f.code == 1 && f.cmp == 2

/-- States that the row shows for a channel; a strobe it shows nothing of saw what it expects. -/
def seenOf (seen : List (Chan × List Cmp)) (c : Chan) : List Cmp :=
  ((seen.find? (fun x => decide (x.1 = c))).map (·.2)).getD []

/-- Numbers of the strobes of a field that fail. In WINDOW the strobe fails on an excursion (R131). -/
def FieldAt.failing (f : FieldAt) (seen : List Cmp) : List Nat :=
  if f.isWindow then
    if f.expects.any (fun e => e != .any) && seen.contains .excursion then [0] else []
  else
    (f.expects.zipIdx).filterMap (fun x =>
      match seen[x.2]? with
      | some c => if x.1.ok c then none else some x.2
      | none => none)

/-- Fields of a position that raise strobes: not a hold position, not masked (R131). -/
def Flight.strobing (x : Flight) : List FieldAt :=
  if x.hold then []
  else x.fields.filter (fun f => !x.masked.any (fun g => decide (g.val = f.chan.val / 32)) && !f.expects.isEmpty)

/-- A failing channel of a position with its failing strobes. -/
structure ChFail where
  chan    : Nat
  strobes : List Nat
  deriving DecidableEq, Repr

/-- Failing channels of a position. -/
def Flight.fails (x : Flight) (seen : List (Chan × List Cmp)) : List ChFail :=
  (x.strobing.map (fun f => ({ chan := f.chan.val, strobes := f.failing (seenOf seen f.chan) } : ChFail))).filter
    (fun c => !c.strobes.isEmpty)

/-- A channel lies in a scope register: all channels, or those of the groups whose bits are set (02 R85). -/
def inScope (reg c : Nat) : Bool := bit reg 16 == 0 || bit reg (c / 32) == 1

/-- STROBES and FAIL_MASK of the failing channels of a group (06 R191). -/
def strobeMask (l : List ChFail) : Nat :=
  ((List.range 4).filter (fun i => l.any (fun c => c.strobes.contains i))).foldl (fun a i => a + 2 ^ i) 0
def failMask (l : List ChFail) : Nat :=
  ((List.range 32).filter (fun k => l.any (fun c => c.chan % 32 == k))).foldl (fun a k => a + 2 ^ k) 0

/-- The JF flag over the uncleared positions up to a horizon (02 R53). -/
def Burst.jfTest (b : Burst) (horizon : Int) : Bool := b.jf.any (fun p => decide ((p : Int) ≤ horizon))

/-- Clear the JF flag through a horizon (02 R54). -/
def Burst.jfClear (b : Burst) (horizon : Int) : Burst :=
  { b with jf := b.jf.filter (fun p => decide (horizon < (p : Int))) }

/-- Positions up to a horizon are final: issued, emitted and compared (02 R43, FSYNC of R73). -/
def Burst.finalTo (b : Burst) (horizon : Int) : Bool :=
  decide (horizon < (b.emitted : Int)) && b.flight.all (fun x => decide (horizon < (x.pos : Int)))

/-- Raw-capture code of a comparator state (06 R195). -/
def capCode : Cmp → Nat
  | .low => 0 | .mid => 1 | .high => 2 | .excursion => 1

/-- Slot of a sample for a channel of a position: states by strobe, 0b11 where there is none. -/
def slotBits (x : Flight) (seen : List (Chan × List Cmp)) (c : Nat) : Nat :=
  match x.strobing.find? (fun f => f.chan.val == c) with
  | none => 0xFF
  | some f =>
    let states := (seenOf seen f.chan).filter (fun v => v != .excursion)
    (List.range 4).foldl (fun a i =>
      let code := if i < f.expects.length then
          (match states[i]? with
           | some v => capCode v
           | none => match f.expects[i]? with
             | some .low | some .outside => 0
             | some .high => 2
             | _ => 1)
        else 3
      a + code * 4 ^ i) 0

end Sys2Proof.Machine
end

