-- ==== Sys2Proof/Machine/Pump.lean ====
section
/-!
DEFINITION. What lies between the micro-sequencer and the islands: the run queue, the stream buffer with its granules,
and the pump, which writes positions ahead of emission (01 R16; 02 R40, R42, R55; 03 R101–R103, R107, R108; 04 R123).
-/

namespace Sys2Proof

/-- First granule of a segment's vectors, counted from the start of the image (03 R92, R102). -/
def Image.granBase (i : Image) (n : Nat) : Nat := i.vecOff / 256 + ((i.segments[n]?).map (·.granule)).getD 0

/-- Granules of a segment's vectors. -/
def Image.granTotal (i : Image) (n : Nat) : Nat :=
  ceilDiv (((i.segments[n]?).map Segment.vecCount).getD 0 * i.segBits n) 2048

/-- Instructions in the fetch queue: 64 from an address on (02 R55). -/
def Image.ahead (i : Image) : Nat → Nat → List (Nat × Instr)
  | 0, _ => []
  | k + 1, ip =>
    match i.instrAt 0 ip with
    | some (.halt e) => [(ip, .halt e)]
    | some c => (ip, c) :: i.ahead k (i.after ip 0).1
    | none => []

end Sys2Proof

namespace Sys2Proof.Machine

/-! ## Where a granule lies (03 R102) -/

/-- Memory channel of granule `j` of an image: the channels unfenced at load in turn. -/
def ImgSt.mcOf (i : ImgSt) (j : Nat) : Nat := (i.mcs[j % max 1 i.mcs.length]?).getD 0

/-- Its pseudo-channel: 0 and 1 in turn on each pass over the channels. -/
def ImgSt.pcOf (i : ImgSt) (j : Nat) : Nat := 2 * i.mcOf j + j / max 1 i.mcs.length % 2

/-! ## Runs of streamed segments (03 R106, R107) -/

/-- Vectors that a run reads from the stream: all of them, a repeated one once. -/
def RunDesc.reads (d : RunDesc) : Nat := if d.kind = .repeated then 1 else d.n

/-- Granules that a run takes. -/
def RunDesc.grans (d : RunDesc) : Nat := if d.bits = 0 then 0 else ceilDiv (d.ofs + d.reads * d.bits) 2048

/-- Place in the stream of the bit at an offset of a run. -/
def RunDesc.placeOf (d : RunDesc) (bit : Nat) : Nat := d.sq + (d.ofs + bit) / 2048

/-- Vector of its segment's order that position `k` of a run reads. -/
def RunDesc.readAt (d : RunDesc) (k : Nat) : Nat := if d.kind = .repeated then 0 else k

/-- First position of a run that needs a place of the stream. -/
def RunDesc.firstNeed (d : RunDesc) (sq : Nat) : Nat :=
  d.first + (if d.kind = .repeated then 0 else ((sq - d.sq) * 2048 - d.ofs) / max 1 d.bits)

/-- A run as it enters the stream, with the granules of the image that it takes: none where its vectors are resident,
are hold positions or form a MATCH body. -/
def ImgSt.streamed (i : ImgSt) (need : Nat) (d : RunDesc) : RunDesc × List (Nat × Nat) :=
  match (if d.kind = .hold ∨ d.wrap ≠ 0 then none else i.img.segOfVec d.vp) with
  | some (n, v) =>
    if i.resident.contains n ∨ i.img.segBits n = 0 then (d, [])
    else
      let at_ := v * i.img.segBits n
      let d := { d with bits := i.img.segBits n, ofs := at_ % 2048, sq := need }
      (d, [(i.img.granBase n + at_ / 2048, d.grans)])
  | none => (d, [])

/-! ## The stream buffer (03 R103) -/

/-- Granules of the stream buffer. -/
def streamSlots : Nat := 2048

/-- The granule of a place stands in the buffer. -/
def Strm.has (t : Strm) (sq : Nat) : Bool := decide (sq < t.asked) && t.out.all (fun r => r.sq != sq)

/-- Request the next granule of the path; one that a head has prefetched is taken from it. -/
def Strm.ask (g : Nat) (t : Strm) : Strm :=
  let h := t.heads.find? (fun x => x.gran == g)
  { t with
    asked := t.asked + 1, heads := t.heads.eraseP (fun x => x.gran == g)
    out := if h.any (·.here) then t.out else t.out ++ [{ sq := t.asked, gran := g }] }

/-- Requests are made in the order of the path while a slot is free. -/
def Strm.askAll : Nat → Strm → Strm
  | 0, t => t
  | k + 1, t =>
    if t.freed + streamSlots ≤ t.asked + t.heads.length then t
    else match t.todo with
      | [] => t
      | (g, n) :: r => askAll k (({ t with todo := if n ≤ 1 then r else (g + 1, n - 1) :: r } : Strm).ask g)

def Strm.request (t : Strm) : Strm := t.askAll streamSlots

/-- The path takes granules. -/
def Strm.take (l : List (Nat × Nat)) (t : Strm) : Strm :=
  ({ t with todo := t.todo ++ l, need := t.need + (l.map (·.2)).sum } : Strm).request

/-- Granules before a place are freed, and the next ones are requested. -/
def Strm.free (sq : Nat) (t : Strm) : Strm := ({ t with freed := max t.freed sq } : Strm).request

/-- A granule arrives on a pseudo-channel: the oldest one requested there, then the oldest head. -/
def Strm.deliver (ok : Nat → Bool) (t : Strm) : Strm :=
  if t.out.any (fun r => ok r.gran) then { t with out := t.out.eraseP (fun r => ok r.gran) }
  else match t.heads.findIdx? (fun h => !h.here && ok h.gran) with
    | some k => { t with heads := t.heads.modify k (fun h => { h with here := true }) }
    | none => t

/-- A granule is awaited on a pseudo-channel. -/
def Strm.awaits (ok : Nat → Bool) (t : Strm) : Bool :=
  t.out.any (fun r => ok r.gran) || t.heads.any (fun h => !h.here && ok h.gran)

/-! ## The fetch queue (02 R55) -/

/-- Target of a transfer whose head can be streamed: a CALL or a MATCH has a resident one. -/
def jumpTarget : Instr → Option Nat
  | .jmp _ t _ | .jf _ t _ _ | .jnf _ t _ _ => some t
  | _ => none

/-- Heads of the transfers in the fetch queue: the first 16 granules of each streamed target. -/
def ImgSt.headsAt (i : ImgSt) (ip : Nat) : List HeadReq :=
  (i.img.ahead 64 ip).flatMap (fun x =>
    match jumpTarget x.2 with
    | some n => if i.resident.contains n then [] else
        (List.range (min 16 (i.img.granTotal n))).map (fun k => { ip := x.1, gran := i.img.granBase n + k })
    | none => [])

/-- The fetch queue has moved on to the burst's IP, `from_` being the transfer that has just been executed, if it was
one: heads of transfers that are gone are dropped, those of new ones requested. -/
def Burst.prefetch (i : ImgSt) (from_ : Option Nat) (b : Burst) : Burst :=
  let now := i.headsAt b.ip
  let kept := b.strm.heads.filter (fun h => now.any (fun x => x.ip == h.ip) || from_ == some h.ip)
  let new := now.filter (fun x => !kept.any (fun h => h.ip == x.ip))
  { b with strm := { b.strm with heads := kept ++ new } }

/-! ## The pump (02 R42, 03 R108) -/

/-- Positions that the pump keeps each island ahead of emission. -/
def pumpLead : Nat := 192

/-- Positions written to the islands. -/
def Burst.written (b : Burst) : Nat := b.emitted + b.cols.length

/-- The wait of the first trigger wait has begun: every position before it is emitted (02 R59). -/
def Burst.waiting (b : Burst) : Bool :=
  (match b.waits with
   | w :: _ => decide (w.pos ≤ b.emitted)
   | [] => false) && b.isStarted && b.phase != .draining

/-- The records of the next position of a run stand in the stream buffer. -/
def Burst.recordsOf (b : Burst) (d : RunDesc) : Bool :=
  let k := d.readAt d.done * d.bits
  d.bits == 0 || (List.range (d.placeOf (k + d.bits - 1) + 1 - d.placeOf k)).all (fun i => b.strm.has (d.placeOf k + i))

/-- Vector of position `k` of a run; none for a hold position. -/
def RunDesc.vecAt (d : RunDesc) (k : Nat) : Option Nat :=
  match d.kind with
  | .seq => some (d.vp + (if d.wrap = 0 then k else k % d.wrap))
  | .repeated => some d.vp
  | .hold => none

/-- First place of the stream that a run still needs once `k` of its positions are written. -/
def RunDesc.keeps (d : RunDesc) (k : Nat) : Nat :=
  if d.n ≤ k then d.sq + d.grans else d.placeOf (d.readAt k * d.bits)

/-- Write one position to every island of the burst. -/
def Burst.writeOne (b : Burst) (d : RunDesc) (rest : List RunDesc) : Burst :=
  { b with
    cols := b.cols ++ [{ vec := d.vecAt d.done, ip := d.ip, inMatch := d.inMatch, ldep := d.ldep, left := d.left }]
    runs := if d.n ≤ d.done + 1 then rest else { d with done := d.done + 1 } :: rest
    strm := if d.bits = 0 then b.strm else b.strm.free (d.keeps (d.done + 1)) }

/-- The pump writes until the islands hold its lead, the run queue is empty, or records are missing. -/
def Burst.pumpN : Nat → Burst → Burst
  | 0, b => b
  | k + 1, b =>
    match b.runs with
    | [] => b
    | d :: r =>
      if b.written < b.emitted + pumpLead && b.recordsOf d then pumpN k (b.writeOne d r) else b

/-- Fill and pointers of the islands' buffers. -/
def Burst.point (b : Burst) : Burst :=
  { b with bufs := b.bufs.map (fun x => { x with
      wr := b.written, rd := b.emitted, low := if b.isStarted then min x.low b.cols.length else x.low }) }

/-- The pump runs. It writes none while the islands hold for a trigger (02 R42); in a pause it fills them again
(03 R111). -/
def Burst.pump (b : Burst) : Burst :=
  if b.raster || b.waiting || decide (b.phase = .filling) || decide (b.phase = .draining) then b
  else (b.pumpN pumpLead).point

/-- Issue a run of positions. -/
def Burst.post (i : ImgSt) (b : Burst) (d : RunDesc) : Burst :=
  let x := i.streamed b.strm.need { d with ldep := b.loops.length, left := (b.loops.head?.map (·.count)).getD 0 }
  ({ b with runs := b.runs ++ [x.1], vix := b.vix + d.n, strm := b.strm.take x.2 } : Burst).pump

/-- Empty buffers of the sites that share the groups of a burst (02 R40, 04 R123). -/
def State.freshBufs (s : State) (sites : List Site) (groups : List Grp) : List IslBuf :=
  groups.flatMap (fun g => (sites.filter (fun k => (s.siteChans k.val).any (fun c => c / 32 == g.val))).map
    (fun k => { grp := g.val, site := k.val }))

/-- Lowest fill that an island saw for a site (EB_MIN_FILL). -/
def Burst.minFill (b : Burst) (k : Nat) : Nat :=
  ((b.bufs.filter (fun x => x.site == k)).map (·.low)).foldl min 256

/-- Every position is issued, written and emitted (02 R64). -/
def Burst.spent (b : Burst) : Bool := b.halted && b.runs.isEmpty && b.cols.isEmpty

/-- An island can start: it holds the lead, or all positions of the burst (01 R16). -/
def Burst.fillReady (b : Burst) : Bool :=
  b.raster || decide (pumpLead ≤ b.cols.length) || (b.halted && b.runs.isEmpty)

/-- The first granule that the pump awaits: its number in the image. -/
def Burst.awaited (b : Burst) : Option Nat :=
  match b.runs with
  | d :: _ =>
    let k := d.readAt d.done * d.bits
    if d.bits = 0 then none
    else (b.strm.out.find? (fun r => decide (d.placeOf k ≤ r.sq) && decide (r.sq ≤ d.placeOf (k + d.bits - 1)))).map (·.gran)
  | [] => none

/-- First position that needs the granule of a request; the next one to be written where none does yet. -/
def Burst.needs (b : Burst) (sq : Nat) : Nat :=
  match b.runs.find? (fun d => decide (d.bits ≠ 0) && decide (d.sq ≤ sq) && decide (sq < d.sq + d.grans)) with
  | some d => max b.written (d.firstNeed sq)
  | none => b.written

end Sys2Proof.Machine
end

