-- ==== Sys2Proof/Machine/Operands.lean ====
section
/-!
DEFINITION. What a pattern instruction works on: the burst of its engine with the instruction that it fetches next,
machine checks, the cycles of a burst in module time, the timing sets in force, and the groups and channels of a
scope (02 R41–R45, R70–R78; 03 R89; 04 R120, R125, R135).
-/

namespace Sys2Proof.Machine

/-- Key of an image: partition and handle. -/
def imgKey (p h : Nat) : Nat := p * 64 + h

/-- Image of a burst. -/
def State.imgOf (s : State) (b : Burst) : Option ImgSt := s.imageAt (imgKey b.part.val b.handle)

/-- The sequencer of the engine executes: a burst past its loop-store fill, not halted, not in a MATCH, room among the
64 entries of the run queue (02, the engine's parts; R42). -/
def Burst.issuing (b : Burst) : Bool :=
  decide (b.phase ≠ .filling) && decide (b.phase ≠ .draining) && !b.halted && !b.raster && b.unit.all (·.micro) &&
    decide (b.runs.length < 64)

/-- The burst and the image of an engine whose sequencer executes. -/
def State.fetch (s : State) (e : Eng) : Option (Burst × ImgSt) :=
  match s.burstAt e.val with
  | some b =>
    if b.issuing && decide ((s.engAt e.val).mode ≠ .fenced) then (s.imgOf b).map (fun i => (b, i)) else none
  | none => none

/-- Machine check of an engine with the event at an offset of its sources (02 R78, R82–R84). -/
def State.machineCheck (s : State) (e off : Nat) (err : Option (Nat × Nat × Nat) := none) : State :=
  let s := s.updEng e (fun x => { x with mchk := satAdd x.mchk 1 0xFFFFFFFF })
  s.raise { src := 0x100 + 8 * e + off, err }

/-- Go on after the instruction. -/
def Burst.step (img : Image) (b : Burst) : Burst :=
  let x := img.after b.ip b.vp
  { b with ip := x.1, vp := x.2 }

/-- Transfer to a segment, popping loop entries (02 R45, R51). -/
def State.transfer (s : State) (e : Eng) (img : Image) (b : Burst) (seg lpop : Nat) : State :=
  if b.loops.length < lpop then s.machineCheck e.val 2
  else match img.enter seg with
    | some x => s.putBurst e.val { b with ip := x.1, vp := x.2, loops := b.loops.drop lpop }
    | none => s.machineCheck e.val 1

/-- Commit a control descriptor for the next position (02 R62). -/
def Burst.postCtl (img : Image) (b : Burst) (c : Ctl) : Burst :=
  ({ b with ctls := b.ctls ++ [{ pos := b.vix, ctl := c }] } : Burst).step img

/-! ## Timing sets in force -/

/-- Overrides after a TSET. -/
def tsoSet (tso : List (Grp × Nat)) (ts : Nat) (groups : BitVec 16) (off : Bool) : List (Grp × Nat) :=
  let kept := tso.filter (fun x => !groups.getLsbD x.1.val)
  if off then kept else kept ++ ((List.finRange 16).filter (fun g => groups.getLsbD g.val)).map (fun g => (g, ts))

/-- Overrides once every committed TSET has acted. -/
def Burst.tsoNext (b : Burst) : List (Grp × Nat) :=
  b.ctls.foldl (fun t d => match d.ctl with
    | .tset ts groups off => tsoSet t ts.val groups off
    | _ => t) b.tso

/-- Timing set of a group for a control byte. -/
def tsIndex (tso : List (Grp × Nat)) (g : Nat) (control : Nat) : Nat :=
  match tso.find? (fun x => x.1.val == g) with
  | some x => x.2
  | none => control % 64

/-- Bank that the burst is bound to. -/
def Burst.bankAt (b : Burst) (g : Nat) : Bool := ((b.banks.find? (fun x => x.1.val == g)).map (·.2)).getD false

/-- The set that a group of a burst uses for a control byte. -/
def State.setFor (s : State) (b : Burst) (tso : List (Grp × Nat)) (g control : Nat) : Option TsRec :=
  s.tsOf g (b.bankAt g) (tsIndex tso g control)

/-- Groups of a burst in the order in which its cycle is taken from them: those of the home site first
(notes/assumptions/30.md). -/
def State.periodGroups (s : State) (b : Burst) : List Nat :=
  groupsOf (s.siteChans b.home.val) ++ groupsOf (s.burstChans b)

/-- Period of the cycle of a vector under the overrides given, in 0.25 ps. -/
def State.vecPeriod (s : State) (b : Burst) (img : Image) (tso : List (Grp × Nat)) (v : Nat) : Nat :=
  let recs := (img.vecAt v).getD []
  let per := (s.periodGroups b).filterMap (fun g =>
    (recs.find? (fun r => r.1.val == g)).bind (fun r => (s.setFor b tso g r.2.1.toNat).map (·.period)))
  (per.head?).getD b.period

/-- Rate table and factor that the cycles of a burst follow, when its groups run resampled (04 R134, 09 R262). -/
def State.rateOf (s : State) (b : Burst) : Option (RateRec × Nat) :=
  let gs := s.periodGroups b
  match gs.head? with
  | some g =>
    if b.raster || s.rsmpGroup b.home.val g then
      let c := ((s.siteChans b.home.val).find? (fun c =>
        c / 32 == g && (!b.raster || bit (s.parN 6 c 0x030) 3 == 1))).getD 0
      (s.grpAt g).rate.map (fun t => (t, muxFactor (s.parN 2 c 0x010)))
    else none
  | none => none

/-! ## Cycles in module time -/

/-- `n` cycles pass at the period `p`; a resampled burst takes the sums of its rate table (04 R135). -/
def State.spend (s : State) (b : Burst) (n p : Nat) : Burst :=
  match s.rateOf b with
  | some (t, m) =>
    let e := toQuarter (t.time ((b.cycle + n) * m))
    { b with cycle := b.cycle + n, elapsed := e
             period := e - toQuarter (t.time ((b.cycle + n - 1) * m)) }
  | none => { b with cycle := b.cycle + n, elapsed := b.elapsed + n * p, period := p }

/-- Hold cycles are inserted up to a cycle (02 R59, 03 R111). -/
def State.holdTo (s : State) (b : Burst) (cycle : Nat) : Burst :=
  if b.cycle < cycle then s.spend b (cycle - b.cycle) b.period else b

/-! ## Edges and strobes of a vector (04 R120, R130–R132, R135, R137; 05 R152) -/

def drvLevel (v : Bool) : Drv := if v then .high else .low

/-- Edges of a full-format state code under a drive format: programmed times `d`, with OFF_TERM and the load as the
lane has them (R130, R152). A code without an edge leaves the pin as it is. -/
def fmtEdges (fmt code : Nat) (term load : Bool) (d : Nat → Nat) : List PinEdge :=
  let drive (i : Nat) (v : Bool) : PinEdge := { t := d i, drive := drvLevel v, load := false }
  let off : PinEdge := { t := d 0, drive := if term && !load then .vtt else .off, load }
  match code with
  | 0 | 1 =>
    let v := code == 1
    match fmt with
    | 0 => [drive 0 v]
    | 1 => if v then [drive 0 true, drive 1 false] else [drive 0 false]
    | 2 => if v then [drive 0 true] else [drive 0 false, drive 1 true]
    | 3 => [drive 0 (!v), drive 1 v, drive 2 (!v)]
    | 4 => if v then [drive 0 true, drive 1 false, drive 2 true, drive 3 false] else [drive 0 false]
    | 5 => [drive 0 v, { t := d 1, drive := if term then .vtt else .off, load := false }]
    | _ => []
  | 7 => []
  | 8 | 9 =>
    if fmt = 5 then [{ t := d 0, drive := .off, load := true }, { t := d 1, drive := if term then .vtt else .off, load := false }]
    else [{ t := d 0, drive := .off, load := true }]
  | _ => if fmt = 5 then [] else [off]

/-- Edges of a field: of a full-format code, of the bits of a data-multiplex drive channel, which its mask bit replaces
by the driver going off, or of a compare channel, whose driver is off (R130, R132). OFF_TERM acts on these as on an off
code (R152; notes/assumptions/111.md, DESIGN CHOICE). -/
def codeEdges (code fmt field : Nat) (term load : Bool) (d : Nat → Nat) : List PinEdge :=
  let off : PinEdge := { t := d 0, drive := if term && !load then .vtt else .off, load }
  match code with
  | 1 => fmtEdges fmt field term load d
  | 2 | 4 =>
    let m := codeFactor code
    if bit field m = 1 then [off]
    else (List.range m).map (fun i => { t := d i, drive := drvLevel (bit field i == 1), load := false })
  | 3 | 5 => [off]
  | _ => []

/-- Edges are placed on a lane, shifted by its total drive deskew and the channel's offset; those that the time `q` has
passed have left its queue (R123, R137). -/
def LaneSt.place (q : Nat) (shift : Int) (es : List PinEdge) (l : LaneSt) : LaneSt :=
  let past := l.edges.takeWhile (fun e => decide (e.t ≤ q))
  let es := es.map (fun e => { e with t := ((e.t : Int) + shift).toNat })
  { l with
    base := (past.getLast?.map (·.drive)).getD l.base
    edges := l.edges.drop past.length ++ es
    drive := (es.getLast?.map (·.drive)).getD l.drive, load := (es.getLast?.map (·.load)).getD l.load }

/-- The first three terms of the total deskew of a lane (R137). -/
def LaneSt.deskD (l : LaneSt) : Int := l.refD + l.statD + l.tc
def LaneSt.deskC (l : LaneSt) : Int := l.refC + l.statC + l.tc

/-- Total deskew of a channel's drive path, and of its compare path. -/
def State.shiftD (s : State) (c : Nat) : Int := (s.laneAt (s.laneOf c)).deskD + s.par (pid 2 c 0x012)
def State.shiftC (s : State) (c : Nat) : Int := (s.laneAt (s.laneOf c)).deskC + s.par (pid 2 c 0x013)

/-- Start of cycle 0 in units of 0.25 ps. -/
def Burst.zero (b : Burst) : Nat := ((b.startTick.getD 0) + 128) * 4000

/-- Programmed time of bit `i` of the next cycle from a drive edge or strobe programmed at `e`: at e + i × P / m of the
cycle, and in a resampled burst by the sum of the bit periods of the rate table (R132, R135). -/
def State.bitTime (s : State) (b : Burst) (period m e i : Nat) : Nat :=
  match s.rateOf b with
  | some (t, k) => b.zero + e + toQuarter (t.time (b.cycle * k + i))
  | none => b.nextStart + e + roundDiv (i * period) m

/-- Drive time `i` of an entry in the next cycle: edge D_i, or bit `i` of a data-multiplex channel. -/
def State.driveTime (s : State) (b : Burst) (period code : Nat) (e : TsEntry) (i : Nat) : Nat :=
  if code = 1 then b.nextStart + e.dAt i else s.bitTime b period (codeFactor code) (e.dAt 0) i

/-- Strobe times of a field in the next cycle. -/
def State.strobeTimes (s : State) (b : Burst) (period code field : Nat) (e : TsEntry) : List Nat :=
  (List.range (expectsOf code field e.cmpMode).length).map (fun i =>
    if code = 1 then b.nextStart + e.cAt i else s.bitTime b period (codeFactor code) (e.cAt 0) i)

/-! ## What a burst names -/

/-- Measurement set that an instruction names. -/
def msOf : Instr → Option Nat
  | .stamp _ m _ => some m
  | _ => none

/-- Converter that an instruction names. -/
def convOf : Instr → Option Nat
  | .inj _ g _ => some g.val
  | _ => none

end Sys2Proof.Machine
end

