-- ==== Sys2Proof/Machine/Drive.lean ====
section
/-!
DEFINITION. The pins in a burst: what the fields of a vector drive and when they strobe, hold cycles, the steps of the
temperature correction that wait for a cycle start (02 R48, R59; 04 R120, R130–R132, R137, R138; 05 R152, R172).
-/

namespace Sys2Proof.Machine

/-- Edges reach the lane of a channel in the cycle that starts at `q`. -/
def State.drivePin (s : State) (q : Nat) (c : Chan) (es : List PinEdge) : State :=
  if s.chanSafe c.val ∨ es = [] then s
  else
    let shift := s.shiftD c.val
    s.updLane (s.laneOf c.val) (fun l => if l.follows then l.place q shift es else l)

/-- An entry of an undefined set. -/
def TsEntry.none_ : TsEntry := { driveFmt := 0, cmpMode := 0, d := [], c := [], rsvd := false }

/-- One field of the next cycle: when it strobes, and the edges that it drives. -/
def State.fieldAt (s : State) (b : Burst) (period : Nat) (chan : Chan) (code : BitVec 4) (field : BitVec 5)
    (e : TsEntry) : FieldAt × List PinEdge :=
  let l := s.laneAt (s.laneOf chan.val)
  let es := codeEdges code.toNat e.driveFmt field.toNat (s.parN 3 chan.val 0x00B == 1) l.load
    (s.driveTime b period code.toNat e)
  ({ chan, code, field, cmp := e.cmpMode, edges := es.map (·.t)
     strobes := s.strobeTimes b period code.toNat field.toNat e, shift := s.shiftC chan.val }, es)

/-- Fields of a vector in the next cycle: what the groups' sets in force make of it. -/
def State.fieldsOf (s : State) (b : Burst) (img : Image) (tso : List (Grp × Nat)) (period v : Nat) :
    List (FieldAt × List PinEdge) :=
  match img.segOfVec v with
  | none => []
  | some (n, _) =>
    let fmt := img.segFmt n
    ((img.vecAt v).getD []).flatMap (fun x =>
      (recFields fmt x.1.val x.2.2).map (fun y =>
        s.fieldAt b period y.1.1 y.1.2 y.2
          (((s.setFor b tso x.1.val x.2.1.toNat).map (fun t => t.entryAt (y.1.1.val % 32))).getD TsEntry.none_)))

/-- First vector of the entry segment. -/
def Burst.firstVec (b : Burst) (img : Image) : Nat := img.vecBase b.entry

/-- Period of a position: of its vector, or for a hold position of the vector before it. -/
def State.posPeriod (s : State) (b : Burst) (img : Image) (v : Option Nat) : Nat :=
  s.vecPeriod b img b.tso (v.getD (b.lastEmit.getD (b.firstVec img)))

/-- Steps of the temperature correction of the burst's lanes that wait for a cycle start take effect (04 R138). -/
def State.tcApply (s : State) (b : Burst) : State :=
  (s.burstChans b).foldl (fun s c =>
    let l := s.laneAt (s.laneOf c)
    if l.tcPend then
      s.updLane (s.laneOf c) (fun l => { l with tc := stepTo l.tc l.tcTarget, tcPend := false })
    else s) s

/-- The next cycle repeats the last vector with its strobes masked; before every vector the pins keep their state
(02 R48, R59). -/
def State.repeatPins (s : State) (b : Burst) (img : Image) : State :=
  match b.lastEmit with
  | some v => (s.fieldsOf b img b.tso b.period v).foldl (fun s f => s.drivePin b.nextStart f.1.chan f.2) s
  | none => s

/-- Hold cycles, one by one. -/
def State.holdN (s : State) (img : Option Image) : Nat → Burst → State × Burst
  | 0, b => (s, b)
  | k + 1, b =>
    let s := s.tcApply b
    let s := match img with
      | some i => s.repeatPins b i
      | none => s
    s.holdN img k (s.holdTo b (b.cycle + 1))

/-- Hold cycles of the burst on runner `r` up to a cycle, then a change of the burst. A cycle whose edges lie in the
past before the next position, at most four periods after its start, leaves none in the queues. -/
def State.holdCycles (s : State) (r : Nat) (b : Burst) (next : Nat) (f : Burst → Burst) : State :=
  let b := s.holdTo b (next - 5)
  let x := s.holdN ((s.imgOf b).map (·.img)) (next - b.cycle) b
  x.1.putBurst r (f x.2)

end Sys2Proof.Machine
end

