-- ==== Sys2Proof/Machine/Measure.lean ====
section
/-!
DEFINITION. Measurement sets: arming, values, pairing, statistics, publication, raw values (07 R220–R233); injected
requests of the converters (08 R247). Stamps and values are in units of 2^-9 ns.
-/

namespace Sys2Proof.Machine

/-- Parameter of a measurement set. -/
def State.msPar (s : State) (m num : Nat) : Nat := s.parN 7 m num

/-- Whole part of the square root of a number below 2^192, the greatest bit first. -/
def isqrt (n : Nat) : Nat :=
  ((List.range 96).reverse).foldl (fun r i => if (r + 2 ^ i) ^ 2 ≤ n then r + 2 ^ i else r) 0

/-- a / b rounded to the nearest integer, ties away from zero. -/
def roundAway (a : Int) (b : Nat) : Int :=
  let q : Int := ((2 * a.natAbs + b) / (2 * max 1 b) : Nat)
  if a < 0 then -q else q

/-- MEAN of R229. -/
def meanOf (count : Nat) (sum : Int) : Int := if count = 0 then 0 else roundAway (128 * sum) count

/-- DEV of R229 before saturation: 128 × √(N Σx² − (Σx)²) / N, rounded. -/
def devOf (count : Nat) (sum : Int) (sumSq : Nat) : Nat :=
  if count = 0 then 0
  else
    let v := ((count * sumSq : Nat) : Int) - sum * sum
    (isqrt (65536 * v.toNat / (count * count)) + 1) / 2

/-- An empty block: statistics and open samples discarded (R223, R224). -/
def MsSt.newBlock (keepOpen : Bool) (m : MsSt) : MsSt :=
  { m with
    starts := if keepOpen then m.starts else [], stops := if keepOpen then m.stops else []
    e0 := if keepOpen then m.e0 else none, edges := if keepOpen then m.edges else 0
    gates := if keepOpen then m.gates else []
    count := 0, min := 0, max := 0, sum := 0, sumSq := 0, subLsb := false, overR := false, warm := false
    stale := false, missed := 0, ignored := 0, rawLost := 0 }

/-- Nanoseconds of a stamp. -/
def stampNs (t : Nat) : Nat := t / 512

/-- A stamp in units of 1/64 ps. -/
def stampPs (t : Nat) : Nat := t * 125

/-- A module time in ns in units of 1/64 ps. -/
def nsPs (t : Nat) : Nat := t * 64000

/-- Arm with a reference (R223). -/
def MsSt.arm (ref : Nat) (late : Bool) (m : MsSt) : MsSt :=
  { m.newBlock false with armed := true, published := false, ref, lateArm := late, lastVal := ref / 64000
                          afterMiss := false, upto := none }

/-- Site of a set. -/
def State.msSite (s : State) (m : Nat) : Option Nat :=
  let k := s.msPar m 0x001
  if k < 128 then some k else none

/-- Words 2–15 of a result (R230). -/
def MsSt.words (x : MsSt) (m mode : Nat) (part timeout endEarly : Bool) : List Nat :=
  let dev := devOf x.count x.sum x.sumSq.toNat
  let sat := decide (2 ^ 63 ≤ dev)
  let flags := m + mode * 2 ^ 8 + b2n part * 2 ^ 16 + b2n timeout * 2 ^ 17 + b2n x.subLsb * 2 ^ 18 +
    b2n x.overR * 2 ^ 19 + b2n x.warm * 2 ^ 20 + b2n endEarly * 2 ^ 21 + b2n x.lateArm * 2 ^ 22 +
    b2n sat * 2 ^ 23 + b2n x.stale * 2 ^ 24
  [flags, x.count % 2 ^ 32] ++ words64 (meanOf x.count x.sum) ++ words64 ((if sat then 2 ^ 63 - 1 else dev : Nat) : Int) ++
    words64 x.min ++ words64 x.max ++ [x.missed, x.ignored, (x.seq + 1) % 2 ^ 32, x.rawLost]

/-- Close the open raw record of a set (R233). -/
def State.closeRaw (s : State) (m : Nat) : State :=
  let x := s.msAt m
  if x.raw.isEmpty then s
  else
    let n := x.raw.length / 2
    let ref := x.ref
    let head := words64 ((ref / 64000 : Nat) : Int) ++
      [ref % 64000 * 2 ^ 16 / 64000 + m * 2 ^ 16 + n * 2 ^ 24 + s.msPar m 0x002 * 2 ^ 28, 0]
    let words := head ++ x.raw ++ List.replicate (26 - x.raw.length) 0
    let s := s.updMs m (fun x => { x with raw := [], rawAt := 0 })
    match s.msSite m with
    | some k => s.sitePush k (s.msPar m 0x00D)
        { type := tTMU, source := k, rflags := 0, time := x.rawAt, len := 4, words }
    | none => s

/-- Arm a set; a fenced set is not armed. The open raw record goes out under its own REF (R233). -/
def State.armSet (s : State) (m ref : Nat) (late : Bool) : State :=
  if (s.msAt m).fenced then s else (s.closeRaw m).updMs m (MsSt.arm ref late)

/-- Publish a result: the RES words, the stream record, the TMU token (R224, R230; 10 R280). -/
def State.publishSet (s : State) (m : Nat) (part timeout endEarly stays : Bool) : State :=
  let s := s.closeRaw m
  let x := s.msAt m
  let words := x.words m (s.msPar m 0x002) part timeout endEarly
  let s := s.updMs m (fun x =>
    { x.newBlock stays with
      result := words, pubAt := s.now, src := (s.msSite m).getD 0xFF, seq := x.seq + 1
      armed := stays, published := !stays })
  match s.msSite m with
  | some k =>
    let s := s.sitePush k (s.msPar m 0x00D)
      { type := tTMU, source := k, rflags := 1, time := s.now, len := 2, words }
    s.issueTok { scope := toFin 128 k (by decide), kind := 4, key := m, result := 0 }
  | none => s

/-- Group in whose island the values of a set are formed: that of its START channel (notes/assumptions/95.md, DESIGN
CHOICE). -/
def State.msIsland (s : State) (m : Nat) : Nat := bits (s.msPar m 0x003) 9 0 / 32

/-- Values that `n` turns per group take, given the fill of each group. -/
def turnsTake (fill : List Nat) (n : Nat) : Nat := (fill.map (min n)).sum

/-- Most full turns that a number of values allows. -/
def fullTurns (fill : List Nat) (n : Nat) : Nat :=
  ((List.range 18).reverse).foldl (fun l i => if turnsTake fill (l + 2 ^ i) ≤ n then l + 2 ^ i else l) 0

/-- Take values from the FIFOs of the sets of a group, in rising order. -/
def takeRaw (island : Nat → Nat) (g : Nat) : Nat → Tbl MsSt → Tbl MsSt
  | _, [] => []
  | n, (m, x) :: l =>
    let k := if island m = g then min n x.fifo else 0
    (m, { x with fifo := x.fifo - k }) :: takeRaw island g (n - k) l

/-- The exporter empties the FIFOs of raw values, 500 M values per second for the module, one value per group in turn
(R232). -/
def State.drainRaw (s : State) : State :=
  let n := (s.now - s.acq.expAt) / 2
  let fill := (List.range 16).map (fun g => ((s.acq.ms.filter (fun x => s.msIsland x.1 == g)).map (·.2.fifo)).sum)
  let full := fullTurns fill n
  let left := n - turnsTake fill full
  let more := (((List.range 16).map (fun i => (s.acq.expNext + i) % 16)).filter (fun g =>
    decide (full < fill[g]?.getD 0))).take left
  { s with
    acq.expAt := s.acq.expAt + 2 * n
    acq.expNext := ((more.getLast?).map (fun g => (g + 1) % 16)).getD s.acq.expNext
    acq.ms := (List.range 16).foldl (fun l g => takeRaw s.msIsland g (full + b2n (more.contains g)) l) s.acq.ms }

/-- The local stream of a set is bound to a host stream (R232). -/
def State.msBound (s : State) (m : Nat) : Bool :=
  (s.msSite m).any (fun k => (s.bound k (s.msPar m 0x00D)).isSome)

/-- Largest value, ±(2^47 − 1) (R228). -/
def valueMax : Int := 2 ^ 47 - 1

/-- A raw value goes to the stream of the set, or is lost (R232, R233). -/
def State.rawValue (s : State) (m : Nat) (x : Int) (sub sat : Bool) (later : Nat) : State :=
  if s.msPar m 0x00C = 1 ∧ s.msBound m then
    let s := s.drainRaw
    let y := s.msAt m
    if 512 ≤ y.fifo then
      let s := s.updMs m (fun y => { y with rawLost := satAdd y.rawLost 1 0xFFFFFFFF })
      let host := s.msPar m 0x00B = 1
      if !y.rawLossTold || (decide host && decide (y.rawToldAt + 1000000000 ≤ s.now)) then
        (s.updMs m (fun y => { y with rawLossTold := true, rawToldAt := s.now })).event 0x561
          [m, (s.msAt m).rawLost] [.set m]
      else s
    else
      let w := (x % 2 ^ 48).toNat + b2n sub * 2 ^ 48 + b2n y.afterMiss * 2 ^ 49 + b2n sat * 2 ^ 50
      let s := s.updMs m (fun y =>
        { y with fifo := y.fifo + 1, raw := y.raw ++ words64 (w : Nat), afterMiss := false
                 rawAt := if y.raw.isEmpty then stampNs later else y.rawAt })
      if (s.msAt m).raw.length = 26 then s.closeRaw m else s
  else s

/-- Groups of the channels of a set. -/
def State.msGroups (s : State) (m : Nat) : List Nat :=
  [s.msPar m 0x003, s.msPar m 0x004].filterMap (fun v => if bits v 9 0 < 512 then some (bits v 9 0 / 32) else none)

/-- One value of a set (R225, R228, R229). -/
def State.addValue (s : State) (m : Nat) (v : Int) (sub : Bool) (later : Nat) : State :=
  let x := if valueMax < v then valueMax else if v < -valueMax then -valueMax else v
  let sat := decide (x ≠ v)
  let stale := (s.msGroups m).any (fun g => (s.grpAt g).calStale)
  let s := s.updMs m (fun y =>
    { y with
      count := y.count + 1
      min := if y.count = 0 then x else if x < y.min then x else y.min
      max := if y.count = 0 then x else if y.max < x then x else y.max
      sum := y.sum + x, sumSq := y.sumSq + x.natAbs * x.natAbs
      subLsb := y.subLsb || sub, overR := y.overR || sat
      warm := y.warm || s.acq.osc.state == 0, stale := y.stale || stale
      lastVal := stampNs later })
  let s := s.rawValue m x sub sat later
  if s.msPar m 0x006 ≤ (s.msAt m).count then s.publishSet m false false false (s.msPar m 0x007 == 1) else s

/-! ## Gates (R226) -/

/-- The value of a gate in mHz (R226). -/
def gateValue (edges dt : Nat) : Nat := roundDiv (edges * 512 * 10 ^ 12) dt

/-- Form the value of the oldest closed gate of an armed set. -/
def State.closeGate (s : State) (m : Nat) : State :=
  match (s.msAt m).gates with
  | g :: r =>
    if (s.msAt m).armed then
      (s.updMs m (fun x => { x with gates := r })).addValue m (gateValue g.1 g.2.1 : Nat) false g.2.2
    else s
  | [] => s

/-- Form the values of all closed gates. -/
def State.closeGates (s : State) (m : Nat) : State := (s.msAt m).gates.foldl (fun s _ => s.closeGate m) s

/-- Publish what an armed set holds; PARTIAL when COUNT is below MS_N. -/
def State.disarmSet (s : State) (m : Nat) (partial_ endEarly : Bool) : State :=
  let s := s.closeGates m
  if (s.msAt m).armed then
    s.publishSet m (partial_ || decide ((s.msAt m).count < s.msPar m 0x006)) false endEarly false
  else s

/-- Length of a gate in units of 1/64 ps. -/
def State.gateLen (s : State) (m : Nat) : Nat := max 1 (nsPs (1000 * s.msPar m 0x009))

/-- Gate in which a stamp lies, counted from REF. -/
def State.gateOf (s : State) (m stamp : Nat) : Nat := (stampPs stamp - (s.msAt m).ref) / s.gateLen m

/-- A START edge of a FREQUENCY set, stamped or in dead time: it counts, and one that is stamped after the gate of E0
has closed is E1 and the E0 of the next gate. Whether an edge less than 200 ps after the one before counts is a free
value (R226; notes/assumptions/96.md). -/
def State.freqEdge (s : State) (m stamp : Nat) (stamped : Bool) : State :=
  let x := s.msAt m
  match x.e0 with
  | none => if stamped then s.updMs m (fun x => { x with e0 := some stamp, edges := 0, lastEdge := stamp }) else s
  | some t0 =>
    let near := decide (stamp < x.lastEdge + 103)
    let n := x.edges + (if near then s.freeVal % 2 else 1)
    let s := if near then s.drawFree else s
    s.updMs m (fun x =>
      if stamped && decide (s.gateOf m t0 < s.gateOf m stamp) then
        { x with e0 := some stamp, edges := 0, lastEdge := stamp, gates := x.gates ++ [(n, stamp - t0, stamp)] }
      else { x with edges := n, lastEdge := stamp })

/-! ## Edges -/

/-- An input selector takes an edge of a channel: comparator and slope (R221). -/
def selTakes (sel : Nat) (c : Nat) (vcl rising : Bool) : Bool :=
  let slope := bits sel 18 17
  bits sel 9 0 == c && bit sel 16 == b2n vcl && (slope == 3 || slope == (if rising then 1 else 2))

/-- The opposite slope of a WIDTH sample on the same comparator (R225). -/
def selClosesWidth (sel : Nat) (c : Nat) (vcl rising : Bool) : Bool :=
  bits sel 9 0 == c && bit sel 16 == b2n vcl && bits sel 18 17 == (if rising then 2 else 1)

/-- How an edge of a channel concerns a set: as START, as STOP. In WIDTH the opposite slope stops a sample. -/
def State.edgeRole (s : State) (m c : Nat) (vcl rising : Bool) : Bool × Bool :=
  let st := s.msPar m 0x003
  let mode := s.msPar m 0x002
  (selTakes st c vcl rising,
   if mode = 3 then selClosesWidth st c vcl rising
   else decide (mode = 1) && selTakes (s.msPar m 0x004) c vcl rising)

/-- Latest cycle start of a burst at or before a time in 0.25 ps: of a position, or of a hold cycle between positions,
which has the period of the position before it (R225; 02 R48). `past`: no cycle follows the last position. -/
def Burst.cycleStartAt (b : Burst) (past : Bool) (q : Nat) : Option Nat :=
  let ps := b.flight.map (fun x => (x.start, x.start + x.period)) ++ (b.lastAt.map (fun x => (x.start, x.next))).toList
  let last := b.lastAt.map (·.start)
  (((ps.filter (fun x => decide (x.1 ≤ q))).getLast?).map (fun x =>
    if q < x.2 ∨ (past = true ∧ some x.1 = last) then x.1
    else x.2 + (q - x.2) / max 1 (x.2 - x.1) * (x.2 - x.1)))

/-- The latest cycle start of the site of a set, of its running burst or of the one that has ended. -/
def State.siteCycle (s : State) (m q : Nat) : Option Nat :=
  match s.msSite m with
  | some k =>
    let mine (b : Burst) : Bool := b.sites.any (fun x => x.val == k)
    match (s.ve.bursts.filter (fun x => mine x.2)).findSome? (fun x => x.2.cycleStartAt (decide (x.2.phase = .draining) || (x.2.halted && x.2.runs.isEmpty && x.2.cols.isEmpty)) q) with
    | some c => some c
    | none => (s.ve.drain.reverse.filter (fun x => mine x.2)).findSome? (fun x => x.2.cycleStartAt true q)
  | none => none

/-- Value of a STAMP-mode edge: the stamp minus REF, or minus the latest cycle start of the site (R225). -/
def State.stampValue (s : State) (m stamp : Nat) : Int :=
  let from_ : Nat := if s.msPar m 0x008 = 1 then ((s.siteCycle m (stampPs stamp / 16)).map (· * 16)).getD (s.msAt m).ref
    else (s.msAt m).ref
  roundAway ((stampPs stamp : Nat) - (from_ : Nat) : Int) 125

/-- Interval as a value: 0 sets SUB_LSB (R228). -/
def State.addInterval (s : State) (m : Nat) (v : Int) (later : Nat) : State := s.addValue m v (v == 0) later

/-- A STOP stamp of an INTERVAL set (R227). -/
def State.stopEdge (s : State) (m stamp : Nat) : State :=
  let x := s.msAt m
  if s.msPar m 0x005 = 0 then
    match x.starts with
    | a :: _ =>
      if a ≤ stamp then (s.updMs m (fun x => { x with starts := [] })).addInterval m ((stamp : Int) - a) stamp
      else s.updMs m (fun x => { x with ignored := satAdd x.ignored 1 0xFFFFFFFF })
    | [] => s.updMs m (fun x => { x with ignored := satAdd x.ignored 1 0xFFFFFFFF })
  else match x.starts with
    | a :: r => (s.updMs m (fun x => { x with starts := r })).addInterval m ((stamp : Int) - a) (max a stamp)
    | [] =>
      if x.stops.length < 16 then s.updMs m (fun x => { x with stops := x.stops ++ [stamp] })
      else s.updMs m (fun x => { x with stops := x.stops.drop 1 ++ [stamp], ignored := satAdd x.ignored 1 0xFFFFFFFF })

/-- A START stamp of an INTERVAL set (R227). -/
def State.startEdge (s : State) (m stamp : Nat) : State :=
  let x := s.msAt m
  if s.msPar m 0x005 = 0 then
    s.updMs m (fun x => { x with starts := [stamp], ignored := satAdd x.ignored (if x.starts.isEmpty then 0 else 1) 0xFFFFFFFF })
  else match x.stops with
    | a :: r => (s.updMs m (fun x => { x with stops := r })).addInterval m ((a : Int) - stamp) (max a stamp)
    | [] =>
      if x.starts.length < 16 then s.updMs m (fun x => { x with starts := x.starts ++ [stamp] })
      else s.updMs m (fun x => { x with starts := x.starts.drop 1 ++ [stamp], ignored := satAdd x.ignored 1 0xFFFFFFFF })

/-- A stamped edge of an armed set, at or after REF (R223, R225). -/
def State.setEdge (s : State) (m stamp : Nat) (role : Bool × Bool) : State :=
  let x := s.msAt m
  match s.msPar m 0x002 with
  | 0 => if role.1 then s.addValue m (s.stampValue m stamp) false stamp else s
  | 1 =>
    let s := if role.2 then s.stopEdge m stamp else s
    if role.1 ∧ (s.msAt m).armed then s.startEdge m stamp else s
  | 2 =>
    if role.1 then
      match x.starts with
      | a :: _ => (s.updMs m (fun x => { x with starts := [stamp] })).addInterval m ((stamp : Int) - a) stamp
      | [] => s.updMs m (fun x => { x with starts := [stamp] })
    else s
  | 3 =>
    if role.1 then s.updMs m (fun x => { x with starts := [stamp] })
    else if role.2 then
      match x.starts with
      | a :: _ => (s.updMs m (fun x => { x with starts := [] })).addInterval m ((stamp : Int) - a) stamp
      | [] => s
    else s
  | _ => if role.1 then s.freqEdge m stamp true else s

/-- A MISSED edge of a set (R220); the counter of FREQUENCY counts it (R226). -/
def State.missedEdge (s : State) (m stamp : Nat) : State :=
  let s := s.updMs m (fun x =>
    { x with missed := satAdd x.missed 1 0xFFFFFFFF, afterMiss := true
             starts := if s.msPar m 0x002 = 2 ∨ s.msPar m 0x002 = 3 then [] else x.starts })
  if s.msPar m 0x002 = 4 then s.freqEdge m stamp false else s

/-- A stamper that a set depends on is fenced (R239). -/
def State.msDead (s : State) (m : Nat) : Bool :=
  [s.msPar m 0x003, s.msPar m 0x004].any (fun v =>
    decide (bits v 9 0 < 512) && (s.laneAt (s.laneOf (bits v 9 0))).tmuFenced)

/-- A host-armed set that is fenced, or whose stamper is, publishes with PARTIAL (R239). -/
def State.publishFenced (s : State) : State :=
  (s.acq.ms.map (·.1)).foldl (fun s m =>
    let x := s.msAt m
    if x.armed && s.msPar m 0x00B == 1 && (x.fenced || s.msDead m) then s.publishSet m true false false false else s) s

/-- A converter that fails gives up its calibration and what waits for it; the readings of PADC16 stay stale
(08 R252, R254, R255). -/
def State.convDrop (s : State) (c : Nat) : State :=
  let s := match (s.padcAt c).calCmd with
    | some (p, tag) => s.complete p.val tag 0x0802 .fenced []
    | none => s
  let s := s.updPadc c (fun x => { x with calCmd := none, calRun := false, calWait := false, singles := 0 })
  if c = 16 then { s with acq.hkStale := true } else s

/-- A forced occurrence: the hardware effects of its source too (16 R435; 07 R239, 08 R255). -/
def State.force (s : State) (src : Nat) (payload : List Nat) : State :=
  let s := if src = 0x573 ∧ payload.headD 0 < 17 then s.convDrop (payload.headD 0) else s
  let s := s.raise { src, payload, forced := true }
  if src = 0x562 then s.publishFenced else s

/-- The set takes the edge: armed, at or after REF, before the end of its burst. -/
def MsSt.takes (x : MsSt) (stamp : Nat) : Bool :=
  x.armed && !x.fenced && decide (x.ref ≤ stampPs stamp) &&
    (match x.upto with
     | some u => decide (stampPs stamp < u)
     | none => true)

/-! ## Injected requests (08 R247, R252) -/

/-- What becomes of an injected request: reason of a drop, 0 when accepted. -/
def PadcSt.injReason (c : PadcSt) : Nat :=
  if !c.warmed || c.calRun || c.calWait then 3
  else if c.running.isSome then 1
  else if c.pending.isSome then 2
  else 0

/-- Count a drop. -/
def PadcSt.drop (reason : Nat) (c : PadcSt) : PadcSt :=
  match reason with
  | 1 => { c with dropBusy := satAdd c.dropBusy 1 0xFFFFFFFF }
  | 2 => { c with dropPend := satAdd c.dropPend 1 0xFFFFFFFF }
  | _ => { c with dropCal := satAdd c.dropCal 1 0xFFFFFFFF }

/-- Next edge of the 100 ns grid (08 R242). -/
def gridUp (t : Nat) : Nat := roundUp t 100

/-- The first drop of a burst raises INJ_DROP. -/
def State.injDropEvent (s : State) (r g reason : Nat) : State :=
  match s.burstAt r with
  | some b =>
    if b.injDropped then s
    else
      let s := (s.putBurst r { b with injDropped := true }).event 0x570 [g, reason] [.conv g, .site b.home.val]
      (List.range 16).foldl (fun s c =>
        if (s.padcAt c).pending.isSome && (s.padcAt c).pendBy == (b.part, b.tag)
        then s.updPadc c (fun x => { x with pendTold := true }) else s) s
  | none => s

/-- The pending request of a converter is dropped; its burst may have ended (08 R247, R252). -/
def State.dropPending (s : State) (c reason : Nat) : State :=
  let x := s.padcAt c
  if x.pending.isNone then s
  else
    let s := s.updPadc c (fun x => PadcSt.drop reason { x with pending := none })
    match s.ve.bursts.find? (fun b => (b.2.part, b.2.tag) == x.pendBy) with
    | some b => s.injDropEvent b.1 c reason
    | none => if x.pendTold then s else s.event 0x570 [c, reason] [.conv c]

/-- A request of the burst on runner `r` for converter `g`, arriving at module time `t`. -/
def State.injRequest (s : State) (r g setting pos t : Nat) : State :=
  let c := s.padcAt g
  if c.fenced then s
  else match c.injReason with
    | 0 => s.updPadc g (fun c => { c with
        acceptedInj := satAdd c.acceptedInj 1 0xFFFFFFFF
        pending := some (setting, pos, gridUp (t + 100 * s.parN 8 (16 * g + setting) 0x024))
        pendBy := ((s.burstAt r).map (fun b => (b.part, b.tag))).getD (0, 0)
        pendTold := (s.burstAt r).any (·.injDropped) })
    | n => (s.updPadc g (PadcSt.drop n)).injDropEvent r g n

end Sys2Proof.Machine
end

