-- ==== Sys2Proof/Machine/CalOps.lean ====
section
/-!
DEFINITION. Statistical calibration: the sums of a burst, the running sums, the targets (17 R459–R463; 04 R140).
Phases and sums are in units of 1/64 ps, deskew values in units of 0.25 ps.
-/

namespace Sys2Proof.Machine

/-- A unit is queued for calibration or running. -/
def State.inCal (s : State) (u : CalUnit) : Bool :=
  s.cal.run.queue.any (fun x => x.1 == u) || (s.cal.run.running.map (·.1)) == some u

/-- A lane that carries channel `c` takes part (R459). -/
def State.statLane (s : State) (c : Nat) : Bool :=
  let g := c / 32
  s.parN 2 c 0x010 != 0 && s.parN 14 c 0x030 == 1 && (s.grpAt g).refState == 1 &&
    !s.inCal (.group (toFin 16 g (by decide))) && !(s.grpAt g).calStale

/-- Factor of a data-multiplex field: its compare and drive forms (03 R86). -/
def FieldAt.isCmpMux (f : FieldAt) : Bool := f.code == 3 || f.code == 5
def FieldAt.isDrvMux (f : FieldAt) : Bool := f.code == 2 || f.code == 4

/-- A unit of 0.25 ps in units of 1/64 ps. -/
def q64 : Nat := 16

/-- Phase of a stamp against the bits of a compare position: the first bit whose window holds it (R460). -/
def Flight.phase (x : Flight) (f : FieldAt) (stamp : Nat) : Option Int :=
  let m := codeFactor f.code.toNat
  let half : Int := (x.period * 8 / m : Nat)
  if !f.isCmpMux || bit f.field.toNat m == 1 || x.hold || x.masked.any (fun g => g.val == f.chan.val / 32) then none
  else (f.strobes.map (fun q => ((stamp * 125 : Nat) : Int) - ((q * q64 : Nat) : Int) + half)).find?
      (fun p => decide (-half < p) && decide (p < half))

/-- Offset of a stamp against a driven transition of a position: the bit before it differs (R460). -/
def Flight.driveOfs (x : Flight) (before : Option Flight) (f : FieldAt) (rising : Bool) (stamp : Nat) : Option Int :=
  let m := codeFactor f.code.toNat
  let half : Int := (x.period * 8 / m : Nat)
  let last : Option Nat := before.bind (fun y => (y.fields.find? (fun e => decide (e.chan = f.chan))).bind (fun e =>
    if e.isDrvMux && bit e.field.toNat m == 0 then some (bit e.field.toNat (m - 1)) else none))
  if !f.isDrvMux || bit f.field.toNat m == 1 || x.hold then none
  else ((f.edges.zipIdx).filterMap (fun e =>
    let v := bit f.field.toNat e.2
    let prev := if e.2 = 0 then last else some (bit f.field.toNat (e.2 - 1))
    if v = b2n rising ∧ prev = some (1 - v) then some (((stamp * 125 : Nat) : Int) - ((e.1 * q64 : Nat) : Int))
    else none)).find? (fun p => decide (-half < p) && decide (p < half))

/-- One more transition. -/
def Sums.add (p : Int) (s : Sums) : Sums := { count := s.count + 1, sum := s.sum + p }

/-- Positions of a burst with the position before each. -/
def withBefore : List Flight → Option Flight → List (Option Flight × Flight)
  | [], _ => []
  | x :: r, y => (y, x) :: withBefore r (some x)

/-- A stamp of a lane enters the sums of its site's burst (R460). -/
def State.statStamp (s : State) (l c : Nat) (rising : Bool) (stamp : Nat) : State :=
  match (s.chanSite c).bind (fun k => (s.siteRunner k).bind s.burstAt) with
  | some b =>
    if !s.statLane c then s
    else
      let fields (x : Flight) : List FieldAt := x.fields.filter (fun f => f.chan.val == c)
      let ph := b.flight.findSome? (fun x => (fields x).findSome? (fun f => x.phase f stamp))
      let dr := (withBefore b.flight none).findSome? (fun y => (fields y.2).findSome? (fun f =>
        y.2.driveOfs y.1 f rising stamp))
      let s := match ph with
        | some p => s.updLane l (fun x => { x with burstC := x.burstC.add p })
        | none => s
      match dr with
      | some p => s.updLane l (fun x => { x with burstD := x.burstD.add p })
      | none => s
  | none => s

/-- The sums of a burst join the running sums of its lanes, or are discarded (R460). -/
def State.statMerge (s : State) (k : Nat) (discard : Bool) : State :=
  (s.siteChans k).foldl (fun s c =>
    let stale := (s.grpAt (c / 32)).calStale
    s.updLane (s.laneOf c) (fun x =>
      let drop := discard || x.burstDrop || stale
      { x with
        burstC := {}, burstD := {}, burstDrop := stale
        runC := if drop then x.runC else { count := x.runC.count + x.burstC.count, sum := x.runC.sum + x.burstC.sum }
        runD := if drop then x.runD else { count := x.runD.count + x.burstD.count, sum := x.runD.sum + x.burstD.sum } })) s

/-- Lanes of a group that have reached STAT_MIN_TRANS on a path, with their sums (R461). -/
def State.statReady (s : State) (g : Nat) (drive : Bool) : List (Nat × Sums) :=
  ((List.range 33).map (fun i => 33 * g + i)).filterMap (fun l =>
    let x := s.laneAt l
    let r := if drive then x.runD else x.runC
    if decide (0 < r.count) && decide (s.parN 14 0 0x007 ≤ r.count) then some (l, r) else none)

/-- Deviation of a lane's mean from the mean of the lanes, rounded to 0.25 ps: all over a common denominator. -/
def statDev (all : List (Nat × Sums)) (r : Sums) : Int :=
  let den := (all.map (fun x => x.2.count)).foldl (· * ·) 1
  let n := all.length
  let num : Int := (n : Int) * r.sum * ((den / max 1 r.count : Nat) : Int) -
    (all.map (fun x => x.2.sum * ((den / max 1 x.2.count : Nat) : Int))).sum
  roundAway num (q64 * n * den)

/-- Limit of a statistical target, 16 ps (04 R137). -/
def statLimit : Int := 64

/-- A new target of a lane: clamped at the limit, with event STAT_LIMIT; a clamped target stays until a reference
calibration is accepted (R461, R462). -/
def State.statTarget (s : State) (l : Nat) (drive : Bool) (dev : Int) : State :=
  let x := s.laneAt l
  let t := if drive then x.statD - dev else x.statC + dev
  let clamped := decide (statLimit < t.natAbs)
  let new := if statLimit < t then statLimit else if t < -statLimit then -statLimit else t
  if (if drive then x.clampD else x.clampC) then s
  else
    let s := s.updLane l (fun x =>
      if drive then { x with targetD := new, clampD := clamped } else { x with targetC := new, clampC := clamped })
    if clamped then s.event 0x5E2 [l, b2n drive] [.lane l] else s

/-- The lanes of a group that have reached the count get new targets, and their sums restart. -/
def State.statEval (s : State) (g : Nat) (drive : Bool) : State :=
  let all := s.statReady g drive
  let s := all.foldl (fun s x => s.statTarget x.1 drive (statDev all x.2)) s
  all.foldl (fun s x => s.updLane x.1 (fun y => if drive then { y with runD := {} } else { y with runC := {} })) s

/-- A burst's result is final at a site: its transitions count (R460, R461). -/
def State.statEnd (s : State) (k : Nat) (discard : Bool) : State :=
  (groupsOf (s.siteChans k)).foldl (fun s g => (s.statEval g false).statEval g true) (s.statMerge k discard)

/-- The statistical deskew of a group's lanes becomes 0, its running sums are discarded (R463). -/
def State.statZero (s : State) (g : Nat) : State :=
  ((List.range 33).map (fun i => 33 * g + i)).foldl (fun s l => s.updLane l (fun x =>
    { x with statD := 0, statC := 0, targetD := 0, targetC := 0, runD := {}, runC := {}, clampD := false, clampC := false }))
    (s.updGrp g (fun x => { x with statClear := false }))

/-- A burst uses the group. -/
def State.grpBusy (s : State) (g : Nat) : Bool := s.ve.bursts.any (fun x => x.2.usesGroup g)

/-- Groups whose `cal.stat_clear` waited for their bursts to end. -/
def State.statClears (s : State) : State :=
  (List.range 16).foldl (fun s g => if (s.grpAt g).statClear && !s.grpBusy g then s.statZero g else s) s

end Sys2Proof.Machine
end

