-- ==== Sys2Proof/Machine/Acquire.lean ====
section
/-!
DEFINITION. The fail log in HBM (06 R189–R193), CAP triggers and what a fire does (06 R201–R204, R213), raw capture
(06 R195–R198) and trigger waits of the sequencer (02 R59–R61).
-/

namespace Sys2Proof.Machine

/-! ## Fail log -/

/-- Bytes of 32-bit words in the order of 00 R4. -/
def wordBytes (ws : List Nat) : List (BitVec 8) :=
  ws.flatMap (fun w => (List.range 4).map (fun i => BitVec.ofNat 8 (w / 256 ^ i)))

/-- Words of a FAIL, MATCH_TO or WTRG_TO record (R191). -/
def FailRec.words (site : Nat) (r : FailRec) : List Nat :=
  [r.kind + site * 2 ^ 4 + r.group * 2 ^ 11 + r.strobes * 2 ^ 16, r.mask, r.pos % 2 ^ 32, r.pos / 2 ^ 32 % 2 ^ 16,
   r.cycle % 2 ^ 32, r.cycle / 2 ^ 32 % 2 ^ 16, r.seg, r.vec]

/-- Write one 32-byte slot of a site's log region. -/
def State.writeSlot (s : State) (p k slot : Nat) (ws : List Nat) : State :=
  s.writeHbm p (s.parN 5 k 0x011 * 4096 + 32 * slot) (wordBytes ws)

/-- Slots for fail records. -/
def State.logCap (s : State) (k : Nat) : Nat := s.parN 5 k 0x012 * 128 - 2

/-- Header in slot 0, slot 1 cleared: a new log at the start tick (R189, R192). -/
def State.logStart (s : State) (p k engine handle entry start : Nat) : State :=
  let s := s.updSite k (fun t => { t with log := {} })
  if s.parN 5 k 0x010 = 0 then s
  else
    (s.writeSlot p k 0 [8 + k * 2 ^ 4, engine + handle * 2 ^ 5, start % 2 ^ 32, start / 2 ^ 32 % 2 ^ 32, entry, 0, 0, 0]).writeSlot
      p k 1 (List.replicate 8 0)

/-- Records kept, and the slot of the oldest (R192, R193). -/
def State.logged (s : State) (k : Nat) : Nat := min (s.siteAt k).log.total (s.logCap k)
def State.firstSlot (s : State) (k : Nat) : Nat :=
  let t := (s.siteAt k).log.total
  if s.parN 5 k 0x010 = 2 ∧ s.logCap k < t then 2 + t % s.logCap k else 2

/-- Summary in slot 1 (R192). -/
def State.logSummary (s : State) (p k : Nat) (r : SiteResult) : State :=
  if s.parN 5 k 0x010 = 0 then s
  else
    let l := (s.siteAt k).log
    let f := (s.siteAt k).failCount
    s.writeSlot p k 1 [9 + k * 2 ^ 4, s.logged k, l.lostFull, l.lostRate, s.firstSlot k, r.code, f % 2 ^ 32,
      f / 2 ^ 32 % 2 ^ 16]

/-- The log writer empties the FIFOs, one record in 5 ns, groups in rising order (R193; notes/assumptions/31.md). -/
def State.drainFifos (s : State) : State :=
  let n := (s.now - s.acq.fifoAt) / 5
  let r := (List.range 16).foldl (fun (acc : State × Nat) g =>
    let k := min acc.2 (s.grpAt g).fifo
    if k = 0 then acc else (acc.1.updGrp g (fun x => { x with fifo := x.fifo - k }), acc.2 - k)) (s, n)
  { r.1 with acq.fifoAt := s.acq.fifoAt + 5 * n }

/-- A record reaches the log writer: written, overwriting, or lost to the size of the region or to a POISONED page
(R193, 11 R317). -/
def State.storeRec (s : State) (p k : Nat) (r : FailRec) : State :=
  let mode := s.parN 5 k 0x010
  if mode = 0 then s
  else
    let cap := s.logCap k
    let n := (s.siteAt k).log.total
    let slot := if n < cap then 2 + n else 2 + n % cap
    let kept := decide (n < cap) || mode == 2
    let bad := kept && s.poisoned p ((s.parN 5 k 0x011 * 4096 + 32 * slot) / 4096)
    let s := if kept then s.writeSlot p k slot (r.words k) else s
    s.updSite k (fun t => { t with log := { t.log with
      total := n + 1, lostFull := if n < cap then t.log.lostFull else satAdd t.log.lostFull 1 0xFFFFFFFF
      lostRate := if bad then satAdd t.log.lostRate 1 0xFFFFFFFF else t.log.lostRate } })

/-- A fail-log record of a site's position whose cycle starts at `time` ns: through the FIFO of its group into the
log, and to the stream of LOG_STREAM (R190, R193, R208). -/
def State.logRec (s : State) (p k : Nat) (r : FailRec) (time : Nat) : State :=
  let stream := s.parN 5 k 0x014
  if s.parN 5 k 0x010 = 0 ∧ 8 ≤ stream then s
  else
    let s := s.drainFifos
    if 1024 ≤ (s.grpAt r.group).fifo then
      s.updSite k (fun t => { t with log := { t.log with lostRate := satAdd t.log.lostRate 1 0xFFFFFFFF } })
    else
      let s := (s.updGrp r.group (fun x => { x with fifo := x.fifo + 1 })).storeRec p k r
      if stream < 8 then
        s.sitePush k stream { type := tFAIL, source := k, rflags := 0, time, len := 2
                              words := List.replicate 6 0 ++ r.words k }
      else s

/-! ## Trigger waits -/

/-- First cycle at which an early end stops the pins, if one is pending. -/
def Burst.pendingAct (b : Burst) : Option Nat :=
  (b.terms.filter (fun t => t.way != .atEnd)).foldl (fun acc t =>
    match acc with
    | none => some t.act
    | some a => some (min a t.act)) none

/-- The cycle does not lie in the stop state of a pending early end. -/
def Burst.before (b : Burst) (cycle : Nat) : Bool :=
  match b.pendingAct with
  | some a => decide (cycle < a)
  | none => true

/-- Cycle w of a wait: that of the last position before it (R59). -/
def Burst.waitFrom (b : Burst) : Nat := (b.lastAt.map (·.cycle)).getD 0

/-- Cycle at which the wait counts a trigger as sampled; none when it does not see it (R59). -/
def WtrgSt.sees (w : WtrgSt) (wc : Nat) (x : Nat × Nat) : Option Nat :=
  if x.1 ≠ w.selector then none
  else if 0 < w.timeout ∧ wc + w.timeout < x.2 then none
  else if wc ≤ x.2 + 47 then some x.2
  else if w.latch then some (wc - 47)
  else none

/-- The trigger that releases a wait: the first sampled; its index and its cycle. -/
def WtrgSt.pick (w : WtrgSt) (wc : Nat) (l : List (Nat × Nat)) : Option (Nat × Nat) :=
  ((l.zipIdx).filterMap (fun x => (w.sees wc x.1).map (fun k => (x.2, k)))).foldl (fun acc x =>
    match acc with
    | none => some x
    | some y => if x.2 < y.2 then some x else some y) none

/-- Release the wait of a burst when a trigger does: the next position follows in cycle max(w + 1, k + 48). -/
def State.tryRelease (s : State) (r : Nat) : State :=
  match s.burstAt r with
  | some b =>
    match b.waits with
    | w :: rest =>
      if b.waiting then
        match w.pick b.waitFrom b.latched with
        | some x =>
          let next := max b.cycle (x.2 + 48)
          if b.before next then
            s.holdCycles r { b with latched := b.latched.eraseIdx x.1 } next (fun b => ({ b with waits := rest } : Burst).pump)
          else s
        | none => s
      else s
    | [] => s
  | none => s

/-- A trigger of a selector is sampled in cycle `k` of a burst. -/
def State.sample (s : State) (r selector k : Nat) : State :=
  (s.updBurst r (fun b => { b with latched := b.latched ++ [(selector, k)] })).tryRelease r

/-! ## Raw capture -/

/-- A position that a unit records is not final yet. -/
def State.inFlight (s : State) (u : Nat) : Bool :=
  (s.ve.bursts ++ s.ve.drain).any (fun x => x.2.flight.any (fun f => f.caps.contains u))

/-- Samples that the buffer of a RING unit holds (R197). -/
def State.cuSize (s : State) (u : Nat) : Nat :=
  s.parN 5 u 0x048 * (if s.parN 5 u 0x046 = 0 then 1024 else 512)

def State.cuChans (s : State) (u : Nat) : List Nat := (List.range 4).map (fun j => s.parN 5 u (0x041 + j))

/-- Close the open DATA record of a STREAM unit (R208). -/
def State.closeData (s : State) (p u : Nat) : State :=
  let c := s.cuAt u
  match c.samples with
  | [] => s
  | x :: _ =>
    let sel := s.parN 5 u 0x046
    let body := c.samples.flatMap (fun y => if sel = 0 then [y.2] else [y.2, y.1 % 2 ^ 32])
    let words := [x.1 % 2 ^ 32, x.1 / 2 ^ 32 % 2 ^ 16 + u * 2 ^ 16 + c.samples.length * 2 ^ 20, 0, 0, 0, 0] ++ body ++
      List.replicate (56 - body.length) 0
    let s := s.updCu u (fun c => { c with samples := [] })
    s.sitePush p (s.parN 5 u 0x04C)
      { type := tDATA, source := p, rflags := 0, time := c.startTime, len := 8, words }

/-- CAPON acts at a position whose cycle starts at `time` ns (R197). -/
def State.capOn (s : State) (k u pos time : Nat) : State :=
  if 16 ≤ u ∨ s.parN 5 u 0x040 ≠ k then s
  else match s.parN 5 u 0x045 with
    | 1 => s.updCu u (fun c =>
        if c.mode ≠ 0 then { c with ignored := satAdd c.ignored 1 0xFFFFFFFF }
        else { mode := 1, first := pos, startTime := time, site := k, ignored := c.ignored
               base := 4096 * s.parN 5 u 0x047, size := s.cuSize u })
    | 2 => s.updCu u (fun c => { c with
        mode := 1, site := k, upto := none
        samples := if c.mode = 1 ∨ c.cuts ≠ [] then c.samples else [] })
    | _ => s

/-- CAPOFF acts at a position: a RING capture ends before it; a STREAM unit pauses, and its DATA record is closed with
the last position before it (R197). -/
def State.capOff (s : State) (k u pos : Nat) : State :=
  if 16 ≤ u ∨ s.parN 5 u 0x040 ≠ k then s
  else match s.parN 5 u 0x045 with
    | 1 => s.updCu u (fun c => if c.mode = 1 ∧ c.upto.isNone then { c with upto := some pos } else c)
    | 2 =>
      if (s.cuAt u).mode ≠ 1 then s
      else if s.inFlight u then s.updCu u (fun c => { c with mode := 0, cuts := c.cuts ++ [pos] })
      else (s.closeData k u).updCu u (fun c => { c with mode := 0 })
    | _ => s

/-- Units of the burst's sites that record a position emitted now. -/
def State.recording (s : State) (b : Burst) : List Nat :=
  (List.range 16).filter (fun u => (s.cuAt u).mode == 1 && (s.cuAt u).upto.isNone &&
    b.sites.any (fun k => k.val == s.parN 5 u 0x040))

/-- The word of a sample (R195). -/
def State.sampleWord (s : State) (u : Nat) (x : Flight) (seen : List (Chan × List Cmp)) : Nat :=
  ((s.cuChans u).zipIdx).foldl (fun a y =>
    a + (if y.1 < 512 then slotBits x seen y.1 else 0xFF) * 256 ^ y.2) 0

/-- The position has code C on a channel of the unit (R196). -/
def State.hasC (s : State) (u : Nat) (x : Flight) : Bool :=
  x.fields.any (fun f => f.code == 1 && f.field == 0xA && (s.cuChans u).contains f.chan.val)

/-- Recording has reached t + CU_POST (R198). -/
def State.cuFull (s : State) (u : Nat) (c : CuSt) (pos : Nat) : Bool :=
  match c.trig with
  | some t =>
    if s.parN 5 u 0x046 = 0 then decide (t + s.parN 5 u 0x04A < pos)
    else decide (t ≤ pos) && decide (s.parN 5 u 0x04A < c.post)
  | none => false

/-- One unit takes the sample of a final position. -/
def State.takeSample (s : State) (p : Nat) (x : Flight) (seen : List (Chan × List Cmp)) (u : Nat) : State :=
  let c := s.cuAt u
  let sel := s.parN 5 u 0x046
  let yields := sel == 0 || s.hasC u x
  let word := s.sampleWord u x seen
  if s.parN 5 u 0x045 = 1 then
    if !yields || s.cuFull u c x.pos || c.mode ≠ 1 then s
    else
      let b := c.size
      let bytes := wordBytes (if sel = 0 then [word] else [word, x.pos % 2 ^ 32])
      let at_ := c.base + c.taken % max 1 b * bytes.length
      let more := if s.poisoned p (at_ / 4096) then [] else [(x.pos, c.taken)]
      let s := s.writeHbm p at_ bytes
      s.updCu u (fun c => { c with
        samples := (c.samples ++ more).drop (c.samples.length + 1 - b)
        first := if c.taken = 0 then x.pos else c.first
        startTime := if c.taken = 0 then nsOf x.start else c.startTime
        taken := c.taken + 1
        post := match c.trig with
          | some t => if t ≤ x.pos then c.post + 1 else c.post
          | none => c.post })
  else
    let k := s.parN 5 u 0x040
    let s := if x.hold then s.closeData k u else s
    if !yields then s
    else
      let c := s.cuAt u
      let s := s.updCu u (fun c => { c with
        samples := c.samples ++ [(x.pos, word)]
        startTime := if c.samples.isEmpty then nsOf x.start else c.startTime })
      if c.samples.length + 1 = (if sel = 0 then 56 else 28) then s.closeData k u else s

/-- Capture of a final position: units that record it, and STREAM units whose record it closes. -/
def State.capture (s : State) (b : Burst) (x : Flight) (seen : List (Chan × List Cmp)) : State :=
  let s := x.caps.foldl (fun s u =>
    let s := s.takeSample b.part.val x seen u
    if (s.cuAt u).cuts.any (fun c => decide (c ≤ x.pos + 1)) then
      (s.closeData (s.parN 5 u 0x040) u).updCu u (fun c => { c with cuts := c.cuts.filter (fun n => decide (x.pos + 1 < n)) })
    else s) s
  (List.range 16).foldl (fun s u =>
    if s.parN 5 u 0x045 = 2 && !x.caps.contains u && !(s.cuAt u).samples.isEmpty &&
        b.sites.any (fun k => k.val == s.parN 5 u 0x040) then
      s.closeData (s.parN 5 u 0x040) u
    else s) s

/-- Kept samples and FLAGS of a RING capture (R198, R199), all counted as sample numbers from a. -/
def cuResult (sel pre post size : Nat) (early : Bool) (c : CuSt) : List (Nat × Nat) × Nat :=
  let n := c.taken
  match c.trig with
  | none =>
    let kept := min size n
    (c.samples.drop (c.samples.length - kept),
     b2n (decide (kept < n)) * 2 ^ 5 + sel * 2 ^ 6 + b2n early * 2 ^ 7)
  | some t =>
    let ti : Int := if sel = 0 then (t : Int) - c.first else (n : Int) - c.post
    let e : Int := (n : Int) - 1
    let lo : Int := max 0 (ti - pre)
    let f : Int := max lo (e - size + 1)
    let kept := (e - f + 1).toNat
    (c.samples.drop (c.samples.length - kept),
     1 + b2n (decide (f ≤ ti)) * 2 + b2n (decide (lo < e - size + 1)) * 2 ^ 2 + b2n (decide (ti < pre)) * 2 ^ 3 +
       b2n (decide (e < ti + post)) * 2 ^ 4 + b2n (decide (kept < n)) * 2 ^ 5 + sel * 2 ^ 6 + b2n early * 2 ^ 7)

/-- A RING capture ends: DONE, with event CAP_DONE (R197, R198). -/
def State.endCapture (s : State) (u : Nat) (early : Bool) : State :=
  let x := cuResult (s.parN 5 u 0x046) (s.parN 5 u 0x049) (s.parN 5 u 0x04A) (s.cuAt u).size early (s.cuAt u)
  (s.updCu u (fun c => { c with mode := 2, samples := x.1, flags := BitVec.ofNat 8 x.2 })).event 0x541 [u, x.2]
    [.unit u]

/-! ## CAP triggers -/

/-- TRIGGER record (R208). -/
def trigRec (t src pos posNs actT refused : Nat) (late exported : Bool) (site : Nat) : StrmRec :=
  { type := tTRIGGER, source := site, rflags := b2n late + 2 * b2n exported, time := posNs, len := 1
    words := [pos % 2 ^ 32, pos / 2 ^ 32 % 2 ^ 16 + t * 2 ^ 16 + src * 2 ^ 24, actT % 2 ^ 32, actT / 2 ^ 32 % 2 ^ 32,
      refused, 0] }

/-- An occurrence of a trigger: its position, the cycle start of that position (0.25 ps), the fire cycle, and for an
NGULOS source the act time and LATE. -/
structure TrigOcc where
  pos   : Nat
  start : Nat
  k     : Nat
  actT  : Option Nat := none
  late  : Bool := false
  deriving DecidableEq, Repr

/-- RING units with CU_TRIG naming the trigger, while they record (R198). -/
def State.trigUnits (s : State) (t pos time : Nat) : State :=
  (List.range 16).foldl (fun s u =>
    if s.parN 5 u 0x04B = t ∧ s.parN 5 u 0x045 = 1 ∧ (s.cuAt u).mode = 1 ∧ (s.cuAt u).upto.isNone then
      s.updCu u (fun c =>
        if c.trig.isSome then { c with extra := satAdd c.extra 1 0xFFFFFFFF }
        else { c with trig := some pos, trigTime := time
                      post := (c.samples.filter (fun x => decide (pos ≤ x.1))).length })
    else s) s

/-- A fire acts on every user of the trigger (R204, R213). -/
def State.fire (s : State) (r k t : Nat) (o : TrigOcc) : State :=
  let refused := (s.trgAt t).refused
  let ns := nsOf o.start
  let exp := s.parN 5 t 0x067
  let exported := bit exp 8 == 1
  let src := s.parN 5 t 0x061
  let rc := trigRec t src o.pos ns (o.actT.getD ns) refused o.late exported k
  let s := s.updTrg t (fun x => { x with
    fires := satAdd x.fires 1 0xFFFFFFFF, lastFire := some o.start, refused := 0
    holdLeft := if s.parN 5 t 0x063 = 2 then s.parN 5 t 0x064 else 0 })
  let s := s.trigUnits t o.pos ns
  let s := (List.range 16).foldl (fun s u =>
    if s.parN 5 u 0x04B = t ∧ s.parN 5 u 0x045 = 2 then s.sitePush k (s.parN 5 u 0x04C) rc else s) s
  let s := s.sitePush k (s.parN 5 t 0x069) rc
  let s := if exported then s.sendTrig (toFin 256 exp (by decide)) (s.now + 10 * s.parN 5 t 0x068) else s
  let s := if o.late then s.event 0x544 [t] [.trg t] else s
  s.sample r (0x300 + t) o.k

/-- The window holds the position (R202). -/
def State.inWindow (s : State) (t pos : Nat) : Bool :=
  decide (s.parN 5 t 0x065 ≤ pos) && (decide (pos ≤ s.parN 5 t 0x066) || s.parN 5 t 0x066 == 0xFFFFFFFF)

/-- Hold-off refuses the occurrence (R203). -/
def State.heldOff (s : State) (t start : Nat) : Bool :=
  let x := s.trgAt t
  match s.parN 5 t 0x063 with
  | 1 => (match x.lastFire with
    | some f => decide (start < f + 4000 * s.parN 5 t 0x064)
    | none => false)
  | 2 => decide (0 < x.holdLeft)
  | _ => false

/-- An occurrence of a trigger of site `k`, whose burst runs on `r` (R202). -/
def State.occur (s : State) (r k t : Nat) (o : TrigOcc) : State :=
  if (s.trgAt t).lastPos = some o.pos then s
  else
    let held := s.heldOff t o.start
    let s := s.updTrg t (fun x => { x with lastPos := some o.pos, holdLeft := x.holdLeft - 1 })
    if s.inWindow t o.pos && !held then s.fire r k t o
    else s.updTrg t (fun x => { x with ignored := satAdd x.ignored 1 0xFFFFFFFF
                                       refused := satAdd x.refused 1 0xFFFFFFFF })

/-- Triggers of a site with a source and an argument that match. -/
def State.trgsOf (s : State) (k src : Nat) (ok : Nat → Bool) : List Nat :=
  (List.range 32).filter (fun t => s.parN 5 t 0x060 == k && s.parN 5 t 0x061 == src && ok (s.parN 5 t 0x062))

/-- A burst takes occurrences of sources outside its positions: between its start tick and its last position. -/
def Burst.live (b : Burst) : Bool :=
  b.isStarted && b.phase != .draining && !b.spent

/-- The position emitted in the cycle that contains a time; in a hold cycle the next one emitted (R201). -/
def Burst.occAt (b : Burst) (q : Nat) : TrigOcc :=
  let k := b.cycleAt q
  if b.emitted = 0 ∨ b.waiting ∨ b.paused.isSome then { pos := b.emitted, start := b.nextStart, k }
  else
    let d : Int := (k : Int) - b.curCycle
    { pos := ((b.emitted : Int) - 1 + d).toNat, start := ((b.curStart : Int) + d * b.period).toNat, k }

/-- An occurrence from outside the positions at module time `q` (0.25 ps) for the triggers listed. -/
def State.occurAt (s : State) (k q : Nat) (ts : List Nat) (actT : Option Nat) (late : Bool) : State :=
  match s.siteRunner k with
  | some r =>
    match s.burstAt r with
    | some b =>
      if b.live then ts.foldl (fun s t => s.occur r k t { b.occAt q with actT, late }) s else s
    | none => s
  | none => s

end Sys2Proof.Machine
end

