-- ==== Sys2Proof/Machine/Apply.lean ====
section
/-!
DEFINITION. Applying a parameter value, with what the change does to the unit it belongs to: connections and pin
states (05 R156, R159, R160, R162), DPS set points (R176, R177), regular conversions (08 R246), the rate tables of a
raster engine (09 R260–R262); and the values that waited for a burst to end (14 R391).
-/

namespace Sys2Proof.Machine

/-! ## Pin electronics -/

/-- Settling time of a PMU range in ns (05 R162). -/
def pmuSettleNs (range : Nat) : Nat :=
  match range with
  | 0 => 2000000 | 1 => 400000 | 2 => 100000 | 3 => 30000 | _ => 20000

/-- A change restarts the settling of the PMU. -/
def State.pmuChange (s : State) (g : Nat) : State :=
  s.updGrp g (fun x => { x with pmuSettled := false, pmuAt := s.now + pmuSettleNs (s.parN 3 g 0x013) })

/-- The lane breaks its connection; the new switch closes at CONN_CHANGE_COMPLETE (05 R160). -/
def LaneSt.break_ (l : LaneSt) : LaneSt := { l.open_ with changing := true }

/-- A change of CONN: break before make; leaving CONN = 2 turns the PMU off (05 R159, R160). A lane in the safe state
keeps it (01 R33). -/
def State.connChange (s : State) (c : Nat) (old : Int) : State :=
  let s := if s.pwr.safe then s else s.updLane (s.laneOf c) LaneSt.break_
  let g := c / 32
  if old = 2 then
    let s := s.setPar (pid 3 g 0x010) 0
    s.updGrp g (fun x => { x with pmuConn := none, pmuClamp := false, pmuSettled := false })
  else s

/-! ## DPS set points -/

/-- The step in progress of a site's sequence. -/
def State.curStep (s : State) (k : Nat) : Option (SeqRun × SeqStep) :=
  match (s.siteAt k).seqRun, (s.siteAt k).seq with
  | some r, some q => (q.steps[r.step]?).map (fun x => (r, x))
  | _, _ => none

/-- Site whose sequence is at a step of channel `d`, with that step. -/
def State.stepOf (s : State) (d : Nat) : Option (Nat × SeqRun × SeqStep) :=
  match s.dpsSite d with
  | some k => (s.curStep k).bind (fun x => if x.2.channel = d then some (k, x) else none)
  | none => none

/-- The ramp of the channel is a power-down. -/
def State.rampsDown (s : State) (d : Nat) : Bool :=
  match s.stepOf d with
  | some (_, r, _) => !r.up
  | none => false

/-- µV of one voltage code (05 R164). -/
def codeUv (d : Nat) : Nat := if d < 16 then 125 else 875

/-- Ramp time in ns between two voltage codes at a rate in 0.01 V/ms. -/
def rampNs (d a b rate : Nat) : Nat :=
  ceilDiv ((if a ≤ b then b - a else a - b) * codeUv d * 100) (max 1 rate)

/-- Demand of an on channel at the values in force (05 R177). -/
def State.demandOf (s : State) (d : Nat) : Nat := dpsDemand d (s.parN 4 d 0x002) (s.parN 4 d 0x003)

/-- The demand of an on channel follows its values (05 R177). -/
def State.newDemand (s : State) (d : Nat) : State :=
  s.updDps d (fun x => if x.on then { x with demand := s.demandOf d } else x)

/-- The output of an on channel ramps to a new set point, monitor blanked (05 R176). -/
def State.rampTo (s : State) (d code : Nat) : State :=
  let x := s.dpsAt d
  let rate := if x.vout ≤ code then s.parN 4 d 0x006 else s.parN 4 d 0x007
  s.updDps d (fun y => { y with
    mode := .ramping, blanked := true, settled := false, outSince := none, inSince := none
    due := s.now + rampNs d x.vout code rate, vout := code, demand := s.demandOf d })

/-- A DPS channel that regulates: on, past its ramp. -/
def DpsSt.regulates (d : DpsSt) : Bool :=
  decide (d.mode = .on) || decide (d.mode = .limited) || decide (d.mode = .settling) || decide (d.mode = .ramping)

/-! ## Raster engines -/

/-- A mode: active, front porch, sync, back porch and total of line and frame, pixel clock in Hz, HS and VS active
high (09 R260). -/
structure RasterMode where
  hz : Nat
  ha : Nat
  hf : Nat
  hs : Nat
  ht : Nat
  va : Nat
  vf : Nat
  vs : Nat
  vt : Nat
  hp : Bool
  vp : Bool
  deriving DecidableEq, Repr

/-- The table of R260. -/
def rasterMode (n : Nat) : RasterMode :=
  match n with
  | 0 => ⟨25175000, 640, 16, 96, 800, 480, 10, 2, 525, false, false⟩
  | 1 => ⟨65000000, 1024, 24, 136, 1344, 768, 3, 6, 806, false, false⟩
  | 2 => ⟨74250000, 1280, 110, 40, 1650, 720, 5, 5, 750, true, true⟩
  | 3 => ⟨108000000, 1280, 48, 112, 1688, 1024, 1, 3, 1066, true, true⟩
  | 4 => ⟨148500000, 1920, 528, 44, 2640, 1080, 4, 5, 1125, true, true⟩
  | 5 => ⟨148500000, 1920, 88, 44, 2200, 1080, 4, 5, 1125, true, true⟩
  | 6 => ⟨154000000, 1920, 48, 32, 2080, 1200, 3, 6, 1235, true, false⟩
  | 7 => ⟨297000000, 3840, 176, 88, 4400, 2160, 8, 10, 2250, true, true⟩
  | 8 => ⟨594000000, 3840, 1056, 88, 5280, 2160, 8, 10, 2250, true, true⟩
  | _ => ⟨594000000, 3840, 176, 88, 4400, 2160, 8, 10, 2250, true, true⟩

/-- Modes that RSE_FRAC = 1 is allowed on. -/
def fracMode (n : Nat) : Bool := [2, 5, 7, 9].contains n

def State.rseMode (s : State) (n : Nat) : RasterMode := rasterMode (s.parN 6 n 0x002)

/-- Channels mapped to a raster engine: enable bit and engine number of RSE_CH (09 R273). -/
def State.rseChans (s : State) (n : Nat) : List Nat :=
  (List.range 512).filter (fun c => let v := s.parN 6 c 0x030; bit v 3 == 1 && bits v 1 0 == n)

/-- T_B = 2^24 / (f_pix × S), rounded to nearest, f_pix in GHz (09 R262). -/
def rseTb (hz ser : Nat) (frac : Bool) : Nat :=
  if frac then roundDiv (2 ^ 24 * 10 ^ 9 * 1001) (hz * ser * 1000) else roundDiv (2 ^ 24 * 10 ^ 9) (hz * ser)

/-- The rate table that an engine writes for its groups. -/
def State.rseRate (s : State) (n g : Nat) : RateRec :=
  { group := g, mode := 1, rsvd := false
    entries := [{ tb := rseTb (s.rseMode n).hz (s.parN 6 n 0x004) (s.parN 6 n 0x003 == 1), slope := 0, dwell := 1 }] }

/-- The engine's rate tables follow its mode and map. -/
def State.rseSync (s : State) (n : Nat) : State :=
  let gs := groupsOf (s.rseChans n)
  (List.range 16).foldl (fun s g =>
    if gs.contains g then
      s.updGrp g (fun x => { x with rate := some (s.rseRate n g), rateOwner := some (.inr n) })
    else if (s.grpAt g).rateOwner = some (.inr n) then
      s.updGrp g (fun x => { x with rate := none, rateOwner := none })
    else s) s

/-! ## Applying a value -/

/-- What applying a value does beside storing it; `old` is the value before. -/
def State.applied (s : State) (id : Nat) (old v : Int) : State :=
  let el := pidEl id
  match pidBlk id, pidNum id with
  | 3, 0x00A => if old = v then s else s.connChange el old
  | 3, 0x00C => s.updLane (s.laneOf el) (fun l =>
      if l.idle then { l.take (4000 * s.now) v.toNat with idle := true } else l)
  | 3, 0x010 | 3, 0x011 | 3, 0x012 | 3, 0x013 => if old = v then s else s.pmuChange el
  | 4, 0x002 =>
    let s := s.newDemand el
    if (s.dpsAt el).regulates ∧ old ≠ v ∧ s.rampsDown el = false then s.rampTo el v.toNat else s
  | 4, 0x003 => s.newDemand el
  | 6, 0x002 | 6, 0x003 | 6, 0x004 => s.rseSync el
  | 6, 0x030 => (List.range 4).foldl State.rseSync s
  | 8, 0x010 => if v = 2 then s.updPadc el (fun c => { c with nextDue := s.now }) else s
  | 9, 0x014 => s.recompute
  | 10, 0x012 => s.leaveLow
  | _, _ => s

/-- Apply a value at its apply point. -/
def State.applyVal (s : State) (id : Nat) (v : Int) : State :=
  let old := s.par id
  (s.setPar id v).applied id old v

/-- A raster engine without a burst has no blanking to wait for: its staged values apply (09 R266). -/
def State.rseIdle (s : State) (n : Nat) : State :=
  if (s.burstAt (32 + n)).isNone then
    let e := s.rseAt n
    if e.stage1.isEmpty && e.stage2.isEmpty then s
    else
      let s := (e.stage1 ++ e.stage2).foldl (fun s x => s.applyVal x.1 x.2) s
      s.updRse n (fun e => { e with stage1 := [], stage2 := [], late1 := false, late2 := false })
  else s

/-- Apply the waiting values whose sites no longer run a burst, in their order, those of an element together, and a `cal.stat_clear` that waits for
its group (17 R463). -/
def State.applyPend (s : State) : State :=
  let mine (x : PendVal) : Bool := (idRow x.id).any (fun r => r.apply == .between || r.apply == .rowMode)
  let held (x : PendVal) : Bool := mine x && (idRow x.id).any (fun r => s.heldBack r x.id x.value)
  let same (x y : PendVal) : Bool :=
    pidBlk y.id == pidBlk x.id && pidEl y.id == pidEl x.id && (idRow y.id).map (·.own) == (idRow x.id).map (·.own)
  let ready (x : PendVal) : Bool := mine x && !(s.host.pendVals.any (fun y => same x y && held y))
  let go := s.host.pendVals.filter ready
  let s : State := { s with host.pendVals := s.host.pendVals.filter (fun x => !ready x) }
  ((List.range 4).foldl State.rseIdle (go.foldl (fun s x => s.applyVal x.id x.value) s)).statClears

end Sys2Proof.Machine
end

