-- ==== Sys2Proof/Machine/RasterOps.lean ====
section
/-!
DEFINITION. What a raster engine drives: frame geometry, layers and composition, the slot word of a pixel clock
(09 R259–R264, R267), and what it checks (R263, R269, R270).
-/

namespace Sys2Proof.Machine

/-! ## Geometry -/

/-- Pixel clocks of a frame. -/
def RasterMode.frameClocks (m : RasterMode) : Nat := m.ht * m.vt

/-- Factor m of RSE_MUX. -/
def State.rseFactor (s : State) (n : Nat) : Nat := muxFactor (s.parN 6 n 0x005)

/-- Cycles of a frame. -/
def State.frameCycles (s : State) (n : Nat) : Nat :=
  (s.rseMode n).frameClocks * s.parN 6 n 0x004 / max 1 (s.rseFactor n)

/-- Line and column of a pixel clock counted from the burst's first. -/
def RasterMode.lineOf (m : RasterMode) (q : Nat) : Nat := q % m.frameClocks / max 1 m.ht
def RasterMode.colOf (m : RasterMode) (q : Nat) : Nat := q % m.frameClocks % max 1 m.ht

/-- DE, HS and VS of a pixel clock (R259, R261). -/
def RasterMode.de (m : RasterMode) (q : Nat) : Bool := decide (m.lineOf q < m.va) && decide (m.colOf q < m.ha)
def RasterMode.hsync (m : RasterMode) (q : Nat) : Bool :=
  (decide (m.ha + m.hf ≤ m.colOf q) && decide (m.colOf q < m.ha + m.hf + m.hs)) == m.hp
def RasterMode.vsync (m : RasterMode) (q : Nat) : Bool :=
  (decide (m.va + m.vf ≤ m.lineOf q) && decide (m.lineOf q < m.va + m.vf + m.vs)) == m.vp

/-! ## Layers (R264, R265) -/

/-- A colour of 10 bits per component, and an alpha of 0–255. -/
structure Colour where
  r : Nat
  g : Nat
  b : Nat
  a : Nat := 255
  deriving DecidableEq, Repr

/-- An n-bit component widened to 10 bits by repeating its top bits. -/
def widen (n v : Nat) : Nat :=
  if n = 5 then v * 32 + v else if n = 6 then v * 16 + v / 4 else if n = 8 then v * 4 + v / 64 else v

/-- Bytes per pixel. -/
def layerBytes (fmt : Nat) : Nat := match fmt with | 0 => 2 | 4 => 1 | _ => 4

/-- Colour of a pixel value in a layer format. -/
def pixelColour (fmt v : Nat) : Colour :=
  match fmt with
  | 0 => { r := widen 5 (bits v 15 11), g := widen 6 (bits v 10 5), b := widen 5 (bits v 4 0) }
  | 3 => { r := bits v 29 20, g := bits v 19 10, b := bits v 9 0 }
  | 4 => { r := widen 8 (v % 256), g := widen 8 (v % 256), b := widen 8 (v % 256) }
  | f => { r := widen 8 (bits v 23 16), g := widen 8 (bits v 15 8), b := widen 8 (bits v 7 0)
           a := if f = 2 then bits v 31 24 else 255 }

/-- Byte address of a layer's pixel. -/
def State.pixelAt (s : State) (n layer x y : Nat) : Nat :=
  let el := 2 * n + layer
  s.parN 6 el 0x012 * 4096 + y * s.parN 6 el 0x013 + x * layerBytes (s.parN 6 el 0x011)

/-- Pixel of a layer at a place of the layer. -/
def State.layerPixel (s : State) (p n layer x y : Nat) : Colour :=
  let el := 2 * n + layer
  let fmt := s.parN 6 el 0x011
  let k := layerBytes fmt
  let at_ := s.pixelAt n layer x y
  pixelColour fmt ((List.range k).foldl (fun a i => a + (s.readHbm p (at_ + i)).toNat * 256 ^ i) 0)

/-- One component of the composition, rounded to nearest. -/
def blend (l1 l0 alpha pix : Nat) : Nat :=
  roundDiv (l1 * (alpha * pix) + l0 * (65025 - alpha * pix)) 65025

/-- LAYER1 covers an active pixel. -/
def State.inLayer1 (s : State) (n x y : Nat) : Bool :=
  let p := s.parN 6 n 0x014
  let w := s.parN 6 n 0x015
  s.parN 6 (2 * n + 1) 0x010 == 1 && decide (p % 65536 ≤ x) && decide (x < p % 65536 + w % 65536) &&
    decide (p / 65536 ≤ y) && decide (y < p / 65536 + w / 65536)

/-- Composed colour at an active pixel; `src0`, `src1` give the pixel that each layer shows there. -/
def State.compose (s : State) (p n x y : Nat) (src0 src1 : Nat × Nat) : Colour :=
  let e := s.rseAt n
  let v := s.parN 6 n 0x017
  let bg : Colour := { r := bits v 29 20, g := bits v 19 10, b := bits v 9 0 }
  let base := if s.parN 6 (2 * n) 0x010 = 1 ∧ !e.off0 then s.layerPixel p n 0 src0.1 src0.2 else bg
  let lx := s.parN 6 n 0x014 % 65536
  let ly := s.parN 6 n 0x014 / 65536
  if s.inLayer1 n x y && !e.off1 then
    let c := s.layerPixel p n 1 (src1.1 - lx) (src1.2 - ly)
    let a := s.parN 6 n 0x016
    { r := blend c.r base.r a c.a, g := blend c.g base.g a c.a, b := blend c.b base.b a c.a }
  else base

/-- Colour slots of OUT_FMT. -/
def outBits (fmt : Nat) (c : Colour) : Nat :=
  match fmt with
  | 0 => c.r / 16 * 2 ^ 12 + c.g / 16 * 2 ^ 6 + c.b / 16
  | 1 => c.r / 4 * 2 ^ 16 + c.g / 4 * 2 ^ 8 + c.b / 4
  | _ => c.r * 2 ^ 20 + c.g * 2 ^ 10 + c.b

/-- The 35-slot word of a pixel clock (R261). In native mode a layer that underruns repeats its last pixel (R267). -/
def State.slotWord (s : State) (p n q : Nat) : Nat :=
  let m := s.rseMode n
  let e := s.rseAt n
  let place (miss last : Nat) : Nat × Nat :=
    if 0 < miss then (m.colOf last, m.lineOf last) else (m.colOf q, m.lineOf q)
  let colour := if m.de q then
      outBits (s.parN 6 n 0x006) (s.compose p n (m.colOf q) (m.lineOf q) (place e.miss0 e.last0) (place e.miss1 e.last1))
    else 0
  colour + b2n (m.de q) * 2 ^ 0x1E + b2n (m.hsync q) * 2 ^ 0x1F + b2n (m.vsync q) * 2 ^ 0x20 + 2 ^ 0x22

/-- Slot number `k` of RSE_CH. -/
def chSlot (v k : Nat) : Nat := bits v (4 + 6 * k + 5) (4 + 6 * k)

/-- Missing pixels of a frame are counted (R267). -/
def RseSt.missPix (f k : Nat) (e : RseSt) : RseSt :=
  if k = 0 then e else { e with underPix := satAdd e.underPix k 0xFFFFFFFF, pix := Tbl.upd e.pix 0 f (· + k) }

/-- A pixel clock of the active area passes: pixels still to be repeated count down, those of a layer that is switched
off are counted. -/
def State.passPixel (s : State) (n q : Nat) (e : RseSt) : RseSt :=
  let m := s.rseMode n
  if !m.de q then e
  else
    let in1 := s.inLayer1 n (m.colOf q) (m.lineOf q)
    let e : RseSt := { e with miss0 := e.miss0 - 1, last0 := if e.miss0 = 0 then q else e.last0
                              miss1 := e.miss1 - b2n in1, last1 := if in1 && e.miss1 == 0 then q else e.last1 }
    e.missPix (q / m.frameClocks) (b2n e.off0 + b2n (e.off1 && in1))

/-- Pixels of a layer are missing (R267): in native mode its last pixel repeats, otherwise the layer is off until line 0; the
first missing pixel of a frame is told and taints the burst. -/
def State.underPixels (s : State) (n : Nat) (layer : Bool) (f count : Nat) : State :=
  let first := (s.rseAt n).pix.isEmpty
  let native := s.parN 6 n 0x007 == 0
  let s := s.updRse n (fun e =>
    if native then
      (if layer then { e with miss1 := e.miss1 + count } else { e with miss0 := e.miss0 + count }).missPix f count
    else
      let e : RseSt := if layer then { e with off1 := true } else { e with off0 := true }
      { e with pix := Tbl.upd e.pix 0 f id })
  if first then
    let t : Term := { src := 0x550 + 4 * n, time := s.now, act := 0, way := .atEnd, result := invalidRes rUNDERRUN }
    (s.raise { src := 0x550 + 4 * n, cond := some (32 + n, t) }).updBurst (32 + n)
      (fun b => { b with terms := b.terms ++ [t] })
  else s

/-- A layer's pixel stands on a POISONED page, or its word has an uncorrectable error (11 R312, R317). -/
def State.pixelGone (s : State) (p n layer x y : Nat) : Bool :=
  let a := s.pixelAt n layer x y
  s.poisoned p (a / 4096) || s.badAt p a

/-- The pixels of a pixel clock that the memory does not give are underruns. -/
def State.lostPixels (s : State) (p n q : Nat) : State :=
  let m := s.rseMode n
  let e := s.rseAt n
  let x := m.colOf q
  let y := m.lineOf q
  let f := q / m.frameClocks
  if !m.de q then s
  else
    let s := if s.parN 6 (2 * n) 0x010 = 1 ∧ e.off0 = false ∧ e.miss0 = 0 ∧ s.pixelGone p n 0 x y then
        s.underPixels n false f 1 else s
    let pos := s.parN 6 n 0x014
    if s.inLayer1 n x y && !e.off1 && decide (e.miss1 = 0) && s.pixelGone p n 1 (x - pos % 65536) (y - pos / 65536) then
      s.underPixels n true f 1
    else s

/-- Slot words of the pixel clocks of a cycle, in order: at line 0 of a frame a layer that was switched off is on again
(R267). -/
def State.pixelWords (s : State) (p n : Nat) : List Nat → State × List Nat
  | [] => (s, [])
  | q :: qs =>
    let s := if q % (s.rseMode n).frameClocks = 0 then s.updRse n (fun e => { e with off0 := false, off1 := false }) else s
    let s := s.lostPixels p n q
    let w := s.slotWord p n q
    let (s, ws) := (s.updRse n (s.passPixel n q)).pixelWords p n qs
    (s, w :: ws)

/-- What the drive channels carry in the next cycle of a raster burst: slot k of a pixel clock is its k-th bit in time
(R261, 04 R132). No timing set is in force: a bit begins at its share of the cycle (notes/assumptions/89.md). -/
def State.rasterLanes (s : State) (n : Nat) (b : Burst) (period : Nat) : State :=
  let ser := max 1 (s.parN 6 n 0x004)
  let m := s.rseFactor n
  let q := b.emitted * m / ser
  let (s, ws) := s.pixelWords b.part.val n ((List.range (m / ser)).map (q + ·))
  (s.rseChans n).foldl (fun s c =>
    let v := s.parN 6 c 0x030
    if bit v 2 = 1 then s
    else s.drivePin b.nextStart (toFin 512 c (by decide)) ((List.range m).map (fun i =>
      { t := s.bitTime b period m 0 i
        drive := drvLevel (bit ((ws[i / ser]?).getD 0) (chSlot v (i % ser)) == 1), load := false }))) s

/-! ## Checking (R263, R269, R270) -/

/-- The check word of a pixel clock: captured bits of the check channels by slot, `none` for a MID state, which gives bit 0
and marks the pixel invalid (R263). -/
def checkWord (caps : List (Nat × Option Bool)) : Nat × Bool :=
  (caps.foldl (fun a x => if x.2 = some true then a ||| 2 ^ x.1 else a) 0, caps.any (fun x => x.2.isNone))

/-- One byte of CRC-32 of IEEE 802.3, reflected (R270). -/
def crcByte (c : BitVec 32) (byte : Nat) : BitVec 32 :=
  (List.range 8).foldl (fun c _ => if c.getLsbD 0 then (c >>> 1) ^^^ 0xEDB88320 else c >>> 1) (c ^^^ BitVec.ofNat 32 (byte % 256))

/-- CRC-32 of IEEE 802.3 over bytes. -/
def crc32 (bytes : List Nat) : BitVec 32 := ~~~(bytes.foldl crcByte 0xFFFFFFFF)

/-- Width of an OUT_FMT colour in bits. -/
def outWidth (fmt : Nat) : Nat := match fmt with | 0 => 18 | 1 => 24 | _ => 30

/-- Bytes of a pixel for the CRC: its colour slots packed little-endian. -/
def pixelBytes (fmt word : Nat) : List Nat :=
  (List.range (ceilDiv (outWidth fmt) 8)).map (fun i => word % 2 ^ outWidth fmt / 256 ^ i % 256)

/-- CRC of a rectangle from the check words of its pixels, row by row, left to right. -/
def rectCrc (fmt : Nat) (words : List Nat) : BitVec 32 := crc32 (words.flatMap (pixelBytes fmt))

/-- How frames are checked by the values in force, said of frames up to `upto`. -/
def State.chkNow (s : State) (n upto : Nat) : ChkSet :=
  { upto, rects := (List.range 16).map (fun r => (s.parN 6 (16 * n + r) 0x021, s.parN 6 (16 * n + r) 0x022))
    skip := s.parN 6 n 0x00B, stream := s.parN 6 n 0x008, sync := s.parN 6 n 0x009 == 1
    on := (s.rseChans n).any (fun c => bit (s.parN 6 c 0x030) 2 == 1) }

/-- Values that apply from now on leave the frames up to `upto` as they are checked. -/
def State.keepChk (s : State) (n upto : Nat) : State :=
  let c := s.chkNow n upto
  s.updRse n (fun e => { e with chks := e.chks ++ [c] })

/-- How a frame is checked. -/
def State.chkFor (s : State) (n f : Nat) : ChkSet := (((s.rseAt n).chks.find? (fun c => decide (f ≤ c.upto)))).getD (s.chkNow n f)

/-- The next frame to be checked: frames 0 to CHK_SKIP − 1 are not (R269). -/
def State.nextChecked (s : State) (n : Nat) : Nat := (((s.rseAt n).chks.head?).getD (s.chkNow n 0)).skip + (s.rseAt n).checked

/-- A raster burst that ran to its end has the records of all its checked frames. -/
def State.allChecked (s : State) (r : Nat) (b : Burst) : Bool :=
  let n := r - 32
  !b.raster || decide (b.frames < b.entry) || !(s.chkFor n 0).on || decide (b.entry ≤ s.nextChecked n)

end Sys2Proof.Machine
end

