-- ==== Sys2Proof/Machine/Emit.lean ====
section
/-!
DEFINITION. Emission: control descriptors take effect, a position reaches the pins, and what becomes of a wait or a
pause of the islands (02 R42–R44, R48, R59–R62; 03 R87, R88, R108–R112; 04 R120, R130; 05 R152).
-/

namespace Sys2Proof.Machine

/-! ## Control descriptors (02 R62) -/

/-- A MARK output is high at a time in units of 0.25 ps. -/
def MarkSt.high (q : Nat) (m : MarkSt) : Bool := m.level && m.till.all (fun e => decide (q < e))

/-- A MARK action at the start of the cycle from `q` to `e`; a pulse lasts that one cycle. -/
def MarkSt.act (act q e : Nat) (m : MarkSt) : MarkSt :=
  match act with
  | 0 => { level := true, till := some e }
  | 1 => { level := true }
  | 2 => { level := false }
  | _ => { level := !m.high q }

/-- Record of a STREAM instruction at a position whose cycle starts at `ns` (06 R208). -/
def streamRec (act value strm pos ns : Nat) : StrmRec :=
  let at_ := [pos % 2 ^ 32, pos / 2 ^ 32 % 2 ^ 16]
  if act = 0 then { type := tMARK, source := 0, rflags := 0, time := ns, len := 1, words := [value] ++ at_ ++ [0, 0, 0] }
  else { type := if act = 1 then tSTART else tSTOP, source := 0, rflags := 0, time := ns, len := 1
         words := at_ ++ [strm, 0, 0, 0] }

/-- A STREAM instruction acts on a site. -/
def State.streamAct (s : State) (k act value strm pos ns : Nat) : State :=
  let s := if act = 1 then s.updSite k (fun t => { t with started := t.started ||| (1#8 <<< strm) }) else s
  let s := if 8 ≤ strm then s else s.sitePush k strm (streamRec act value strm pos ns)
  if act = 2 then s.updSite k (fun t => { t with started := t.started &&& ~~~(1#8 <<< strm) }) else s

/-- A control descriptor of the burst on runner `r` takes effect in the cycle from `q` to `e` (0.25 ps). -/
def State.actCtl (s : State) (r : Nat) (b : Burst) (q e : Nat) (d : CtlDesc) : State :=
  let ns := nsOf q
  match d.ctl with
  | .mark out act => s.updMark out.val (MarkSt.act act.val q e)
  | .signal token => s.issueTok { scope := b.home, kind := 0, key := token, result := 0 }
  | .tset ts groups off => s.updBurst r (fun b => { b with tso := tsoSet b.tso ts.val groups off })
  | .stream value strm act => s.streamAct b.home.val act.val value strm d.pos ns
  | .capon config => b.sites.foldl (fun s k => s.capOn k.val config d.pos ns) s
  | .capoff config => b.sites.foldl (fun s k => s.capOff k.val config d.pos) s
  | .stamp m dis =>
    if s.msPar m 0x00B ≠ 0 ∨ b.sites.all (fun k => k.val != s.msPar m 0x001) then s
    else if dis then s.disarmSet m false false else s.armSet m (q * 16) false
  | .inj g conv => s.injRequest r g.val conv d.pos (ceilDiv q 4000 + 40)
  | .failstop en => s.updBurst r (fun b => { b with fsEn := en })

/-- Length of the next cycle at a period of the sets in force (04 R120, R135). -/
def State.cycleLen (s : State) (b : Burst) (period : Nat) : Nat := (s.spend b 1 period).period

/-- Every control descriptor of the next position, which the column `c` holds, takes effect at the start of its
cycle. -/
def State.actDue (s : State) (r : Nat) (img : Image) (c : Column) : State :=
  match s.burstAt r with
  | some b =>
    let due := b.ctls.filter (fun d => decide (d.pos ≤ b.emitted))
    let left := b.ctls.filter (fun d => !decide (d.pos ≤ b.emitted))
    let len := s.cycleLen b (s.posPeriod { b with tso := ({ b with ctls := due } : Burst).tsoNext } img c.vec)
    due.foldl (fun s d => s.actCtl r b b.nextStart (b.nextStart + len) d) (s.putBurst r { b with ctls := left })
  | none => s

/-- Descriptors that no position follows take effect at the end of the burst (R62). -/
def State.actRest (s : State) (r : Nat) (b : Burst) : State :=
  (b.ctls.foldl (fun s d => s.actCtl r b b.nextStart (b.nextStart + b.period) d) s).updBurst r (fun b =>
    { b with ctls := [] })

/-- Groups of a vector whose control byte has bit `i` set. -/
def ctlGroups (img : Image) (v i : Nat) : List Grp :=
  (((img.vecAt v).getD []).filter (fun x => x.2.1.getLsbD i)).map (·.1)

/-! ## Positions -/

/-- The islands can take a position of a burst on a cycle boundary now: running, no wait, no pause, not the stop
state, and the compare result 33 cycles back is already final. -/
def Burst.canEmit (b : Burst) : Bool :=
  decide (b.phase = .running) && !b.waiting && b.paused.isNone && b.before b.cycle &&
    (match b.flight with
     | x :: _ => decide (b.cycle < x.cycle + 33)
     | [] => true)

/-- A record owed for a position learns where it was emitted. -/
def Owed.found (x : PosAt) (o : Owed) : Owed := if o.pos = x.pos then { o with place := some x } else o

/-- One position of a pattern burst is emitted: the pump fills its place (R42). -/
def State.emitVec (s : State) (r : Nat) (img : Image) (b : Burst) (c : Column) (rest : List Column) : State :=
  let s := s.tcApply b
  let b1 := s.spend b 1 (s.posPeriod b img c.vec)
  let fields := match (if c.vec.isSome then c.vec else b.lastEmit) with
    | some n => s.fieldsOf b img b.tso b1.period n
    | none => []
  let seen := if c.vec.isSome then fields.map (·.1) else fields.map (fun f => { f.1 with strobes := [] })
  let at_ : PosAt :=
    { pos := b.emitted, cycle := b.cycle, start := b.nextStart, next := b1.nextStart, ip := c.ip
      seg := ((c.vec.bind img.segOfVec).map (·.1)).getD ((img.segOfInstr c.ip).getD 0)
      vec := ((c.vec.bind img.segOfVec).map (·.2)).getD 0 }
  let x : Flight :=
    { pos := at_.pos, cycle := at_.cycle, seg := at_.seg, vec := at_.vec, start := at_.start, period := b1.period
      inMatch := c.inMatch
      masked := (c.vec.map (fun n => ctlGroups img n 6)).getD []
      vflags := (c.vec.map (fun n => ctlGroups img n 7)).getD []
      hold := c.vec.isNone, caps := s.recording b, fields := seen, failstop := b.fsEn }
  let b' : Burst := { b1 with
    emitted := b.emitted + 1, cols := rest, lastAt := some at_, prevAt := b.lastAt
    owed := b.owed.map (Owed.found at_)
    lastEmit := if c.vec.isSome then c.vec else b.lastEmit
    flight := b.flight ++ [x] }
  let s := (s.putBurst r b'.pump).moveTo (nsOf b.nextStart)
  let s := fields.foldl (fun s f => s.drivePin b.nextStart f.1.chan f.2) s
  b.sites.foldl (fun s k =>
    (s.trgsOf k.val 5 (fun a => x.vflags.any (fun g => g.val == a))).foldl (fun s t =>
      s.occur r k.val t { pos := x.pos, start := x.start, k := x.cycle }) s) s

/-- One cycle of a raster burst is emitted (09 R259). -/
def State.emitRaster (s : State) (r : Nat) (b : Burst) : State :=
  let n := r - 32
  let per := s.frameCycles n
  let b' : Burst := { s.spend b 1 b.period with emitted := b.emitted + 1 }
  let b' : Burst := { b' with
    frames := b'.emitted / max 1 per
    lastAt := some { pos := b.emitted, cycle := b.cycle, start := b.nextStart, next := b'.nextStart
                     seg := 0, vec := 0, ip := 0 }
    prevAt := b.lastAt
    halted := decide (b.entry * per ≤ b'.emitted) }
  ((s.putBurst r b').moveTo (nsOf b.nextStart)).rasterLanes n b b'.period

/-- The next position of a burst is emitted: control descriptors of the position act first (R62). -/
def State.emit (s : State) (r : Nat) : State :=
  match s.burstAt r with
  | none => s
  | some b =>
    if !b.canEmit then s
    else if b.raster then (if b.halted then s else s.emitRaster r b)
    else match b.cols, s.imgOf b with
      | c :: rest, some i =>
        let s := s.actDue r i.img c
        match s.burstAt r with
        | some b => s.emitVec r i.img b c rest
        | none => s
      | _, _ => s

end Sys2Proof.Machine
end

