-- ==== Sys2Proof/Machine/Bursts.lean ====
section
/-!
DEFINITION. The life of a burst beside emission: start, compare results, waits and pauses, early ends, the end, the
result and the completion, linked bursts (02 R53, R57–R67; 03 R108–R116; 04 R121, R122; 06 R187–R194; 10 R293–R296;
14 R399).
-/

namespace Sys2Proof.Machine

/-! ## Result words (14 R399) -/

/-- Result of a burst in which a strobe failed or none did (01 R34, R37; 03 R111). -/
def Burst.resultIf (b : Burst) (fail : Bool) : SiteResult :=
  let r := match firstTerm b.terms with
    | some t => t.result
    | none => { res := if fail then .fail else .pass }
  if r.res = .pass ∨ r.res = .fail then { r with stretched := b.stretched } else r

/-- Result of a burst, which its completion carries: FAIL when one of its sites fails (notes/assumptions/90.md). -/
def Burst.result (b : Burst) : SiteResult := b.resultIf b.failFlag

/-- Result of one site of a burst (06 R186). -/
def Burst.resultOf (b : Burst) (k : Site) : SiteResult := b.resultIf (b.failSites.contains k)

/-- The last position emitted as programmed (02 R67). -/
def Burst.lastPos (b : Burst) : Option PosAt := if b.stopped then b.stopAt else b.lastAt

/-- Result words of a burst that ran on runner `r`; `code` is the SITE_RESULT reported. -/
def Burst.words (b : Burst) (r code : Nat) : List Nat :=
  let p := (b.lastPos.map (·.pos)).getD (2 ^ 48 - 1)
  let ip := (b.lastPos.map (·.ip)).getD 0xFFFFFFFF
  let eng := if b.raster then r - 32 else r
  [p % 2 ^ 32, p / 2 ^ 32 % 2 ^ 16 + code * 2 ^ 16, if b.raster then b.frames else ip, b.holds % 2 ^ 32,
   b.holds / 2 ^ 32 % 2 ^ 16,
   b.matchIter + eng * 2 ^ 24 + b2n b.raster * 2 ^ 29 + b2n b.isStarted * 2 ^ 30]

/-- The completion of a task whose burst ended, and its DONE token. -/
def State.completeTask (s : State) (p tag : Nat) (words : List Nat) (issue : Bool) (outKey : Nat) (home : Site)
    (code : Nat) : State :=
  let s := s.complete p tag 0x0902 .ok words
  if issue then s.issueTok { scope := home, kind := 2, key := outKey, result := code } else s

/-! ## Linked sites (01 R38; 10 R293–R296) -/

/-- RESULT field of a SITE_RESULT. -/
def resField (code : Nat) : Nat := bits code 15 13

/-- The condition that comes first in module time among results (code, time), of equal times the lower REASON (01 R37,
R38). -/
def firstResult : List (Nat × Nat) → Option (Nat × Nat)
  | [] => none
  | a :: l =>
    match firstResult l with
    | none => some a
    | some b => if a.2 < b.2 ∨ (a.2 = b.2 ∧ a.1 / 2 ≤ b.1 / 2) then some a else some b

/-- The combined result of the parts of a linked site, each a result code with the time that ranks it (01 R38). -/
def combine (parts : List (Nat × Nat)) : Nat :=
  let codes := parts.map (·.1)
  let st := b2n (codes.any (fun c => c % 2 == 1))
  match firstResult (parts.filter (fun x => resField x.1 == 2)) with
  | some a => a.1 / 2 * 2 + st
  | none =>
    if codes.any (fun c => resField c == 3) then abortedRes.code + st
    else if codes.any (fun c => resField c == 1) then (1 : Nat) * 2 ^ 13 + st
    else st

/-- Definition of a linked site of this module, by LINK_ID. -/
def State.linkSite (s : State) (id : Nat) : Option (Nat × SiteRec) :=
  (List.range 128).findSome? (fun k => (s.siteAt k).defn.bind (fun d =>
    if d.linked ∧ d.linkId = id then some (k, d) else none))

/-- The home module has the results of all members: the combined result goes into its own final completion and to
every member as a LINK token (R296). -/
def State.linkCombine (s : State) (id : Nat) : State :=
  match s.linkSite id with
  | none => s
  | some (k, d) =>
    let l := s.linkAt id
    if l.results.length < d.members then s
    else
      let code := combine (l.results.map (·.2))
      let s := s.updLink id (fun _ => {})
      let s := match l.own with
        | some o =>
          let words := o.result.modify 1 (fun w => w % 2 ^ 16 + code * 2 ^ 16)
          s.completeTask o.part.val o.tag words o.issue o.outKey o.home code
        | none => s
      let tok : TokIn := { scope := toFin 128 k (by decide), kind := 6, key := id, result := code }
      let s := s.issueTok tok
      (l.results.filter (fun x => x.1 ≠ s.node)).foldl (fun s x => s.sendC1 x.1 (.token x.1 s.node tok)) s

/-- A part's result reaches the home module, with the module time of its condition. A LINK_RESULT frame carries no time:
the arrival stands for a member's (notes/assumptions/98.md). -/
def State.linkResult (s : State) (id node code time : Nat) : State :=
  (s.updLink id (fun l => if l.results.any (fun x => x.1 == node) then l
    else { l with results := l.results ++ [(node, code, time)] })).linkCombine id

/-- READY of a member at the home module; the last one sends the start trigger (R294). -/
def State.linkReady (s : State) (id node : Nat) : State :=
  match s.linkSite id with
  | none => s
  | some (k, d) =>
    let s := s.updLink id (fun l => if l.ready.contains node then l else { l with ready := l.ready ++ [node] })
    if (s.linkAt id).ready.length < d.members then s
    else
      let t := s.now + 1000 * s.parN 9 k 0x005
      let number := ((s.siteRunner k).bind s.burstAt).map (·.linkTrig)
      let s := s.updLink id (fun l => { l with ready := [] })
      match number with
      | some n => s.sendTrig (toFin 256 n (by decide)) t
      | none => s

/-- The member's part of a linked burst is pre-filled: READY goes to the home module; not without TIME_LOCK (12
R342). -/
def State.sendReady (s : State) (b : Burst) : State :=
  match (s.siteAt b.home.val).defn with
  | some d =>
    if !s.ngl.tm.lock then s
    else if d.home = s.node then s.linkReady d.linkId s.node
    else s.sendC1 d.home (.linkReady d.home s.node d.linkId)
  | none => s

/-! ## Giving up a dispatched burst -/

/-- A burst's task completes; the home module of a linked site waits for the results of all members, another member
reports its own and sends it to the home module (R296). -/
def State.reportTask (s : State) (b : Burst) (words : List Nat) (code : Nat) : State :=
  match b.linked, (s.siteAt b.home.val).defn with
  | true, some d =>
    if d.home = s.node then
      (s.updLink d.linkId (fun l => { l with
        endedAt := some s.now
        own := some { part := b.part, tag := b.tag, result := words, issue := b.issueDone, outKey := b.outKey
                      home := b.home } })).linkResult d.linkId s.node code
        (((firstTerm b.terms).map (·.time)).getD s.now)
    else
      (s.completeTask b.part.val b.tag words b.issueDone b.outKey b.home code).sendC1 d.home
        (.linkResult d.home s.node d.linkId code)
  | _, _ => s.completeTask b.part.val b.tag words b.issueDone b.outKey b.home code

/-- A dispatched burst that never starts gives up its engine, its charge and its reservation, and its task completes
(10 R295, R300). -/
def State.giveUp (s : State) (r : Nat) (res : SiteResult) : State :=
  match s.burstAt r with
  | none => s
  | some b =>
    let words := (notRun b.raster res).set 5 ((if b.raster then r - 32 else r) * 2 ^ 24 + b2n b.raster * 2 ^ 29)
    ((s.delBurst r).reportTask b words res.code).applyPend

/-! ## Start (04 R121, R122) -/

/-- The first start tick at least 16 ns later. -/
def nextTick (now : Nat) : Nat := roundUp (now + 16) 8

/-- The burst starts at a tick. -/
def Burst.startAt (tick : Nat) (b : Burst) : Burst := { b with phase := .started, startTick := some tick }

/-- A linked burst whose islands were not filled in time: it starts, raises START_LATE, and ends INVALID
(LATE_TRIGGER). -/
def State.startLate (s : State) (r : Nat) (b : Burst) : State :=
  let g := ((s.periodGroups b).head?).getD 0
  let src := 0x208 + 16 * g
  let t : Term := { src, time := s.now, act := 0, way := .atEnd, result := invalidRes rLATE }
  ((s.putBurst r (Burst.startAt (nextTick s.now) b)).raise { src, cond := some (r, t) }).updBurst r
    (fun b => { b with terms := b.terms ++ [t] })

/-- The start trigger of a linked burst acts at `t`. -/
def State.linkStart (s : State) (r t : Nat) : State :=
  match s.burstAt r with
  | some b =>
    let tick := roundUp t 8
    match b.phase with
    | .waitTrig => if b.filledAt + 16 ≤ tick then s.putBurst r (b.startAt tick) else s.startLate r b
    | .filling | .prefill => s.putBurst r { b with linkT := some t }
    | _ => s
  | none => s

/-- Every island of the burst is filled. -/
def State.allFilled (s : State) (r : Nat) (b : Burst) : State :=
  let b := { b with filledAt := s.now }
  if b.linked then
    match b.linkT with
    | some _ => (s.startLate r b)
    | none => (s.putBurst r { b with phase := .waitTrig }).sendReady b
  else s.putBurst r (b.startAt (nextTick s.now))

/-- What a start tick clears at a site (06 R188, R189, R197, R203, R210; 02 R62). -/
def State.startSite (s : State) (b : Burst) (r tick k : Nat) : State :=
  let s := s.updSite k (fun t => { t with
    failCount := 0, firstFail := none, started := BitVec.ofNat 8 (s.parN 5 k 0x018)
    engine := if b.raster then t.engine else r })
  let s := (s.siteChans k).foldl (fun s c => s.updChFail c (fun _ => 0)) s
  let s := (s.siteChans k).foldl (fun s c => s.updLane (s.laneOf c) (fun l => { l with burstC := {}, burstD := {} })) s
  let s := s.logStart b.part.val k (r % 32) b.handle b.entry tick
  let s := (List.range 32).foldl (fun s t => if s.parN 5 t 0x060 = k then
      s.updTrg t (fun x => { x with
        lastFire := none, holdLeft := 0, lastPos := none, fires := 0, ignored := 0 }) else s) s
  let s := (List.range 16).foldl (fun s u => if s.parN 5 u 0x040 = k then
      s.updCu u (fun c => { c with mode := 0, upto := none }) else s) s
  (List.range 8).foldl (fun s m => if s.parN 1 m 0x021 = k then s.updMark m (fun _ => {}) else s) s

/-- The start tick of a burst (04 R121). -/
def State.startBurst (s : State) (r : Nat) (b : Burst) (tick : Nat) : State :=
  let s := s.moveTo tick
  let s := b.sites.foldl (fun s k => s.startSite b r tick k.val) s
  let s := s.lanesMode b .burst
  let period := if b.raster then (s.spend b 1 0).period
    else match s.imgOf b with
      | some i => s.vecPeriod b i.img b.tsoNext (b.firstVec i.img)
      | none => b.period
  let s := b.sets.foldl (fun s m => s.updMs m (fun x => { x with rawLossTold := false })) s
  let s := if b.raster then
      s.updRse (r - 32) (fun e => { e with
        blanks := 0, lateRec := [], late := false, checked := 0, chks := [], underPix := 0, pix := [], mismatch := false
        miss0 := 0, miss1 := 0, off0 := false, off1 := false })
    else s
  s.putBurst r (Burst.point { b with phase := .running, period, bufs := b.bufs.map (fun x => { x with low := 256 }) })

/-! ## Compare results (02 R53–R63, 06 R187–R193) -/

/-- The oldest burst of a runner whose compare results are not all final, `true` when it has ended. -/
def State.oldest (s : State) (r : Nat) : Option (Bool × Burst) :=
  match s.ve.drain.find? (fun x => x.1 == r && !x.2.flight.isEmpty) with
  | some x => some (true, x.2)
  | none => (s.burstAt r).bind (fun b => if b.flight.isEmpty then none else some (false, b))

/-- Change the first ended burst of a list that satisfies a test. -/
def updFirst (f : Burst → Burst) (ok : Nat × Burst → Bool) : List (Nat × Burst) → List (Nat × Burst)
  | [] => []
  | x :: l => if ok x then (x.1, f x.2) :: l else x :: updFirst f ok l

/-- Change that burst. -/
def State.updOldest (s : State) (r : Nat) (ended : Bool) (f : Burst → Burst) : State :=
  if ended then { s with ve.drain := updFirst f (fun x => x.1 == r && !x.2.flight.isEmpty) s.ve.drain }
  else s.updBurst r f

/-- The oldest result of a burst is final: 32 cycles after its emission, or no cycle follows yet. -/
def Burst.dueFinal (b : Burst) (x : Flight) : Bool :=
  decide (x.cycle + 32 ≤ b.cycle) || b.waiting || b.paused.isSome || decide (b.phase = .draining) || b.cols.isEmpty

/-- Iteration of the match unit that issued a position (R57, R73). -/
def MatchSt.iterOf (u : MatchSt) (pos : Nat) : Nat :=
  if u.micro then (u.ends.filter (fun e => decide (e < pos))).length + 1 else (pos - u.first) / max 1 u.len + 1

/-- Failing strobes of a position of a MATCH body concern the match unit alone, those of its own iterations (R57,
R58). -/
def Burst.noteMatch (x : Flight) (b : Burst) : Burst :=
  match b.unit with
  | some u =>
    if x.pos < u.first ∨ u.failing.contains (u.iterOf x.pos) then b
    else { b with unit := some { u with failing := u.failing ++ [u.iterOf x.pos] } }
  | none => b

/-- Fail-stop of a position (R63): the site stops from cycle k + 48, the event is raised once. A burst that has ended by
then keeps its end. -/
def State.failStop (s : State) (r : Nat) (ended : Bool) (b : Burst) (x : Flight) : State :=
  if b.fsHit then s
  else
    let t : Term := { src := 0x105 + 8 * r, time := nsOf x.start, act := x.cycle + 48, way := .stop
                      result := { res := .fail } }
    (s.raise { src := 0x105 + 8 * r, cond := if ended then none else some (r, t) }).updOldest r ended (fun b =>
      { b with fsHit := true, terms := if ended then b.terms else b.terms ++ [t] })

/-- Counters, fail log and triggers of one site for a failing position. -/
def State.siteFails (s : State) (r : Nat) (ended : Bool) (b : Burst) (x : Flight) (fails : List ChFail) (k : Nat) :
    State :=
  let here := fails.filter (fun f => (s.siteChans k).contains f.chan)
  if here.isEmpty then s
  else
    let first := (s.siteAt k).firstFail.isNone
    let s := s.updSite k (fun t => { t with
      failCount := t.failCount + 1, firstFail := if t.firstFail.isSome then t.firstFail else some x.pos })
    let s := here.foldl (fun s f => s.updChFail f.chan (satAdd · 1 0xFFFFFFFF)) s
    let s := (groupsOf (here.map (·.chan))).foldl (fun s g =>
      let l := here.filter (fun f => f.chan / 32 == g)
      s.logRec b.part.val k
        { kind := 1, group := g, strobes := strobeMask l, mask := failMask l, pos := x.pos, cycle := x.cycle
          seg := x.seg, vec := x.vec } (nsOf x.start)) s
    let ts := s.trgsOf k 2 (fun _ => true) ++ s.trgsOf k 3 (fun a => here.any (fun f => f.chan == a)) ++
      (if first then s.trgsOf k 4 (fun _ => true) else [])
    -- A burst that has ended has no trigger wait any more: runner 36 stands for none.
    ts.foldl (fun s t => s.occur (if ended then 36 else r) k t { pos := x.pos, start := x.start, k := x.cycle + 32 }) s

/-- Sites of a burst with a failing channel. -/
def State.sitesOfFails (s : State) (b : Burst) (fails : List ChFail) : List Site :=
  b.sites.filter (fun k => fails.any (fun f => (s.siteChans k.val).contains f.chan))

/-- What a final compare result does. -/
def State.judge (s : State) (r : Nat) (ended : Bool) (b : Burst) (x : Flight) (fails : List ChFail) : State :=
  let home := b.home.val
  let jf := fails.any (fun f => inScope (s.parN 1 home 0x010) f.chan)
  if x.inMatch then (if jf then s.updOldest r ended (Burst.noteMatch x) else s)
  else if fails.isEmpty then s
  else
    let ks := s.sitesOfFails b fails
    let s := s.updOldest r ended (fun b => { b with
      failFlag := true, failSites := b.failSites ++ ks.filter (fun k => !b.failSites.contains k)
      jf := if jf then b.jf ++ [x.pos] else b.jf })
    let s := if x.failstop && fails.any (fun f => inScope (s.parN 1 home 0x011) f.chan) then
        s.failStop r ended b x else s
    b.sites.foldl (fun s k => s.siteFails r ended b x fails k.val) s

/-! ## Records of time-outs with TOFAIL (R58, R61; 06 R190) -/

/-- The position of an owed record is final, and its record comes next in ascending position. -/
def Burst.owedReady (b : Burst) (o : Owed) : Bool :=
  decide (o.pos < b.emitted) && b.flight.all (fun x => decide (o.pos < x.pos))

/-- A fail record of the sequencer marks a position; one of a position that is never emitted is not written. -/
def State.owedRec (s : State) (b : Burst) (o : Owed) : State :=
  match o.place with
  | some x => b.sites.foldl (fun s k =>
      s.logRec b.part.val k.val
        { kind := o.kind, group := ((groupsOf (s.siteChans k.val)).head?).getD 0, strobes := 0, mask := 0, pos := o.pos
          cycle := x.cycle, seg := x.seg, vec := x.vec } (nsOf x.start)) s
  | none => s

/-- Owed records whose turn has come. -/
def State.owedRecs (s : State) (b : Burst) : State := (b.owed.filter b.owedReady).foldl (fun s o => s.owedRec b o) s

/-- Owed records that still wait. -/
def Burst.owedKept (b : Burst) : Burst := { b with owed := b.owed.filter (fun o => !b.owedReady o) }

/-- The oldest compare result of a runner becomes final. -/
def State.finalResult (s : State) (r : Nat) (seen : List (Chan × List Cmp)) : State :=
  match s.oldest r with
  | some (ended, b) =>
    match b.flight with
    | x :: rest =>
      if ended || b.dueFinal x then
        let x := x.cut b.maskFrom
        let s := s.moveTo (nsOf (x.start + 32 * b.period))
        let s := s.judge r ended b x (x.fails seen)
        let s := s.capture b x seen
        let s := s.owedRecs { b with flight := rest }
        s.updOldest r ended (fun b => Burst.owedKept { b with flight := rest })
      else s
    | [] => s
  | none => s

/-! ## Missing positions and pauses (03 R108–R116) -/

def shortCode : Short → Nat
  | .lateFetch => 1 | .refresh => 2 | .retrain => 3 | .fence => 4 | .sequencer => 5 | .prefetch => 6 | .instr => 7

/-- What the pump lacks for the next position (R101, R108, R109): a granule, by its number in the image; the micro-
sequencer; an instruction of a streamed segment. -/
inductive Lack where
  | granule (g : Nat)
  | sequencer (instr : Bool)
  deriving DecidableEq, Repr

/-- What is missing when the islands hold no position. -/
def Burst.lacks (i : ImgSt) (b : Burst) : Option Lack :=
  match b.awaited with
  | some g => some (.granule g)
  | none =>
    if b.runs.isEmpty then
      some (.sequencer (((i.img.segOfInstr b.ip).map (fun n => !i.resident.contains n)).getD false))
    else none

/-- The granule is one of the first 16 of its segment: part of the head of a transfer target (03 R103). -/
def ImgSt.inHead (i : ImgSt) (g : Nat) : Bool :=
  (List.range i.img.segments.length).any (fun n =>
    decide (i.img.granBase n ≤ g) && decide (g < i.img.granBase n + min 16 (i.img.granTotal n)))

/-- The cause fits what is missing (R101, R109, R112). -/
def State.causeFits (s : State) (i : ImgSt) (c : Short) (l : Lack) : Bool :=
  match l with
  | .granule g =>
    if (s.mcAt (i.mcOf g)).mode = 3 then c == .fence
    else c == .lateFetch || c == .refresh || c == .retrain || (c == .prefetch && i.inHead g)
  | .sequencer instr => c == .sequencer || (c == .instr && instr)

/-- Memory channel of the granule that is awaited. -/
def Lack.mc (i : ImgSt) : Lack → Option Nat
  | .granule g => some (i.mcOf g)
  | .sequencer _ => none

/-- Granule that is awaited. -/
def Lack.gran : Lack → Option Nat
  | .granule g => some g
  | .sequencer _ => none

/-- Payload of 0x5D0 and 0x5D1 for the next position (R116). -/
def Burst.shortWords (r : Nat) (i : ImgSt) (b : Burst) (c : Short) (l : Lack) : List Nat :=
  let d := b.runs.head?
  let v := ((d.bind (fun d => d.vecAt d.done)).getD b.vp)
  let at_ := (i.img.segOfVec v).getD (((i.img.segOfInstr b.ip).getD 0), 0)
  let site := lowest (b.sites.map (·.val))
  let ldep := (d.map (·.ldep)).getD b.loops.length
  let left := (d.map (·.left)).getD ((b.loops.head?.map (·.count)).getD 0)
  [site + r * 2 ^ 7 + shortCode c * 2 ^ 12 + ((l.mc i).getD 0) * 2 ^ 16 + b2n b.pausable * 2 ^ 21 +
     b2n (l.mc i).isSome * 2 ^ 22,
   b.handle + ldep * 2 ^ 6, b.emitted % 2 ^ 32, b.emitted / 2 ^ 32 % 2 ^ 16, at_.1, at_.2,
   (l.gran.map (fun g => Config.granuleAddr (imgKey b.part.val b.handle) g % 2 ^ 32)).getD 0xFFFFFFFF, left]

/-- Position missing at its due cycle: the burst pauses, or ends (R110–R112). -/
def State.missing (s : State) (r : Nat) (c : Short) : State :=
  match s.burstAt r with
  | some b =>
    match s.imgOf b with
    | some i =>
      match b.lacks i with
      | some l =>
        if b.raster || !decide (b.phase = .running) || b.waiting || b.paused.isSome || !b.before b.cycle || b.spent ||
            !b.cols.isEmpty || !s.causeFits i c l then s
        else
          let s := s.moveTo (nsOf b.nextStart)
          let words := b.shortWords r i c l
          if b.pausable && c != .fence then
            let s := s.putBurst r { b with
              paused := some { cause := c, gran := l.gran, mc := l.mc i, words }, stretched := true }
            if b.stretched then s else s.event 0x5D1 words (b.sites.map (fun k => .site k.val))
          else State.underrun raiseTop s r b words
      | none => s
    | none => s
  | none => s

/-- STRETCH_LIMIT that bounds a burst: the smallest one of its sites, 0 standing for none (R112;
notes/assumptions/88.md). -/
def State.stretchLimit (s : State) (b : Burst) : Option Nat :=
  minOf ((b.sites.map (fun k => s.parN 10 k.val 0x110)).filter (fun l => decide (l ≠ 0)))

/-- Hold cycles at which the limit is reached; none without one. -/
def State.stretchMax (s : State) (b : Burst) : Option Nat :=
  (s.stretchLimit b).map (fun l => ceilDiv (l * 4000000) (max 1 b.period))

/-- Every island holds min(192, remaining positions) positions again. -/
def Burst.refilled (b : Burst) : Bool := decide (pumpLead ≤ b.cols.length) || (b.halted && b.runs.isEmpty)

/-- The islands hold their positions again in the present cycle: the missing one follows 48 cycles later (R111). -/
def State.resume (s : State) (r : Nat) : State :=
  match s.burstAt r with
  | some b =>
    match b.paused with
    | some _ =>
      let m := max b.cycle (b.cycleAt (4000 * s.now))
      let n := m + 48 - b.cycle
      let late := match s.stretchMax b with
        | some k => decide (k ≤ b.holds + n)
        | none => false
      if late || !b.before (m + 48) || !b.refilled || b.spent then s
      else s.holdCycles r b (m + 48) (fun b => { b with paused := none, holds := b.holds + n })
    | none => s
  | none => s

/-- The hold cycles of a pausable burst reach the limit (R112). -/
def State.stretchEnd (s : State) (r : Nat) : State :=
  match s.burstAt r with
  | some b =>
    match b.paused, s.stretchMax b with
    | some c, some k =>
      let n := k - b.holds
      if b.before (b.cycle + n) then
        let b := { s.holdTo b (b.cycle + n) with holds := b.holds + n }
        State.underrun raiseTop (s.moveTo (nsOf b.nextStart)) r b c.words
      else s
    | _, _ => s
  | none => s

/-! ## Early ends (02 R65–R67) -/

/-- The early end that acts first. -/
def Burst.firstAct (b : Burst) : Option Term :=
  (b.terms.filter (fun t => t.way != .atEnd)).foldl (fun acc t =>
    match acc with
    | none => some t
    | some u => if t.act < u.act then some t else some u) none

/-- Armed sets that STAMP armed, of the burst's program. -/
def State.stampSets (s : State) (b : Burst) : List Nat :=
  b.sets.filter (fun m => s.msPar m 0x00B == 0 && (s.msAt m).armed)

/-- Of those, the sets that wait for the end of the burst (07 R224). -/
def State.endingSets (s : State) (b : Burst) : List Nat :=
  b.sets.filter (fun m => (s.msAt m).armed && (s.msAt m).upto.isSome)

/-- Edges stamped before this time count for the sets of a burst: the start of the last position's cycle + 4P
(07 R224). -/
def Burst.lastSeen (b : Burst) : Nat :=
  match b.lastAt with
  | some x => x.start + 4 * (x.next - x.start)
  | none => b.curStart + 4 * b.period

/-- Publish them at an early end (07 R224). -/
def State.earlySets (s : State) (b : Burst) : State :=
  let inv := b.result.res == .invalid || b.result.res == .aborted
  (s.stampSets b).foldl (fun s m => s.disarmSet m true inv) s

/-- Cycles follow in which an early end can act: not when every position is emitted and no wait holds the end (R65). -/
def Burst.goesOn (b : Burst) : Bool := decide (b.phase = .running) && (!b.spent || !b.waits.isEmpty)

/-- The act cycle of an asynchronous early end: the lanes leave the program (R65, R67). -/
def State.asyncAct (s : State) (r : Nat) : State :=
  match s.burstAt r with
  | some b =>
    match b.firstAct with
    | some t =>
      if b.goesOn && (decide (t.act ≤ b.cycle) || b.waiting || b.paused.isSome) then
        let safe := b.terms.any (fun u => u.way == .safe && decide (u.act ≤ t.act))
        let n := if b.paused.isSome then t.act - b.cycle else 0
        let end_ := (s.holdTo b t.act).nextStart
        let s := (s.holdCycles r b t.act (fun b => Burst.stopNow { b with holds := b.holds + n })).moveTo (nsOf end_)
        let s := b.sites.foldl (fun s k =>
          if safe then ((s.safeSite k.val).dischargeSite k.val).updSite k.val (fun x => { x with safe := true })
          else if t.way = .keep then s
          else s.stopSiteAt end_ k.val) s
        (if t.way = .keep then s.lanesMode b .hold else s).earlySets b
      else s
    | none => s
  | none => s

/-- The run-time limit of the task passes (R67). -/
def State.runLimit (s : State) (r : Nat) : State :=
  match s.burstAt r with
  | some b =>
    match b.startTick with
    | some t0 =>
      if decide (0 < b.runLimit) && b.live && !(b.terms.any (fun t => decide (t.result = invalidRes rOVERTIME))) then
        let due := t0 + 1000 * b.runLimit
        let k := b.cycleAt (4000 * due)
        let t : Term := { time := nsOf (b.cycleStart k), act := max b.cycle (k + 48), way := .stop
                          result := invalidRes rOVERTIME }
        (s.moveTo due).putBurst r { b with terms := b.terms ++ [t] }
      else s
    | none => s
  | none => s

/-! ## The end and the result (02 R64, R67; 06 R187) -/

/-- The burst has come to its end: its program is halted and every position is emitted, or it stopped early. -/
def Burst.ended (b : Burst) : Bool :=
  decide (b.phase = .draining) ||
    (decide (b.phase = .running) && b.spent && b.waits.isEmpty && b.paused.isNone)

/-- The burst ends: the engine returns to the pool, the values between bursts apply. -/
def State.endOf (s : State) (r : Nat) : State :=
  match s.burstAt r with
  | some b =>
    if !b.ended then s
    else
      let early := decide (b.phase = .draining)
      let s := if early then s
        else
          ((s.actRest r b).lanesMode b .hold).moveTo (nsOf b.nextStart)
      let s := s.tcApply b
      match s.burstAt r with
      | none => s
      | some b =>
        let b := if early then b
          else { b with ctls := [], terms := b.terms.filter (fun t => t.way == .atEnd) }
        let s := if early then
            (if b.isStarted then s.earlySets b
             else if b.terms.any (fun t => t.way == .safe) then
               b.sites.foldl (fun s k =>
                 ((s.safeSite k.val).dischargeSite k.val).updSite k.val (fun x => { x with safe := true })) s
             else s)
          else (s.stampSets b).foldl (fun s m => s.updMs m (fun x =>
            { x with upto := some (b.lastSeen * 16) })) s
        let s := b.sites.foldl (fun s k => s.updSite k.val (fun t =>
          if b.isStarted then { t with ebMin := b.minFill k.val } else t)) s
        let s := if b.raster then s.keepChk (r - 32) b.entry else s
        let s : State := { s.delBurst r with ve.drain := s.ve.drain ++ [(r, b)] }
        s.applyPend
  | none => s

/-- Cycle start after the last position, in ns (06 R208 BURST_END); with no position, the start of cycle 0. -/
def Burst.endTime (b : Burst) : Nat := nsOf ((b.lastAt.map (·.next)).getD (b.nextStart - b.elapsed))

/-- What a site receives with the final result of its burst (06 R192–R194, R197, R210; 03 R117). -/
def State.siteResult (s : State) (b : Burst) (res : SiteResult) (k : Nat) : State :=
  let early := res.res == .invalid || res.res == .aborted
  let s := s.updSite k (fun t => { t with
    underrun := if res = invalidRes rUNDERRUN ∧ !b.raster then satAdd t.underrun 1 0xFFFFFFFF else t.underrun
    stretch := if res.stretched then satAdd t.stretch 1 0xFFFFFFFF else t.stretch })
  let s := (List.range 16).foldl (fun s u =>
    if s.parN 5 u 0x040 ≠ k then s
    else match s.parN 5 u 0x045 with
      | 1 => if (s.cuAt u).mode = 1 then s.endCapture u (early && (s.cuAt u).upto.isNone) else s
      | 2 => (s.closeData k u).updCu u (fun c => { c with mode := 0 })
      | _ => s) s
  let s := (s.statEnd k early).logSummary b.part.val k res
  let l := (s.siteAt k).log
  let s := if 0 < l.lostFull + l.lostRate then s.event 0x540 [k, l.lostFull, l.lostRate] [.site k] else s
  let s := s.updSite k (fun t => { t with log := { t.log with held := s.parN 5 k 0x013 == 1 } })
  let f := (s.siteAt k).failCount
  s.sitePushAll k { type := tBURSTEND, source := k, rflags := 0, time := b.endTime, len := 1
                    words := [res.code, f % 2 ^ 32, f / 2 ^ 32 % 2 ^ 16, l.lostFull + l.lostRate, 0, 0] }

/-- The result of the oldest ended burst of a runner is final: completion, charge and reservation released. -/
def State.finalOf (s : State) (r : Nat) : State :=
  match s.ve.drain.find? (fun x => x.1 == r) with
  | some (_, b) =>
    if b.flight.isEmpty && s.allChecked r b then
      let res := b.result
      let s : State := { s with ve.drain := s.ve.drain.eraseP (fun x => x.1 == r) }
      let s := if b.isStarted then
          b.sites.foldl (fun s k => s.siteResult b (b.resultOf k) k.val) ((s.endingSets b).foldl (fun s m => s.disarmSet m false false) s)
        else s
      (s.reportTask b (b.words r res.code) res.code).applyPend
    else s
  | none => s

end Sys2Proof.Machine
end

