-- ==== Sys2Proof/Machine/Micro.lean ====
section
/-!
DEFINITION. Microwords: their decoding, what the register micro-ops compute, the next control-store address (02
R70–R76).
-/

namespace Sys2Proof.Machine

/-- Conditions of BR and CALLU (R74). -/
inductive Cond where
  | al | z | nz | n | nn | c | nc | lz | lfull | lempty | rfull | rempty | res
  deriving DecidableEq, Repr

/-- Conditions by their code; the others are reserved. -/
def conds : List Cond := [.al, .z, .nz, .n, .nn, .c, .nc, .lz, .lfull, .lempty, .rfull, .rempty, .res]

/-- Micro-ops that compute on registers with flags (R73). -/
inductive Alu where
  | movi | mov | add | addi | sub | and | or | shr | ext | cmp | shl | xor
  deriving DecidableEq, Repr

/-- Micro-ops without a register operand. -/
inductive Plain where
  | nop | retu | decl | pushr | popr | commit | disp
  deriving DecidableEq, Repr

/-- Micro-ops that hand SRCA to a unit of the engine. -/
inductive Unit1 where
  | pushl | popl | seg | pref | fsync | rdff | clrff | postv | postc | mtch
  deriving DecidableEq, Repr

/-- A decoded micro-op: registers by their number, the immediate of its format. -/
inductive MicroOp where
  | plain (op : Plain)
  | alu (op : Alu) (dst a b imm : Nat)
  | br (call : Bool) (cond : Cond) (target : Nat)
  | unit1 (op : Unit1) (dst a imm : Nat)
  | trap (code : Nat)
  deriving DecidableEq, Repr

/-- A microword without its parity bit: the micro-op, and NEXT. -/
structure MicroWord where
  next : Nat
  op   : MicroOp
  deriving DecidableEq, Repr

/-- Even parity over [39:0] (R70). -/
def microParity (w : Nat) : Bool := ((List.range 40).map (bit w)).sum % 2 == 0

/-- Format of a micro-op: R, S, I, B, N, by UOP (R73). -/
def microFormat (uop : Nat) : Char :=
  if [0x00, 0x0D, 0x0F, 0x11, 0x12, 0x1E, 0x1F].contains uop then 'N'
  else if uop = 0x01 then 'I'
  else if uop = 0x0B ∨ uop = 0x0C then 'B'
  else if [0x02, 0x03, 0x05, 0x06, 0x07, 0x0A, 0x1D].contains uop then 'R'
  else 'S'

/-- Micro-op of a UOP on its operand field; none where the operand pattern is reserved. -/
def microOp (uop ops : Nat) : Option MicroOp :=
  let dst := bits ops 21 17
  let a := bits ops 16 12
  let b := bits ops 11 7
  let imm := bits ops 11 0
  match microFormat uop with
  | 'N' =>
    if ops ≠ 0 then none
    else match uop with
      | 0x00 => some (.plain .nop) | 0x0D => some (.plain .retu) | 0x0F => some (.plain .decl)
      | 0x11 => some (.plain .pushr) | 0x12 => some (.plain .popr) | 0x1E => some (.plain .commit)
      | _ => some (.plain .disp)
  | 'I' => some (.alu .movi dst 0 0 (bits ops 16 0))
  | 'B' =>
    if ops % 32 ≠ 0 then none
    else (conds[dst]?).map (fun c => .br (uop == 0x0C) c (bits ops 16 5))
  | 'R' =>
    if ops % 128 ≠ 0 then none
    else match uop with
      | 0x02 => some (.alu .mov dst a 0 0) | 0x03 => some (.alu .add dst a b 0) | 0x05 => some (.alu .sub dst a b 0)
      | 0x06 => some (.alu .and dst a b 0) | 0x07 => some (.alu .or dst a b 0) | 0x0A => some (.alu .cmp 0 a b 0)
      | _ => some (.alu .xor dst a b 0)
  | _ => match uop with
    | 0x04 => some (.alu .addi dst a 0 imm)
    | 0x08 => some (.alu .shr dst a 0 imm)
    | 0x09 => if 1 ≤ imm % 64 ∧ imm % 64 ≤ 48 then some (.alu .ext dst a 0 imm) else none
    | 0x0E => some (.unit1 .pushl dst a imm)
    | 0x10 => some (.unit1 .popl dst a imm)
    | 0x13 => some (.unit1 .seg dst a imm)
    | 0x14 => some (.unit1 .pref dst a imm)
    | 0x15 => some (.unit1 .fsync dst a imm)
    | 0x16 => some (.unit1 .rdff dst a imm)
    | 0x17 => some (.unit1 .clrff dst a imm)
    | 0x18 => if imm % 4 = 3 then none else some (.unit1 .postv dst a imm)
    | 0x19 => some (.unit1 .postc dst a imm)
    | 0x1A => some (.unit1 .mtch dst a imm)
    | 0x1B => some (.trap imm)
    | _ => some (.alu .shl dst a 0 imm)

/-- Decode a microword; none on odd parity or a reserved pattern, both machine checks (R74, R82). -/
def decodeMicro (w : Nat) : Option MicroWord :=
  if microParity w then (microOp (bits w 26 22) (bits w 21 0)).map (fun op => { next := bits w 38 27, op }) else none

/-- Sign extension of IMM12. -/
def imm12 (n : Nat) : BitVec 48 := (BitVec.ofNat 12 n).signExtend 48

/-- What a register micro-op computes from SRCA and SRCB, with its carry or borrow. -/
def Alu.eval (op : Alu) (x y : BitVec 48) (imm : Nat) : BitVec 48 × Bool :=
  match op with
  | .movi => (BitVec.ofNat 48 imm, false)
  | .mov => (x, false)
  | .add => (x + y, decide (2 ^ 48 ≤ x.toNat + y.toNat))
  | .addi => (x + imm12 imm, decide (2 ^ 48 ≤ x.toNat + (imm12 imm).toNat))
  | .sub | .cmp => (x - y, decide (x.toNat < y.toNat))
  | .and => (x &&& y, false)
  | .or => (x ||| y, false)
  | .xor => (x ^^^ y, false)
  | .shr => (x >>> (imm % 64), false)
  | .shl => (x <<< (imm % 64), false)
  | .ext => ((x >>> (imm / 64 % 64)) &&& BitVec.ofNat 48 (2 ^ (imm % 64) - 1), false)

/-- Flags that a register micro-op sets (R73). -/
def Alu.flags (op : Alu) (v : BitVec 48) (carry : Bool) (m : Micro) : Micro :=
  match op with
  | .movi | .mov => m
  | .ext => { m with z := v == 0 }
  | .and | .or | .xor | .shr | .shl => { m with z := v == 0, n := v.getLsbD 47 }
  | .add | .addi | .sub | .cmp => { m with z := v == 0, n := v.getLsbD 47, c := carry }

/-- A register micro-op on the temporaries and flags; a write of another register is the burst's. -/
def Alu.run (op : Alu) (dst a b imm : Nat) (reg : Nat → BitVec 48) (m : Micro) : Micro :=
  let (v, carry) := op.eval (reg a) (reg b) imm
  let m := op.flags v carry m
  if op ≠ .cmp ∧ 16 ≤ dst ∧ dst < 32 then { m with temps := Tbl.put m.temps (dst - 16) v } else m

/-- A condition holds (R74). -/
def Cond.holds (m : Micro) (loops : List LoopEnt) (rets : List RetEnt) : Cond → Bool
  | .al => true
  | .z => m.z | .nz => !m.z
  | .n => m.n | .nn => !m.n
  | .c => m.c | .nc => !m.c
  | .lz => (loops.head?.map (·.count)) == some 0
  | .lfull => loops.length == 8
  | .lempty => loops.isEmpty
  | .rfull => rets.length == 8
  | .rempty => rets.isEmpty
  | .res => m.res

/-- Control-store address of the next microword: NEXT, a taken branch, the return; DISP goes to the entry of the
opcode (R73, R75). -/
def MicroWord.goes (w : MicroWord) (m : Micro) (loops : List LoopEnt) (rets : List RetEnt) (opcode : Nat) : Nat :=
  match w.op with
  | .br _ c t => if c.holds m loops rets then t else w.next
  | .plain .retu => m.ulink
  | .plain .disp => opcode
  | _ => w.next

/-- ULINK after a microword. -/
def MicroWord.link (w : MicroWord) (m : Micro) (loops : List LoopEnt) (rets : List RetEnt) : Micro :=
  match w.op with
  | .br true c _ => if c.holds m loops rets then { m with ulink := w.next } else m
  | _ => m

/-- Microwords since the last commit point; the 25th is a machine check (R76). -/
def MicroWord.counts (w : MicroWord) (m : Micro) : Micro × Bool :=
  match w.op with
  | .plain .commit | .plain .disp => ({ m with gap := 0 }, decide (25 ≤ m.gap + 1))
  | _ => ({ m with gap := m.gap + 1 }, decide (25 ≤ m.gap + 1))

end Sys2Proof.Machine
end

