-- ==== Sys2Proof/Machine/Microcode.lean ====
section
/-!
DEFINITION. How an engine executes a pattern instruction: by the routine of its control store, from one commit point to
the next (02 R70–R78, R82); where the image in the control store is given by its version only, by the meaning that every
released image gives the instruction (R80; notes/assumptions/87.md).
-/

namespace Sys2Proof.Machine

/-! ## Control descriptors and time-outs that an instruction stages -/

/-- The burst's sites fail by a time-out with TOFAIL; its record waits until position `pos` is final (R58, R61). -/
def Burst.toFailAt (kind pos : Nat) (place : Option PosAt) (b : Burst) : Burst :=
  { b with failFlag := true, failSites := b.sites, owed := b.owed ++ [{ kind, pos, place }] }

/-- The control descriptor that a pattern instruction stages (R62). -/
def ctlOf : Instr → Option Ctl
  | .mark _ out act => some (.mark out act)
  | .signal _ tok => some (.signal tok)
  | .tset _ ts groups off => some (.tset ts groups off)
  | .stream _ v k act => some (.stream v k act)
  | .capon _ c => some (.capon c)
  | .capoff _ c => some (.capoff c)
  | .stamp _ m dis => some (.stamp m dis)
  | .inj _ g c => some (.inj g c)
  | .failstop _ en => some (.failstop en)
  | _ => none

/-- A trigger wait of the next position (R59). -/
def Burst.armWait (trigger timeout : Nat) (latch toFail : Bool) (b : Burst) : Burst :=
  { b with trigTo := false, waits := b.waits ++ [{ selector := trigger, pos := b.vix, timeout, toFail, latch }] }

/-- What POSTC stages for the instruction of its kind: a control descriptor, a trigger wait, the end of the instruction
stream (R73; notes/assumptions/87.md). -/
def Burst.stage (i : Instr) (b : Burst) : Option Burst :=
  match i with
  | .wtrg _ trigger timeout latch toFail => some (b.armWait trigger timeout latch toFail)
  | .halt _ => some { b with halted := true }
  | i => (ctlOf i).map (fun c => { b with ctls := b.ctls ++ [{ pos := b.vix, ctl := c }] })

/-! ## The routine between two commit points -/

/-- Staged state of a routine: the burst, IP, and what is not architectural (R72). -/
structure MRun where
  b     : Burst
  m     : Micro
  ip    : Nat
  moved : Bool
  deriving DecidableEq, Repr

/-- What a microword leads to. -/
inductive MNext where
  /-- The next control-store address. -/
  | go (pc : Nat) (x : MRun)
  | commit (pc : Nat) (x : MRun)
  | disp (x : MRun)
  | stall
  /-- Machine check, by the offset of its event. -/
  | check (off : Nat)
  deriving DecidableEq, Repr

/-- The override that TSO shows: the one that an instruction or a routine made last. -/
def Burst.lastTso (b : Burst) : Option Nat := b.tsoNext.getLast?.map (·.2)

/-- Fail-stop once every staged descriptor has acted. -/
def Burst.fsNext (b : Burst) : Bool :=
  b.ctls.foldl (fun v d => match d.ctl with
    | .failstop en => en
    | _ => v) b.fsEn

/-- Registers of the micro-sequencer (R72). -/
def microReg (m : Micro) (b : Burst) (ip opd modf : Nat) (r : Nat) : BitVec 48 :=
  match r with
  | 1 => BitVec.ofNat 48 ip
  | 2 => BitVec.ofNat 48 b.vp
  | 3 => BitVec.ofNat 48 b.vix
  | 4 => BitVec.ofNat 48 opd
  | 5 => BitVec.ofNat 48 (modf % 2 ^ 10)
  | 6 => BitVec.ofNat 48 ((b.loops.head?.map (·.count)).getD 0)
  | 7 => BitVec.ofNat 48 b.loops.length
  | 8 => BitVec.ofNat 48 b.rets.length
  | 9 => BitVec.ofNat 48 ((b.lastTso.map (64 + ·)).getD 0)
  | 10 => BitVec.ofNat 48 (b2n b.fsNext)
  | 11 => BitVec.ofNat 48 (b2n b.matchTo + 2 * b2n b.trigTo + 4 * b2n (!b.latched.isEmpty))
  | 12 => BitVec.ofNat 48 b.home.val
  | 13 => BitVec.ofNat 48 b.cycle
  | _ => if 16 ≤ r ∧ r < 32 then Tbl.get m.temps 0 (r - 16) else 0

/-- Write a register; a read-only one keeps its value. TSO and FSEN stage the descriptor that changes them. -/
def MRun.put (x : MRun) (r : Nat) (v : BitVec 48) : MRun :=
  let post (c : Ctl) : MRun := { x with b := { x.b with ctls := x.b.ctls ++ [{ pos := x.b.vix, ctl := c }] } }
  match r with
  | 1 => { x with ip := v.toNat, moved := true }
  | 2 => { x with b := { x.b with vp := v.toNat } }
  | 6 => { x with b := { x.b with loops := x.b.loops.modifyHead (fun l => { l with count := v.toNat }) } }
  | 9 => post (.tset (toFin 64 v.toNat (by decide)) (BitVec.allOnes 16) (!v.getLsbD 6))
  | 10 => post (.failstop (v.getLsbD 0))
  | 11 => { x with b := { x.b with matchTo := v.getLsbD 0, trigTo := v.getLsbD 1
                                   latched := if v.getLsbD 2 then x.b.latched else [] } }
  | _ => if 16 ≤ r ∧ r < 32 then { x with m := { x.m with temps := Tbl.put x.m.temps (r - 16) v } } else x

/-- The micro-op answers a value with flag Z. -/
def MRun.answer (x : MRun) (dst : Nat) (v : BitVec 48) : MRun := { x with m := { x.m with z := v == 0 } }.put dst v

/-- IP and VP go to a place. -/
def MRun.jump (x : MRun) (ip vp : Nat) : MRun := { x with b := { x.b with vp }, ip, moved := true }

/-- Where execution goes on after the instruction, as its routine has it so far. -/
def MRun.next (img : Image) (x : MRun) : Nat × Nat := if x.moved then (x.ip, x.b.vp) else img.after x.m.ir x.b.vp

/-- A staged run descriptor of a routine; positions posted while it has the match unit armed form a body. -/
def Burst.postRun (i : ImgSt) (kind : RunKind) (n ip : Nat) (b : Burst) : Burst :=
  if n = 0 then b else b.post i { kind, first := b.vix, n, vp := b.vp, ip, inMatch := b.unit.isSome }

/-- The vector that a run of a kind issues last. -/
def Burst.issued (kind : RunKind) (n : Nat) (b : Burst) : Burst :=
  match kind with
  | .seq => { b with lastIssued := some (b.vp + n - 1), vp := b.vp + n }
  | .repeated => { b with lastIssued := some b.vp, vp := b.vp + 1 }
  | .hold => b

/-- Iterations of a match unit armed by a routine that match: their ends, with their numbers. -/
def MatchSt.found (upto : Int) (u : MatchSt) : Nat :=
  (((u.ends.zipIdx 1).find? (fun e => decide ((e.1 : Int) ≤ upto) && (u.failing.contains e.2 == u.sense))).map (·.2)).getD 0

/-- A micro-op that hands SRCA to a unit of the engine (R73). -/
def MRun.unit1 (x : MRun) (e : Eng) (i : ImgSt) (op : Unit1) (dst : Nat) (a : BitVec 48) (imm modf pc : Nat) : MNext :=
  let n := a.toNat
  match op with
  | .pushl =>
    let at_ := x.next i.img
    if 8 ≤ x.b.loops.length then .check 2
    else .go pc { x with b := { x.b with loops := { count := n % 2 ^ 32, ip := at_.1, vp := at_.2 } :: x.b.loops } }
  | .popl =>
    if 8 < n then .check 1
    else if x.b.loops.length < n then .check 2
    else .go pc { x with b := { x.b with loops := x.b.loops.drop n } }
  | .seg =>
    match i.img.enter (n % 2 ^ 24) with
    | some t =>
      let y := x.jump t.1 t.2
      .go pc { y with m := { y.m with res := i.resident.contains (n % 2 ^ 24) } }
    | none => .check 1
  | .pref =>
    let k := n % 2 ^ 24
    let heads := if i.resident.contains k then [] else
      (List.range (min 16 (i.img.granTotal k))).map (fun j => ({ ip := x.m.ir, gran := i.img.granBase k + j } : HeadReq))
    .go pc { x with b := { x.b with strm := { x.b.strm with heads := x.b.strm.heads ++ heads } } }
  | .fsync => if a.toInt < 0 ∨ x.b.finalTo a.toInt then .go pc x else .stall
  | .rdff => .go pc (x.answer dst (BitVec.ofNat 48 (b2n (x.b.jfTest a.toInt))))
  | .clrff => .go pc { x with b := x.b.jfClear a.toInt }
  | .postv =>
    let kind : RunKind := match imm % 4 with
      | 0 => .seq
      | 1 => .repeated
      | _ => .hold
    .go pc { x with b := (x.b.postRun i kind n x.m.ir).issued kind n }
  | .postc =>
    match (decodePat e (patWord (imm % 32) modf n)).bind (fun c => x.b.stage c) with
    | some b => .go pc { x with b }
    | none => .check 1
  | .mtch =>
    match imm % 4, x.b.unit with
    | 0, _ =>
      if n = 0 then .check 1
      else
        let u : MatchSt :=
          { body := 0, len := n, maxIter := 0, sense := bit imm 2 == 1, toFail := false, first := x.b.vix, decided := 1
            failing := [], micro := true }
        .go pc { x with b := { x.b with unit := some u } }
    | 1, some u => .go pc { x with b := { x.b with unit := some { u with ends := u.ends ++ [x.b.vix - 1] } } }
    | 2, some u =>
      let k := u.found a.toInt
      let y := x.answer dst (BitVec.ofNat 48 k)
      .go pc { y with b := { y.b with matchIter := k } }
    | 3, _ => .go pc { x with b := { x.b with unit := none } }
    | 2, none => .go pc (x.answer dst 0)
    | _, _ => .go pc x

/-- A micro-op without operands. -/
def MRun.plain (x : MRun) (img : Image) (op : Plain) (pc : Nat) : MNext :=
  match op with
  | .nop | .retu => .go pc x
  | .decl =>
    match x.b.loops with
    | [] => .check 2
    | l :: r =>
      let y := { x with b := { x.b with loops := { l with count := l.count - 1 } :: r } }
      if l.count - 1 = 0 then .go pc { y with m := { y.m with z := true } }
      else
        let y := y.jump l.ip l.vp
        .go pc { y with m := { y.m with z := false } }
  | .pushr =>
    let at_ := x.next img
    if 8 ≤ x.b.rets.length then .check 2
    else .go pc { x with b := { x.b with rets := { ip := at_.1, vp := at_.2 } :: x.b.rets } }
  | .popr =>
    match x.b.rets with
    | [] => .check 2
    | t :: r => .go pc ({ x with b := { x.b with rets := r } }.jump t.ip t.vp)
  | .commit => if x.b.runs.length ≤ 64 then .commit pc x else .stall
  | .disp => if x.b.runs.length ≤ 64 then .disp x else .stall

/-- One microword of the routine of instruction word `w` (R73). -/
def MRun.word (x : MRun) (e : Eng) (i : ImgSt) (w : IWord) (u : MicroWord) : MNext :=
  let opd := w.toNat % 2 ^ 48
  let modf := w.toNat / 2 ^ 48 % 2 ^ 10
  let reg := microReg x.m x.b x.ip opd modf
  let pc := u.goes x.m x.b.loops x.b.rets 0
  let c := u.counts x.m
  if c.2 then .check 1
  else
    let x := { x with m := u.link c.1 x.b.loops x.b.rets }
    match u.op with
    | .plain op => x.plain i.img op pc
    | .alu op dst a b imm =>
      let y := { x with m := op.run dst a b imm reg x.m }
      .go pc (if op = .cmp ∨ 16 ≤ dst then y else y.put dst (op.eval (reg a) (reg b) imm).1)
    | .br _ _ _ => .go pc x
    | .unit1 op dst a imm => x.unit1 e i op dst (reg a) imm modf pc
    | .trap _ => .check 1

/-- Microwords run until the next commit point; the address goes with a machine check. Odd parity is one with event +0,
an operand pattern that R74 reserves one with event +1. -/
def MRun.run (e : Eng) (i : ImgSt) (w : IWord) (store : List (BitVec 40)) : Nat → Nat → MRun → Nat × MNext
  | 0, pc, _ => (pc, .check 1)
  | k + 1, pc, x =>
    let v := ((store[pc]?).getD 0).toNat
    if !microParity v then (pc, .check 0)
    else match decodeMicro v with
      | none => (pc, .check 1)
      | some u =>
        match x.word e i w u with
        | .go pc' x => MRun.run e i w store k pc' x
        | r => (pc, r)

/-- What a commit makes architectural (R73). A match time-out raises event +6; with TOFAIL in a MATCH instruction the
site fails (R58). -/
def State.microCommit (s : State) (e : Eng) (w : IWord) (old : Burst) (x : MRun) (pc : Option Nat) : State :=
  let timeout := x.b.matchTo && !old.matchTo
  let b := if timeout && w.toNat / 2 ^ 58 == 0x0A && bit w.toNat 49 == 1 then
      x.b.toFailAt 2 (x.b.vix - 1) none else x.b
  let s := (s.updEng e.val (fun n => { n with micro := { x.m with pc, moved := x.moved } })).putBurst e.val b
  if timeout then s.event (0x106 + 8 * e.val) else s

/-- An engine executes an instruction by its control store, up to the next commit point. A stall, in which nothing of
the routine since the last commit point has taken effect, changes nothing (R77). -/
def State.microRun (s : State) (e : Eng) (i : ImgSt) (b : Burst) (ir : Nat) (w : IWord) : State :=
  let n := s.engAt e.val
  let mid := n.micro.pc.isSome
  let x : MRun :=
    { b, m := { n.micro with ir, lastIp := ir }, ip := if mid && n.micro.moved then b.ip else ir + 1
      moved := mid && n.micro.moved }
  let r := MRun.run e i w n.ucode.words 25 (n.micro.pc.getD (w.toNat / 2 ^ 58)) x
  match r.2 with
  | .stall | .go _ _ => s
  | .check off => s.machineCheck e.val off (some (r.1, 0x10 + e.val, if off = 0 then 3 else 2))
  | .commit pc x =>
    let b := if x.moved then { x.b with ip := x.ip } else { x.b with ip := ir }
    s.microCommit e w b { x with b } (some pc)
  | .disp x =>
    let at_ := x.next i.img
    s.microCommit e w b { x with b := { x.b with ip := at_.1, vp := at_.2 }, moved := false } none

/-! ## Executing an instruction -/

/-- Executing an instruction: it must be the one that the engine executes next, or goes on with after a commit point
inside its routine; otherwise nothing happens. Then the fetch queue has moved on. -/
def State.pattern (s : State) (e : Eng) (i : Instr) (f : Burst → ImgSt → State → State) : State :=
  match s.fetch e with
  | some (b, m) =>
    let n := s.engAt e.val
    let ir := if n.micro.pc.isSome then n.micro.ir else b.ip
    match m.img.wordAt ir with
    | some w =>
      if decodePat e w = some i then
        let s := if n.ucode.words.isEmpty then
            f b m (s.updEng e.val (fun x => { x with micro := { x.micro with ir, lastIp := ir } }))
          else s.microRun e m b ir w
        s.updBurst e.val (fun b => (b.prefetch m (some ir)).pump)
      else s
    | none => s
  | none => s

/-- An instruction that changes its burst only. -/
def State.patternB (s : State) (e : Eng) (i : Instr) (f : Burst → ImgSt → Burst) : State :=
  s.pattern e i (fun b m s => s.putBurst e.val (f b m))

end Sys2Proof.Machine
end

