-- ==== Sys2Proof/Machine/Pattern.lean ====
section
/-!
DEFINITION. The pattern instructions and the steps of the micro-sequencer's units (02 R47–R64, R75, R82). An
instruction has its effect when it is the one that its engine executes next; a command that names another, or an
engine that executes nothing, changes nothing (notes/assumptions/6.md).
-/

namespace Sys2Proof.Machine

/-- VEC: COUNT vectors from VP (R47). -/
def execVec (e : Eng) (count : Nat) (s : State) : Out :=
  .next (s.patternB e (.vec e count) (fun b m =>
    Burst.step m.img ((b.post m { kind := .seq, first := b.vix, n := count, vp := b.vp, ip := b.ip }).issued .seq count)))

/-- RPT: the vector at VP COUNT times (R47). -/
def execRpt (e : Eng) (count : Nat) (s : State) : Out :=
  .next (s.patternB e (.rpt e count) (fun b m =>
    Burst.step m.img
      ((b.post m { kind := .repeated, first := b.vix, n := count, vp := b.vp, ip := b.ip }).issued .repeated count)))

/-- LOOP: push an entry with the count, the next instruction and VP (R49, R52). -/
def execLoop (e : Eng) (count : Nat) (s : State) : Out :=
  .next (s.pattern e (.loop e count) (fun b m s =>
    if 8 ≤ b.loops.length then s.machineCheck e.val 2
    else
      let x := m.img.after b.ip b.vp
      s.putBurst e.val { b with loops := { count, ip := x.1, vp := x.2 } :: b.loops, ip := x.1, vp := x.2 }))

/-- ENDL: one iteration less; back to the loop's start, or past it (R49, R52). -/
def execEndl (e : Eng) (s : State) : Out :=
  .next (s.pattern e (.endl e) (fun b m s =>
    match b.loops with
    | [] => s.machineCheck e.val 2
    | l :: r =>
      if 1 < l.count then
        s.putBurst e.val { b with loops := { l with count := l.count - 1 } :: r, ip := l.ip, vp := l.vp }
      else s.putBurst e.val (Burst.step m.img { b with loops := r })))

/-- CALL: push the return point and enter the segment (R50, R52). -/
def execCall (e : Eng) (segment : Nat) (s : State) : Out :=
  .next (s.pattern e (.call e segment) (fun b m s =>
    if 8 ≤ b.rets.length then s.machineCheck e.val 2
    else match m.img.enter segment with
      | some x =>
        let back := m.img.after b.ip b.vp
        s.putBurst e.val { b with rets := { ip := back.1, vp := back.2 } :: b.rets, ip := x.1, vp := x.2 }
      | none => s.machineCheck e.val 1))

/-- RET: resume the caller (R50, R52). -/
def execRet (e : Eng) (s : State) : Out :=
  .next (s.pattern e (.ret e) (fun b _ s =>
    match b.rets with
    | [] => s.machineCheck e.val 2
    | x :: r => s.putBurst e.val { b with rets := r, ip := x.ip, vp := x.vp }))

/-- JMP: pop LPOP loops and transfer (R51). -/
def execJmp (e : Eng) (segment lpop : Nat) (s : State) : Out :=
  .next (s.pattern e (.jmp e segment lpop) (fun b m s => s.transfer e m.img b segment lpop))

/-- Horizon of a JF or JNF: v − 224, v being the last position issued (R53). -/
def Burst.horizon (b : Burst) : Int := (b.vix : Int) - 225

/-- JF and JNF: wait until the horizon is final, test, clear, transfer or go on (R53, R54). -/
def State.jumpFail (s : State) (e : Eng) (img : Image) (b : Burst) (segment lpop : Nat) (clr onFail : Bool) : State :=
  let h := b.horizon
  if !b.finalTo h then s
  else
    let b' := if clr then b.jfClear h else b
    if b.jfTest h = onFail then (s.putBurst e.val b').transfer e img b' segment lpop
    else s.putBurst e.val (b'.step img)

/-- JF: transfer when the JF flag up to v − 224 is set (R53). -/
def execJf (e : Eng) (segment lpop : Nat) (clr : Bool) (s : State) : Out :=
  .next (s.pattern e (.jf e segment lpop clr) (fun b m s => s.jumpFail e m.img b segment lpop clr true))

/-- JNF: transfer when the JF flag up to v − 224 is clear (R53). -/
def execJnf (e : Eng) (segment lpop : Nat) (clr : Bool) (s : State) : Out :=
  .next (s.pattern e (.jnf e segment lpop clr) (fun b m s => s.jumpFail e m.img b segment lpop clr false))

/-- Positions of a MATCH body. -/
def bodyLen (img : Image) (segment : Nat) : Nat := ((img.segments[segment]?).map Segment.vecCount).getD 0

/-- Iterations between one and its decision: ⌈224 / L⌉ (R58). -/
def matchLag (l : Nat) : Nat := ceilDiv 224 l

/-- MATCH: arm the match unit and issue iterations up to the decision of the first (R56–R58). -/
def execMatchLoop (e : Eng) (segment maxIter : Nat) (sense toFail : Bool) (s : State) : Out :=
  .next (s.pattern e (.matchLoop e segment maxIter sense toFail) (fun b m s =>
    let l := bodyLen m.img segment
    if l = 0 then s.machineCheck e.val 1
    else
      let b' := b.post m { kind := .seq, first := b.vix, n := (matchLag l + 1) * l, vp := m.img.vecBase segment, wrap := l
                           ip := b.ip, inMatch := true }
      s.putBurst e.val { b' with
        lastIssued := some (m.img.vecBase segment + l - 1)
        unit := some { body := segment, len := l, maxIter, sense, toFail, first := b.vix, decided := 1
                       failing := [] } }))

/-- A match was found in iteration `i`: the instruction after MATCH is skipped (R58). -/
def Burst.matched (img : Image) (i : Nat) (b : Burst) : Burst :=
  let n : Burst := Burst.step img { b with unit := none, matchIter := i, matchTo := false }
  n.step img

/-- Records of the running burst whose turn has come are written (06 R190). -/
def State.flushOwed (s : State) (r : Nat) : State :=
  match s.burstAt r with
  | some b => (s.owedRecs b).updBurst r Burst.owedKept
  | none => s

/-- MATCH times out: execution goes on after it; event +6; TOFAIL makes the site FAIL with a record of the last position
of the last iteration (R58, R190). -/
def State.matchTimeout (s : State) (e : Eng) (img : Image) (b : Burst) (u : MatchSt) : State :=
  let pos := u.first + (u.maxIter + matchLag u.len) * u.len - 1
  let n : Burst := Burst.step img { b with unit := none, matchIter := 0, matchTo := true }
  let n := if u.toFail then n.toFailAt 2 pos (b.lastAt.filter (fun x => x.pos == pos)) else n
  ((s.putBurst e.val n).flushOwed e.val).event (0x106 + 8 * e.val)

/-- MATCH_DECIDE: the match unit decides the oldest undecided iteration (R58). -/
def execMatchDecide (e : Eng) (s : State) : Out :=
  .next (match s.burstAt e.val with
    | some b =>
      match b.unit, s.imgOf b with
      | some u, some i =>
        let l := u.len
        if l = 0 ∨ u.micro ∨ (s.engAt e.val).mode = .fenced ∨
            ¬ b.finalTo ((u.first + u.decided * l : Nat) - 1 : Int) then s
        else if u.failing.contains u.decided = u.sense then s.putBurst e.val (b.matched i.img u.decided)
        else if u.maxIter ≤ u.decided then s.matchTimeout e i.img b u
        else
          let b' := b.post i { kind := .seq, first := b.vix, n := l, vp := i.img.vecBase u.body, wrap := l, ip := b.ip
                               inMatch := true }
          s.putBurst e.val { b' with unit := some { u with decided := u.decided + 1 } }
      | _, _ => s
    | none => s)

/-- Positions of a WAIT: COUNT, or the fewest whose cycles cover COUNT ns at the period in force (R48). -/
def State.waitCount (s : State) (b : Burst) (img : Image) (ns : Bool) (count : Nat) : Nat :=
  if ns then ceilDiv (count * 4000) (max 1 (s.vecPeriod b img b.tsoNext (b.lastIssued.getD (b.firstVec img))))
  else count

/-- WAIT: hold positions (R48). -/
def execWait (e : Eng) (ns : Bool) (count : Nat) (s : State) : Out :=
  .next (s.pattern e (.wait e ns count) (fun b m s =>
    let n := s.waitCount b m.img ns count
    s.putBurst e.val (Burst.step m.img (b.post m { kind := .hold, first := b.vix, n, vp := b.vp, ip := b.ip }))))

/-- WTRG: arm the trigger wait; the position after it waits for a trigger (R59). -/
def execWtrg (e : Eng) (trigger timeout : Nat) (latch toFail : Bool) (s : State) : Out :=
  .next (s.patternB e (.wtrg e trigger timeout latch toFail) (fun b m =>
    Burst.step m.img (b.armWait trigger timeout latch toFail)))

/-- The first wait of a burst has timed out (R61). -/
def Burst.waitOver (w : WtrgSt) (rest : List WtrgSt) (b : Burst) : Burst :=
  let b : Burst := { b with waits := rest, trigTo := true }
  (if w.toFail then b.toFailAt 3 (w.pos - 1) b.lastAt else b).pump

/-- WTRG_TO: cycle w + TIMEOUT passes without a release (R61). -/
def execWtrgTo (e : Eng) (s : State) : Out :=
  .next (
    let s := s.tryRelease e.val
    match s.burstAt e.val with
    | some b =>
      match b.waits with
      | w :: rest =>
        let next := max b.cycle (b.waitFrom + w.timeout + 1)
        if b.waiting && decide (0 < w.timeout) && b.before next then
          (((s.holdCycles e.val b next (Burst.waitOver w rest)).moveTo (nsOf (s.holdTo b next).nextStart)).flushOwed
            e.val).event (0x107 + 8 * e.val)
        else s
      | [] => s
    | none => s)

/-- MARK at the next position (R62). -/
def execMark (e : Eng) (output : MarkOut) (act : Fin 4) (s : State) : Out :=
  .next (s.patternB e (.mark e output act) (fun b m => b.postCtl m.img (.mark output act)))

/-- SIGNAL at the next position (R62). -/
def execSignal (e : Eng) (token : Nat) (s : State) : Out :=
  .next (s.patternB e (.signal e token) (fun b m => b.postCtl m.img (.signal token)))

/-- TSET at the next position (R62). -/
def execTset (e : Eng) (ts : Fin 64) (groups : BitVec 16) (off : Bool) (s : State) : Out :=
  .next (s.patternB e (.tset e ts groups off) (fun b m => b.postCtl m.img (.tset ts groups off)))

/-- STREAM at the next position (R62, 06 R210). -/
def execStream (e : Eng) (value strm : Nat) (act : Fin 3) (s : State) : Out :=
  .next (s.patternB e (.stream e value strm act) (fun b m => b.postCtl m.img (.stream value strm act)))

/-- CAPON at the next position (R62, 06 R197). -/
def execCapon (e : Eng) (config : Nat) (s : State) : Out :=
  .next (s.patternB e (.capon e config) (fun b m => b.postCtl m.img (.capon config)))

/-- CAPOFF at the next position (R62, 06 R197). -/
def execCapoff (e : Eng) (config : Nat) (s : State) : Out :=
  .next (s.patternB e (.capoff e config) (fun b m => b.postCtl m.img (.capoff config)))

/-- STAMP at the next position (R62, 07 R223). -/
def execStamp (e : Eng) (mset : Nat) (disarm : Bool) (s : State) : Out :=
  .next (s.patternB e (.stamp e mset disarm) (fun b m => b.postCtl m.img (.stamp mset disarm)))

/-- INJ at the next position (R62, 08 R247). -/
def execInj (e : Eng) (group : Grp) (conv : Nat) (s : State) : Out :=
  .next (s.patternB e (.inj e group conv) (fun b m => b.postCtl m.img (.inj group conv)))

/-- FAILSTOP from the next position on (R62, R63). -/
def execFailstop (e : Eng) (en : Bool) (s : State) : Out :=
  .next (s.patternB e (.failstop e en) (fun b m => b.postCtl m.img (.failstop en)))

/-- HALT ends the instruction stream (R64). -/
def execHalt (e : Eng) (s : State) : Out :=
  .next (s.patternB e (.halt e) (fun b _ => { b with halted := true }))

/-- CONTROL_DESCRIPTOR_ACT: the descriptors of the next position take effect in its cycle, and after the last position
those that no position follows (R62). -/
def execControlDescriptorAct (r : Runner) (s : State) : Out :=
  .next (match s.burstAt r.val with
    | some b =>
      if b.ended && decide (b.phase = .running) then s.actRest r.val b
      else match b.cols, s.imgOf b with
        | c :: _, some i => if b.canEmit then s.actDue r.val i.img c else s
        | _, _ => s
    | none => s)

/-- ILLEGAL_OPCODE_TRAP: the engine reads a reserved opcode at IP, which no loaded image holds (R46); dispatch runs the
routine at the entry of that opcode: TRAP, a machine check with event +1 (R75). -/
def execIllegalOpcodeTrap (e : Eng) (opcode : Nat) (s : State) : Out :=
  .next (match s.fetch e with
    | some (b, m) =>
      if !reservedOpcode opcode then s
      else if (s.engAt e.val).ucode.words.isEmpty then s.machineCheck e.val 1 (some (opcode, 0x10 + e.val, 2))
      else s.microRun e m b b.ip (patWord opcode 0 0)
    | none => s)

/-- CONTROL_STORE_SCRUB: an idle engine reads its microwords; a parity error fences it (R82). -/
def execControlStoreScrub (e : Eng) (parityError : Bool) (addr : Nat) (s : State) : Out :=
  .next (if parityError && decide ((s.engAt e.val).mode ≠ .fenced) then
      s.machineCheck e.val 0 (some (addr, 0x10 + e.val, 3))
    else s)

end Sys2Proof.Machine
end

