-- ==== Sys2Proof/Machine/Admit.lean ====
section
/-!
DEFINITION. Dispatch: the checks of 10 R284 in their order, the estimate and admission (R289–R291), the order of
service (R285), the choice of an engine (R288), and what a dispatch does (03 R99).
-/

namespace Sys2Proof.Machine

/-- The image of a pattern task. -/
def State.taskImage (s : State) (t : TaskSt) : Option ImgSt := s.imageAt (imgKey t.part.val t.desc.source)

def TaskSt.raster (t : TaskSt) : Bool := t.desc.kind == 1

/-- Channels of the task's sites. -/
def State.taskChans (s : State) (t : TaskSt) : List Nat := (sitesOf t.desc).flatMap (fun k => s.siteChans k.val)

/-- Groups that the burst would use: those that its reachable segments present, or the raster engine's. -/
def State.taskGroups (s : State) (t : TaskSt) : List Nat :=
  if t.raster then groupsOf (s.rseChans t.desc.source)
  else match s.taskImage t with
    | some i => i.img.reachGroups t.desc.entry
    | none => []

/-- Channels that the burst drives or compares. -/
def State.usedChans (s : State) (t : TaskSt) : List Nat :=
  if t.raster then s.rseChans t.desc.source
  else match s.taskImage t with
    | some i => (((i.img.reachSegs t.desc.entry).flatMap (fun n => (i.img.segFmt n).map (fun x => x.1.val)))).eraseDups
    | none => []

/-! ## Step 1: fences -/

/-- A unit of the burst is fenced for good, or the image is damaged. -/
def State.fencedOut (s : State) (t : TaskSt) : Bool :=
  (s.taskGroups t).any (fun g => (s.grpAt g).dead || (s.grpAt g).cmpFenced) ||
    (s.usedChans t).any (fun c => (s.laneAt (s.laneOf c)).fenced) ||
    (if t.raster then (s.rseAt t.desc.source).fenced
     else
       (List.range 32).all (fun e => (s.engAt e).mode == .fenced && !(s.engAt e).sensorFence) ||
       (match s.taskImage t with
        | some i => i.mode == .damaged ||
            ((i.img.reach t.desc.entry).filterMap (fun x => msOf x.2)).any (fun m => (s.msAt m).fenced || s.msDead m) ||
            ((i.img.reach t.desc.entry).filterMap (fun x => convOf x.2)).any (fun c => (s.padcAt c).fenced)
        | none => true))

/-! ## Step 2: ownership and consistency -/

/-- First of a list of resource IDs whose check fails. -/
def firstRes (l : List (Bool × Nat)) : Option Nat := (l.find? (·.1)).map (·.2)

/-- A channel code fits the committed multiplex mode (03 R94). -/
def codeFits (code mux : Nat) : Bool :=
  if code = 1 then mux == 0 else if code = 2 ∨ code = 3 then mux == 1 else mux == 2

/-- Period of a committed set for a burst of site `k`; in a resampled group its shortest cycle (04 R135). -/
def State.dispPeriod (s : State) (k p g ts : Nat) : Option Nat :=
  if s.rsmpGroup k g then
    match (s.grpAt g).rate, (s.siteChans k).find? (fun c => c / 32 == g) with
    | some r, some c => some (r.cycleMin (muxFactor (s.parN 2 c 0x010)))
    | _, _ => s.periodOwned p g ts
  else s.periodOwned p g ts

/-- The set with the shortest period (02 R56). -/
def shortestSet (l : List ((Nat × Nat) × Nat)) : Option ((Nat × Nat) × Nat) :=
  l.foldl (fun acc x => match acc with
    | none => some x
    | some y => if x.2 < y.2 then some x else some y) none

/-- Resource ID of a timing set (04 R145). -/
def tsRes (g ts : Nat) : Nat := resId 2 (64 * g + ts) 1

/-- The checks of step 2 on a pattern task: the resource of the first that fails. Which channel R94 finds first is not
stated: here the first of the reachable segments' formats (notes/assumptions/107.md, DESIGN CHOICE). -/
def State.patternConflict (s : State) (t : TaskSt) (i : Image) : Option Nat :=
  let p := t.part.val
  let home := homeOf t.desc
  let chans := s.taskChans t
  let groups := groupsOf chans
  let used := (i.reachSegs t.desc.entry).flatMap i.segFmt
  let u := i.setsU t.desc.entry groups
  let periods := u.filterMap (fun x => (s.dispPeriod home p x.1 x.2).map (fun q => (x, q)))
  let fit := firstRes (used.map (fun x =>
    (!chans.contains x.1.val || !codeFits x.2.toNat (s.parN 2 x.1.val 0x010), resId 3 x.1.val 3)))
  let owned := firstRes (u.map (fun x => ((s.periodOwned p x.1 x.2).isNone, tsRes x.1 x.2)))
  let edges := (sitesOf t.desc).findSome? (fun k => groups.findSome? (fun g =>
    (s.edgeBad k.val g ((u.filter (fun x => x.1 == g)).map (·.2))).map (fun x => resId 2 x.1 2)))
  let conn := firstRes (used.map (fun x => (s.parN 3 x.1.val 0x00A != 1, resId 3 (s.laneOf x.1.val) 1)))
  let rsmp := (s.rsmpBad p ((sitesOf t.desc).map (·.val)) (i.reachGroups t.desc.entry)).map (fun g => resId 2 g 4)
  let fast := match shortestSet periods with
    | some (x, pmin) =>
      if (i.reach t.desc.entry).any (fun y => match y.2 with
          | .matchLoop _ b _ _ _ => decide (bodyLen i b * pmin < 50000)
          | _ => false) || (i.throughput s.fw.ucode.costs pmin [t.desc.entry]).isSome then some (tsRes x.1 x.2) else none
    | none => none
  [fit, owned, edges, conn, rsmp, fast].findSome? id

/-- The checks of step 2 on a raster task (09 R258): the first failing lane. -/
def State.rasterConflict (s : State) (t : TaskSt) : Option Nat :=
  let n := t.desc.source
  let cs := s.rseChans n
  let wide := decide (2 < (groupsOf cs).length)
  firstRes (cs.map (fun c =>
    (wide || !(s.siteChans (homeOf t.desc)).contains c || s.parN 6 n 0x001 != homeOf t.desc ||
      s.parN 3 c 0x00A != 1 || s.parN 2 c 0x010 != s.parN 6 n 0x005, resId 3 (s.laneOf c) 1)))

/-! ## Steps 3 to 5 -/

/-- A group with CAL_STALE set under STALE_POLICY 1 (04 R141), or a DPS channel of a site without an accepted reference
calibration under DPS_STALE_POLICY 1 (17 R468). -/
def State.calRefused (s : State) (t : TaskSt) : Bool :=
  (s.taskGroups t).any (fun g => (s.grpAt g).calStale && s.parN 2 g 0x005 == 1) ||
    (sitesOf t.desc).any (fun k => (s.siteDps k.val).any (fun d =>
      (s.dpsAt d).refState != 1 && s.parN 14 d 0x027 == 1))

/-- The log of a finished burst is held, or will be once its result is final (06 R194). -/
def State.logPending (s : State) (k : Nat) : Bool :=
  (s.siteAt k).log.held ||
    (s.parN 5 k 0x013 == 1 && s.ve.drain.any (fun x => x.2.sites.any (fun a => a.val == k)))

/-- The unit at the head of the calibration queue holds dispatch to itself, a running one too (17 R464). -/
def State.calHolds (s : State) (t : TaskSt) : Bool :=
  let us := (s.cal.run.queue.head?.map (·.1)).toList ++ (s.cal.run.running.map (·.1)).toList
  us.any (fun u => match u with
    | .group g => (s.taskGroups t).contains g.val
    | .dps d => (sitesOf t.desc).any (fun k => (s.siteDps k.val).contains d.val))

/-- The groups take bursts: PLL locked, no calibration, no lane in a seed sweep or a change of connection. -/
def State.groupsReady (s : State) (t : TaskSt) : Bool :=
  (s.taskGroups t).all (fun g =>
    let x := s.grpAt g
    x.pll == .locked && !x.calFence && !x.sensorFence &&
      (List.range 33).all (fun i => !(s.laneAt (33 * g + i)).sweep)) && !s.calHolds t &&
    (s.usedChans t).all (fun c => !(s.laneAt (s.laneOf c)).changing)

/-! ## Step 6: the reservation (03 R106, 06 R200, 09 R265, 11 R310) -/

/-- Reservable capacity in units of 0.1 Gbit/s (01 R21). -/
def State.streamCapacity (s : State) : Nat := 3072 * (32 - s.fencedMcs)

/-- STREAM_ADMIT (11 R310). -/
def State.streamAdmit (s : State) : Nat :=
  if (s.stackAt 0).throttle || (s.stackAt 1).throttle then 1536 * (32 - s.fencedMcs) else s.streamCapacity

/-- Demand of a raster burst. -/
def State.rasterDemand (s : State) (n : Nat) : Nat :=
  let bytes := ((List.range 2).filter (fun l => s.parN 6 (2 * n + l) 0x010 == 1)).map
    (fun l => layerBytes (s.parN 6 (2 * n + l) 0x011))
  if s.parN 6 n 0x003 = 1 then ceilDiv (8 * bytes.sum * (s.rseMode n).hz * 1000) (10 ^ 8 * 1001)
  else ceilDiv (8 * bytes.sum * (s.rseMode n).hz) (10 ^ 8)

/-- Demand of RING capture units of the task's sites. -/
def State.captureDemand (s : State) (t : TaskSt) (pseg : Nat) : Nat :=
  let w := ((List.range 16).filter (fun u => s.parN 5 u 0x045 == 1 &&
    (sitesOf t.desc).any (fun k => k.val == s.parN 5 u 0x040))).map (fun u => if s.parN 5 u 0x046 = 0 then 32 else 64)
  ceilDiv (40000 * w.sum) (max 1 pseg)

/-- D of a task. -/
def State.taskDemand (s : State) (t : TaskSt) : Nat :=
  if t.raster then s.rasterDemand t.desc.source
  else match s.taskImage t with
    | some i =>
      let per := s.dispPeriod (homeOf t.desc) t.part.val
      let tsets := tsetSets (i.img.reach t.desc.entry)
      let pseg := lowest ((i.img.reachSegs t.desc.entry).filterMap (i.img.pSeg per tsets))
      ((i.img.demand i.resident per t.desc.entry).getD 0) + s.captureDemand t pseg
    | none => 0

/-- Bandwidth that a partition may take (01 R30): an idle share of another partition may be borrowed; what a partition
with a task ready lacks of its own share is not idle (notes/assumptions/91.md). -/
def State.streamFree (s : State) (p : Nat) : Nat :=
  let owed := ((List.range 16).filter (fun q => q != p &&
    s.sch.tasks.any (fun x => x.2.part.val == q && x.2.mode == .ready))).map (fun q =>
      (s.part q).streamShare - s.partStreamHeld q)
  s.streamCapacity - s.streamHeld - owed.sum

/-! ## Step 7: admission -/

/-- Estimate E of a task in units of 0.01 W (10, The governor). -/
def State.estimate (s : State) (p : Nat) (d : TaskDesc) : Nat :=
  if d.kind = 1 then Config.rasterActivity d.source s.host.params
  else match s.imageAt (imgKey p d.source) with
    | some i =>
      let sets := (i.img.setsU d.entry (List.range 16)).filterMap (fun x => s.tsNow x.1 x.2)
      highest ((i.img.reachSegs d.entry).map (fun n => Config.activity i.img n s.host.params sets))
    | none => 0

/-- Ceiling of an energy class: 1 W to 128 W (R289). -/
def classCeiling (c : Nat) : Nat := 100 * 2 ^ c

/-- A task is older than another: by ready time, then by submission. -/
def TaskSt.olderThan (t u : TaskSt) : Bool :=
  decide (t.readyAt < u.readyAt) || (decide (t.readyAt = u.readyAt) && decide (t.order < u.order))

/-- H: the oldest ready task that has failed admission. -/
def State.headTask (s : State) : Option (Nat × TaskSt) :=
  (s.sch.tasks.filter (fun x => x.2.mode == .ready && x.2.failedAdmit.isSome)).foldl (fun acc x =>
    match acc with
    | none => some x
    | some y => if x.2.olderThan y.2 then some x else some y) none

/-- Admission of a task with estimate `e` (R289, R290). -/
def State.admits (s : State) (i : Nat) (t : TaskSt) (e : Nat) : Bool :=
  !s.stopped && s.fits e &&
    (match s.closedBy with
     | some h => h == i
     | none => true) &&
    (match s.headTask with
     | some (h, u) => h == i || t.olderThan u || decide (e < u.e)
     | none => true)

/-! ## Step 8: engines -/

/-- Engines that a partition's bursts run on. -/
def State.enginesOf (s : State) (p : Nat) : Nat :=
  (s.ve.bursts.filter (fun x => decide (x.1 < 32) && x.2.part.val == p)).length

def State.engIdle (s : State) (e : Nat) : Bool := (s.engAt e).mode == .idle && (s.burstAt e).isNone

/-- Bytes of a loop store that no resident set holds (LS_FREE). -/
def EngSt.lsFree (x : EngSt) : Nat := 1048576 - (x.ls.map (·.bytes)).sum

def EngSt.holds (x : EngSt) (p h : Nat) : Bool := x.ls.any (fun l => l.part == p && l.handle == h)

/-- An idle engine when the preferred one is not taken: one that holds the set, else the most free (R288). -/
def State.otherEngine (s : State) (p h : Nat) : Option Nat :=
  let idle := (List.range 32).filter s.engIdle
  match idle.find? (fun e => (s.engAt e).holds p h) with
  | some e => some e
  | none => idle.foldl (fun acc e => match acc with
    | none => some e
    | some f => if (s.engAt f).lsFree < (s.engAt e).lsFree then some e else some f) none

/-- Engines that may run at once with fenced memory channels (03 R104). -/
def State.engCap (s : State) : Nat := if 24 < s.fencedMcs then 4 * (32 - s.fencedMcs) else 32

/-- What step 8 finds. -/
inductive EngPick where
  | take (r : Nat)
  /-- The preferred engine is busy: the task is or goes in patience. -/
  | patience
  /-- The engine cap of 03 R104. -/
  | capped
  | none
  deriving DecidableEq, Repr

/-- The choice of the runner. -/
def State.pickRunner (s : State) (t : TaskSt) : EngPick :=
  if t.raster then (if (s.burstAt (32 + t.desc.source)).isNone then .take (32 + t.desc.source) else .none)
  else if 24 < s.fencedMcs ∧ s.engCap ≤ (s.ve.bursts.filter (fun x => decide (x.1 < 32))).length then .capped
  else
    let home := homeOf t.desc
    let pref := (s.siteAt home).engine
    let other : EngPick := match s.otherEngine t.part.val t.desc.source with
      | some e => .take e
      | none => .none
    if pref < 32 ∧ (s.engAt pref).mode ≠ .fenced then
      if s.engIdle pref then .take pref
      else if t.desc.noAffinity then other
      else match t.patience with
        | some t0 => if t0 + 1000 * s.parN 9 home 0x004 ≤ s.now then other else .patience
        | none => .patience
    else other

/-! ## The verdict -/

inductive Verdict where
  | refuse (st : Status) (words : List Nat)
  /-- CAL_STALE under STALE_POLICY 1: OK with INVALID(CAL). -/
  | stale
  | wait
  /-- Fails admission with estimate `e`. -/
  | noPower (e : Nat)
  | patience
  | capped
  | go (r demand charge : Nat)
  deriving DecidableEq, Repr

/-- The eight checks of R284 in order. -/
def State.verdict (s : State) (i : Nat) (t : TaskSt) : Verdict :=
  let conflict := if t.raster then s.rasterConflict t
    else match s.taskImage t with
      | some im => s.patternConflict t im.img
      | none => none
  if s.fencedOut t then .refuse .fenced []
  else match conflict with
    | some res => .refuse .conflict [res]
    | none =>
      if s.calRefused t then .stale
      else if (sitesOf t.desc).any (fun k => s.siteBusy k.val || s.logPending k.val) then .wait
      else if !s.groupsReady t || (s.parN 11 0 0x001 != 0 && !s.ngl.tm.lockedOnce) then .wait
      else
        let d := s.taskDemand t
        if s.streamCapacity < d then .refuse .fenced []
        else if s.streamAdmit < s.streamHeld + d || s.streamFree t.part.val < d then .wait
        else
          let e := s.estimate t.part.val t.desc
          if classCeiling t.desc.eclass.val < e then .refuse .conflict [resId 9 i 2]
          else if !s.admits i t e then .noPower e
          else match s.pickRunner t with
            | .take r => .go r d e
            | .patience => .patience
            | .capped => .capped
            | .none => .wait

/-! ## Order of service (R285) -/

/-- A task is eligible: ready, and with QUEUE_ORDER 0 the oldest of its queue. -/
def State.eligible (s : State) (t : TaskSt) : Bool :=
  let q := t.desc.queue.val
  t.mode == .ready &&
    (s.parN 9 (q / 64) (0x180 + q % 64) == 1 ||
      s.sch.tasks.all (fun x => x.2.desc.queue != t.desc.queue || decide (t.order ≤ x.2.order)))

/-- Rank of a task: below its share first, then partitions round-robin after the one served last, higher QUEUE_PRIO,
earlier ready time, lower queue, earlier submission. -/
def State.rank (s : State) (t : TaskSt) : List Nat :=
  let p := t.part.val
  let q := t.desc.queue.val
  [b2n (!decide (s.enginesOf p < s.shareOf p)), (p + 31 - s.sch.gov.lastServed % 16) % 16,
   1000 - s.parN 9 (q / 64) (0x140 + q % 64), t.readyAt, q, t.order]

/-- Lexicographic order. -/
def lexLt : List Nat → List Nat → Bool
  | a :: r, b :: q => decide (a < b) || (decide (a = b) && lexLt r q)
  | [], _ :: _ => true
  | _, [] => false

def Verdict.isGo : Verdict → Bool
  | .go .. => true
  | _ => false

/-- No task that could be dispatched now comes before this one. -/
def State.isNext (s : State) (i : Nat) (t : TaskSt) : Bool :=
  s.sch.tasks.all (fun x => x.1 == i || !s.eligible x.2 || !lexLt (s.rank x.2) (s.rank t) || !(s.verdict x.1 x.2).isGo)

/-! ## The dispatch -/

/-- Least recently used sets are evicted until a new set fits (03 R99). -/
def evict : Nat → List LsSet → List LsSet
  | need, l =>
    let rec go : Nat → List LsSet → List LsSet
      | 0, l => l
      | k + 1, l => if (l.map (·.bytes)).sum + need ≤ 1048576 then l else go k l.dropLast
    go l.length l

/-- A set becomes the most recently used one. -/
def touch (l : List LsSet) (p h : Nat) : List LsSet :=
  l.filter (fun x => x.part == p && x.handle == h) ++ l.filter (fun x => !(x.part == p && x.handle == h))

/-- The burst of a task on its runner. -/
def State.newBurst (s : State) (i : Nat) (t : TaskSt) (d e : Nat) : Burst :=
  let home := toFin 128 (homeOf t.desc) (by decide)
  let groups := (s.taskGroups t).map (fun g => toFin 16 g (by decide))
  let b : Burst :=
    { task := i, part := t.part, tag := t.tag, queue := t.desc.queue.val, sites := sitesOf t.desc, home, handle := t.desc.source
      entry := t.desc.entry, raster := t.raster, pausable := t.desc.pausable, linked := t.desc.linked
      linkTrig := t.desc.linkTrig.val, runLimit := t.desc.runLimit, issueDone := t.desc.issueDone
      outKey := t.desc.outKey, groups, demand := d, charge := e
      bufs := s.freshBufs (sitesOf t.desc) groups
      banks := groups.map (fun g => (g, (s.grpAt g.val).bank)) }
  match (if t.raster then none else s.taskImage t) with
  | some im =>
    let start := (im.img.enter t.desc.entry).getD (0, 0)
    { b with ip := start.1, vp := start.2
             sets := ((im.img.reach t.desc.entry).filterMap (fun x => msOf x.2)).eraseDups
             convs := ((im.img.reach t.desc.entry).filterMap (fun x => convOf x.2)).eraseDups }
  | none => b

/-- The task takes its reservation, its charge and its engine; the loop store is filled first when it does not hold
the resident set (03 R99). -/
def State.dispatch (s : State) (i : Nat) (t : TaskSt) (r d e : Nat) : State :=
  let b := s.newBurst i t d e
  let p := t.part.val
  let h := t.desc.source
  let bytes := ((s.taskImage t).map (·.size)).getD 0
  let held := t.raster || bytes == 0 || (s.engAt r).holds p h
  let s := if t.raster then s
    else s.updEng r (fun x =>
      if held then { x with ls := touch x.ls p h, micro := {} } else { x with ls := evict bytes x.ls, micro := {} })
  let s := (s.freeTask i).putBurst r { b with phase := if held then .prefill else .filling }
  ({ s with sch.gov := { s.sch.gov with lastServed := p } } : State).leaveLow

/-- A partition below its engine share with a task refused admission under a low budget is told that G1 breaks G5, at
most once per 100 ms (R291). -/
def State.tellBreak (s : State) (p : Nat) : State :=
  let last := Tbl.find s.sch.gov.lastBreak p
  let due := match last with
    | some t => decide (t + 100000000 ≤ s.now)
    | none => true
  if due && decide (s.enginesOf p < s.shareOf p) then
    ({ s with sch.gov := { s.sch.gov with lastBreak := Tbl.put s.sch.gov.lastBreak p s.now } } : State).precedence 1 5 p
  else s

/-- A dispatch waits for the engine cap of 03 R104: G5 is broken, which its wait reports once. -/
def State.tellCap (s : State) (i : Nat) (t : TaskSt) : State :=
  if t.capTold then s
  else (s.updTask i (fun t => { t with capTold := true })).precedence 3 5 t.part.val

/-- The task would be dispatched now. -/
def State.goesNow (s : State) (i : Nat) (t : TaskSt) : Bool :=
  s.eligible t && decide ((s.fnAt t.part.val).cplHeld.length < 512) && (s.verdict i t).isGo && s.isNext i t

/-- Try to dispatch a task: refused, ended, waiting, or dispatched when it is next. None while 512 completions of the
partition are held (14 R387). -/
def State.tryDispatch (s : State) (i : Nat) (t : TaskSt) : State :=
  if !s.eligible t || decide (512 ≤ (s.fnAt t.part.val).cplHeld.length) then s
  else match s.verdict i t with
    | .refuse st words => s.endTask i t st words skippedRes
    | .stale => s.endTask i t .ok (notRun t.raster (invalidRes rCAL)) skippedRes
    | .wait => s
    | .noPower e =>
      let s := s.updTask i (fun t => { t with e, failedAdmit := if t.failedAdmit.isSome then t.failedAdmit else some s.now })
      if s.sch.gov.thermal < 40000 ∨ s.sch.gov.supply < 40000 then s.tellBreak t.part.val else s
    | .patience => s.updTask i (fun t => { t with patience := if t.patience.isSome then t.patience else some s.now })
    | .capped => s.tellCap i t
    | .go r d e => if s.isNext i t then s.dispatch i t r d e else s

end Sys2Proof.Machine
end

