-- ==== Sys2Proof/Machine/MemOps.lean ====
section
/-!
DEFINITION. Operations of the memory subsystem: ECC outcomes, refresh debt, retraining, fences, repair candidates,
low-power states, pages (11 R306, R312–R319, R321).
-/

namespace Sys2Proof.Machine

/-! ## ECC and repair candidates (R312, R318) -/

/-- Row of an address of a pseudo-channel. -/
def memRow (x addr : Nat) : MemRow := { pc := x, bank := (Config.rowOf x addr).1, row := (Config.rowOf x addr).2 }

/-- A repair candidate arises: at most 64 are kept, each once; PPR_AUTO schedules it. -/
def State.candidate (s : State) (r : MemRow) : State :=
  s.updMc (r.pc / 2) (fun c =>
    if 64 ≤ c.cands.length ∨ c.cands.contains r then c
    else { c with cands := c.cands ++ [r], sched := if s.parN 10 0 0x022 = 1 then c.sched ++ [r] else c.sched })

/-- Ns of 24 h. -/
def dayNs : Nat := 86400000000000

/-- A corrected error in a row: the eighth within 24 h makes the row a candidate. -/
def State.rowError (s : State) (r : MemRow) : State :=
  let m := r.pc / 2
  let s := s.updMc m (fun c => { c with errs := c.errs.filter (fun x => decide (s.now < x.1 + dayNs)) ++ [(s.now, r)] })
  if 8 ≤ ((s.mcAt m).errs.filter (fun x => x.2 == r)).length then s.candidate r else s

/-- A corrected error on a pseudo-channel. -/
def State.eccCorr (s : State) (x addr : Nat) : State :=
  ((s.updMc (x / 2) (fun c => { c with corr := satAdd c.corr 1 0xFFFFFFFF })).rowError (memRow x addr)).event
    (0x580 + 2 * (x / 2)) [1 + x * 2 ^ 4, addr % 2 ^ 32]

/-- An uncorrectable error on a pseudo-channel. -/
def State.eccUe (s : State) (x addr : Nat) (cond : Option (Nat × Term) := none) : State :=
  ((s.updMc (x / 2) (fun c => { c with ue := satAdd c.ue 1 0xFFFFFFFF })).candidate (memRow x addr)).raise
    { src := 0x581 + 2 * (x / 2), payload := [1 + x * 2 ^ 4, addr % 2 ^ 32], err := some (addr + x * 2 ^ 56, 0xFF, 3)
      cond }

/-- HBM address of a word that a granule or a fill carried: no row gives it (notes/assumptions/61.md). -/
def State.freeAddr (s : State) : Nat := s.freeVal % 2 ^ 36

/-- An image of a burst becomes DAMAGED by an uncorrectable error; one that is DAMAGED stays so (03 R96, R115). -/
def State.damageImage (s : State) (b : Burst) (m : Nat) : State :=
  let k := imgKey b.part.val b.handle
  if (s.imageAt k).all (fun i => i.mode == .damaged) then s
  else (s.updImage k (fun i => { i with mode := .damaged })).event 0x5D2 [b.handle, b.part.val, m] [.part b.part.val]

/-- A streamed word with an uncorrectable error: the burst ends INVALID(MCHK) in the cycle of the affected position;
the engine is not fenced. In the head of a target that no transfer has taken it concerns no position. -/
def State.streamUe (s : State) (r : Nat) (b : Burst) (x : Nat) (pos : Option Nat) : State :=
  let t : Option Term := pos.map (fun pos =>
    { src := 0x581 + 2 * (x / 2), time := nsOf (b.nextStart + (pos - b.emitted) * b.period)
      act := b.cycle + (pos - b.emitted), way := .stop, result := invalidRes rMCHK })
  let s := (s.drawFree.eccUe x s.freeAddr (t.map (fun t => (r, t)))).damageImage b (x / 2)
  s.updBurst r (fun b => { b with terms := b.terms ++ t.toList })

/-- The fill of a loop store meets an uncorrectable error: it is abandoned, and the task is refused FENCED. -/
def State.fillUe (s : State) (r : Nat) (b : Burst) (x : Nat) : State :=
  let s := ((s.drawFree.eccUe x s.freeAddr).damageImage b (x / 2)).delBurst r
  let s := s.complete b.part.val b.tag 0x0902 .fenced []
  let s := if b.issueDone then
      s.issueTok { scope := b.home, kind := 2, key := b.outKey, result := skippedRes.code } else s
  s.applyPend

/-- Event of a whole channel: the payload's pseudo-channel element is one of the channel's two, the spec does not say
which (R321; notes/assumptions/60.md). -/
def State.channelEvent (s : State) (src m cause : Nat) : State :=
  s.drawFree.event src [cause + (2 * m + s.freeVal % 2) * 2 ^ 4, 0]

/-- Spare rows left in a bank. -/
def State.bankSpares (s : State) (x bank : Nat) : Nat :=
  Config.spareRows x bank - ((s.mcAt (x / 2)).repaired.filter (fun r => decide (r.pc = x ∧ r.bank = bank))).length

/-- PPR_LEFT: spare rows left in the banks of both pseudo-channels. -/
def State.sparesLeft (s : State) (m : Nat) : Nat :=
  ((List.range 32).map (fun i => s.bankSpares (2 * m + i / 16) (i % 16))).sum

/-! ## Refresh (R313, R314) -/

/-- tREFI of a stack in ns. -/
def State.tRefi (s : State) (k : Nat) : Nat := if (s.stackAt k).doubled then 1950 else 3900

/-- tRFC in ns (R305). -/
def tRfc : Nat := 350

/-- End of a catch-up under way: it has issued every refresh that was owed. -/
def PcSt.catchEnd (p : PcSt) : Option Nat := p.catchAt.map (fun t => t + tRfc * p.owed)

/-- A catch-up whose end has come leaves no debt; due times count from its last refresh. -/
def PcSt.settle (now : Nat) (p : PcSt) : PcSt :=
  match p.catchEnd with
  | some e => if e ≤ now then { p with owed := 0, catchAt := none, lastRef := e - tRfc } else p
  | none => p

/-- OWED reaches 8: catch-up starts, with cause CATCHUP. -/
def State.catchUp (s : State) (x : Nat) : State :=
  let p := s.pcAt x
  if p.owed < 8 ∨ p.catchAt.isSome then s
  else (s.updPc x (fun p => { p with catchAt := some s.now })).event (0x580 + 2 * (x / 2)) [3 + x * 2 ^ 4, 0]

/-- Time of the last refresh issued. -/
def PcSt.lastIssued (p : PcSt) (now : Nat) : Nat :=
  match p.catchAt with
  | some t => t + tRfc * ((now - t) / tRfc)
  | none => p.lastRef

/-- OWED is recomputed from the time since the last refresh. -/
def State.oweAgain (s : State) (x : Nat) : State :=
  if (s.pcAt x).power = 2 ∨ (s.mcAt (x / 2)).mode = 3 then s
  else
    (s.updPc x (fun p =>
      let p := p.settle s.now
      { p with owed := (s.now - p.lastIssued s.now) / s.tRefi (stackOf x), lastRef := p.lastIssued s.now
               catchAt := none })).catchUp x

/-- Pseudo-channels of a stack. -/
def pcsOf (k : Nat) : List Nat := (List.range 32).map (fun i => 32 * k + i)

/-- Refresh doubles or reverts on a stack, with REFRESH_2X (15 R430). -/
def State.setDoubled (s : State) (k : Nat) (on : Bool) : State :=
  if (s.stackAt k).doubled = on then s
  else ((pcsOf k).foldl State.oweAgain (s.updStack k (fun t => { t with doubled := on }))).event 0x048 [k]

/-! ## Retraining (R315, R316) -/

/-- A channel may be retrained now: active, and no other channel of its stack pauses. -/
def State.mayTrain (s : State) (m : Nat) : Bool :=
  (s.mcAt m).mode == 1 && (List.range 16).all (fun i => (s.mcAt (16 * (m / 16) + i)).mode != 2)

/-- A running burst that would not ride out the pause: D above 2,097.1 Gbit/s. -/
def State.defersTraining (s : State) : Bool :=
  s.ve.bursts.any (fun x => x.2.isStarted && decide (20971 < x.2.demand))

/-- The pause begins. -/
def State.startTrain (s : State) (m : Nat) : State :=
  s.updMc m (fun c => { c with mode := 2, deferred := none, urgent := false })

/-! ## Traffic classes (R308–R310) -/

/-- Order of a class; maintenance, order 1, stands before them all. -/
def classOrder : MemClass → Nat
  | .stream => 2 | .instr => 3 | .dmaFloor => 4 | .fill => 5 | .log => 6 | .dma => 7

/-- Limit of a class in units of 0.1 Gbit/s; none: whatever remains. -/
def State.classLimit (s : State) : MemClass → Option Nat
  | .stream => some s.streamHeld
  | .instr => some (256 * (s.ve.bursts.filter (fun x => !x.2.raster && x.2.isStarted)).length)
  | .dmaFloor => some 256
  | .fill => some (1024 * (s.ve.bursts.filter (fun x => decide (x.2.phase = .filling))).length)
  | .log => some 512
  | .dma => none

/-- What classes 3–7 share: 102.4 Gbit/s for each unfenced channel, at most 51.2 Gbit/s on a channel of a stack in
throttle. -/
def State.unreserved (s : State) : Nat :=
  ((List.range 32).map (fun m =>
    if (s.mcAt m).mode = 3 then 0 else if (s.stackAt (m / 16)).throttle then 512 else 1024)).sum

/-- A class is served only when no request of a higher class waits within its limit. -/
def classYields (a b : MemClass) : Bool := decide (classOrder b < classOrder a)

/-- A request at a pseudo-channel: class, row, arrival in ns, place in the order of arrival. -/
structure MemReq where
  cls   : MemClass
  row   : Nat
  time  : Nat
  order : Nat
  deriving DecidableEq, Repr

/-- Request `y` may overtake the older request `x` (R309): under ROW_MODE 0 to reach the open row, by at most 64 requests
and 500 ns; under ROW_MODE 1 never among stream requests, and freely otherwise. -/
def mayOvertake (rowMode openRow : Nat) (x y : MemReq) : Bool :=
  if rowMode = 0 then
    decide (y.row = openRow) && decide (y.order ≤ x.order + 64) && decide (y.time ≤ x.time + 500)
  else !(x.cls == .stream && y.cls == .stream)

/-- Exit latency in ns of a low-power state (R319). -/
def exitLatency (power : Nat) : Nat := if power = 0 then 0 else if power = 1 then 100 else 1000

/-- Longest time in ns from the arrival of a stream read to its service (R309, R319): 500 ns, the exit latency of a
low-power state, and what is left of a refresh catch-up. -/
def State.streamBound (s : State) (x : Nat) : Nat :=
  500 + exitLatency (s.pcAt x).power + (((s.pcAt x).catchEnd).getD s.now - s.now)

/-! ## Pages (R306, R317) -/

/-- Pages granted to a partition. -/
def State.pagesOf (s : State) (p : Nat) : Nat := ((s.pageRuns p).map (·.count)).sum

/-- Pages on a fenced channel in a run: every turn of its channels holds one page of each. -/
def PageRun.poisoned (r : PageRun) (bad : Nat → Bool) : Nat :=
  (r.chans.zipIdx).foldl (fun a x => if bad x.1 then a + (r.count + r.chans.length - 1 - x.2) / max 1 r.chans.length else a) 0

/-- Pages of a partition on fenced channels. -/
def State.fencedPages (s : State) (p : Nat) : Nat :=
  ((s.pageRuns p).map (fun r => r.poisoned (fun m => (s.mcAt m).mode == 3))).sum

/-- The page stands on an unfenced channel. -/
def State.onGood (s : State) (x : Nat × Nat) : Bool :=
  (pageChan (s.pageRuns x.1) x.2).all (fun m => (s.mcAt m).mode != 3)

/-- PART_HBM_POISON: pages on fenced channels, and pages of rows whose repair failed. -/
def State.poisonedPages (s : State) (p : Nat) : Nat :=
  s.fencedPages p + (s.mem.dead.filter (fun x => x.1 == p && s.onGood x)).length

/-- The pages of failed repairs from page `n` of a partition upward leave its space. -/
def State.loseDead (s : State) (p n : Nat) : State :=
  let gone (x : Nat × Nat) : Bool := x.1 == p && decide (n ≤ x.2)
  { s with
    mem.lost := s.mem.lost ++ ((s.mem.dead.filter gone).filterMap (fun x => pageChan (s.pageRuns p) x.2))
    mem.dead := s.mem.dead.filter (fun x => !gone x) }

/-- Pages of the module that no partition holds, on unfenced channels; those of a failed repair are not granted again
(notes/assumptions/101.md). -/
def State.freePages (s : State) : Nat :=
  let used := ((List.range 16).map (fun p => s.pagesOf p - s.fencedPages p)).sum
  (32 - s.fencedMcs) * (modulePages / 32) - used - (s.mem.lost.filter (fun m => (s.mcAt m).mode != 3)).length

/-- Pages held by images, committed log regions, capture buffers and layers of a partition (R322). -/
def State.usedPages (s : State) (p : Nat) : Nat :=
  let own (k : Nat) : Bool := (s.part p).sites.getLsbD k
  let images := ((s.ve.images.filter (fun x => decide (x.1 / 64 = p))).map (fun x => ceilDiv x.2.img.bytes 4096)).sum
  let logs := ((List.range 128).map (fun k => if own k ∧ s.parN 5 k 0x010 ≠ 0 then s.parN 5 k 0x012 else 0)).sum
  let caps := ((List.range 16).map (fun u =>
    if s.parN 5 u 0x045 = 1 ∧ (s.part p).units.getLsbD u then s.parN 5 u 0x048 else 0)).sum
  let layers := ((List.range 8).map (fun l =>
    if (s.part p).raster.getLsbD (l / 2) ∧ s.parN 6 l 0x010 = 1 then
      ceilDiv (s.parN 6 l 0x013 * (s.rseMode (l / 2)).va) 4096 else 0)).sum
  images + logs + caps + layers

/-- PART_HBM_FREE. -/
def State.partFree (s : State) (p : Nat) : Nat := s.pagesOf p - s.usedPages p

end Sys2Proof.Machine
end

