-- ==== Sys2Proof/Machine/BurstRows.lean ====
section
/-!
DEFINITION. The rows of a burst's life from dispatch to its final result (02 R64–R67; 03 R99–R112; 04 R121; 06 R187;
10 R284). A row whose event cannot occur in the state changes nothing (notes/assumptions/6.md).
-/

namespace Sys2Proof.Machine

/-- TASK_DISPATCH: the eight checks of 10 R284, then the dispatch. -/
def execTaskDispatch (i : TaskIx) (s : State) : Out :=
  .next (match s.taskAt i.val with
    | some t => s.tryDispatch i.val t
    | none => s)

/-- LOOP_STORE_FILL_DONE: the engine holds the resident set, pre-fill begins (03 R99). An uncorrectable error
abandons the fill (11 R312). -/
def execLoopStoreFillDone (e : Eng) (ecc : Ecc) (x : Pc) (s : State) : Out :=
  .next (match s.burstAt e.val with
    | some b =>
      if b.phase = .filling then
        match ecc with
        | .uncorrectable => s.fillUe e.val b x.val
        | _ =>
          let bytes := ((s.imgOf b).map (·.size)).getD 0
          let s := if ecc = .corrected then s.drawFree.eccCorr x.val s.freeAddr else s
          (s.updEng e.val (fun n => { n with ls := { part := b.part.val, handle := b.handle, bytes } :: n.ls })).putBurst
            e.val { b with phase := .prefill }
      else s
    | none => s)

/-- ISLAND_FILLED: FILLED of one island; with the last one the start tick is chosen (04 R121, R122). -/
def execIslandFilled (r : Runner) (g : Grp) (s : State) : Out :=
  .next (match s.burstAt r.val with
    | some b =>
      if decide (b.phase = .prefill) && b.fillReady && (b.groups.contains g || b.groups.isEmpty) then
        let b := if b.filled.contains g then b else { b with filled := b.filled ++ [g] }
        if b.groups.all (fun x => b.filled.contains x) then s.allFilled r.val b else s.putBurst r.val b
      else s
    | none => s)

/-- BURST_START_TICK: cycle 0 begins on the start tick (04 R121), once the results of the site's last burst are
final. -/
def execBurstStartTick (r : Runner) (s : State) : Out :=
  .next (match s.burstAt r.val with
    | some b =>
      match b.phase, b.startTick with
      | .started, some tick =>
        if s.ve.drain.any (fun x => x.2.sites.any (fun k => b.sites.contains k)) then s
        else s.startBurst r.val b tick
      | _, _ => s
    | none => s)

/-- The oldest granule that a burst awaits on a pseudo-channel arrives, and the pump goes on (03 R103, R108). -/
def State.delivered (s : State) (r : Nat) (ok : Nat → Bool) : State :=
  s.updBurst r (fun b => ({ b with strm := (b.strm.deliver ok).request } : Burst).pump)

/-- GRANULE_DELIVERED: a granule that a burst has requested arrives on a pseudo-channel (03 R102, R103). Its ECC outcome:
a corrected error is counted; an uncorrectable one ends the burst in the cycle of the first position that needs the
granule (11 R312). None arrives from a fenced channel, and what arrives is the granule that was asked for first. -/
def execGranuleDelivered (e : Eng) (ecc : Ecc) (x : Pc) (gran : Nat) (s : State) : Out :=
  .next (match s.burstAt e.val with
    | some b =>
      match s.imgOf b with
      | some i =>
        let ok (g : Nat) : Bool := i.pcOf g == x.val
        if !b.strm.awaits ok || (s.mcAt (x.val / 2)).mode == 3 ||
            (b.strm.out.find? (fun r => ok r.gran)).map (·.gran) != some gran then s
        else match ecc with
          | .good => s.delivered e.val ok
          | .corrected => (s.drawFree.eccCorr x.val s.freeAddr).delivered e.val ok
          | .uncorrectable =>
            s.streamUe e.val b x.val ((b.strm.out.find? (fun r => ok r.gran)).map (fun r => b.needs r.sq))
      | none => s
    | none => s)

/-- POSITION_EMITTED: the next position of a burst reaches the pins (02 R43, 04 R120); a trigger wait that a trigger
has released ends first. A loop-store word or resident instruction read for it may show an ECC error: a corrected
one is counted, an uncorrectable one is a machine check (02 R83). The byte offset in the loop store that its record holds
is a free value (notes/assumptions/92.md). -/
def execPositionEmitted (r : Runner) (ls : Ecc) (s : State) : Out :=
  .next (
    let vector := decide (r.val < 32) && (s.burstAt r.val).any (fun b => b.canEmit)
    match (if vector then ls else .good) with
    | .good => (s.tryRelease r.val).emit r.val
    | .corrected =>
      let s := s.updEng r.val (fun x => { x with lsCorr := satAdd x.lsCorr 1 0xFFFFFFFF })
      ((s.event (0x103 + 8 * r.val)).tryRelease r.val).emit r.val
    | .uncorrectable => s.drawFree.machineCheck r.val 4 (some (s.freeVal % 2 ^ 20, 0x10 + r.val, 3)))

/-- Memory channel of the granule that a burst lacks (03 R102, R116). -/
def State.lackedMc (s : State) (r : Nat) : Option Nat :=
  (s.burstAt r).bind (fun b => (s.imgOf b).bind (fun i => (b.lacks i).bind (·.mc i)))

/-- POSITION_MISSING: underrun hold, or a pause (03 R108–R112). The channel that it names is that of the granule that the
pump lacks (R116). -/
def execPositionMissing (r : Runner) (cause : Short) (mc : Option Mc) (s : State) : Out :=
  .next (if mc.map (·.val) = s.lackedMc r.val then s.missing r.val cause else s)

/-- PAUSE_RESUME: the islands hold their positions again (03 R111). -/
def execPauseResume (r : Runner) (s : State) : Out := .next (s.resume r.val)

/-- STRETCH_LIMIT_REACHED: the burst ends INVALID(UNDERRUN) (03 R112). -/
def execStretchLimitReached (r : Runner) (s : State) : Out := .next (s.stretchEnd r.val)

/-- COMPARE_RESULT_FINAL: the oldest compare result of the runner is final (06 R187). -/
def execCompareResultFinal (r : Runner) (seen : List (Chan × List Cmp)) (s : State) : Out :=
  .next (s.finalResult r.val seen)

/-- ASYNC_EVENT_ACT: the act cycle k + 48 of an early end (02 R65). -/
def execAsyncEventAct (r : Runner) (s : State) : Out := .next (s.asyncAct r.val)

/-- RUN_LIMIT_EXPIRY: the burst ends INVALID(OVERTIME) (02 R67). -/
def execRunLimitExpiry (r : Runner) (s : State) : Out := .next (s.runLimit r.val)

/-- BURST_END: after the last position, or after an early end (02 R64). -/
def execBurstEnd (r : Runner) (s : State) : Out := .next (s.endOf r.val)

/-- BURST_RESULT_FINAL: the site result and the completion (06 R187). -/
def execBurstResultFinal (r : Runner) (s : State) : Out := .next (s.finalOf r.val)

end Sys2Proof.Machine
end

