-- ==== Sys2Proof/Machine/SchedRows.lean ====
section
/-!
DEFINITION. The rows of the scheduler and the governor (01 R22; 10 R281, R286–R291, R295–R299).
-/

namespace Sys2Proof.Machine

/-- TOKEN_ARRIVAL (R281). -/
def execTokenArrival (scope : Site) (kind : Fin 7) (key : Nat) (result : BitVec 16) (s : State) : Out :=
  .next (s.issueTok { scope, kind := kind.val, key, result := result.toNat })

/-- TOKEN_OVERFLOW_DRAIN: tokens of the overflow FIFO are placed as entries free, then those held at Ngulos ports
(R298, R299). -/
def execTokenOverflowDrain (s : State) : Out := .next (s.drainTok 64).drainHeld.wake

/-- WAIT_TIMEOUT_EXPIRY: the task leaves the matching store with TIMEOUT; a task that can be dispatched in the same clock
is dispatched (R286). -/
def execWaitTimeoutExpiry (i : TaskIx) (s : State) : Out :=
  .next (match s.taskAt i.val with
    | some t =>
      if 0 < t.desc.waitTimeout then
        let s := s.moveTo (t.at_ + 1000 * t.desc.waitTimeout)
        if s.goesNow i.val t then s.tryDispatch i.val t
        else (s.endTask i.val t .timeout [] skippedRes).event 0x5C0 [t.desc.queue.val, i.val] [.site (homeOf t.desc)]
      else s
    | none => s)

/-- ADMIT_PATIENCE_EXPIRY: admission closes to all but the oldest task that failed it (R290). -/
def execAdmitPatienceExpiry (s : State) : Out :=
  .next (match s.headTask with
    | some (h, u) =>
      if s.sch.gov.closed then s
      else
        let s := s.moveTo ((u.failedAdmit.getD 0) + 1000000 * s.parN 9 0 0x015)
        ({ s with sch.gov := { s.sch.gov with head := some h, closed := true } } : State).event 0x5C1 [h, u.e]
          [.site (homeOf u.desc)]
    | none => s)

/-- AFF_PATIENCE_EXPIRY: the task no longer waits for its preferred engine (R288). -/
def execAffPatienceExpiry (i : TaskIx) (s : State) : Out :=
  .next (match s.taskAt i.val with
    | some t =>
      match t.patience with
      | some t0 => (s.moveTo (t0 + 1000 * s.parN 9 (homeOf t.desc) 0x004)).tryDispatch i.val t
      | none => s
    | none => s)

/-- LINK_TIMEOUT_EXPIRY: a member whose start trigger has not come ends INVALID(LATE_TRIGGER) (R295). -/
def execLinkTimeoutExpiry (r : Runner) (s : State) : Out :=
  .next (match s.burstAt r.val with
    | some b =>
      if b.phase = .waitTrig then
        let id := ((s.siteAt b.home.val).defn.map (·.linkId)).getD 0
        let s := s.moveTo (b.filledAt + 1000000 * s.parN 9 b.home.val 0x006)
        (s.giveUp r.val (invalidRes rLATE)).event 0x5C7 [id] [.site b.home.val]
      else s
    | none => s)

/-- LINK_MEMBER_LOST: a result that has not come 10 ms after the home part ended counts as INVALID(FENCE) (R296). -/
def execLinkMemberLost (site : Site) (node : Nat) (s : State) : Out :=
  .next (match (s.siteAt site.val).defn with
    | some d =>
      let l := s.linkAt d.linkId
      match l.endedAt with
      | some t =>
        if d.linked ∧ d.home = s.node ∧ ¬ (l.results.any (fun x => x.1 == node) = true) then
          ((s.moveTo (t + 10000000)).event 0x5C8 [d.linkId, node] [.site site.val]).linkResult d.linkId node
            (invalidRes rFENCE).code (t + 10000000)
        else s
      | none => s
    | none => s)

/-- BUDGET_RECOMPUTE (01 R22). -/
def execBudgetRecompute (s : State) : Out := .next s.recompute

/-- C1_STALL: a token held for 1 ms at a port (R298). -/
def execC1Stall (port : Port) (s : State) : Out :=
  .next (match (s.portAt port.val).held with
    | some (_, t) =>
      if (s.portAt port.val).stalled then s
      else ((s.moveTo (t + 1000000)).updPort port.val (fun x => { x with stalled := true })).event 0x5C6 [port.val]
    | none => s)

end Sys2Proof.Machine
end

