-- ==== Sys2Proof/Machine/DpsRows.lean ====
section
/-!
DEFINITION. The rows of DUT power: the power sequence, settling, discharge, the window monitor, the stage (05 R163,
R168–R178, R182).
-/

namespace Sys2Proof.Machine

/-! ## Steps of a sequence (R173–R175) -/

/-- The sequence of a site goes to a phase that ends, or may end, at a time. -/
def State.seqPhase (s : State) (k : Nat) (phase : SeqPhase) (due : Nat) : State :=
  s.updSite k (fun t => { t with seqRun := t.seqRun.map (fun r => { r with phase, due }) })

/-- The SETTLED token of a site (10 R280). -/
def State.settledTok (s : State) (k code : Nat) : State :=
  s.issueTok { scope := toFin 128 k (by decide), kind := 1, key := 0, result := code }

/-- The power-up sequence has completed: lanes and shedding are free again (R172, R174, 15 R412). -/
def State.upDone (s : State) (k : Nat) (r : SeqRun) : State :=
  let s := s.updSite k (fun t => { t with seqRun := none, safe := false, shed := false })
  (s.settledTok k 0).complete r.part.val r.tag 0x0402 .ok []

/-- The wait of a step after it completed (R173). -/
def State.stepDelay (s : State) (k : Nat) (x : SeqStep) : State := s.seqPhase k .delay (s.now + 1000 * x.delay)

/-- A step of a power-up completes: the last one completes the sequence, another is followed by its DELAY (R174). -/
def State.stepDone (s : State) (k : Nat) (r : SeqRun) (x : SeqStep) : State :=
  if ((s.siteAt k).seq.map (fun q => q.steps.length)).getD 0 ≤ r.step + 1 then s.upDone k r else s.stepDelay k x

/-- The power-down sequence has completed: the SETTLED entry of the site goes (10 R281). -/
def State.downDone (s : State) (k : Nat) (r : SeqRun) : State :=
  let s := s.updSite k (fun t => { t with seqRun := none })
  let s : State := { s with sch.tokens := s.sch.tokens.filter (fun t => !(decide (t.scope.val = k) && t.kind == 1)) }
  s.complete r.part.val r.tag 0x0403 .ok []

/-- A step of a power-down begins: the channel ramps to 0 V, or is off already (R175). -/
def State.downStep (s : State) (k i : Nat) : State :=
  let s := s.updSite k (fun t => { t with seqRun := t.seqRun.map (fun r => { r with step := i, phase := .ramp }) })
  match s.curStep k with
  | some (_, x) =>
    let d := x.channel
    if (s.dpsAt d).on then
      let s := s.seqPhase k .ramp (s.now + 1000000 * s.parN 4 d 0x00B)
      if (s.dpsAt d).mode = .discharging then s
      else s.updDps d (fun y => { y with
        mode := .ramping, blanked := true, settled := false, outSince := none, inSince := none
        due := s.now + rampNs d y.vout 0 (s.parN 4 d 0x007), vout := 0 })
    else s.stepDelay k x
  | none => s

/-- The channel that ramps down is off, and the DELAY of its step follows. -/
def State.downOff (s : State) (k d : Nat) (x : SeqStep) : State := (s.updDps d DpsSt.turnOff).stepDelay k x

/-- The channel of a step is being calibrated (17 R464). -/
def State.dpsInCal (s : State) (d : Nat) : Bool :=
  match s.cal.run.running with
  | some (.dps c, _) => c.val == d
  | _ => false

/-- DPS_STEP_ADMITTED: the governor admits the step, the channel switches on and its seed sweep starts (R174). The step's
VOUT becomes VOUT_SET now (notes/assumptions/113.md, DESIGN CHOICE). -/
def execDpsStepAdmitted (site : Site) (s : State) : Out :=
  .next (match s.curStep site.val with
    | some (r, x) =>
      let d := x.channel
      let e := dpsDemand d x.vout (s.parN 4 d 0x003)
      if r.up && decide (r.phase = .waitAdmit) && s.admitStep e && !s.dpsInCal d && decide ((s.dpsAt d).mode = .off) then
        let s := (s.setPar (pid 4 d 0x002) x.vout).seqPhase site.val .sweep (s.now + 10000)
        s.updDps d (fun y => { y with
          mode := .sweep, demand := e, due := s.now + 10000, known := false, blanked := true, settled := false
          hi := false, lo := false, cur := false
          vout := 0, outSince := none, inSince := none, localSense := false, limited := false })
      else s
    | none => s)

/-- DPS_SEED_SWEEP_END: the comparators' states may be used and the output ramps to VOUT (R163, R174). -/
def execDpsSeedSweepEnd (d : Dps) (hi lo cur : Bool) (s : State) : Out :=
  .next (
    if (s.dpsAt d.val).mode = .sweep then
      let s := s.moveTo (s.dpsAt d.val).due
      let code := s.parN 4 d.val 0x002
      let s := s.updDps d.val (fun y => { y with
        mode := .ramping, hi, lo, cur, known := true, due := s.now + rampNs d.val 0 code (s.parN 4 d.val 0x006)
        vout := code })
      match s.stepOf d.val with
      | some (k, _, _) => s.seqPhase k .ramp (s.dpsAt d.val).due
      | none => s
    else s)

/-- The channel is out of window (R171). -/
def DpsSt.out (d : DpsSt) : Bool := d.hi || d.lo || d.cur

/-- DPS_RAMP_END: the monitor is unblanked; a step without WAIT_SETTLE completes (R174), another settles. Time out of
window counts towards WIN_DWELL from here on (R171; notes/assumptions/112.md, DESIGN CHOICE). -/
def execDpsRampEnd (d : Dps) (s : State) : Out :=
  .next (
    if decide ((s.dpsAt d.val).mode = .ramping) && !s.rampsDown d.val then
      let s := s.moveTo (s.dpsAt d.val).due
      let s := s.updDps d.val (fun y => { y with
        mode := .settling, blanked := false, outSince := if y.out then some s.now else none
        inSince := if y.out then none else some s.now })
      match s.stepOf d.val with
      | some (k, r, x) =>
        if x.waitSettle then s.seqPhase k .settle (s.now + 1000000 * s.parN 4 d.val 0x00B)
        else (s.updDps d.val (fun y => { y with mode := .on })).stepDone k r x
      | none => s
    else s)

/-- DPS_SETTLED: in window for SETTLE_TIME without a break (R174). -/
def execDpsSettled (d : Dps) (s : State) : Out :=
  .next (match (s.dpsAt d.val).mode, (s.dpsAt d.val).inSince with
    | .settling, some t =>
      let s := s.moveTo (t + 1000 * s.parN 4 d.val 0x00A)
      let s := s.updDps d.val (fun y => { y with mode := .on, settled := true })
      match s.stepOf d.val with
      | some (k, r, x) => if r.phase = .settle then s.stepDone k r x else s
      | none => s
    | _, _ => s)

/-- SEQ_DELAY_EXPIRY: the next step begins, or the power-down has completed (R174, R175). -/
def execSeqDelayExpiry (site : Site) (s : State) : Out :=
  .next (match (s.siteAt site.val).seqRun with
    | some r =>
      if r.phase = .delay then
        let s := s.moveTo r.due
        if r.up then
          s.updSite site.val (fun t => { t with seqRun := some { r with step := r.step + 1, phase := .waitAdmit } })
        else if r.step = 0 then s.downDone site.val r
        else s.downStep site.val (r.step - 1)
      else s
    | none => s)

/-- SEQ_TIMEOUT: a step unsettled SETTLE_TIMEOUT after its ramp stops the sequence (R174). -/
def execSeqTimeout (site : Site) (s : State) : Out :=
  .next (match s.curStep site.val with
    | some (r, x) =>
      if r.up && decide (r.phase = .settle) then
        let s := (s.moveTo r.due).updSite site.val (fun t => { t with seqRun := none })
        let s := s.event 0x534 [site.val, x.channel] [.site site.val, .dps x.channel]
        (s.settledTok site.val (invalidRes rSUPPLY).code).complete r.part.val r.tag 0x0402 .timeout []
      else s
    | none => s)

/-- DPS_OFF_LEVEL_REACHED: a channel that ramps down or discharges switches off (R175, R178). -/
def execDpsOffLevelReached (d : Dps) (s : State) : Out :=
  .next (match s.stepOf d.val with
    | some (k, r, x) =>
      if !r.up && decide (r.phase = .ramp) then s.downOff k d.val x
      else if (s.dpsAt d.val).mode = .discharging then s.updDps d.val DpsSt.turnOff
      else s
    | none => if (s.dpsAt d.val).mode = .discharging then s.updDps d.val DpsSt.turnOff else s)

/-- DISCH_SLOW: a power-down step not finished within SETTLE_TIMEOUT, or a discharge within 100 ms (R175, R178). -/
def execDischSlow (d : Dps) (s : State) : Out :=
  .next (
    let slow : State :=
      match (s.dpsAt d.val).mode, (s.dpsAt d.val).dischAt with
      | .discharging, some t =>
        if (s.dpsAt d.val).slow then s
        else
          let k := s.dpsSite d.val
          ((s.moveTo (t + 100000000)).updDps d.val (fun y => { y with slow := true })).event 0x535
            [d.val, k.getD 0xFFFF] [.dps d.val]
      | _, _ => s
    match s.stepOf d.val with
    | some (k, r, x) =>
      if !r.up && decide (r.phase = .ramp) then
        ((s.moveTo r.due).downOff k d.val x).event 0x535 [d.val, k] [.dps d.val, .site k]
      else slow
    | none => slow)

/-- WINDOW_FAULT: out of window for WIN_DWELL; the consequences follow FAULT_ACTION (R171, R172). -/
def execWindowFault (d : Dps) (s : State) : Out :=
  .next (
    let x := s.dpsAt d.val
    match x.outSince with
    | some t =>
      if x.on && x.known && !x.blanked then
        let s := (s.moveTo (t + 1000 * s.parN 4 d.val 0x014)).updDps d.val (fun y => { y with outSince := none })
        s.event (0x510 + 2 * d.val) [b2n x.hi + 2 * b2n x.lo + 4 * b2n x.cur]
          ((s.dpsSite d.val).toList.map Elem.site)
      else s
    | none => s)

/-- SENSE_OPEN: the stage falls back to local sense; no fence (R168). -/
def execSenseOpen (d : Dps) (s : State) : Out :=
  .next (
    if s.parN 4 d.val 0x018 = 1 ∧ (s.dpsAt d.val).on = true ∧ (s.dpsAt d.val).localSense = false then
      (s.updDps d.val (fun y => { y with localSense := true })).event (0x511 + 2 * d.val) [3]
    else s)

/-- DPS_STAGE_TRIP: the stage stops switching and the channel is fenced, cause TRIP or LOOP (R169). -/
def execDpsStageTrip (d : Dps) (loopFault : Bool) (s : State) : Out :=
  .next (if (s.dpsAt d.val).mode = .fenced then s
    else s.event (0x511 + 2 * d.val) [if loopFault then 2 else 1])

/-- WIN_STATE_CHANGE: the filtered state of a monitor changes at module time `t` (R170); out of window and in window
are counted from their beginning. -/
def execWinStateChange (d : Dps) (hi lo cur : Bool) (t : Nat) (s : State) : Out :=
  .next (
    let x := s.dpsAt d.val
    if x.known then
      let s := s.moveTo t
      let out := hi || lo || cur
      s.updDps d.val (fun y => { y with
        hi, lo, cur
        outSince := if y.blanked || !out then none else if x.out then y.outSince else some s.now
        inSince := if y.blanked || out then none else if x.out then some s.now else y.inSince })
    else s)

end Sys2Proof.Machine
end

