-- ==== Sys2Proof/Machine/PfeRows.lean ====
section
/-!
DEFINITION. The rows of the pin front end: lane protection, seed sweeps, changes of connection, the PMU, current
limits (05 R151, R154–R163, R166, R181).
-/

namespace Sys2Proof.Machine

/-- LANE_OVERCURRENT: 10 µs in current limit (R151). -/
def execLaneOvercurrent (l : Lane) (s : State) : Out :=
  .next (if (s.laneAt l.val).limit then s.event (0x300 + l.val) [1] else s)

/-- LANE_OVERVOLTAGE: driven from outside beyond the limits for 1 µs (R154). With the output switch open already
nothing is raised: the rule does not say (notes/assumptions/93.md, DESIGN CHOICE). -/
def execLaneOvervoltage (l : Lane) (s : State) : Out :=
  .next (if (s.laneAt l.val).mode = .opened then s else s.event (0x300 + l.val) [4])

/-- The lane of channel `c` takes IDLE_MODE and is idle (R156); under a safe state it takes SAFE_MODE. -/
def State.idleLane (s : State) (c : Nat) : State :=
  let s := s.updLane (s.laneOf c) (fun l =>
    let l : LaneSt := if l.mode = .opened then { l with mode := .hiz } else l
    { l.take (4000 * s.now) (s.parN 3 c 0x00C) with idle := true })
  if s.pwr.safe || s.chanSafe c then s.safeChan c else s

/-- LANE_SEED_SWEEP_END: the comparators of a lane may be used; one that fails its self-check fences the lane
(R156, R163, R181). -/
def execLaneSeedSweepEnd (l : Lane) (selfCheckOk : Bool) (s : State) : Out :=
  .next (
    if (s.laneAt l.val).sweep then
      let s := s.updLane l.val (fun x => { x with sweep := false })
      if !selfCheckOk then s.event (0x300 + l.val) [3]
      else match s.chanOf l.val with
        | some c =>
          if (s.laneAt l.val).mode = .opened ∧ s.parN 3 c 0x00A = 1 ∧ (s.laneAt l.val).fenced = false then s.idleLane c
          else s
        | none => s
    else s)

/-- CONN_CHANGE_COMPLETE: the new switch is closed; PE starts the seed sweep, PMU settles (R160, R162). A switch that
fails its self-check fences the lane (R181). -/
def execConnChangeComplete (done : ConnDone) (s : State) : Out :=
  .next (
    let ch := done.chan
    let k := s.laneOf ch.val
    if (s.laneAt k).changing ∧ (s.laneAt k).fenced = false then
      let s := s.updLane k (fun l => { l with changing := false })
      if !done.selfCheckOk then s.event (0x300 + k) [2]
      else match s.parN 3 ch.val 0x00A with
      | 1 => (s.updLane k (fun l => { l with mode := .hiz, sweep := true })).idleLane ch.val
      | 2 =>
        let g := ch.val / 32
        let s := (s.updLane k (fun l => { l with mode := .pmu })).updGrp g (fun x => { x with pmuConn := some ch.val })
        let s := s.pmuChange g
        if s.pwr.safe || s.chanSafe ch.val then s.safeChan ch.val else s
      | _ => s
    else s)

/-- PMU_SETTLED: the settling time of the range has passed since the last change (R162). -/
def execPmuSettled (g : Grp) (s : State) : Out :=
  .next (
    let x := s.grpAt g.val
    if (s.pmuOn g.val).isSome && !x.pmuSettled then
      (s.moveTo x.pmuAt).updGrp g.val (fun x => { x with pmuSettled := true })
    else s)

/-- CURRENT_LIMIT: a stage, a driver or the clamp of a PMU enters or leaves its limit (R151, R161, R166). -/
def execCurrentLimit (at_ : LimitAt) (enters : Bool) (s : State) : Out :=
  .next (match at_ with
    | .stage d => if (s.dpsAt d.val).on then s.updDps d.val (fun y => { y with limited := enters }) else s
    | .driver l => if (s.laneAt l.val).mode = .opened then s
        else s.updLane l.val (fun x => { x with limit := enters })
    | .clamp g => if (s.pmuOn g.val).isSome then
        (s.updGrp g.val (fun x => { x with pmuClamp := enters })).updPadc g.val (fun c =>
          { c with running := c.running.map (fun r => { r with clamped := r.clamped || enters }) })
        else s)

end Sys2Proof.Machine
end

