-- ==== Sys2Proof/Machine/CapRows.lean ====
section
/-!
DEFINITION. The rows of acquisition: XTRIG edges, the end of a ring capture, host streams (06 R197–R212).
-/

namespace Sys2Proof.Machine

/-- XTRIG_EDGE: a filtered edge that crosses the threshold at `t` is sampled at the islands of the site that owns the
input 48 ns later: the rule's 48 ns ±2 ns taken as 48 (R201, 02 R60; notes/assumptions/106.md, DESIGN CHOICE). -/
def execXtrigEdge (input : Fin 2) (falling : Bool) (t : Nat) (s : State) : Out :=
  .next (
    let k := s.parN 5 input.val 0x0A2
    let s := s.moveTo (t + 48)
    if k < 128 then
      let q := 4000 * (t + 48)
      let s := s.occurAt k q (s.trgsOf k 6 (fun a => a == input.val + 256 * b2n falling)) none false
      match s.siteRunner k with
      | some r =>
        match s.burstAt r with
        | some b =>
          if b.isStarted && decide (b.phase ≠ .draining) then
            s.sample r (0x100 * (1 + input.val) + b2n falling) (b.cycleAt q)
          else s
        | none => s
      | none => s
    else s)

/-- CAPTURE_RING_END: recording has reached t + CU_POST, or the CAPOFF's position is passed (R197, R198). -/
def execCaptureRingEnd (u : Cu) (s : State) : Out :=
  .next (
    let c := s.cuAt u.val
    let reached := match c.trig with
      | some t => if s.parN 5 u.val 0x046 = 0 then decide (t + s.parN 5 u.val 0x04A < c.first + c.taken)
          else decide (s.parN 5 u.val 0x04A < c.post)
      | none => false
    if decide (c.mode = 1) && s.parN 5 u.val 0x045 == 1 && (reached || (c.upto.isSome && !s.inFlight u.val)) then
      s.endCapture u.val false
    else s)

/-- The stream takes records. -/
def HsSt.running (h : HsSt) : Bool := decide (h.mode = .open_) || decide (h.mode = .losing)

/-- STREAM_PROD_UPDATE: what is due is written and the producer count goes to PROD_ADDR; with nothing new to tell, the
row comes when the next record that CAP holds is due (R206, R209). -/
def execStreamProdUpdate (h : Hs) (s : State) : Out :=
  .next (
    let x := s.hsAt h.val
    if x.running && !s.streamDown h.val then
      let s := match x.wait with
        | r :: _ => if x.prod = x.prodOut then s.moveTo (r.time + capDelay) else s
        | [] => s
      (s.streamWrite h.val s.now).updHs h.val (fun x => { x with prodOut := x.prod })
    else s)

/-- STREAM_CONS_READ: the count read from CONS_ADDR. A count that the host may not write, beyond the records or behind
the last one read, changes nothing (R206, R212). -/
def execStreamConsRead (h : Hs) (cons : Nat) (s : State) : Out :=
  .next (
    let x := s.hsAt h.val
    if x.running && decide (x.cons ≤ cons) && decide (cons ≤ x.prod) then
      (s.updHs h.val (fun x => { x with cons })).streamRecover h.val
    else s)

/-- EPOCH records of every stream (R209). -/
def State.epochs (s : State) : State := (List.range 64).foldl (fun s h => s.streamPush h s.epochNow) s

/-- EPOCH_DUE: every 500 ms of module time (R209). -/
def execEpochDue (s : State) : Out :=
  .next (
    let s := s.moveTo s.ngl.tm.nextEpoch
    ({ s with ngl.tm := { s.ngl.tm with nextEpoch := s.ngl.tm.nextEpoch + 500000000 } } : State).epochs)

/-- STREAM_ERROR: a DMA error puts the stream in ERROR (R212; 14 R380 kind 5). -/
def execStreamError (h : Hs) (addr : Nat) (s : State) : Out :=
  .next (
    if (s.hsAt h.val).running then
      let s := s.updHs h.val (fun x => { x with mode := .error })
      let s := match s.ownerBy (fun r => r.streams.getLsbD h.val) with
        | some p => s.fnErr p 5 h.val (addr % 2 ^ 32) (addr / 2 ^ 32 % 2 ^ 32)
        | none => s
      s.event 0x543 [h.val] [.stream h.val]
    else s)

end Sys2Proof.Machine
end

