-- ==== Sys2Proof/Machine/TmuRows.lean ====
section
/-!
DEFINITION. The rows of time measurement: stamps, time-outs, gates, raw records, the time base, faults (07 R218–R239;
17 R459, R460).
-/

namespace Sys2Proof.Machine

/-- RAW_RECORD_CLOSE: 1 µs after the first value of the open record (R233). -/
def execRawRecordClose (m : MSet) (s : State) : Out :=
  .next (if (s.msAt m.val).raw.isEmpty then s else (s.moveTo ((s.msAt m.val).rawAt + 1000)).closeRaw m.val)

/-- The lane stamps edges: CONN = 1, switch closed, no sweep, its stamper in service (R218). -/
def State.stamps (s : State) (l c : Nat) : Bool :=
  let x := s.laneAt l
  s.parN 3 c 0x00A == 1 && decide (x.mode ≠ .opened) && !x.sweep && !x.tmuFenced && !x.fenced

/-- Dead time of 0.8 ns in stamps: an edge less than 409.6 units after the last stamp is missed (R220). -/
def deadStamps : Nat := 410

/-- The stamp of an edge that the comparator passes on at a time: corrected by the compare-path deskew and by CH_CMP_OFS
of the channel (R219; 04 R137). Times in units of 2^-9 ns. -/
def State.stampOf (s : State) (c raw : Nat) : Nat :=
  (roundAway (((stampPs raw : Nat) : Int) - 16 * s.shiftC c) 125).toNat

/-- A stamped, or missed, edge at every set that takes it. -/
def State.toSets (s : State) (c stamp : Nat) (vcl rising missed : Bool) : State :=
  (s.acq.ms.map (·.1)).foldl (fun s m =>
    let role := s.edgeRole m c vcl rising
    if (s.msAt m).takes stamp && (role.1 || role.2) then
      (if missed then s.missedEdge m stamp else s.setEdge m stamp role)
    else s) s

/-- Some set selects the edge, as START or as STOP. -/
def State.selected (s : State) (c : Nat) (vcl rising : Bool) : Bool :=
  (List.range 256).any (fun m => let r := s.edgeRole m c vcl rising; r.1 || r.2)

/-- STAMP_EDGE: a comparator edge of a lane, at the module time `raw` of its comparator (R218–R220, R225). The dead time
follows stamps of selected edges; statistical calibration sees every edge (17 R459, R460). -/
def execStampEdge (l : Lane) (vcl rising : Bool) (raw : Nat) (s : State) : Out :=
  .next (match s.chanOf l.val with
    | some c =>
      if s.stamps l.val c then
        let stamp := s.stampOf c raw
        let s := s.moveTo (stampNs stamp)
        let missed := (s.laneAt l.val).lastStamp.any (fun t => decide (t ≤ stamp) && decide (stamp < t + deadStamps))
        let s := if s.selected c vcl rising && !missed then s.updLane l.val (fun x => { x with lastStamp := some stamp })
          else s
        (s.toSets c stamp vcl rising missed).statStamp l.val c rising stamp
      else s
    | none => s)

/-- MS_TIMEOUT: no new value for MS_TIMEOUT µs (R224). -/
def execMsTimeout (m : MSet) (s : State) : Out :=
  .next (
    let s := s.closeGates m.val
    let x := s.msAt m.val
    if x.armed && !x.fenced && decide (0 < s.msPar m.val 0x00A) then
      ((s.moveTo (x.lastVal + 1000 * s.msPar m.val 0x00A)).publishSet m.val true true false false).event 0x560 [m.val]
        [.set m.val]
    else s)

/-- FREQ_GATE_CLOSE: the oldest gate of a FREQUENCY set whose E1 has arrived gives its value (R226). The row names the stamp
of E1 and the edges counted, which are those of the gate. -/
def execFreqGateClose (m : MSet) (stamp edges : Nat) (s : State) : Out :=
  .next (match (s.msAt m.val).gates with
    | g :: _ => if g.1 = edges ∧ g.2.2 = stamp then s.closeGate m.val else s
    | [] => s)

/-- Limit of a correction. -/
def clampInt (lim v : Int) : Int := if lim < v then lim else if v < -lim then -lim else v

/-- OSC_TCOMP at an oven temperature in units of 0.01 °C: linear interpolation in the 16-point table of the calibration
store, rounded to nearest; the rule states no value beyond the table's ends (R235; notes/assumptions/97.md). -/
def oscInterp (t : Int) : Int :=
  let p := Config.oscPoint
  match (List.range 15).find? (fun i => decide ((p i).1 ≤ t) && decide (t ≤ (p (i + 1)).1)) with
  | some i => (p i).2 + roundAway (((p (i + 1)).2 - (p i).2) * (t - (p i).1)) ((p (i + 1)).1 - (p i).1).toNat
  | none => Config.oscTcomp t

/-- OSC_TCOMP_UPDATE: every 100 ms, limited to ±100,000; a correction that reaches the limit raises OSC_FAULT
(R235). -/
def execOscTcompUpdate (temp : Int) (s : State) : Out :=
  .next (
    let s := s.moveTo (s.acq.osc.tcompAt + 100000000)
    let v := clampInt 100000 (oscInterp temp)
    let hit := decide (v.natAbs = 100000) && decide (s.acq.osc.tcomp.natAbs ≠ 100000)
    let s : State := { s with acq.osc := { s.acq.osc with temp, tcomp := v, tcompAt := s.now } }
    if hit then s.event 0x564 else s)

/-- OSC_AGEING_STEP: at most 100 units toward OSC_AGEING, every 10 ms; a correction that reaches the limit raises
OSC_FAULT (R235). -/
def execOscAgeingStep (s : State) : Out :=
  .next (
    let goal := s.par (pid 7 0 0x101)
    let a := s.acq.osc.ageing
    if a = goal then s
    else
      let s := s.moveTo (s.acq.osc.ageAt + 10000000)
      let v := a + clampInt 100 (goal - a)
      let s : State := { s with acq.osc := { s.acq.osc with ageing := v, ageAt := s.now } }
      if v.natAbs = 1000000 then s.event 0x564 else s)

/-- OSC_STATE of a warm time base: disciplined while the module follows a domain (R236). -/
def State.oscFollow (s : State) : Nat :=
  if s.parN 11 0 0x001 = 0 then 1 else if s.ngl.tm.sel = 2 then 3 else if s.ngl.tm.lock then 2 else 1

/-- OSC_WARM (R236). -/
def execOscWarm (s : State) : Out :=
  .next (
    if s.acq.osc.state = 0 then
      ({ s with acq.osc := { s.acq.osc with state := s.oscFollow } } : State).event 0x563
    else s)

/-- OSC_FAULT: the oven is out of regulation (R236). -/
def execOscFault (s : State) : Out :=
  .next (
    if s.acq.osc.state = 0 ∨ s.acq.osc.state = 4 then s
    else ({ s with acq.osc := { s.acq.osc with state := 4 } } : State).event 0x564)

/-- TMU_FAULT of a stamper or of a set (R239). -/
def execTmuFault (lane : Option Lane) (set : Option MSet) (s : State) : Out :=
  .next (match lane, set with
    | some l, _ => (s.event 0x562 [l.val] [.lane l.val]).publishFenced
    | none, some m => (s.event 0x562 [m.val] [.set m.val]).publishFenced
    | none, none => s)

end Sys2Proof.Machine
end

