-- ==== Sys2Proof/Machine/PadcRows.lean ====
section
/-!
DEFINITION. The rows of the parametric converters: regular and injected conversions, self-calibration, the
housekeeping scan, faults (08 R242–R255).
-/

namespace Sys2Proof.Machine

/-- Parameter of a conversion setting. -/
def State.csPar (s : State) (c set num : Nat) : Nat := s.parN 8 (16 * c + set) num

/-- Length of a conversion in ns: (n + AVG) × DECIM modulator periods (R242). -/
def State.convNs (s : State) (c set : Nat) : Nat :=
  (s.csPar c set 0x021 + s.csPar c set 0x023) * s.csPar c set 0x022 * 100

/-- A regular request finds the converter busy (R246, R251). -/
def PadcSt.busy (c : PadcSt) : Bool := c.running.isSome || c.pending.isSome || c.calRun || c.calWait || !c.warmed

/-- A conversion starts. -/
def State.startConv (s : State) (c : Nat) (injected : Bool) (setting pos start : Nat) : State :=
  let on := (s.pmuOn c).isSome
  s.updPadc c (fun x => { x with
    running := some { injected, setting, pos, start
                      settled := on && (s.grpAt c).pmuSettled, clamped := on && (s.grpAt c).pmuClamp } })

/-- Position of a regular conversion: all ones. -/
def noPos : Nat := 2 ^ 48 - 1

/-- A waiting SINGLE request starts once the converter is free (R246). -/
def State.startSingle (s : State) (c : Nat) : State :=
  let x := s.padcAt c
  if x.busy || x.fenced || x.singles == 0 then s
  else (s.updPadc c (fun x => { x with singles := x.singles - 1 })).startConv c false (s.parN 8 c 0x011) noPos
    (gridUp s.now)

/-- REG_INTERVAL_DUE: a regular conversion starts, or is skipped (R246). -/
def execRegIntervalDue (c : Conv) (s : State) : Out :=
  .next (
    let x := s.padcAt c.val
    if c.val < 16 ∧ s.parN 8 c.val 0x010 = 2 ∧ x.fenced = false then
      let s := s.moveTo x.nextDue
      let s := if x.busy then s.updPadc c.val (fun x => { x with skipped := satAdd x.skipped 1 0xFFFFFFFF })
        else s.startConv c.val false (s.parN 8 c.val 0x011) noPos (gridUp s.now)
      s.updPadc c.val (fun x => { x with nextDue := x.nextDue + 1000 * s.parN 8 c.val 0x012 })
    else s)

/-- INJ_CONVERSION_START: the pending request starts on its modulator edge (R247). -/
def execInjConversionStart (c : Conv) (s : State) : Out :=
  .next (match (s.padcAt c.val).pending with
    | some (setting, pos, t) =>
      if (s.padcAt c.val).fenced ∨ (s.padcAt c.val).running.isSome then s
      else ((s.moveTo t).updPadc c.val (fun x => { x with pending := none })).startConv c.val true setting pos t
    | none => s)

/-- Code limits (R245). -/
def clampCode (v : Int) : Int := if 8388607 < v then 8388607 else if v < -8388608 then -8388608 else v

/-- Quantity of an input (R245): a voltage in µV, or a current of which full code 4,194,304 is the range. -/
inductive ConvQty where
  | voltage
  | current
  deriving DecidableEq, Repr

/-- Quantity that CS_INPUT selects; MEAS is what the PMU's mode measures (R245; 05 R161). -/
def convQty (input pmuMode : Nat) : ConvQty :=
  if input = 2 ∨ (input = 0 ∧ pmuMode = 1) then .current else .voltage

/-- PMU current range in pA (05 R162). -/
def pmuRangePa (irange : Nat) : Nat :=
  match irange with
  | 0 => 2000000
  | 1 => 20000000
  | 2 => 200000000
  | 3 => 2000000000
  | _ => 40000000000

/-- Value of a result code: µV, or 1/4,194,304 pA (R245). -/
def codeValue (q : ConvQty) (irange : Nat) (x : Int) : Int :=
  match q with
  | .voltage => x
  | .current => x * pmuRangePa irange

/-- Forced current of a code in units of 1/32,000 pA (05 R161). -/
def forceValue (irange : Nat) (f : Int) : Int := f * pmuRangePa irange

/-- Correction of one filter output (R251). -/
def PadcSt.correct (c : PadcSt) (x : Int) : Int := clampCode (roundAway ((x - c.ofs) * c.gain) (2 ^ 22))

/-- Site that owns a converter: that of the channel on the PMU (R241). -/
def State.convSite (s : State) (c : Nat) : Option Nat := (s.pmuChan c).bind s.chanSite

/-- Words 2–7 of a result (R249). -/
def PadcSt.words (x : PadcSt) (c : Nat) (r : ConvRun) (value : Int) (ovr : Bool) : List Nat :=
  [c + b2n r.injected * 2 ^ 5 + r.setting * 2 ^ 6 + b2n r.clamped * 2 ^ 10 + b2n ovr * 2 ^ 11 + b2n (!x.accepted) * 2 ^ 12 +
     b2n (!r.settled) * 2 ^ 13,
   word32 value, r.pos % 2 ^ 32, r.pos / 2 ^ 32 % 2 ^ 16, (x.seq + 1) % 2 ^ 32,
   (x.dropBusy + x.dropPend + x.dropCal) % 2 ^ 32]

/-- CONVERSION_END: the mean of the corrected outputs is published; the filter gives the CS_AVG outputs, which the code
limits saturate (R244, R248–R251; 10 R280). CLAMP and OVERRANGE follow from the PMU and from the outputs; the row names
them. -/
def execConversionEnd (c : Conv) (outputs : List Int) (clamp ovr : Bool) (s : State) : Out :=
  .next (match (s.padcAt c.val).running with
    | some r =>
      if outputs.length ≠ s.csPar c.val r.setting 0x023 ∨ clamp ≠ r.clamped ∨
          ovr ≠ outputs.any (fun y => clampCode y != y) then s
      else
      let s := s.moveTo (r.start + s.convNs c.val r.setting)
      let x := s.padcAt c.val
      let value := roundAway ((outputs.map (fun y => x.correct (clampCode y))).sum) outputs.length
      let words := x.words c.val r value ovr
      let s := s.updPadc c.val (fun x => { x with running := none, seq := x.seq + 1, result := words })
      let rc : StrmRec := { type := tPADC, source := 0xFF, rflags := 0, time := r.start, len := 1, words }
      let s := match s.convSite c.val with
        | some k => (s.sitePush k (s.csPar c.val r.setting 0x025) rc).issueTok
            { scope := toFin 128 k (by decide), kind := 3, key := c.val, result := 0 }
        | none => s
      s.startSingle c.val
    | none => s)

/-- Die sensor or island sensor that a converter's calibration follows (R252). -/
def State.convTemp (s : State) (c : Nat) : Int := if c < 16 then (s.grpAt c).tIsl else s.snsTemp 16

/-- No burst of the owning site is dispatched or running (R252). -/
def State.convIdle (s : State) (c : Nat) : Bool :=
  match s.convSite c with
  | some k => !s.siteBusy k
  | none => true

/-- PADC_AUTOCAL asks for a calibration: more than 5.0 °C from PADC_CAL_TEMP, no burst of the owning site (R252). -/
def State.autocal (s : State) (c : Nat) : Bool :=
  s.parN 8 c 0x006 == 1 && decide (500 < (s.convTemp c - (s.padcAt c).calTemp).natAbs) &&
    s.convIdle c

/-- A self-calibration is asked for: a pending injected request is dropped with reason CAL (R252). -/
def State.askCal (s : State) (c : Nat) (auto : Bool) : State :=
  (s.updPadc c (fun x => { x with calWait := true, calAuto := auto })).dropPending c 3

/-- It runs once no conversion does, one of PADC_AUTOCAL while the site has no burst. The readings of the housekeeping
scan are stale while PADC16 calibrates (R254). -/
def State.startCal (s : State) (c : Nat) : State :=
  let x := s.padcAt c
  if x.calWait && x.running.isNone && !x.calRun && (!x.calAuto || s.convIdle c) then
    { s.updPadc c (fun x => { x with calWait := false, calRun := true, calAt := s.now }) with
      acq.hkStale := s.acq.hkStale || c == 16 }
  else s

/-- PADC16 waits for the end of its slot (R252). -/
def State.runCal (s : State) (c : Nat) : State := if c = 16 then s else s.startCal c

/-- SELFCAL_START: a calibration that waits, or one of PADC_AUTOCAL, starts (R252). -/
def execSelfcalStart (c : Conv) (s : State) : Out :=
  .next (
    let x := s.padcAt c.val
    if x.fenced || x.calRun || !x.warmed then s
    else if x.calWait then s.runCal c.val
    else if s.autocal c.val then (s.askCal c.val true).runCal c.val
    else s)

/-- PADC_GAIN that maps the mean of REF to the reference value (R251). -/
def gainOf (ref zero mean : Int) : Int :=
  let d := mean - zero
  if d ≤ 0 then 0 else roundAway (ref * 4194304) d.toNat

/-- Factors are accepted (R253). -/
def factorsOk (ofs gain : Int) : Bool :=
  decide (ofs.natAbs ≤ 65536) && decide (4110418 ≤ gain) && decide (gain ≤ 4278190)

/-- SELFCAL_END: the factors are accepted, or the previous ones kept (R251–R253). -/
def execSelfcalEnd (c : Conv) (zeroMean refMean : Int) (s : State) : Out :=
  .next (
    let x := s.padcAt c.val
    if x.calRun then
      let s := s.moveTo (x.calAt + 110000000)
      let gain := gainOf (x.ref.getD (Config.padcRef c.val)) zeroMean refMean
      let ok := factorsOk zeroMean gain
      let temp := s.convTemp c.val
      let s := s.updPadc c.val (fun x =>
        if ok then { x with calRun := false, calCmd := none, ofs := zeroMean, gain, accepted := true
                            calTemp := temp, calCount := satAdd x.calCount 1 0xFFFFFFFF }
        else { x with calRun := false, calCmd := none })
      let s := match x.calCmd with
        | some (p, tag) => s.complete p.val tag 0x0802 (if ok then .ok else .internal) []
        | none => s
      let s : State := if c.val = 16 then { s with acq.hkStale := false, acq.hkAt := s.now } else s
      (if ok then s.event 0x571 [c.val] [.conv c.val] else s.event 0x572 [c.val] [.conv c.val]).startSingle c.val
    else s)

/-- PADC_POWERUP_WARM: 300 ms after the release of the supply reset the reference is warm and the converter calibrates
(R251). -/
def execPadcPowerupWarm (c : Conv) (s : State) : Out :=
  .next (
    if (s.padcAt c.val).warmed ∨ (s.padcAt c.val).fenced ∨ s.pwr.sup.released = false then s
    else
      (s.moveTo s.acq.warmAt).updPadc c.val (fun x => { x with
        warmed := true, calRun := true, calWait := false, calAt := s.acq.warmAt }))

/-- HK_SLOT_END: a slot of 400 µs of the housekeeping scan ends and its reading is held, with the time of the slot's
start; then a calibration of PADC16 that waits starts. The scan rests while PADC16 calibrates or is fenced (R252,
R254). -/
def execHkSlotEnd (value : Int) (s : State) : Out :=
  .next (
    let x := s.padcAt 16
    if x.fenced || x.calRun || !x.warmed then s
    else
      let d := s.acq.hkSlot / 2
      let at_ := s.acq.hkAt
      let s := (s.moveTo (at_ + 400000)).updDps d (fun y =>
        if s.acq.hkSlot % 2 = 0 then { y with hkV := value, hkVAt := at_ } else { y with hkI := value, hkIAt := at_ })
      ({ s with acq.hkSlot := (s.acq.hkSlot + 1) % 36, acq.hkAt := s.now } : State).startCal 16)

/-- PADC_FAULT: the converter is fenced (R255). -/
def execPadcFault (c : Conv) (s : State) : Out :=
  .next (
    (s.convDrop c.val).event 0x573 [c.val] [.conv c.val])

end Sys2Proof.Machine
end

