-- ==== Sys2Proof/Machine/RseRows.lean ====
section
/-!
DEFINITION. The rows of the raster engines: blanking, checked frames, underruns, latency tolerance, faults (09
R266–R272).
-/

namespace Sys2Proof.Machine

/-- Pixel clock that the next position of a raster burst begins with. -/
def State.rseClock (s : State) (n : Nat) (b : Burst) : Nat :=
  b.emitted * s.rseFactor n / max 1 (s.parN 6 n 0x004)

/-- RSE_VBLANK: vertical blanking begins and the staged values apply (R266). -/
def execRseVblank (n : Rse) (s : State) : Out :=
  .next (match s.burstAt (32 + n.val) with
    | some b =>
      let m := s.rseMode n.val
      let q := s.rseClock n.val b
      let e := s.rseAt n.val
      if b.isStarted && decide (m.va ≤ m.lineOf q) && decide (e.blanks ≤ q / m.frameClocks) then
        let f := q / m.frameClocks
        let s := if e.stage1.isEmpty then s else s.keepChk n.val f
        let s := e.stage1.foldl (fun s x => s.applyVal x.1 x.2) s
        s.updRse n.val (fun e => { e with
          blanks := f + 1, stage1 := e.stage2, stage2 := [], late1 := e.late2, late2 := false
          lateRec := if e.late1 then e.lateRec ++ [f + 1] else e.lateRec })
      else s
    | none => s)

/-- The raster burst whose frames are checked: one that has ended and whose result is open comes first. -/
def State.rseBurst (s : State) (n : Nat) : Option (Bool × Burst) :=
  match s.ve.drain.find? (fun x => x.1 == 32 + n) with
  | some x => some (true, x.2)
  | none => (s.burstAt (32 + n)).map (fun b => (false, b))

/-- Change that burst. -/
def State.updRseBurst (s : State) (n : Nat) (ended : Bool) (f : Burst → Burst) : State :=
  if ended then { s with ve.drain := updFirst f (fun x => x.1 == 32 + n) s.ve.drain } else s.updBurst (32 + n) f

/-- Start of a frame of a raster burst in ns. -/
def State.frameStart (s : State) (n : Nat) (b : Burst) (f : Nat) : Nat :=
  match s.rateOf b with
  | some (t, m) => nsOf (((b.startTick.getD 0) + 128) * 4000 + toQuarter (t.time (f * s.frameCycles n * m)))
  | none => nsOf (((b.startTick.getD 0) + 128) * 4000)

/-- Rectangles that are enabled. -/
def ChkSet.enabled (c : ChkSet) : List Nat := (List.range 16).filter (fun r => ((c.rects[r]?).getD (0, 0)).1 != 0)

/-- Mask of a list of numbers. -/
def maskOf (l : List Nat) : Nat := l.foldl (fun a i => a + 2 ^ i) 0

/-- RSE_FRAME_CHECKED: the CRCs of a checked frame are judged and its record is written (R269–R271). `invalid` marks
the rectangles with an invalid pixel or cut short. -/
def execRseFrameChecked (n : Rse) (crcs : List Nat) (invalid : BitVec 16) (syncLost : Bool) (s : State) : Out :=
  .next (match s.rseBurst n.val with
    | some (ended, b) =>
      let e := s.rseAt n.val
      let f := s.nextChecked n.val
      let c := s.chkFor n.val f
      if b.isStarted && decide (f < b.entry) && c.on then
        let rs := c.enabled
        let bad := rs.filter (fun r =>
          invalid.getLsbD r || decide (crcs[r]?.getD 0 % 2 ^ 32 ≠ ((c.rects[r]?).getD (0, 0)).2))
        let good := rs.filter (fun r => !bad.contains r)
        let pix := Tbl.get e.pix 0 f
        let late := e.lateRec.any (fun g => decide (g ≤ f))
        let judged := decide (pix = 0) && !bad.isEmpty
        let words := [n.val + b2n (decide (0 < pix)) * 2 ^ 2 + b2n late * 2 ^ 3 +
            b2n (syncLost && c.sync) * 2 ^ 4, f, maskOf good + maskOf bad * 2 ^ 16, pix, 0, 0] ++
          (List.range 16).map (fun r => if rs.contains r then crcs[r]?.getD 0 % 2 ^ 32 else 0)
        let s := s.updRse n.val (fun e => { e with
          checked := e.checked + 1, lateRec := e.lateRec.filter (fun g => decide (f < g)), mismatch := e.mismatch || judged })
        let s := s.sitePush b.home.val c.stream
          { type := tRSE, source := b.home.val, rflags := 0, time := s.frameStart n.val b f, len := 3, words }
        if judged then
          let s := s.updRseBurst n.val ended (fun b => { b with failFlag := true, failSites := b.sites })
          if e.mismatch then s else s.event (0x552 + 4 * n.val)
        else s
      else s
    | none => s)

/-- RSE_PIXEL_UNDERRUN: pixels of a layer that have not arrived when due (R267). -/
def execRsePixelUnderrun (n : Rse) (layer : Bool) (count : Nat) (s : State) : Out :=
  .next (match s.burstAt (32 + n.val) with
    | some b =>
      let l := 2 * n.val + b2n layer
      if b.live && decide (0 < count) && s.parN 6 l 0x010 == 1 then
        s.underPixels n.val layer (s.rseClock n.val b / (s.rseMode n.val).frameClocks) count
      else s
    | none => s)

/-- LAT_TOL_REPORT: the latency tolerance in ns (R268). -/
def execLatTolReport (n : Rse) (tol : Nat) (s : State) : Out :=
  .next (if (s.burstAt (32 + n.val)).isSome then (s.updRse n.val (fun e => { e with latTol := tol })).leaveLow else s)

/-- RSE_FAULT: parity or self-check fault, the engine is fenced (R272). -/
def execRseFault (n : Rse) (s : State) : Out := .next (s.event (0x553 + 4 * n.val))

/-- CMP_FAULT: parity error in a compare slice or a fail FIFO (06 R216). -/
def execCmpFault (g : Grp) (s : State) : Out := .next (s.event 0x545 [g.val] [.grp g.val])

end Sys2Proof.Machine
end

