-- ==== Sys2Proof/Machine/MemRows.lean ====
section
/-!
DEFINITION. The rows of the memory subsystem: refresh, temperature, retraining, parity, low power, requests (11
R309–R319).
-/

namespace Sys2Proof.Machine

/-- REFRESH_DUE: a refresh falls due. While no burst streams, per-bank refreshes issue it; else the debt grows, and
catch-up clears a debt of 8 (R313). -/
def execRefreshDue (x : Pc) (s : State) : Out :=
  .next (
    let p := s.pcAt x.val
    if p.power = 2 ∨ (s.mcAt (x.val / 2)).mode = 3 then s
    else
      let s := (s.updPc x.val (·.settle s.now))
      let p := s.pcAt x.val
      let s := s.moveTo (p.lastRef + (p.owed + 1) * s.tRefi (stackOf x.val))
      let s := (s.updPc x.val (·.settle s.now))
      if s.streamHeld = 0 ∧ (s.pcAt x.val).catchAt = none then
        s.updPc x.val (fun p => { p with owed := 0, lastRef := s.now })
      else (s.updPc x.val (fun p => { p with owed := p.owed + 1 })).catchUp x.val)

/-- STACK_TEMP_READ: refresh doubles above 85 °C and reverts at 83 °C; a readout missing for 10 ms counts as above
(R314). -/
def execStackTempRead (k : Stack) (reading : Option Int) (s : State) : Out :=
  .next (match reading with
    | some t =>
      let s := s.updStack k.val (fun x => { x with temp := t, missing := false, lastRead := s.now })
      if 8500 < t then s.setDoubled k.val true
      else if t ≤ 8300 then s.setDoubled k.val false
      else s
    | none =>
      if (s.stackAt k.val).lastRead + 10000000 ≤ s.now then
        (s.updStack k.val (fun x => { x with missing := true })).setDoubled k.val true
      else s)

/-- The stack temperature has moved by 5 °C since the channel's last training. -/
def State.tempMoved (s : State) (m : Nat) : Bool :=
  decide (500 ≤ ((s.stackAt (m / 16)).temp - (s.mcAt m).trainTemp).natAbs)

/-- RETRAIN_DUE: the channel pauses for its training, or is deferred (R315). -/
def execRetrainDue (m : Mc) (s : State) : Out :=
  .next (
    let c := s.mcAt m.val
    if c.mode ≠ 1 then s
    else if c.urgent then (if s.mayTrain m.val then s.startTrain m.val else s)
    else
      let s := if s.tempMoved m.val then s else s.moveTo (c.lastTrain + 1000000 * s.parN 10 0 0x00A)
      if s.defersTraining then
        s.updMc m.val (fun c => { c with deferred := if c.deferred.isSome then c.deferred else some s.now })
      else if s.mayTrain m.val then s.startTrain m.val
      else s)

/-- RETRAIN_DEFER_EXPIRY: the pause is forced (R315). -/
def execRetrainDeferExpiry (m : Mc) (s : State) : Out :=
  .next (match (s.mcAt m.val).deferred with
    | some t =>
      if s.mayTrain m.val then
        ((s.moveTo (t + 1000000 * s.parN 10 0 0x00B)).startTrain m.val).channelEvent (0x580 + 2 * m.val) m.val 4
      else s
    | none => s)

/-- RETRAIN_DONE: a good setting, or the last good one is kept and the channel fenced; the training at module reset ends
the same way (R305, R315, R316). -/
def execRetrainDone (m : Mc) (good : Bool) (s : State) : Out :=
  .next (
    if (s.mcAt m.val).mode ≠ 0 ∧ (s.mcAt m.val).mode ≠ 2 then s
    else if good then
      let t := (s.stackAt (m.val / 16)).temp
      (s.updMc m.val (fun c => { c with mode := 1, lastTrain := s.now, trainTemp := t })).channelEvent
        (0x580 + 2 * m.val) m.val 5
    else
      (s.updMc m.val (fun c => { c with trainFlag := true })).channelEvent (0x581 + 2 * m.val) m.val 2)

/-- PARITY_ALERT: a replay; the third alert of a command, or more than 64 in 1 s, retrain the channel at once (R311). -/
def execParityAlert (x : Pc) (sameCommandThird : Bool) (s : State) : Out :=
  .next (
    let m := x.val / 2
    if (s.mcAt m).mode = 3 then s
    else
      let s := s.updMc m (fun c => { c with
        replay := satAdd c.replay 1 0xFFFFFFFF
        alerts := c.alerts.filter (fun t => decide (s.now < t + 1000000000)) ++ [s.now] })
      let s := s.event (0x580 + 2 * m) [2 + x.val * 2 ^ 4, 0]
      if sameCommandThird ∨ 64 < (s.mcAt m).alerts.length then
        let s := (s.updMc m (fun c => { c with alerts := [], urgent := true })).event (0x581 + 2 * m) [3 + x.val * 2 ^ 4, 0]
        if s.mayTrain m then s.startTrain m else s
      else s)

/-- LP_ENTRY: power-down after 1 µs idle, self-refresh after 100 µs (R319); the self-refresh of the HBM stop threshold
(R310). -/
def execLpEntry (x : Pc) (selfRefresh : Bool) (s : State) : Out :=
  .next (
    let p := s.pcAt x.val
    let ok := s.parN 10 0 0x011 == 1 && s.tolerates (if selfRefresh then 20000 else 1000)
    if (s.mcAt (x.val / 2)).mode ≠ 1 then s
    else if selfRefresh && s.stopRefresh (stackOf x.val) then s.updPc x.val (fun p => { p with power := 2, owed := 0, catchAt := none })
    else if ok && selfRefresh && decide (p.power ≠ 2) then
      (s.moveTo (p.idleAt + 100000)).updPc x.val (fun p => { p with power := 2, owed := 0, catchAt := none })
    else if ok && !selfRefresh && decide (p.power = 0) then
      (s.moveTo (p.idleAt + 1000)).updPc x.val (fun p => { p with power := 1 })
    else s)

/-- LP_EXIT (R319); the self-refresh of the HBM stop threshold stays until that condition clears (R310). -/
def execLpExit (x : Pc) (s : State) : Out :=
  .next (if (s.pcAt x.val).power = 0 ∨ s.stopRefresh (stackOf x.val) = true then s else s.wakePc x.val)

/-- Agent of a request, where its class names one (16 R442). -/
def memMaster (p : Part) : MemClass → Nat
  | .dmaFloor | .dma => p.val
  | .log => 0x48
  | .stream | .instr | .fill => 0xFF

/-- ACCESS of a request (16 R442). -/
def memAccess (write : Bool) : MemClass → Nat
  | .instr => 2
  | _ => b2n write

/-- MEM_REQUEST_SERVED: a request at an active channel; it leaves a low-power state, and waits for a refresh catch-up
(R308–R310, R313, R319). The ECC outcome of a read is counted, and a word with an uncorrectable error keeps failing until
its block is written (R312); what it does to its reader is the effect of the reader's own row. An access outside the partition's pages fails the tag
check: it changes nothing and is recorded (R306). -/
def execMemRequestServed (x : Pc) (cls : MemClass) (write : Bool) (p : Part) (addr : Nat) (ecc : Ecc) (s : State) : Out :=
  .next (
    if (s.mcAt (x.val / 2)).mode ≠ 1 ∨ s.stopRefresh (stackOf x.val) = true then s
    else
      let s := (s.moveTo (s.now + exitLatency (s.pcAt x.val).power)).wakePc x.val
      let s := s.moveTo (((s.pcAt x.val).catchEnd).getD s.now)
      let s := s.updPc x.val (fun q => { q.settle s.now with served := q.served + 1 })
      let block := hbmKey p.val addr / 64
      if 4096 * s.pagesOf p.val ≤ addr then
        s.tagCheck 10 (addr + x.val * 2 ^ 56) (memMaster p cls) (memAccess write cls) (x.val / 2)
      else if write then s.rewrite (· == block)
      else if ecc = .uncorrectable ∨ s.mem.bad.contains block then (s.spoil block).eccUe x.val addr
      else if ecc = .corrected then s.eccCorr x.val addr
      else s)

end Sys2Proof.Machine
end

