-- ==== Sys2Proof/Machine/Wire.lean ====
section
/-!
DEFINITION. Blocks and frames of an Ngulos link as the lane carries them: layouts, CRC-8, CRC-32, and what a port does
with a frame that it receives (12 R328–R333, R336; 13 R363; 16 R437, R438).
-/

namespace Sys2Proof.Machine

/-! ## Control blocks (12 R329–R332, 13 R363). Payload bit n is bit n of the number -/

/-- A field of `w` bits at bit `lo`. -/
def fld (v lo w : Nat) : Nat := v % 2 ^ w * 2 ^ lo

/-- One bit into the CRC-8 of polynomial 0x07. -/
def crc8Bit (c : BitVec 8) (b : Bool) : BitVec 8 := if c.getLsbD 7 ^^ b then (c <<< 1) ^^^ 0x07 else c <<< 1

/-- CRC-8 over bits [55:0], the highest first (R330; notes/assumptions/103.md). -/
def crc8 (n : Nat) : BitVec 8 := ((List.range 56).map (fun i => n.testBit (55 - i))).foldl crc8Bit 0

/-- A control block with its CRC-8 in [63:56]. -/
def withCrc8 (n : Nat) : Nat := n % 2 ^ 56 + (crc8 n).toNat * 2 ^ 56

/-- A trigger: short time of its act time (R330). -/
def trigBits (dom number t copy : Nat) : Nat :=
  0x66 + fld 1 8 2 + fld dom 10 1 + fld number 11 8 + fld t 19 32 + fld copy 55 1

/-- A stop (R330). -/
def stopBits (all : Bool) (linkId result reason node copy : Nat) : Nat :=
  0x66 + fld (b2n all) 10 1 + fld linkId 11 16 + fld result 27 3 + fld reason 30 4 + fld node 34 14 + fld copy 55 1

/-- A TICK (R331). -/
def tickBits (dom master us depart : Nat) : Nat :=
  0x55 + fld dom 8 1 + fld master 9 14 + fld us 23 20 + fld depart 43 13

/-- An ECHO (R332). -/
def echoBits (reply : Bool) (t : Nat) : Nat := 0x78 + fld (b2n reply) 8 1 + fld t 9 47

/-- A FLOW block (R332). -/
def flowBits (xoff : Bool) (credits ack : Nat) (nak : Bool) : Nat :=
  0x99 + fld (b2n xoff) 8 1 + fld credits 9 5 + fld ack 14 12 + fld (b2n nak) 26 1

/-- Code of a phase of training (13 R363). -/
def phaseCode : TrainPhase → Nat
  | .align => 0 | .equalize => 1 | .confirm => 2 | .exit => 3 | .enterIdle => 4

/-- A TRAIN block (13 R363). -/
def trainBits (phase : TrainPhase) (standby refIndep : Bool) (port node preset : Nat) (locked : Bool) : Nat :=
  0x33 + fld (phaseCode phase) 8 3 + fld (b2n standby) 11 1 + fld (b2n refIndep) 12 1 + fld port 13 3 + fld node 16 14 +
    fld preset 30 4 + fld (b2n locked) 34 1

/-- Fill between blocks, and for rate matching (R329, 13 R366). -/
def idleBits : Nat := 0x1E
def fillerBits : Nat := 0x2D

/-! ## Event records (16 R437) -/

/-- The 16 words of a record with its PHASE bit; a coalesced record has no payload. -/
def EvRec.words (r : EvRec) (phase : Bool) : List Nat :=
  [fld r.source 0 11 + fld r.react 11 3 + fld (b2n r.conseq) 14 1 + fld (b2n r.forced) 15 1 + fld (b2n r.coalesced) 16 1 +
     fld (b2n r.remote) 17 1 + fld (b2n r.lost) 18 2 + fld (b2n phase) 31 1, r.count % 2 ^ 32] ++ words64 (r.time : Nat) ++
    [fld r.node 0 14 + fld r.primary 16 11, r.firstShort % 2 ^ 32] ++
    (List.range 10).map (fun i => if r.coalesced then 0 else (r.payload[i]?).getD 0 % 2 ^ 32)

/-- The record that a LOG frame carries. -/
def wireToRec (r : WireRec) : EvRec :=
  { source := r.source, react := r.reaction, conseq := r.conseq, forced := r.forced, coalesced := r.coalesced, lost := r.lost
    count := r.count, time := r.time, node := r.node, primary := r.primary, firstShort := r.first, payload := r.payload }

/-- Blocks of 8 bytes of a LOG frame: the fewest from 3 to 8 that cover every non-zero payload word (16 R438). -/
def logBlocks (r : WireRec) : Nat :=
  let used := (r.payload.reverse.dropWhile (fun w => w == 0)).length
  max 3 (min 8 (ceilDiv (6 + used) 2))

/-! ## Frames (R333) -/

/-- CLASS; 0 for what is no frame. -/
def Frame.cls : Frame → Nat
  | .trig .. | .stop .. | .tick .. | .flow .. | .filler | .echoReq _ | .echoReply _ => 0
  | .token .. | .linkReady .. | .linkResult .. | .announce .. | .timeSet .. | .timeLabel .. => 1
  | .alarm .. => 2
  | .log .. | .logDrop .. => 3

/-- A broadcast. -/
def Frame.bcast : Frame → Bool
  | .timeLabel .. => true
  | _ => false

/-- Nodes of a frame; a broadcast has no destination. -/
def Frame.dst : Frame → Nat
  | .token d .. | .linkReady d .. | .linkResult d .. | .announce d .. | .timeSet d .. | .alarm d .. | .log d .. | .logDrop d .. => d
  | _ => 0
def Frame.src : Frame → Nat
  | .token _ n _ | .linkReady _ n _ | .linkResult _ n .. | .announce _ n .. | .timeSet _ n .. | .timeLabel n .. | .alarm _ n ..
  | .log _ n _ | .logDrop _ n _ => n
  | _ => 0

/-- Data words of a frame; word 0 [7:0] is its FTYPE. -/
def Frame.data : Frame → List Nat
  | .token _ _ t => [0x01 + fld t.scope.val 8 7 + fld t.kind 15 4 + fld t.result 19 16, t.key % 2 ^ 48]
  | .linkReady _ _ id => [0x02 + fld id 8 16]
  | .linkResult _ _ id r => [0x03 + fld id 8 16 + fld r 24 16]
  | .announce _ _ a w => [0x05 + fld a 8 14 + fld (b2n w) 22 1]
  | .timeSet _ _ d m h t => [0x06 + fld d.val 8 1 + fld m 9 14 + fld h 23 6, t % 2 ^ 64]
  | .timeLabel _ d sec t => [0x07 + fld d.val 8 1 + fld sec 9 48, t % 2 ^ 64]
  | .alarm _ _ e n t => [0x10 + fld e.val 8 11 + fld n 19 32, t % 2 ^ 64]
  | .log _ _ r =>
    let ws := (wireToRec r).words false
    0x20 :: (List.range (logBlocks r)).map (fun i => (ws[2 * i]?).getD 0 + (ws[2 * i + 1]?).getD 0 * 2 ^ 32)
  | .logDrop _ _ n => [0x21 + fld n 8 32]
  | _ => []

/-- The SOF block. -/
def sofBits (cls : Nat) (bcast : Bool) (len dst src seq : Nat) : Nat :=
  0x4B + fld cls 8 2 + fld (b2n bcast) 10 1 + fld (len - 1) 11 6 + fld dst 17 14 + fld src 31 14 + fld seq 45 12

/-- Bytes of a 64-bit word from byte `k`, bits [7:0] first (notes/assumptions/103.md). -/
def bytesFrom (k n : Nat) : List Nat := (List.range (8 - k)).map (fun i => n / 256 ^ (i + k) % 256)

/-- CRC-32 over SOF [63:8] and every data block. -/
def frameCrc (sof : Nat) (data : List Nat) : BitVec 32 := crc32 (bytesFrom 1 sof ++ data.flatMap (bytesFrom 0))

/-- The EOF block. -/
def eofBits (crc : BitVec 32) : Nat := 0x87 + crc.toNat * 2 ^ 8

/-- Blocks of a frame or a control block as they leave, with its SEQ: control or data, payload. A trigger or a stop is sent
twice back to back (R330). -/
def Frame.line (seq : Nat) : Frame → List (Bool × Nat)
  | .trig d n t => [0, 1].map (fun c => (true, withCrc8 (trigBits d.val n.val (t % 2 ^ 32) c)))
  | .stop a id r y n => [0, 1].map (fun c => (true, withCrc8 (stopBits a id r y n c)))
  | .tick d m us t => [(true, withCrc8 (tickBits d.val m us t))]
  | .flow x c a n => [(true, withCrc8 (flowBits x c a n))]
  | .filler => [(true, fillerBits)]
  | .echoReq t => [(true, withCrc8 (echoBits false t))]
  | .echoReply t => [(true, withCrc8 (echoBits true t))]
  | f =>
    let sof := sofBits f.cls f.bcast f.data.length f.dst f.src seq
    (true, sof) :: f.data.map (fun w => (false, w)) ++ [(true, eofBits (frameCrc sof f.data))]

/-- Blocks that a frame or a control block takes on the line. -/
def Frame.blocks : Frame → Nat
  | .trig .. | .stop .. => 2
  | .tick .. | .flow .. | .filler | .echoReq _ | .echoReply _ => 1
  | f => f.data.length + 2

/-! ## Receiving (R328–R330, R332, R333, R336) -/

/-- Block or CRC errors of a port are counted; more than one within a second is told (R355). -/
def State.blockErrors (s : State) (p n : Nat) : State :=
  if n = 0 then s
  else
    let again := decide (1 < n) || (match (s.portAt p).errAt with
      | some t => decide (s.now < t + 1000000000)
      | none => false)
    let s := s.updPort p (fun x => { x with crcErr := satAdd x.crcErr n 0xFFFFFFFF, errAt := some s.now })
    if again then s.event (0x0C3 + 8 * p) else s

/-- A single control block whose received CRC-8 is good is acted on; another is an error and dropped (R330–R332). -/
def State.takeBlock (s : State) (p bits : Nat) (crc : BitVec 8) (act : State → State) : State :=
  if crc = crc8 bits then act s else s.blockErrors p 1

/-- The two copies of a C0 block: the first good one is acted on, once (R330). -/
def State.takeC0 (s : State) (p : Nat) (bits : Nat → Nat) (crcs : BitVec 8 × BitVec 8) (act : State → State) : State :=
  let bad0 := decide (crcs.1 ≠ crc8 (bits 0))
  let bad1 := decide (crcs.2 ≠ crc8 (bits 1))
  let s := s.blockErrors p (b2n bad0 + b2n bad1)
  if bad0 && bad1 then s else act s

/-- The received CRC-32 is that of the frame. -/
def frameGood (h : FrameHdr) (f : Frame) : Bool :=
  h.crc == frameCrc (sofBits f.cls f.bcast f.data.length h.dst h.src h.seq) f.data

/-- SEQ that a port expects in a class. -/
def PortSt.nextSeq (x : PortSt) (cls : Nat) : Nat := if cls = 1 then x.rxSeq else x.rxSeq2

/-- A C1 or C2 frame has been received in order. -/
def PortSt.gotSeq (x : PortSt) (cls : Nat) : PortSt :=
  if cls = 1 then { x with rxSeq := (x.rxSeq + 1) % 4096, lastRx := x.rxSeq }
  else { x with rxSeq2 := (x.rxSeq2 + 1) % 4096, lastRx := x.rxSeq2 }

/-- The port asks the far end to replay. -/
def State.sendNak (s : State) (p : Nat) : State := s.updPort p (fun y => { y with c0 := y.c0 ++ [.flow (s.xoffFor p) 0 y.lastRx true] })

/-- A frame that arrives at a port: with a bad CRC-32 it is dropped and counted; a C1 or C2 frame that is lost or out of
order is asked for again, one that has come before is acknowledged again. -/
def State.takeFrame (s : State) (p : Nat) (h : FrameHdr) (f : Frame) (act : State → State) : State :=
  if !frameGood h f then
    let s := s.blockErrors p 1
    if f.cls = 3 then s else s.sendNak p
  else if f.cls = 3 then act s
  else
    let want := (s.portAt p).nextSeq f.cls
    if h.seq = want then act (s.updPort p (fun x => x.gotSeq f.cls))
    else if (want + 4096 - h.seq) % 4096 ≤ 32 then s.sendFlow p 0
    else s.sendNak p

end Sys2Proof.Machine
end

