-- ==== Sys2Proof/Machine/NglRows.lean ====
section
/-!
DEFINITION. The rows of the Ngulos fabric: ticks and domains, triggers and stops, link delay, flow control, frames,
alarms and logs, CHIME, sending (12 R327–R353).
-/

namespace Sys2Proof.Machine

/-! ## Ticks and domains (R331, R341–R345) -/

/-- The module is the master of a domain. -/
def State.isMaster (s : State) (dom : Nat) : Bool := s.parN 11 dom 0x004 == 1 && decide (s.nglMode ≠ 0)

/-- Domains whose ticks the module sends: those that it is the master of, or tracks. -/
def State.sends (s : State) (dom : Nat) : Bool := s.isMaster dom || (s.domAt dom).tracked

/-- Time of a domain, of which a master's is its own. -/
def State.domTime (s : State) (dom : Nat) : Nat := if s.isMaster dom then s.now else s.toDomain dom s.now

/-- The next whole microsecond of a domain, and its module time in ns. -/
def State.nextTick (s : State) (dom : Nat) : Nat × Nat :=
  let us := s.domTime dom / 1000 + 1
  (us, if s.isMaster dom then 1000 * us
    else ((((us * 65536000 : Nat) : Int) - (s.domAt dom).d + 65535) / 65536).toNat)

/-- Node that masters a domain. -/
def State.masterOf (s : State) (dom : Nat) : Nat := if s.isMaster dom then s.node else (s.domAt dom).master

/-- TICK_SEND: at the next whole microsecond of a domain that the module sends, its TICK on the ports of its tree (R331). -/
def execTickSend (s : State) : Out :=
  .next (
    let due := ((List.finRange 2).filter (fun d => s.sends d.val)).map (fun d => (d, s.nextTick d.val))
    match minOf (due.map (fun x => x.2.2)) with
    | none => s
    | some t =>
      let s := s.moveTo t
      (due.filter (fun x => decide (x.2.2 = t))).foldl (fun s x =>
        ((List.range 6).filter (s.treePort x.1.val)).foldl (fun s p =>
          s.queueC0 p (.tick x.1 (s.masterOf x.1.val) (x.2.1 % 2 ^ 20) t)) s) s)

/-- D_X over the last 16 ticks. -/
def DomSt.measure (v : Int) (x : DomSt) : DomSt :=
  let ds := (v :: x.ds).take 16
  { x with ds, d := roundAway ds.sum ds.length }

/-- TIME_LOCK changes (R342). -/
def State.setLock (s : State) (on : Bool) : State :=
  if s.ngl.tm.lock = on then s
  else ({ s with ngl.tm := { s.ngl.tm with lock := on, lockedOnce := s.ngl.tm.lockedOnce || on } } : State).event 0x0F3

/-- OSC_STATE of a warm time base. -/
def State.setOsc (s : State) (v : Nat) : State :=
  if s.acq.osc.state = 0 ∨ s.acq.osc.state = 4 then s else { s with acq.osc := { s.acq.osc with state := v } }

/-- The module selects a domain with C_NEW = D_NEW of the last microsecond; module time has no step (R344). -/
def State.selectDomain (s : State) (dom : Nat) : State :=
  let old := s.ngl.tm.sel
  let c := (s.domAt dom).ds.headD (s.domAt dom).d
  let s := ({ s with ngl.tm := { s.ngl.tm with sel := dom, c, inLockSince := some s.now } } : State).setOsc 2
  (s.event 0x0F0 ([old, dom] ++ words64 c)).epochs

/-- No domain is tracked (R344). -/
def State.holdover (s : State) (dom : Nat) : State :=
  let s : State := { s with ngl.tm := { s.ngl.tm with sel := 2, inLockSince := none } }
  ((s.setOsc 3).setLock false).event 0x0F2 [dom]

/-- The other domain. -/
def otherDom (dom : Nat) : Nat := 1 - dom

/-- The selected domain is lost for a reason: switch when the other is tracked. -/
def State.leaveDomain (s : State) (dom : Nat) (alone : State → State) : State :=
  if s.ngl.tm.sel ≠ dom then s
  else if (s.domAt (otherDom dom)).tracked then s.selectDomain (otherDom dom)
  else alone s

/-- Three ticks in a row name a new master (R344). -/
def State.newMaster (s : State) (dom master : Nat) (v : Int) : State :=
  let s := s.updDom dom (fun x => { x with master, ds := [v], d := v, foreign := 0, since := s.now })
  s.leaveDomain dom (fun s =>
    ({ s with ngl.tm := { s.ngl.tm with c := v } } : State).event 0x0F1 [dom, master])

/-- Applied offset and what is left below one unit after it has slewed toward 0 for `dt` ns at `ppb` (R345). -/
def slewed (c : Int) (rem dt ppb : Nat) : Int × Nat :=
  let n := rem + dt * 65536 * ppb
  let k : Int := (n / 10 ^ 9 : Nat)
  if k < c then (c - k, n % 10 ^ 9) else if c < -k then (c + k, n % 10 ^ 9) else (0, 0)

/-- The discipline loop sets OSC_STEER: what it sets is not stated, a free value within ±500,000; reaching the limit is told
(07 R235). -/
def State.steerFree (s : State) : State :=
  let steer : Int := ((s.freeVal % 1000001 : Nat) : Int) - 500000
  let hit := decide (steer.natAbs = 500000) && decide (s.acq.osc.steer.natAbs ≠ 500000)
  let s : State := { s.drawFree with acq.osc := { s.acq.osc with steer } }
  if hit then s.event 0x564 else s

/-- The discipline loop at a tick of the selected domain (R235, R341, R342, R345). -/
def State.discipline (s : State) (dom dt : Nat) : State :=
  let (c, slewRem) := slewed s.ngl.tm.c s.ngl.tm.slewRem dt (s.parN 11 0 0x023)
  let err := ((s.domAt dom).d - c).natAbs
  let since := if err ≤ 1310 then some (s.ngl.tm.inLockSince.getD s.now) else none
  let s : State := { s with ngl.tm := { s.ngl.tm with c, slewRem, inLockSince := since } }
  let s := (s.setOsc 2).steerFree
  if 13107 < err then s.setLock false else s

/-- A good TICK on the upstream port of its domain; `arrival` is its stamp in units of 2^-16 ns (R341, R344). With
MASTER_FOLLOW the master of B steers its frequency to A. -/
def State.takeTick (s : State) (port : Port) (dom : Dom) (master usLo depart arrival : Nat) : State :=
    if s.domPort dom.val == port.val && !s.isMaster dom.val then
      let x := s.domAt dom.val
      let us := nearest (2 ^ 20) (s.toDomain dom.val s.now / 1000) usLo
      let v : Int := ((us * 65536000 + depart * 128 : Nat) : Int) + (s.portAt port.val).delay - (arrival : Int)
      if x.tracked ∧ x.master ≠ master then
        let n := if x.foreignMaster = master then x.foreign + 1 else 1
        let s := s.updDom dom.val (fun x => { x with lastTick := s.now, foreign := n, foreignMaster := master })
        if 3 ≤ n then s.newMaster dom.val master v else s
      else
        let s := s.updDom dom.val (fun x =>
          { x.measure v with tracked := true, master, lastTick := s.now, foreign := 0
                             since := if x.tracked then x.since else s.now })
        if s.ngl.tm.sel = 2 then s.selectDomain dom.val
        else if s.ngl.tm.sel = dom.val ∧ s.ngl.tm.joined then s.discipline dom.val (s.now - x.lastTick)
        else if dom = 0 ∧ s.isMaster 1 ∧ s.parN 11 0 0x006 = 1 then s.steerFree
        else s
    else s

/-- TICK_RECEIVE: a TICK with a bad CRC is dropped (R331). -/
def execTickReceive (rx : BlockRx) (dom : Dom) (master usLo depart arrival : Nat) (s : State) : Out :=
  .next (
    if s.portUp rx.port.val then
      (s.moveTo (arrival / 65536)).takeBlock rx.port.val (tickBits dom.val master usLo depart) rx.crc (fun s =>
        s.takeTick rx.port dom master usLo depart arrival)
    else s)

/-- TICK_LOSS: no TICK of a tracked domain for 3 µs (R344). -/
def execTickLoss (dom : Dom) (s : State) : Out :=
  .next (
    if (s.domAt dom.val).tracked then
      let s := s.moveTo ((s.domAt dom.val).lastTick + 3000)
      (s.updDom dom.val (fun x => { x with tracked := false, foreign := 0, ds := [] })).leaveDomain dom.val
        (fun s => s.holdover dom.val)
    else s)

/-- TIME_LOCK: within 20 ps for 10 ms (R342). -/
def execTimeLock (s : State) : Out :=
  .next (match s.ngl.tm.inLockSince with
    | some t => if s.ngl.tm.joined ∧ s.ngl.tm.lock = false then (s.moveTo (t + 10000000)).setLock true else s
    | none => s)

/-- DOMAIN_REVERT: the preferred domain has been tracked under one master for 1 s (R345). -/
def execDomainRevert (s : State) : Out :=
  .next (
    let d := s.parN 11 0 0x021
    if s.parN 11 0 0x022 = 1 ∧ s.ngl.tm.sel ≠ d ∧ (s.domAt d).tracked = true then
      (s.moveTo ((s.domAt d).since + 1000000000)).selectDomain d
    else s)

/-! ## Triggers and stops (R330, R347–R351) -/

/-- C0_TRIGGER_RECEIVE: a trigger of short time `tShort` in a domain, received at `t`: forwarded, and pending or LATE
(R348, R349). -/
def execC0TriggerReceive (rx : C0Rx) (dom : Dom) (number : NTrg) (tShort t : Nat) (s : State) : Out :=
  .next (
    let port := rx.port
    if s.portUp port.val then
      (s.moveTo t).takeC0 port.val (trigBits dom.val number.val tShort) rx.crcs (fun s =>
        let full := nearest (2 ^ 32) (s.domTime dom.val) tShort
        let s := s.broadcast (some port.val) (fun s p => s.queueC0 p (.trig dom number full))
        s.receiveTrig number (if s.isMaster dom.val then full else s.toModule dom.val full) s.now)
    else s)

/-- The pending trigger of a number that acts first. -/
def firstTrig (l : List PendTrig) (n : NTrg) : Option PendTrig :=
  (l.filter (fun x => decide (x.number = n))).foldl (fun acc x =>
    match acc with
    | none => some x
    | some y => if x.t < y.t then some x else some y) none

/-- NGULOS_TRIGGER_ACT: the trigger acts at its receiving site: its token, CAP triggers, WTRG, a linked start (R349;
02 R60; 06 R201; 10 R280; 04 R122). -/
def execNgulosTriggerAct (number : NTrg) (s : State) : Out :=
  .next (match firstTrig s.ngl.pendTrig number with
    | some x =>
      let s := (s.moveTo x.t)
      let s : State := { s with ngl.pendTrig := s.ngl.pendTrig.erase x }
      let k := s.parN 11 number.val 0x031
      if k < 128 then
        let q := 4000 * x.t
        let s := s.occurAt k q (s.trgsOf k 7 (fun a => a == number.val)) (some x.t) x.late
        let s := match s.siteRunner k with
          | some r =>
            match s.burstAt r with
            | some b =>
              let c := b.cycleAt q
              let s := if b.isStarted && decide (b.phase ≠ BPhase.draining) && !b.latched.contains (number.val, c) then
                  s.sample r number.val c else s
              if b.linked && b.linkTrig == number.val then s.linkStart r x.t else s
            | none => s
          | none => s
        s.issueTok { scope := toFin 128 k (by decide), kind := 5, key := number.val, result := 0 }
      else s
    | none => s)

/-- Result of a STOP: INVALID with a reason of R36, else ABORTED (R351). -/
def stopResult (result reason : Nat) : SiteResult :=
  if result = 2 ∧ 1 ≤ reason ∧ reason ≤ 8 then invalidRes reason else abortedRes

/-- A STOP acts on this module: the lanes of the bursts that it ends take the stop state at once (R351; 02 R66). -/
def State.stopAct (s : State) (all : Bool) (linkId : Nat) (res : SiteResult) : State :=
  let hit (b : Burst) : Bool :=
    if all then s.parN 11 b.part.val 0x040 == 1
    else b.linked && (match (s.siteAt b.home.val).defn with
      | some d => d.linked && d.linkId == linkId
      | none => false)
  (s.ve.bursts.filter (fun x => hit x.2)).foldl (fun s x =>
    let s := s.endBurst x.1 .c0 res
    if x.2.isStarted then x.2.sites.foldl (fun s k => s.stopSite k.val) s else s) s

/-- C0_STOP_RECEIVE: a STOP is forwarded and acts (R351). -/
def execC0StopReceive (rx : C0Rx) (all : Bool) (linkId : Nat) (cause : StopCause) (node : Nat) (s : State) : Out :=
  .next (
    if s.portUp rx.port.val then
      s.takeC0 rx.port.val (stopBits all linkId cause.result cause.reason node) rx.crcs (fun s =>
        (s.broadcast (some rx.port.val) (fun s p => s.queueC0 p (.stop all linkId cause.result cause.reason node))).stopAct
          all linkId (stopResult cause.result cause.reason))
    else s)

/-! ## Link delay (R332, R340) -/

/-- ECHO_SEND: every 100 µs an ECHO request; its send time is formed when it is sent. -/
def execEchoSend (port : Port) (s : State) : Out :=
  .next (
    if s.portUp port.val then
      let s := s.moveTo (s.portAt port.val).echoDue
      (s.updPort port.val (fun x => { x with echoDue := s.now + 100000 })).queueC0 port.val (.echoReq s.now)
    else s)

/-- ECHO_REQUEST_RECEIVE: the answer waits; its turnaround is formed when it is sent. -/
def execEchoRequestReceive (rx : BlockRx) (sendTime t : Nat) (s : State) : Out :=
  .next (
    if s.portUp rx.port.val then
      (s.moveTo t).takeBlock rx.port.val (echoBits false sendTime) rx.crc (fun s => s.queueC0 rx.port.val (.echoReply t))
    else s)

/-- Mean of a list of exchanges. -/
def meanDelay (l : List Int) : Int := if l.isEmpty then 0 else roundAway l.sum l.length

/-- ECHO_REPLY_RECEIVE: send time, receipt and turnaround in units of 2^-9 ns give one exchange; LINK_DELAY is the mean
of the last 64. A jump of the mean above 50 ps and a cable above 54 ns are told (R339, R340); the code of the cause
DELAY_JUMP is not stated: a free value. -/
def execEchoReplyReceive (rx : BlockRx) (t1 t4 turnaround : Nat) (s : State) : Out :=
  .next (
    let p := rx.port.val
    if s.portUp p then s.takeBlock p (echoBits true turnaround) rx.crc (fun s =>
      let one : Int := (((t4 : Int) - t1 - turnaround) * 128 + s.par (pid 11 p 0x012)) / 2
      let old := s.portAt p
      let l := (one :: old.echoes).take 64
      let mean := meanDelay l
      let valid := decide (l.length = 64)
      let s := s.updPort p (fun x => { x with echoes := l, delay := mean, delayValid := valid })
      let s := if old.delayValid && decide (3276 < (mean - old.delay).natAbs) then
          (s.drawFree).event (0x0C3 + 8 * p) [s.freeVal % 16] else s
      if valid && decide (54 * 65536 < mean) && !(old.delayValid && decide (54 * 65536 < old.delay)) then s.c0Cond p 3
      else s)
    else s)

/-! ## Flow control (R332, R335, R336) -/

/-- Frames up to the one acknowledged leave the replay buffer; a delivered ALARM frees its source (R337). -/
def ackFrames (ack : Nat) (l : List (Nat × Frame)) : List (Nat × Frame) × List (Nat × Frame) :=
  match l.findIdx? (fun x => x.1 == ack) with
  | some i => (l.take (i + 1), l.drop (i + 1))
  | none => ([], l)

/-- The alarms of acknowledged frames that this module sent may be sent again. -/
def State.freeAlarms (s : State) (l : List (Nat × Frame)) : State :=
  l.foldl (fun s x => match x.2 with
    | .alarm _ src event _ _ =>
      if src = s.node then
        let (n, t, _) := Tbl.get s.evt.sticky (0, 0, false) event.val
        { s with evt.sticky := Tbl.put s.evt.sticky event.val (n, t, false) }
      else s
    | _ => s) s

/-- The frames of the replay buffer are sent again, in order. -/
def State.replay (s : State) (p : Nat) : State :=
  s.updPort p (fun x => { x with sent := x.sent ++ x.replay, ackDue := s.now + 10000 })

/-- FLOW_RECEIVE: credits, acknowledgement, replay, XOFF. -/
def execFlowReceive (rx : BlockRx) (xoff : Bool) (credits ackSeq : Nat) (nak : Bool) (s : State) : Out :=
  .next (
    let port := rx.port
    let crc := rx.crc
    let p := port.val
    if s.portUp p then s.takeBlock p (flowBits xoff credits ackSeq nak) crc (fun s =>
      let was := (s.portAt p).xoffIn
      let (done, left) := ackFrames ackSeq (s.portAt p).replay
      let s := s.updPort p (fun x => { x with
        xoffIn := xoff, credits := min 16 (x.credits + credits), replay := left
        ackDue := if done.isEmpty then x.ackDue else s.now + 10000 })
      let s := s.freeAlarms done
      let s := if nak && !left.isEmpty then s.replay p else s
      if xoff ∧ was = false then s.xoffEvent p else s)
    else s)

/-- C1_REPLAY_TIMEOUT: no acknowledgement within 10 µs (R336). -/
def execC1ReplayTimeout (port : Port) (s : State) : Out :=
  .next (
    if s.portUp port.val && !(s.portAt port.val).replay.isEmpty then
      (s.moveTo (s.portAt port.val).ackDue).replay port.val
    else s)

/-! ## Frames (R327, R333, R338, R343) -/

/-- A C1 frame that arrives for another node goes on, and frees its receive buffer. -/
def State.passC1 (s : State) (port dst : Nat) (f : Frame) : State :=
  (s.forward port dst (fun s p => s.queueC1 p f)).returnCredit port

/-- TOKEN_FRAME: the token is placed, or held at the port without its credit (R298). A LINK token goes to the local site
with that LINK_ID (R333). -/
def execTokenFrame (port : Port) (h : FrameHdr) (scope : Site) (kind : Fin 7) (key : Nat) (result : BitVec 16)
    (s : State) : Out :=
  .next (
    let p := port.val
    let tok : TokIn := { scope, kind := kind.val, key, result := result.toNat }
    if !s.portUp p || (s.portAt p).held.isSome then s
    else s.takeFrame p h (.token h.dst h.src tok) (fun s =>
      if h.dst ≠ s.node then s.passC1 p h.dst (.token h.dst h.src tok)
      else
        let place (t : TokIn) : State :=
          if s.tokFits t then (s.placeTok t).wake.returnCredit p
          else s.updPort p (fun x => { x with held := some (t, s.now) })
        if kind.val = 6 then
          match s.linkSite key with
          | some (k, _) => place { tok with scope := toFin 128 k (by decide) }
          | none => s.returnCredit p
        else place tok))

/-- LINK_READY_FRAME: READY of a member (10 R294). -/
def execLinkReadyFrame (port : Port) (ends : FrameEnds) (fcs : FrameSeal) (linkId : Nat) (s : State) : Out :=
  .next (
    let h : FrameHdr := ⟨ends, fcs⟩
    let f : Frame := .linkReady h.dst h.src linkId
    if !s.portUp port.val then s
    else s.takeFrame port.val h f (fun s =>
      if h.dst ≠ s.node then s.passC1 port.val h.dst f
      else (s.linkReady linkId h.src).returnCredit port.val))

/-- LINK_RESULT_FRAME: a member's result (10 R296). -/
def execLinkResultFrame (port : Port) (ends : FrameEnds) (fcs : FrameSeal) (linkId : Nat) (result : BitVec 16) (s : State) : Out :=
  .next (
    let h : FrameHdr := ⟨ends, fcs⟩
    let f : Frame := .linkResult h.dst h.src linkId result.toNat
    if !s.portUp port.val then s
    else s.takeFrame port.val h f (fun s =>
      if h.dst ≠ s.node then s.passC1 port.val h.dst f
      else (s.linkResult linkId h.src result.toNat s.now).returnCredit port.val))

/-- Entries of the routing table that name a port. -/
def State.routesOver (s : State) (p : Nat) : List Nat := (s.ngl.route.filter (fun x => x.2 == p)).map (·.1)

/-- An ANNOUNCE goes on upstream, from this module to its parent. -/
def State.toParent (s : State) (addr : Nat) (withdraw : Bool) : State :=
  match s.upstream with
  | some p => s.queueC1 p (.announce (s.portAt p).farAddr s.node addr withdraw)
  | none => s

/-- A route is recorded, withdrawn, or in conflict (R327). -/
def State.announced (s : State) (p addr : Nat) (withdraw : Bool) : State :=
  if withdraw then
    if Tbl.find s.ngl.route addr = some p then
      ({ s with ngl.route := Tbl.del s.ngl.route addr } : State).toParent addr true
    else s
  else
    match Tbl.find s.ngl.route addr with
    | some q => if q = p then s.toParent addr false else s.event (0x0C5 + 8 * p)
    | none =>
      if addr = s.node then s.event (0x0C5 + 8 * p)
      else ({ s with ngl.route := Tbl.put s.ngl.route addr p } : State).toParent addr false

/-- ANNOUNCE: it arrives on a D port (R327). -/
def execAnnounce (rx : FrameRx) (addr : Nat) (withdraw : Bool) (s : State) : Out :=
  .next (
    let port := rx.port
    let h := rx.h
    let p := port.val
    if !s.portUp p || decide (p < 2) then s
    else s.takeFrame p h (.announce h.dst h.src addr withdraw) (fun s => (s.returnCredit p).announced p addr withdraw))

/-- The single set of module time at join (R343): islands realign, CHIME schedules are cancelled, host-armed sets
publish with PARTIAL. -/
def State.joinTime (s : State) (dom : Nat) (time : Nat) : State :=
  let s : State := { s with
    now := time
    ngl.tm := { s.ngl.tm with valid := true, joined := true, sel := dom, c := 0, inLockSince := none
                              nextEpoch := time + 500000000 }
    ngl.chime := s.ngl.chime.map (fun x => (x.1, ({ level := (x.2.cfg.map (·.invert)).getD x.2.level } : ChimeSt))) }
  let s := (List.range 16).foldl (fun s g =>
    s.updGrp g (fun x => { x with pll := if x.pll = .locked then .locking else x.pll })) s
  let s := (s.acq.ms.map (·.1)).foldl (fun s m =>
    if (s.msAt m).armed ∧ s.msPar m 0x00B = 1 then s.publishSet m true false false false else s) s
  (s.updDom dom (fun x => { x with ds := [], d := 0 })).epochs

/-- TIME_SET: hops and master of a domain; the first one on a port with a valid LINK_DELAY sets module time (R324,
R343). `hops` is this module's hop count to the root. -/
def execTimeSet (rx : FrameRx) (dom : Dom) (master hops time : Nat) (s : State) : Out :=
  .next (
    let port := rx.port
    let h := rx.h
    let p := port.val
    if !s.portUp p then s
    else s.takeFrame p h (.timeSet h.dst h.src dom master hops time) (fun s =>
      let s := s.returnCredit p
      if s.domPort dom.val ≠ p then s
      else if s.nglMode = 1 ∧ s.parN 11 0 0x003 < 2 * hops then (s.event 0x0F8).c0Cond p 2
      else
        let s := s.updDom dom.val (fun x => { x with master, hops })
        if s.ngl.tm.joined ∨ (s.portAt p).delayValid = false then s else s.joinTime dom.val time))

/-- TIME_SET_PERIODIC: to the children of each tree, once per second (R343); a child whose address is in conflict
receives none (R327). -/
def execTimeSetPeriodic (s : State) : Out :=
  .next (
    ((List.finRange 2).filter (fun d => s.sends d.val && s.ngl.tm.valid)).foldl (fun s d =>
      let master := s.masterOf d.val
      let hops := if s.isMaster d.val then 1 else (s.domAt d.val).hops + 1
      let time := (s.domTime d.val / 1000 + 1) * 1000
      ((List.range 6).filter (fun p => s.treePort d.val p && p != s.domPort d.val && (s.nglMode == 2 ||
        Tbl.find s.ngl.route (s.portAt p).farAddr == some p))).foldl
        (fun s p => s.queueC1 p (.timeSet (s.portAt p).farAddr s.node d master hops time)) s) s)

/-- A label is stored (R352). -/
def State.label (s : State) (seconds mt : Nat) : State :=
  ({ s with ngl.tm := { s.ngl.tm with todSec := seconds, todMt := mt } } : State).event 0x0F7

/-- TIME_LABEL: a broadcast of the master (R352). -/
def execTimeLabel (rx : FrameRx) (dom : Dom) (seconds t : Nat) (s : State) : Out :=
  .next (
    let port := rx.port
    let h := rx.h
    let f : Frame := .timeLabel h.src dom seconds t
    if s.portUp port.val then s.takeFrame port.val h f (fun s =>
      let s := s.returnCredit port.val
      let s := s.broadcast (some port.val) (fun s p => s.queueC1 p f)
      s.label seconds (s.toModule dom.val t))
    else s)

/-- A record of another module in the system partition's ring (16 R438). -/
def State.remote (s : State) (r : EvRec) : State := s.deliver s.host.sysPart.val r

/-- ALARM_FRAME: at the sink, a COALESCED REMOTE record (16 R438). -/
def execAlarmFrame (port : Port) (ends : FrameEnds) (fcs : FrameSeal) (event : Src) (count time : Nat) (s : State) : Out :=
  .next (
    let h : FrameHdr := ⟨ends, fcs⟩
    let f : Frame := .alarm h.dst h.src event count time
    if !s.portUp port.val then s
    else s.takeFrame port.val h f (fun s =>
      let s := s.sendFlow port.val 0
      if h.dst ≠ s.node then s.forward port.val h.dst (fun s p => s.queueC2 p f)
      else s.remote { source := event.val, react := 2, coalesced := true, remote := true, count, time, node := h.src
                      firstShort := shortTime time }))

/-- LOG_FRAME: at the sink, a REMOTE record as it arrived (16 R438). -/
def execLogFrame (port : Port) (ends : FrameEnds) (fcs : FrameSeal) (rec : WireRec) (s : State) : Out :=
  .next (
    let h : FrameHdr := ⟨ends, fcs⟩
    let f : Frame := .log h.dst h.src rec
    if !s.portUp port.val then s
    else s.takeFrame port.val h f (fun s =>
      if h.dst ≠ s.node then s.forward port.val h.dst (fun s _ => s.queueC3 raiseTop h.dst f)
      else s.remote { wireToRec rec with remote := true, node := h.src }))

/-- LOG_DROP: at the sink, a LOST record (16 R438). -/
def execLogDrop (port : Port) (ends : FrameEnds) (fcs : FrameSeal) (count : Nat) (s : State) : Out :=
  .next (
    let h : FrameHdr := ⟨ends, fcs⟩
    let f : Frame := .logDrop h.dst h.src count
    if !s.portUp port.val then s
    else s.takeFrame port.val h f (fun s =>
      if h.dst ≠ s.node then s.forward port.val h.dst (fun s _ => s.queueC3 raiseTop h.dst f)
      else s.remote { source := 0x7FF, react := 0, lost := true, remote := true, count, time := s.now, node := h.src
                      firstShort := shortTime s.now }))

/-! ## CHIME (R353) -/

/-- A schedule begins: a periodic one whose T0 has passed at the first pulse that lies ahead. -/
def ChimeSt.start (now : Nat) (r : ChimeRec) : ChimeSt :=
  let first := if r.t0 < now ∧ 0 < r.period then r.t0 + ceilDiv (now - r.t0) r.period * r.period else r.t0
  { cfg := some { r with t0 := first }, state := 1, level := r.invert, next := first }

/-- An edge of the schedule. -/
def ChimeSt.edge (r : ChimeRec) (x : ChimeSt) : ChimeSt :=
  if x.level = r.invert then { x with level := !x.level, state := 2, next := x.next + r.width }
  else
    let done := x.done + 1
    match x.queued with
    | some q => ChimeSt.start x.next q
    | none =>
      if r.period = 0 ∨ (0 < r.count ∧ r.count ≤ done) then { level := r.invert }
      else { x with level := r.invert, done, next := r.t0 + done * r.period }

/-- CHIME_EDGE: the next edge of a schedule falls due. -/
def execChimeEdge (c : ChimeOut) (s : State) : Out :=
  .next (match (s.chimeAt c.val).cfg with
    | some r => (s.moveTo (s.chimeAt c.val).next).updChime c.val (ChimeSt.edge r)
    | none => s)

/-! ## Sending (R334–R338) -/

/-- C2 has sent fewer than 1 block in 50 of the last 3,200 while it waited. -/
def c2Owed (l : List (Bool × Nat)) : Bool :=
  decide (((l.filter (·.1)).map (·.2)).sum * 50 < (l.map (·.2)).sum)

/-- Newest blocks, 3,200 at most. -/
def trimBlocks : Nat → List (Bool × Nat) → List (Bool × Nat)
  | _, [] => []
  | room, (c, n) :: r => if room = 0 then [] else if room ≤ n then [(c, room)] else (c, n) :: trimBlocks (room - n) r

/-- What a port sends next. -/
inductive Pick where
  | c0 (i : Nat)
  | c1
  | c2
  | c3
  | nothing
  deriving DecidableEq, Repr

/-- The order of R334: a TICK first; C0 blocks wait while the far end holds an XOFF; C1 needs a credit; C1 and C2 need
room in the replay buffer. -/
def PortSt.pick (x : PortSt) : Pick :=
  match x.c0.findIdx? Frame.isTick with
  | some i => .c0 i
  | none =>
    match x.c0.findIdx? (fun f => !(f.isC0 && x.xoffIn)) with
    | some i => .c0 i
    | none =>
      let room := decide (x.replay.length < 32)
      let c2 := room && !x.c2.isEmpty
      if c2 && c2Owed x.recent then .c2
      else if room && !x.c1.isEmpty && decide (0 < x.credits) then .c1
      else if c2 then .c2
      else if !x.c3.isEmpty then .c3
      else .nothing

/-- A frame leaves with its SEQ: what it shows on the line. -/
def PortSt.out (isC2 : Bool) (seq : Nat) (f : Frame) (x : PortSt) : PortSt :=
  { x with sent := x.sent ++ [(seq, f)]
           sinceFill := if f = .filler then 0 else x.sinceFill + f.blocks
           recent := if x.c2.isEmpty && !isC2 then x.recent else trimBlocks 3200 ((isC2, f.blocks) :: x.recent) }

/-- Triggers and stops in the last 64 block times, 163.84 ns (R339). -/
def PortSt.load (now : Nat) (f : Frame) (x : PortSt) : PortSt :=
  if f.isC0 then
    { x with c0Times := (x.c0Times.filter (fun t => decide (now ≤ t + 163))) ++ [now, now] }
  else x

/-- A C0 block is sent; the queue falling to 32 ends its XOFF (R335), more than 8 of 64 blocks are told (R339). -/
def State.sendC0 (s : State) (p i : Nat) : State :=
  match (s.portAt p).c0[i]? with
  | some f =>
    let shown : Frame := match f with
      | .echoReply t => .echoReply ((s.now - t) * 512)
      | .echoReq _ => .echoReq (s.now * 512 % 2 ^ 47)
      | .tick d m us t => .tick d m us (min 8191 ((s.now - t) * 512))
      | g => g
    let n := ((s.portAt p).c0Times.filter (fun t => decide (s.now ≤ t + 163))).length
    let s := s.updPort p (fun x => ({ x with c0 := x.c0.eraseIdx i } : PortSt).out false 0 shown |>.load s.now f)
    let s := if f.isC0 ∧ n ≤ 8 ∧ 8 < n + 2 then s.c0Cond p 1 else s
    if (s.portAt p).xoffOut ∧ (s.portAt p).c0Len ≤ 32 then
      (s.updPort p (fun x => { x with xoffOut := false })).flowOthers p
    else s
  | none => s

/-- Blocks of what a port would send next. -/
def PortSt.nextBlocks (x : PortSt) : Nat :=
  match x.pick with
  | .c0 i => ((x.c0[i]?).map Frame.blocks).getD 0
  | .c1 => ((x.c1.head?).map Frame.blocks).getD 0
  | .c2 => ((x.c2.head?).map Frame.blocks).getD 0
  | .c3 => ((x.c3.head?).map Frame.blocks).getD 0
  | .nothing => 1

/-- In independent-reference mode a FILLER block is due, so that one leaves within every 1,024 blocks (13 R366). -/
def State.fillDue (s : State) (p : Nat) : Bool :=
  s.parN 11 p 0x081 == 1 && decide (1024 ≤ (s.portAt p).sinceFill + (s.portAt p).nextBlocks + 1)

/-- Blocks that have left a port, as the lane carries them. -/
def PortSt.line (x : PortSt) : List (Bool × Nat) := x.sent.flatMap (fun f => f.2.line f.1)

/-- BLOCK_SEND: the next block or frame of a port (R334–R338; 13 R366). -/
def execBlockSend (port : Port) (s : State) : Out :=
  .next (
    let p := port.val
    if !s.portUp p then s
    else if s.fillDue p then s.updPort p (PortSt.out false 0 .filler)
    else match (s.portAt p).pick with
      | .c0 i => s.sendC0 p i
      | .c1 => s.updPort p (fun x => match x.c1 with
        | f :: r => ({ x with
            c1 := r, credits := x.credits - 1, replay := x.replay ++ [(x.seq, f)], seq := (x.seq + 1) % 4096
            ackDue := if x.replay.isEmpty then s.now + 10000 else x.ackDue } : PortSt).out false x.seq f
        | [] => x)
      | .c2 => s.updPort p (fun x => match x.c2 with
        | f :: r => ({ x with
            c2 := r, replay := x.replay ++ [(x.seq2, f)], seq2 := (x.seq2 + 1) % 4096
            ackDue := if x.replay.isEmpty then s.now + 10000 else x.ackDue } : PortSt).out true x.seq2 f
        | [] => x)
      | .c3 =>
        let s := s.updPort p (fun x => match x.c3 with
          | f :: r => ({ x with c3 := r } : PortSt).out false 0 f
          | [] => x)
        let x := s.portAt p
        if x.c3.length ≤ 16 ∧ 0 < x.c3Since then
          s.updPort p (fun x => { x with
            c3 := .logDrop (bits (s.parN 11 0 0x042) 13 0) s.node x.c3Since :: x.c3, c3Since := 0 })
        else s
      | .nothing => s)

/-- ALARM_SEND: the ALARM frame of a source with the full count held, which then restarts (R337). -/
def execAlarmSend (event : Src) (s : State) : Out :=
  .next (
    let sink := s.parN 11 0 0x041
    let dst := bits sink 13 0
    match Tbl.get s.evt.sticky (0, 0, false) event.val with
    | (n, t, false) =>
      if bit sink 15 = 1 ∧ 0 < n ∧ dst ≠ s.node then
        match s.portTo dst with
        | some p =>
          let s : State := { s with evt.sticky := Tbl.put s.evt.sticky event.val (0, t, true) }
          s.queueC2 p (.alarm dst s.node event n t)
        | none => s
      else s
    | _ => s)

end Sys2Proof.Machine
end

