-- ==== Sys2Proof/Machine/LinkRows.lean ====
section
/-!
DEFINITION. Serial lanes and host links: training, standby, retraining, lane scans, PRBS tests (13 R362–R373, 12 R326).
-/

namespace Sys2Proof.Machine

/-- Values that apply when a lane trains next (13 R365, R374), or when a host port enters Detect (R359, R370). -/
def State.applyAt (s : State) (at_ : Apply) (el : Nat) : State :=
  let ready (x : PendVal) : Bool :=
    pidEl x.id == el && (match idRow x.id with
      | some r => r.apply == at_
      | none => false)
  let go := s.host.pendVals.filter ready
  let s : State := { s with host.pendVals := s.host.pendVals.filter (fun x => !ready x) }
  go.foldl (fun s x => s.applyVal x.id x.value) s

/-- TRAIN_TIMEOUT and RETRY_INTERVAL in ns. -/
def State.trainTime (s : State) : Nat := s.parN 11 0 0x090 * 1000000
def State.retryTime (s : State) : Nat := s.parN 11 0 0x091 * 1000000

/-- One attempt of training begins (R364). -/
def State.attempt (s : State) (p attempts : Nat) (retrain retry : Bool) : State :=
  let s := s.applyAt .training p
  s.updPort p (fun x => { x with
    mode := .training, phase := some .align, lock := false, farLock := false
    attempts, retrain, retry, exiting := false, trainDue := s.now + s.trainTime })

/-- A port that was up trains again: its C0 bound does not hold meanwhile (R369). -/
def State.retrainPort (s : State) (p : Nat) : State := (s.attempt p 0 true false).c0Cond p 4

/-- A standby U-B leaves idle when U-A loses block lock or goes DOWN (R368). -/
def State.wakeB (s : State) (p : Nat) : State :=
  if p = 0 ∧ s.nglMode = 1 ∧ (s.portAt 1).mode = .standby then s.updPort 1 (fun x => { x with exiting := true }) else s

/-- Entries over a D port are withdrawn (12 R327). -/
def State.withdrawOver (s : State) (p : Nat) : State :=
  if p < 2 then s
  else (s.routesOver p).foldl (fun s a =>
    ({ s with ngl.route := Tbl.del s.ngl.route a } : State).toParent a true) s

def Frame.isAlarm : Frame → Bool
  | .alarm .. => true
  | _ => false

/-- The final completion of a `ngl.lane_retrain` (R369; a port that goes DOWN gives TIMEOUT, notes/assumptions/33.md). -/
def State.retrainDoneCmd (s : State) (p : Nat) (st : Status) : State :=
  match (s.portAt p).retrainCmd with
  | some (q, tag) => (s.updPort p (fun x => { x with retrainCmd := none })).complete q.val tag 0x0B08 st []
  | none => s

/-- The port goes DOWN: C0 blocks are discarded and counted, frames routed over it are dropped, its routes withdrawn
(R369). -/
def State.goDown (s : State) (p : Nat) (tell : Bool) : State :=
  let s := s.updPort p (fun x => { x with
    mode := .down, phase := none, lock := false, farLock := false, exiting := false
    c0Lost := satAdd x.c0Lost x.c0Len 0xFFFFFFFF, c0 := [], c1 := [], c3 := []
    replay := x.replay.filter (fun f => f.2.isAlarm), trainDue := s.now + s.retryTime })
  let s := s.updSlane p (fun x => { x with far := false })
  let s := ((s.withdrawOver p).wakeB p).retrainDoneCmd p .timeout
  if tell then s.event (0x0C0 + 8 * p) else s

/-- An attempt fails with a cause: the next of three, or DOWN (R364, R369). -/
def State.attemptFails (s : State) (p cause : Nat) : State :=
  let x := s.portAt p
  let s := s.event (0x0C7 + 8 * p) [cause]
  if x.retry then s.goDown p false
  else if x.attempts + 1 < 3 then s.attempt p (x.attempts + 1) x.retrain false
  else s.goDown p true

/-- The port is ACTIVE: fresh credits and link delay, and ANNOUNCE on a returning upstream port (R327, R369). -/
def State.goActive (s : State) (p : Nat) : State :=
  let s := s.updPort p (fun x => { x with
    mode := .active, phase := none, exiting := false, lock := true, echoes := [], delayValid := false, xoffIn := false
    attempts := 0, activeAt := s.now, echoDue := s.now + 100000 })
  let s := s.event (0x0C1 + 8 * p)
  if p < 2 ∧ s.nglMode = 1 ∧ s.upstream = some p then s.toParent s.node false else s

/-- Either end has its standby bit set (12 R326). -/
def State.standbyRole (s : State) (p : Nat) : Bool := bit (s.parN 11 0 0x005) p == 1 || (s.portAt p).farStandby

/-- The port sits in electrical idle (R367). -/
def State.goIdle (s : State) (p : Nat) : State :=
  s.updPort p (fun x => { x with mode := .standby, phase := none, exiting := false })

/-- ALIGN ends with lock on both sides; CONFIRM begins with the far end's CONFIRM blocks (R364). -/
def nextPhase (own : Option TrainPhase) (far : TrainPhase) (bothLocked : Bool) : Option TrainPhase :=
  match own, far with
  | some .align, _ => if bothLocked then some .equalize else some .align
  | some .equalize, .confirm => some .confirm
  | q, _ => q

/-- TRAIN_BLOCK_RECEIVE: what a TRAIN block of the far end says (R363, R364, R367). -/
def execTrainBlockReceive (rx : BlockRx) (phase : TrainPhase) (standby refIndep : Bool) (farPort node : Nat)
    (rec : RxState) (s : State) : Out :=
  .next (
    let p := rx.port.val
    let x := s.portAt p
    let locked := rec.locked
    if rx.crc ≠ crc8 (trainBits phase standby refIndep farPort node rec.preset locked) then s
    else match x.mode with
    | .training =>
      let s := (s.updPort p (fun x => { x with
        far := farPort, farAddr := node, farStandby := standby, farLock := locked
        phase := nextPhase x.phase phase (x.lock && locked) })).updSlane p (fun y => { y with far := true })
      if refIndep ≠ (s.parN 11 p 0x081 == 1) then s.attemptFails p 3 else s
    | .standby => if phase = .exit then s.updPort p (fun x => { x with exiting := true }) else s
    | .active => if phase = .enterIdle ∧ s.standbyRole p then s.goIdle p else s
    | .off | .down => s)

/-- TRAINING_COMPLETE: CONFIRM has ended on both sides; `ppm` is the difference in frequency measured, in 0.1 ppm
(R364, R366, R369). -/
def execTrainingComplete (port : Port) (ppm : Int) (s : State) : Out :=
  .next (
    let p := port.val
    let x := s.portAt p
    if x.mode = .training ∧ x.phase = some .confirm ∧ x.lock = true ∧ x.farLock = true then
      let s := s.updPort p (fun x => { x with ppm, retrain := false, retry := false })
      let s := if x.retrain then
          (s.updSlane p (fun y => { y with retrains := satAdd y.retrains 1 0xFFFFFFFF })).event (0x0C6 + 8 * p) [1]
        else s.updPort p (fun x => { x with
            credits := 16, seq := 0, seq2 := 0, rxSeq := 0, rxSeq2 := 0, lastRx := 0xFFF, held := none, stalled := false })
      let s := if s.parN 11 p 0x081 = 1 ∧ 1500 < ppm.natAbs then s.event (0x0C6 + 8 * p) [3] else s
      let s := if s.standbyRole p then
          (s.goIdle p).updPort p (fun y => { y with
            exiting := p == 1 && s.nglMode == 1 && (s.portAt 0).mode == .down, activeAt := s.now })
        else
          let s := s.goActive p
          if (s.portAt p).replay.isEmpty then s else s.replay p
      s.retrainDoneCmd p .ok
    else s)

/-- TRAIN_TIMEOUT_EXPIRY: the attempt fails (R364). -/
def execTrainTimeoutExpiry (port : Port) (s : State) : Out :=
  .next (
    if (s.portAt port.val).mode = .training then (s.moveTo (s.portAt port.val).trainDue).attemptFails port.val 2 else s)

/-- BLOCK_LOCK_LOSS: 16 invalid headers in 64; the port retrains (R362, R368, R369; 12 R328, R355). -/
def execBlockLockLoss (port : Port) (s : State) : Out :=
  .next (
    let p := port.val
    let x := s.portAt p
    let count (s : State) : State :=
      (s.updPort p (fun x => { x with lock := false })).blockErrors p 16
    match x.mode with
    | .active => ((((count s).event (0x0C7 + 8 * p) [1]).retrainPort p).wakeB p)
    | .training => if x.lock then (count s).updPort p (fun x => { x with phase := some .align }) else s
    | .off | .standby | .down => s)

/-- ELASTIC_OVERFLOW: the two references differ too far; the lane retrains (R366). -/
def execElasticOverflow (port : Port) (s : State) : Out :=
  .next (
    let p := port.val
    if s.portUp p && s.parN 11 p 0x081 == 1 then (s.event (0x0C7 + 8 * p) [4]).retrainPort p else s)

/-- ACTIVITY_DETECT: the far end leaves idle, this port starts its own EXIT blocks (R367). -/
def execActivityDetect (port : Port) (s : State) : Out :=
  .next (
    if (s.portAt port.val).mode = .standby then s.updPort port.val (fun x => { x with exiting := true }) else s)

/-- FAST_EXIT_FAIL: no lock on both sides within 1 µs; full training (R367). -/
def execFastExitFail (port : Port) (s : State) : Out :=
  .next (
    let p := port.val
    if (s.portAt p).mode = .standby ∧ (s.portAt p).exiting then
      (s.event (0x0C6 + 8 * p) [2]).attempt p 0 false false
    else s)

/-- BLOCK_LOCK_GAIN: 64 consecutive valid headers while training, 8 in a fast exit (R362, R367). -/
def execBlockLockGain (port : Port) (s : State) : Out :=
  .next (
    let p := port.val
    let x := s.portAt p
    match x.mode with
    | .training => s.updPort p (fun x => { x with lock := true })
    | .standby => if x.exiting then s.goActive p else s
    | .off | .active | .down => s)

/-- STANDBY_CHECK_DUE: a fast exit of the standby U-B end, which re-enters idle, or fails (R368). -/
def execStandbyCheckDue (port : Port) (ok : Bool) (s : State) : Out :=
  .next (
    let p := port.val
    if p = 1 ∧ (s.portAt p).mode = .standby ∧ ok = false then (s.event (0x0C7 + 8 * p) [5]).goDown p true else s)

/-- STANDBY_RETURN: U-A has been ACTIVE again for 1 s (R368). -/
def execStandbyReturn (s : State) : Out :=
  .next (
    if s.nglMode = 1 ∧ s.portUp 0 ∧ s.portUp 1 ∧ s.standbyRole 1 then
      (s.moveTo ((s.portAt 0).activeAt + 1000000000)).goIdle 1
    else s)

/-- RETRY_INTERVAL_EXPIRY: a DOWN port attempts a full training, unless a PRBS test runs on it (R369). -/
def execRetryIntervalExpiry (port : Port) (s : State) : Out :=
  .next (
    let p := port.val
    if (s.portAt p).mode = .down ∧ (s.slaneAt p).prbs = none then
      (s.moveTo (s.portAt p).trainDue).attempt p 0 false true
    else s)

/-! ## Lane scans and PRBS tests (R370–R372) -/

/-- Phase and voltage points of a scan. -/
def scanNp (d : ScanDesc) : Nat := (d.phMax - d.phMin).toNat / max 1 d.phStep + 1
def scanNv (d : ScanDesc) : Nat := (d.vMax - d.vMin).toNat / max 1 d.vStep + 1

/-- Unit interval in fs, of a host lane at 32 GT/s. -/
def uiFs (lane : Nat) : Nat := if lane < 6 then 38788 else 31250

/-- Time in ns of one point: 2^DWELL_EXP bits and 10 µs of settling. -/
def scanPoint (d : ScanDesc) : Nat := 2 ^ d.dwellExp * uiFs d.lane / 1000000 + 10000

/-- What a scan writes to host memory, as 32-bit words: the 32-byte header, then the counts, phase by phase. -/
def scanResult (d : ScanDesc) (start : Nat) (counts : List Nat) (incomplete : Bool) : List Int :=
  let n := scanNp d * scanNv d
  let byte (v : Int) : Nat := (v % 256).toNat
  let header : List Nat :=
    [d.lane + scanNp d * 2 ^ 16, scanNv d + (if incomplete then 2 else 1) * 2 ^ 16, uiFs d.lane,
     2000 + byte d.phMin * 2 ^ 16 + d.phStep * 2 ^ 24, byte d.vMin + d.vStep * 2 ^ 8 + d.dwellExp * 2 ^ 16] ++
    words64 (start : Nat) ++ [counts.length]
  (header ++ counts.map (fun c => min c 0xFFFFFFFE) ++ List.replicate (n - counts.length) 0xFFFFFFFF).map
    (fun (w : Nat) => (w : Int))

/-- LANE_SCAN_DONE: the scan's result is written, OK in every case (R371). -/
def execLaneScanDone (l : SLane) (counts : List Nat) (incomplete : Bool) (s : State) : Out :=
  .next (match (s.slaneAt l.val).scan with
    | some (p, tag, d, start) =>
      let n := scanNp d * scanNv d
      if counts.length ≤ n ∧ (incomplete = true ∨ counts.length = n) then
        ((s.moveTo (start + counts.length * scanPoint d)).updSlane l.val (fun x => { x with scan := none })).complete
          p.val tag 0x0B06 .ok [] (scanResult d start counts incomplete)
      else s
    | none => s)

/-- PRBS_CHECKER_LOCK: the checker of a test locks, or locks again (R372). -/
def execPrbsCheckerLock (l : SLane) (relock : Bool) (s : State) : Out :=
  .next (match (s.slaneAt l.val).prbs with
    | some (_, mode, _) =>
      if bit mode 1 = 0 then s
      else if relock then
        if (s.slaneAt l.val).prbsLock then
          s.updSlane l.val (fun x => { x with prbsRelock := satAdd x.prbsRelock 1 0xFFFFFFFF })
        else s
      else s.updSlane l.val (fun x => { x with prbsLock := true })
    | none => s)

/-! ## Host links (R358–R360; 14 R387, R388) -/

/-- Partitions of a host port. -/
def portParts (h : Nat) : List Nat := (List.range 4).map (fun i => 4 * h + i)

/-- HOST_LINK_DOWN: the link returns to Detect; completions are held, LINK_LOST is set (R360; 14 R388). A forced
common clock without its reference keeps it there (R359). -/
def execHostLinkDown (h : HPort) (refclk : Bool) (s : State) : Out :=
  .next (
    if (s.hlinkAt h.val).up then
      let s := s.updHlink h.val (fun x => { x with up := false })
      let s := (portParts h.val).foldl (fun s p => s.updFn p (fun f => { f with linkLost := true })) s
      let s := (s.event (0x0B1 + 2 * h.val) [1]).applyAt .detect h.val
      let mode := s.parN 11 h.val 0x082
      let s := s.updHlink h.val (fun x => { x with common := mode == 1 || (mode == 0 && refclk) })
      if mode = 1 ∧ refclk = false then s.event (0x0B1 + 2 * h.val) [2] else s
    else s)

/-- HOST_LINK_UP: the link trains at a rate and width; what was held is written (R358; 14 R387). A link that was up has
gone through Recovery (R373). -/
def execHostLinkUp (h : HPort) (rate width : Nat) (s : State) : Out :=
  .next (
    let s := if (s.hlinkAt h.val).up then s.event (0x0B0 + 2 * h.val) [2] else s
    let s := s.updHlink h.val (fun x => { x with up := true, rate, width })
    let s := if rate < 5 ∨ width < 8 then s.event (0x0B0 + 2 * h.val) [1] else s
    (portParts h.val).foldl (fun s p => (s.flushCpl p).drainEvts p) s)

end Sys2Proof.Machine
end

