-- ==== Sys2Proof/Machine/SupplyRows.lean ====
section
/-!
DEFINITION. Module reset and supply reset, supply, hot plug, sensors and thermal stages (15 R406–R429; 14 R396).
-/

namespace Sys2Proof.Machine

/-! ## Module reset (14 R396) -/

/-- Values that wait for the next module reset (R391 CTRL_SSC). -/
def State.atReset (s : State) : Tbl Int :=
  (s.host.pendVals.filter (fun x => match idRow x.id with
    | some r => r.apply == .reset
    | none => false)).foldl (fun t x => Tbl.put t x.id x.value) []

/-- Microcode image of a firmware bank (02 R79). -/
def FwSt.ucodeOf (b : Bool) (f : FwSt) : UImage := if b then f.ucodeB else f.ucodeA

/-- The secure firmware loads every control store (02 R79). -/
def State.loadControl (s : State) (u : UImage) : State :=
  (List.range 32).foldl (fun s e => s.updEng e (fun x => { x with ucode := u }))
    { s with fw := { s.fw with ucode := u } }

/-- A memory channel at module reset: it trains; what the stack holds of its repairs stays (11 R305, R318). -/
def State.resetMc (s : State) (m : Nat) : McSt :=
  let c := s.mcAt m
  { mode := 0, cands := c.sched, sched := c.sched, repaired := c.repaired }

/-- Every block, partition and parameter returns to its module-reset state and the firmware boots (R396). Kept: the
queue of commands, the links of the host ports, the calibration flash with the firmware banks, scheduled repairs and
spare rows (11 R318), TRIP_SOURCE (15 R427), the supply and the contacts, the oven. The control stores take the image of
the bank that starts (02 R79). -/
def State.moduleReset (s : State) (cause : Nat) : State :=
  let r := State.reset
  let s' : State := { r with
    pending := s.pending
    free := s.free
    uart := s.uart
    host := { r.host with params := s.atReset }
    ngl := { r.ngl with hlink := s.ngl.hlink }
    acq := { r.acq with
      osc := { s.acq.osc with
        steer := 0, tcompAt := 0, ageAt := 0
        state := if s.acq.osc.state = 2 ∨ s.acq.osc.state = 3 then 1 else s.acq.osc.state }
      padc := (s.acq.padc.filter (fun x => x.2.warmed)).map (fun x => (x.1, ({ warmed := true } : PadcSt)))
      warmAt := s.acq.warmAt - s.now
      hkStale := !(s.padcAt 16).warmed }
    mem := { r.mem with mc := (List.range 32).map (fun m => (m, s.resetMc m)) }
    pwr := { r.pwr with
      sup := { s.pwr.sup with hp := 1, ejected := false, high := false, below := false, pIdle := r.pwr.sup.pIdle }
      therm := { r.pwr.therm with tripSrc := s.pwr.therm.tripSrc } }
    cal := { r.cal with store := { s.cal.store with step := 0, cmds := [], pending := false, lastAt := none } }
    fw := { s.fw with
      state := 0, bank := s.fw.next, fellBack := false, hand := 0, handCmd := none, ucodeCmd := none, ucodeTodo := []
      bootRetry := false, lastCause := cause, svcUntil := none } }
  s'.loadControl (s.fw.ucodeOf s.fw.next)

/-- Every valid die sensor reads at or below 113 °C (R427). -/
def State.dieCool (s : State) : Bool :=
  (List.range 24).all (fun n => match s.validTemp n with
    | some t => decide (t ≤ 11300)
    | none => true)

/-- A module reset is requested: after a die trip it waits until the die has cooled (R427). -/
def State.requestReset (s : State) (cause : Nat) : State :=
  if s.pwr.therm.dieTrip && !s.dieCool then { s with pwr.therm := { s.pwr.therm with resetWaits := some cause } }
  else s.moduleReset cause

/-- Supply reset: safe state and discharge while the rails hold, then every block resets; the host links drop
(R408). The module waits for the release of R415. -/
def State.supplyResetBy (s : State) (vinStayed : Bool) (cause : Nat) : State :=
  let s := s.moduleReset (if vinStayed then 1 else 0)
  { s with
    acq := { s.acq with osc := {}, padc := [], warmAt := State.reset.acq.warmAt, hkStale := true }
    evt.tabor := false
    ngl.hlink := (List.range 4).map (fun h => (h, ({ up := false } : HostLink)))
    pwr.sup := { s.pwr.sup with
      vin := if vinStayed then s.pwr.sup.vin else 0, vinFilt := if vinStayed then s.pwr.sup.vinFilt else 0
      released := false, precharged := s.pwr.sup.precharged && cause == 3, switchOn := s.pwr.sup.precharged && cause == 3
      condSince := s.now, cause, ejectAt := 0 } }

/-! ## Orderly stop (R426; 10 R292) -/

/-- A cause of the orderly stop holds (R422, R426). -/
def State.stopCause (s : State) : Bool :=
  let t := s.pwr.therm
  t.dieStop || t.inStop || (s.stackAt 0).stop || (s.stackAt 1).stop ||
    (decide ((s.snsAt 22).broken ≠ 0) && decide ((s.snsAt 23).broken ≠ 0)) || decide ((s.snsAt 46).broken ≠ 0)

/-- The orderly stop follows its causes; `src` is the event of the change. Linked bursts that wait for their start
trigger end at once (10 R292, R303). -/
def State.followStop (s : State) (src : Nat) : State :=
  match s.pwr.therm.stop, s.stopCause with
  | none, true =>
    let s : State := { s with pwr.therm := { s.pwr.therm with stop := some s.now } }
    let s := s.event 0x5C3 [1, src]
    (s.runnersBy (fun b => b.linked && b.phase == .waitTrig)).foldl (fun s r => s.giveUp r (invalidRes rTHERMAL)) s
  | some _, false =>
    ({ s with pwr.therm := { s.pwr.therm with stop := none } } : State).event 0x5C3 [0, src]
  | _, _ => s

/-- STOP_GRACE_EXPIRY: bursts still running end INVALID(THERMAL) (10 R292). -/
def execStopGraceExpiry (s : State) : Out :=
  .next (match s.pwr.therm.stop with
    | some t =>
      let s := s.moveTo (t + 1000000 * s.parN 9 0 0x016)
      (s.runnersBy (fun b => b.live)).foldl (fun s r => s.endBurst r .stop (invalidRes rTHERMAL)) s
    | none => s)

/-! ## Thermal stages (R423, R424) -/

/-- Highest valid reading of a list, if any is valid. -/
def State.hotValid (s : State) (l : List Nat) : Option Int :=
  match l.filterMap s.validTemp with
  | [] => none
  | a :: r => some (r.foldl max a)

/-- Start of a dwell: the first of the readings above the threshold. -/
def dwellFrom (now : Nat) (above : Bool) (d : Option Nat) : Option Nat :=
  if above then (if d.isSome then d else some now) else none

/-- Die stages after a reading. -/
def State.dieStages (s : State) : State :=
  match s.hotValid (List.range 24) with
  | none => { s with pwr.therm := { s.pwr.therm with dieDwell := none } }
  | some t =>
    let s : State := { s with pwr.therm := { s.pwr.therm with
      dieDwell := dwellFrom s.now (decide (9500 < t) && !s.pwr.therm.dieThrottle) s.pwr.therm.dieDwell } }
    let s := if s.pwr.therm.dieThrottle ∧ t ≤ 9300 then
        (({ s with pwr.therm := { s.pwr.therm with dieThrottle := false } } : State).event 0x040 [word32 t]).recompute
      else s
    if s.pwr.therm.dieStop = false ∧ 10500 ≤ t then
      ((({ s with pwr.therm := { s.pwr.therm with dieStop := true } } : State).event 0x041).followStop 0x041).recompute
    else if s.pwr.therm.dieStop ∧ t ≤ 10300 then
      ((({ s with pwr.therm := { s.pwr.therm with dieStop := false } } : State).event 0x041).followStop 0x041).recompute
    else s

/-- Stages of an HBM stack after a reading. -/
def State.hbmStages (s : State) (k : Nat) : State :=
  match s.hotValid [24 + k, 26 + k] with
  | none => { s with pwr.therm := { s.pwr.therm with hbmDwell := Tbl.del s.pwr.therm.hbmDwell k } }
  | some t =>
    let x := s.stackAt k
    let d := dwellFrom s.now (decide (9500 < t) && !x.throttle) (Tbl.find s.pwr.therm.hbmDwell k)
    let s : State := { s with pwr.therm := { s.pwr.therm with
      hbmDwell := match d with
        | some v => Tbl.put s.pwr.therm.hbmDwell k v
        | none => Tbl.del s.pwr.therm.hbmDwell k } }
    let s := if x.throttle ∧ t ≤ 9300 then (s.updStack k (fun x => { x with throttle := false })).event 0x043 [k] else s
    if x.stop = false ∧ 10500 ≤ t then
      ((s.updStack k (fun x => { x with stop := true })).event 0x044 [k]).followStop 0x044
    else if x.stop ∧ t ≤ 10300 then
      ((s.updStack k (fun x => { x with stop := false })).event 0x044 [k]).followStop 0x044
    else s

/-- A DPS stage that has cooled lifts the fence of its trip (R427). -/
def DpsSt.lift (d : DpsSt) : DpsSt :=
  if d.mode = .fenced ∧ d.tripped = false ∧ d.loopFault = false ∧ d.sensorFence = false then { d with mode := .off } else d

/-- Stages of the zone of a sensor after a reading. -/
def State.stages (s : State) (n : Nat) : State :=
  if n < 24 then s.dieStages
  else if n < 28 then s.hbmStages (n % 2)
  else match s.validTemp n with
    | none => s
    | some t =>
      if n < 46 then
        if t ≤ 12300 then s.updDps (n - 28) (fun d => ({ d with tripped := false } : DpsSt).lift) else s
      else if n = 46 then
        if s.pwr.therm.inStop = false ∧ 11500 ≤ t then
          (({ s with pwr.therm := { s.pwr.therm with inStop := true } } : State).event 0x045).followStop 0x045
        else if s.pwr.therm.inStop ∧ t ≤ 11300 then
          (({ s with pwr.therm := { s.pwr.therm with inStop := false } } : State).event 0x045).followStop 0x045
        else s
      else if s.pwr.therm.coolant = false ∧ 3500 < t then
        ({ s with pwr.therm := { s.pwr.therm with coolant := true } } : State).event 0x047
      else if s.pwr.therm.coolant ∧ t ≤ 3300 then
        ({ s with pwr.therm := { s.pwr.therm with coolant := false } } : State).event 0x047
      else s

/-- THROTTLE_DWELL_COMPLETE: 50 consecutive readings of 1 ms above 95 °C (R424). -/
def execThrottleDwellComplete (stack : Option Stack) (s : State) : Out :=
  .next (match stack with
    | none =>
      match s.pwr.therm.dieDwell, s.hotValid (List.range 24) with
      | some t0, some t =>
        let s := s.moveTo (t0 + 49000000)
        (({ s with pwr.therm := { s.pwr.therm with dieThrottle := true, dieDwell := none } } : State).event 0x040
          [word32 t]).recompute
      | _, _ => s
    | some k =>
      match Tbl.find s.pwr.therm.hbmDwell k.val with
      | some t0 =>
        let s := s.moveTo (t0 + 49000000)
        let s : State := { s with pwr.therm := { s.pwr.therm with hbmDwell := Tbl.del s.pwr.therm.hbmDwell k.val } }
        (s.updStack k.val (fun x => { x with throttle := true })).event 0x043 [k.val]
      | none => s)

/-! ## Sensors (R420–R422) -/

/-- The neighbour of the disagreement check among the 48 sensors. -/
def neighbour (n : Nat) : Option Nat :=
  if n < 24 then some (if n % 2 = 0 then n + 1 else n - 1)
  else if n < 26 then some (n + 2)
  else if n < 28 then some (n - 2)
  else none

/-- A sensor becomes broken with a cause; the third time within 1 h it stays so (R421). -/
def State.breakSensor (s : State) (n cause : Nat) : State :=
  let x := s.snsAt n
  if x.broken ≠ 0 ∨ x.latched then s.updSns n (fun x => { x with goodSince := none })
  else
    let times := x.breakAt.filter (fun t => decide (s.now < t + 3600000000000)) ++ [s.now]
    let latched := decide (3 ≤ times.length)
    let quarter := if 16 ≤ n ∧ n < 20 then
        ((List.range 8).map (fun i => 8 * (n - 16) + i)).filter (fun e => (s.engAt e).mode != .fenced) else []
    let s := s.updSns n (fun x => { x with
      broken := cause, latched, breakAt := times, goodSince := none, apart := 0, fencing := !(sensorUnits n).isEmpty })
    let s := s.event (0x010 + n) [if latched then 5 else cause]
    let s := quarter.foldl (fun s e => s.updEng e (fun x => { x with sensorFence := true })) s
    (((s.stages n).followStop (0x010 + n))).recompute

/-- A reading that is valid and in agreement. -/
def State.goodReading (s : State) (n : Nat) : State :=
  let s := s.updSns n (fun x => { x with
    apart := 0, goodSince := if x.broken = 0 then none else if x.goodSince.isSome then x.goodSince else some s.now })
  s.stages n

/-- Compare with the neighbour: more than 15 °C on 3 consecutive readings breaks both (R421). -/
def State.compareSns (s : State) (n : Nat) (v : Int) (other : Option Int) : State :=
  match other with
  | some w =>
    if 1500 < (v - w).natAbs then
      let s := s.updSns n (fun x => { x with apart := x.apart + 1, goodSince := none })
      if 3 ≤ (s.snsAt n).apart then
        let s := s.breakSensor n 3
        match neighbour n with
        | some m => s.breakSensor m 3
        | none => s
      else s.stages n
    else s.goodReading n
  | none => s.goodReading n

/-- A module reset that waits for the die to cool runs (R427). -/
def State.cooled (s : State) : State :=
  match s.pwr.therm.resetWaits with
  | some cause => if s.dieCool then s.moduleReset cause else s
  | none => s

/-- SENSOR_READ: a reading of a sensor, and of its second element where it has one; none: no reading came (R421,
R424). -/
def execSensorRead (n : Sensor) (reading second : Option Int) (s : State) : Out :=
  .next (
    let k := n.val
    match reading with
    | none => if (s.snsAt k).lastRead + 10000000 < s.now then s.breakSensor k 2 else s
    | some v =>
      let s := s.updSns k (fun x => { x with raw := some v, lastRead := s.now })
      let s := if v < -4000 ∨ 15000 < v then s.breakSensor k 1
        else s.compareSns k v (match neighbour k with
          | some m => (s.snsAt m).raw
          | none => second)
      s.cooled)

/-- The fence of a restored sensor is lifted; memory channels stay fenced (R421; 11 R316). -/
def State.liftSensor (s : State) (n : Nat) : State :=
  if n < 16 then s.updGrp n (fun x => { x with sensorFence := false })
  else if n < 20 then
    let shares := s.shares
    let s := ((List.range 8).map (fun i => 8 * (n - 16) + i)).foldl (fun s e => s.updEng e (fun x =>
      if x.sensorFence then { x with mode := .idle, sensorFence := false } else x)) s
    s.poolEvent raiseTop shares
  else if 28 ≤ n ∧ n < 46 then s.updDps (n - 28) (fun d => ({ d with sensorFence := false } : DpsSt).lift)
  else s

/-- SENSOR_RESTORE: valid, fresh and in agreement for 1 s (R421). -/
def execSensorRestore (n : Sensor) (s : State) : Out :=
  .next (
    let x := s.snsAt n.val
    match x.goodSince with
    | some t =>
      if x.broken ≠ 0 ∧ x.latched = false then
        let s := (s.moveTo (t + 1000000000)).updSns n.val (fun x => { x with
          broken := 0, fencing := x.fencing && decide (20 ≤ n.val) && decide (n.val < 28), goodSince := none })
        let s := (s.liftSensor n.val).event (0x010 + n.val) [4]
        (((s.stages n.val).followStop (0x010 + n.val))).recompute
      else s
    | none => s)

/-- THERMAL_TRIP: a die sensor at or above 115 °C, or the input converter at or above 125 °C; hardware FATAL
(R423, R427). A broken sensor trips nothing (R421). -/
def execThermalTrip (n : Sensor) (s : State) : Out :=
  .next (
    let k := n.val
    let x := s.snsAt k
    if x.broken ≠ 0 ∨ x.latched then s
    else if k < 24 then s.event 0x042 [k]
    else if k = 46 then s.event 0x046
    else s)

/-- INCONV_SHUTDOWN: the converter stops 2 ms after the safe state; supply reset with cause INPUT_TRIP (R427). -/
def execInconvShutdown (s : State) : Out :=
  .next (
    if s.pwr.therm.inTrip ∧ s.pwr.sup.released then
      let raw := (s.snsAt 46).raw
      let s := (s.moveTo (s.pwr.therm.tripAt + 2000000)).supplyResetBy true 3
      ({ s with pwr.therm := { s.pwr.therm with inTrip := true } } : State).updSns 46 (fun x => { x with raw })
    else s)

/-- P_IDLE_MEASURE: the mean of a second without a burst, a DPS channel on, or a calibration (R425). -/
def execPIdleMeasure (power : Nat) (s : State) : Out :=
  .next (
    if s.ve.bursts.isEmpty && (List.range 18).all (fun d => !(s.dpsAt d).on) && s.cal.run.running.isNone then
      { s with pwr.sup := { s.pwr.sup with pIdle := power } }
    else s)

/-- Sensor of a voltage reference: 0–15 the lane DACs of a group, 16–31 its PMU, 32–47 its converter, 48–65 the DPS
channels, 66 PADC16 (R428). -/
def refSensor (u : Nat) : Nat := if u < 48 then u % 16 else if u < 66 then u - 20 else 22

/-- One LSB toward the target. -/
def oneLsb (v target : Int) : Int := if v < target then v + 1 else if target < v then v - 1 else v

/-- REFERENCE_COMP_UPDATE: every 100 ms each voltage reference moves by at most 1 LSB toward the correction of its
sensor's temperature, which the coefficients of the calibration store give (R428). A sensor without a valid reading
moves nothing. -/
def execReferenceCompUpdate (s : State) : Out :=
  let corr := (List.range 67).foldl (fun (t : Tbl Int) u => match s.validTemp (refSensor u) with
    | some temp => Tbl.put t u (oneLsb (Tbl.get t 0 u) (Config.refTarget u temp))
    | none => t) s.pwr.refCorr
  .next { s with pwr.refCorr := corr }

/-! ## Input supply (R406–R409) -/

/-- Absolute maximum of VIN, 66 V, in units of 10 mV (18 R478). -/
def vinMax : Nat := 6600

/-- VIN_WARN: VIN_FILT falls below the threshold or rises 1.0 V above it (R407, R411). -/
def execVinWarn (vinFilt : Nat) (s : State) : Out :=
  if vinMax < vinFilt then .fault .beyondRating
  else .next (
    let w := s.parN 13 0 0x002
    let was := s.pwr.sup.below
    let below := if was then decide (vinFilt ≤ w + 100) else decide (vinFilt < w)
    let s : State := { s with pwr.sup := { s.pwr.sup with vinFilt, below } }
    if below = was then s else (s.event 0x000 [b2n below, vinFilt]).recompute)

/-- VIN_HIGH: above 60.0 V for 1 ms (R407). -/
def execVinHigh (s : State) : Out :=
  .next (if s.pwr.sup.high then s else ({ s with pwr.sup := { s.pwr.sup with high := true } } : State).event 0x005)

/-- VIN_HIGH_CLEAR: at or below 59.5 V for 1 ms (R407). -/
def execVinHighClear (s : State) : Out := .next { s with pwr.sup := { s.pwr.sup with high := false } }

/-- VIN_OV: above 62.0 V for 1 µs the input switch opens, FATAL in hardware; during precharge, precharge stops (R409,
R429). -/
def execVinOv (vin : Nat) (s : State) : Out :=
  if vinMax < vin then .fault .beyondRating
  else .next (
    if vin ≤ 6200 then s
    else
      let s : State := { s with pwr.sup := { s.pwr.sup with vin } }
      if s.pwr.sup.released then s.event 0x001
      else { s.openSwitch with pwr.sup := { s.openSwitch.pwr.sup with precharged := false } })

/-- SUPPLY_RESET: the module-side bus falls below 8.2 V (R407–R409). -/
def execSupplyReset (vinStayed : Bool) (s : State) : Out :=
  .next (if s.pwr.sup.released then s.supplyResetBy vinStayed (if s.pwr.sup.ovAt.isSome then 2 else 1) else s)

/-- OV_RECOVERY: VIN at or below 60.0 V for 100 ms; the module starts again from the precharge (R409). -/
def execOvRecovery (s : State) : Out :=
  .next (
    if s.pwr.sup.ovAt.isSome ∧ s.pwr.sup.released = false then
      { s with pwr.sup := { s.pwr.sup with ovAt := none, vin := min s.pwr.sup.vin 6000, precharged := false } }
    else s)

/-- INPUT_LIMIT: IIN at 11.0 A for 10 ms (R406). -/
def execInputLimit (s : State) : Out := .next (s.event 0x004)

/-- VIN_MATE: the VIN contact mates; precharge begins (R413, R414). -/
def execVinMate (vin : Nat) (s : State) : Out :=
  if vinMax < vin then .fault .beyondRating
  else .next (
    if s.pwr.sup.released then s
    else { s with pwr.sup := { s.pwr.sup with vin, vinFilt := vin, precharged := false, switchOn := false } })

/-- PRECHARGE_COMPLETE: the bus is within 1.0 V of VIN; the switch closes fully (R414). -/
def execPrechargeComplete (s : State) : Out :=
  .next (
    let x := s.pwr.sup
    if x.released = false ∧ x.ovAt = none ∧ 0 < x.vin then
      { s with pwr.sup := { x with
        precharged := true, switchOn := true, condSince := s.now, smbFrom := s.now + 20000000 } }
    else s)

/-- The conditions of R415, and after an input-converter trip SN46 at or below 113 °C (R427). -/
def State.mayRelease (s : State) : Bool :=
  let x := s.pwr.sup
  x.precharged && decide (900 < x.vin) && x.prsnt && !x.eject && x.ovAt.isNone &&
    (!s.pwr.therm.inTrip || (match (s.snsAt 46).raw with
      | some t => decide (t ≤ 11300)
      | none => false))

/-- RESET_RELEASE: the conditions have held together for 100 ms; GA is sampled, TABOR runs, module time starts at 0,
the firmware boots (R415; 16 R444; 12 R323). -/
def execResetRelease (ga : BitVec 6) (s : State) : Out :=
  .next (
    if s.pwr.sup.released = false ∧ s.mayRelease then
      let s := s.moveTo (s.pwr.sup.condSince + 100000000)
      { s with
        now := 0
        evt.tabor := true
        pwr.therm := { s.pwr.therm with inTrip := false }
        pwr.sup := { s.pwr.sup with released := true, ga, condSince := 0, smbFrom := s.pwr.sup.smbFrom - s.now } }
    else s)

/-! ## Hot plug (R413–R419) -/

/-- PRSNT_N_LOSS: safe state, FATAL in hardware (R419). -/
def execPrsntNLoss (s : State) : Out :=
  .next (
    let s : State := { s with pwr.sup := { s.pwr.sup with prsnt := false } }
    if s.pwr.sup.released then s.event 0x008 else s)

/-- PRSNT_N_ASSERT: the count of R415 starts; a return does not lift a safe state (R419). -/
def execPrsntNAssert (s : State) : Out :=
  .next { s with pwr.sup := { s.pwr.sup with prsnt := true, condSince := if s.pwr.sup.prsnt then s.pwr.sup.condSince else s.now } }

/-- The field section as it stands (17 R471). -/
def State.fieldSection (s : State) : SlotSt :=
  { refs := (List.range 34).map (fun u =>
      if u < 16 then
        let g := s.grpAt u
        { unit := u, state := g.refState, temp := g.calTemp, count := g.refCount, reject := g.refReject, tai := g.refTai }
      else
        let d := s.dpsAt (u - 16)
        { unit := u, state := d.refState, temp := d.calTemp, count := d.refCount, reject := d.refReject, tai := d.refTai
          corr := d.corr })
    lanes := s.pf.lane.map (fun x => (x.1, ({ refD := x.2.refD, refC := x.2.refC, levels := x.2.levels } : LaneCal)))
    convs := s.acq.padc.filterMap (fun x => x.2.ref.map (fun v => (x.1, v)))
    ageing := s.par (pid 7 0 0x101) }

/-- A pending store starts: the inactive slot is erased first (17 R472, R474). -/
def State.startStore (s : State) : State :=
  let st := s.cal.store
  if st.pending ∧ st.step = 0 then
    let cleared : SlotSt := {}
    let st := if st.active then { st with slot0 := cleared } else { st with slot1 := cleared }
    let n := st.writes + 1
    let s : State := { s with cal.store := { st with
      pending := false, step := 1, lastAt := some s.now, writes := n, snap := s.fieldSection } }
    if n = 180000 then s.event 0x5E6 else s
  else s

/-- EJECT_N_ASSERT: an orderly removal starts; a pending store of calibration values starts (R417; 17 R474). -/
def execEjectNAssert (s : State) : Out :=
  .next (
    if s.pwr.sup.eject then s
    else
      let s : State := { s with pwr.sup := { s.pwr.sup with eject := true } }
      if s.pwr.sup.released = false then s
      else
        let s := if s.pwr.sup.hp = 1 then
            ({ s with pwr.sup := { s.pwr.sup with hp := 2, ejectAt := s.now, ejected := false } } : State).event 0x5C3 [1, 0x009]
          else s
        ((s.event 0x009 [1]).calAbandon (fun _ => true) true).startStore)

/-- EJECT_N_RELEASE: before the 200 ms expire, the orderly removal ends (R418). -/
def execEjectNRelease (s : State) : Out :=
  .next (
    if s.pwr.sup.eject = false then s
    else
      let s : State := { s with pwr.sup := { s.pwr.sup with eject := false } }
      if s.pwr.sup.released = false then { s with pwr.sup := { s.pwr.sup with condSince := s.now } }
      else
        let s := if s.pwr.sup.hp = 2 ∧ s.pwr.sup.ejected = false then
            let s : State := { s with pwr.sup := { s.pwr.sup with hp := 1 } }
            if s.pwr.therm.stop.isNone then s.event 0x5C3 [0, 0x009] else s
          else s
        s.event 0x009 [0])

/-- Commands with form L that are in progress complete with FENCED (R417). -/
def State.fenceLong (s : State) : State :=
  let s := (List.range 16).foldl (fun s p =>
    ((s.fnAt p).tags.filter (fun t => !t.taken && t.opcode != 0x0902)).foldl (fun s t =>
      s.complete p t.tag t.opcode .fenced []) s) s
  { s with
    host.xfers := []
    host.fn := s.host.fn.map (fun x => (x.1, { x.2 with listCmd := [] }))
    ve.images := s.ve.images.filter (fun x => x.2.mode != .loading)
    acq.padc := s.acq.padc.map (fun x => (x.1, { x.2 with calCmd := none }))
    ngl.slane := s.ngl.slane.map (fun x => (x.1, { x.2 with scan := none }))
    ngl.port := s.ngl.port.map (fun x => (x.1, { x.2 with retrainCmd := none }))
    fw := { s.fw with handCmd := none, ucodeCmd := none }
    cal := { s.cal with unfence := [], run := { s.cal.run with cmds := [], queue := [] }
                        store := { s.cal.store with cmds := [] } } }

/-- Tasks in the matching store complete with FENCED (10 R292). -/
def State.fenceTasks (s : State) : State :=
  s.sch.tasks.foldl (fun s x => s.dropTask x.1 x.2 .fenced [] skippedRes) s

/-- ANNOUNCE with WITHDRAW leaves on every port, and the ports turn OFF (R417). -/
def State.portsOff (s : State) : State :=
  (List.range 6).foldl (fun s p => s.updPort p (fun x =>
    { x with sent := if x.mode = .active then x.sent ++ [(x.seq, .announce x.farAddr s.node s.node true)] else x.sent
             mode := .off, phase := none, lock := false, exiting := false, c0 := [], c1 := [], c2 := [], c3 := []
             replay := [] })) s

/-- EJECT_GRACE_EXPIRY: 200 ms after the assertion, the safe state (R417). -/
def execEjectGraceExpiry (s : State) : Out :=
  .next (
    if s.pwr.sup.hp = 2 ∧ s.pwr.sup.ejected = false then
      let s := s.moveTo (s.pwr.sup.ejectAt + 200000000)
      let s : State := { s with pwr.sup := { s.pwr.sup with ejected := true } }
      ((s.safeState rSUPPLY 0x7FF).fenceTasks.fenceLong).portsOff
    else s)

/-- EJECT_SAFE: every DPS channel is off, or 100 ms have passed since the discharge began (R417). -/
def execEjectSafe (s : State) : Out :=
  .next (
    if s.pwr.sup.hp = 2 ∧ s.pwr.sup.ejected then
      let s := if (List.range 18).all (fun d => !(s.dpsAt d).on) then s else s.moveTo (s.pwr.sup.ejectAt + 300000000)
      ({ s with pwr.sup := { s.pwr.sup with hp := 3 } } : State).event 0x00A
    else s)

end Sys2Proof.Machine
end

