-- ==== Sys2Proof/Machine/TmgRows.lean ====
section
/-!
DEFINITION. Timing islands: PLLs, faults of buffers and timing memories, temperature correction, steps of the
statistical deskew (04 R118, R119, R124, R138–R141, R146).
-/

namespace Sys2Proof.Machine

/-- Event of an island (R146). -/
def tmgSrc (g off : Nat) : Nat := 0x200 + 16 * g + off

/-- PLL_LOCK: the island PLL has locked and its counter is aligned (R118). -/
def execPllLock (g : Grp) (s : State) : Out :=
  .next (
    if (s.grpAt g.val).pll = .locking ∧ (s.grpAt g.val).dead = false then
      s.updGrp g.val (fun x => { x with pll := .locked })
    else s)

/-- PLL_UNLOCK: the group is fenced until its PLL has locked again (R119). -/
def execPllUnlock (g : Grp) (s : State) : Out :=
  .next (if (s.grpAt g.val).pll = .locked then s.event (tmgSrc g.val 0) else s)

/-- PLL_RELOCK: the loopback after a relock confirms the phase, or fails; the third failure in a row leaves the group
fenced until module reset (R119). -/
def execPllRelock (g : Grp) (ok : Bool) (s : State) : Out :=
  .next (
    let x := s.grpAt g.val
    if x.pll = .fenced ∧ x.dead = false then
      if ok then (s.updGrp g.val (fun x => { x with pll := .locked, relockFails := 0 })).event (tmgSrc g.val 6)
      else s.updGrp g.val (fun x => { x with relockFails := x.relockFails + 1, dead := decide (3 ≤ x.relockFails + 1) })
    else s)

/-- EB_FAULT: a pointer or parity error in a site's buffer (R124). -/
def execEbFault (g : Grp) (s : State) : Out := .next (s.event (tmgSrc g.val 1))

/-- TS_PARITY: a parity error in timing-set or rate-table memory (R124, R146). -/
def execTsParity (g : Grp) (s : State) : Out := .next (s.event (tmgSrc g.val 2))

/-! ## Temperature correction and CAL_STALE (R138, R139, R141) -/

/-- A reference calibration of the group has been accepted: its values stay applied after a rejection (17 R466). -/
def GrpSt.calibrated (x : GrpSt) : Bool := decide (0 < x.refCount)

/-- Target correction TC_COEF × (T_ISL − CAL_TEMP), rounded to 0.25 ps, before its limit. A group without an accepted
calibration has no CAL_TEMP and no correction. -/
def GrpSt.target (x : GrpSt) (coef : Int) : Int :=
  if x.calibrated then roundAway (coef * (x.tIsl - x.calTemp)) 25000 else 0

/-- Limit ±64 ps of the temperature correction. -/
def tcLimit : Int := 256

/-- Module lanes of a group. -/
def grpLanes (g : Nat) : List Nat := (List.range 33).map (fun i => 33 * g + i)

/-- A lane of the group lags its target by more than 1 ps. -/
def State.lags (s : State) (g : Nat) : Bool :=
  (grpLanes g).any (fun l => decide (4 < ((s.laneAt l).tcTarget - (s.laneAt l).tc).natAbs))

/-- The lane's site runs no burst. -/
def State.laneBetween (s : State) (l : Nat) : Bool :=
  match (s.chanOf l).bind s.chanSite with
  | some k => !s.siteBusy k
  | none => true

/-- CAL_STALE is set: the sums of the bursts that run are discarded (17 R460). -/
def State.dropSums (s : State) (g : Nat) : State :=
  (grpLanes g).foldl (fun s l => s.updLane l (fun x => { x with burstDrop := true })) s

/-- CAL_STALE is clear: what comes next counts on a lane whose site runs no burst. -/
def State.keepSums (s : State) (g : Nat) : State :=
  (grpLanes g).foldl (fun s l => if s.laneBetween l then s.updLane l (fun x => { x with burstDrop := false }) else s) s

/-- CAL_STALE follows its three cases; setting it marks the bursts that use the group under STALE_POLICY = 1 (R141). -/
def State.followStale (s : State) (g : Nat) : State :=
  let x := s.grpAt g
  let d := (x.tIsl - x.calTemp).natAbs
  let case_ := decide (x.refState ≠ 1) || x.tcClamp || decide (500 < d)
  if x.calStale = false ∧ case_ then
    let s := (s.updGrp g (fun x => { x with calStale := true })).dropSums g |>.event (tmgSrc g 4)
    if s.parN 2 g 0x005 = 1 then
      (s.runnersBy (fun b => b.usesGroup g && b.live)).foldl (fun s r =>
        s.endBurst r .atEnd (invalidRes rCAL) (tmgSrc g 4)) s
    else s
  else if x.calStale ∧ case_ = false ∧ d ≤ 400 then (s.updGrp g (fun x => { x with calStale := false })).keepSums g
  else s

/-- Targets of a group's lanes after a change of T_ISL or CAL_TEMP. -/
def State.retarget (s : State) (g : Nat) : State :=
  let was := s.lags g
  let x := s.grpAt g
  let clamped := (grpLanes g).any (fun l => decide (tcLimit < (x.target (Config.tcCoef l)).natAbs))
  let s := (grpLanes g).foldl (fun s l =>
    s.updLane l (fun y => { y with tcTarget := clampInt tcLimit (x.target (Config.tcCoef l)) })) s
  let s := s.updGrp g (fun x => { x with tcClamp := clamped })
  let s := if clamped ∧ x.tcClamp = false then s.event (tmgSrc g 3) else s
  let s := if s.lags g && !was then s.event (tmgSrc g 7) else s
  s.followStale g

/-- ISLAND_TEMP_READ: T_ISL of a group (R138). -/
def execIslandTempRead (g : Grp) (tIsl : Int) (s : State) : Out :=
  .next ((s.updGrp g.val (fun x => { x with tIsl })).retarget g.val)

/-- TC_STEP: the applied correction moves by 0.25 ps, at most once per 100 µs; at once on an idle lane, at the next
cycle start of its site on another (R138). -/
def execTcStep (l : Lane) (s : State) : Out :=
  .next (
    let x := s.laneAt l.val
    if x.tc = x.tcTarget ∨ x.tcPend then s
    else
      let s := s.moveTo (x.tcAt + 100000)
      let idle := s.laneBetween l.val
      s.updLane l.val (fun x =>
        { x with tc := if idle then stepTo x.tc x.tcTarget else x.tc, tcPend := !idle, tcAt := s.now }))

/-- STAT_DESKEW_STEP: the applied statistical deskew moves by 0.25 ps, between bursts, at most once per 10 ms (R140;
17 R462). -/
def execStatDeskewStep (l : Lane) (drive : Bool) (s : State) : Out :=
  .next (
    let x := s.laneAt l.val
    let due := if drive then decide (x.statD ≠ x.targetD) else decide (x.statC ≠ x.targetC)
    if due && s.laneBetween l.val then
      let s := s.moveTo (x.statAt + 10000000)
      let s := s.updLane l.val (fun x =>
        if drive then { x with statD := stepTo x.statD x.targetD, statAt := s.now }
        else { x with statC := stepTo x.statC x.targetC, statAt := s.now })
      s.updGrp (l.val / 33) (fun g => { g with statCount := satAdd g.statCount 1 0xFFFFFFFF, statLast := s.now })
    else s)

end Sys2Proof.Machine
end

