-- ==== Sys2Proof/Machine/FwRows.lean ====
section
/-!
DEFINITION. Event fabric and firmware: consequence windows, parity and watchdog, boot, the service lock (16 R441,
R445–R453; 11 R318; 17 R473).
-/

namespace Sys2Proof.Machine

/-- The record of a source counted in a window (R441). -/
def WinEv.toRec (w : WinEv) (primary node : Nat) : EvRec :=
  let many := decide (1 < w.count)
  { source := w.source, react := w.react, conseq := true, forced := w.forced && !many, coalesced := many
    count := w.count, time := w.time, node, primary, firstShort := w.first
    payload := if many then [] else w.payload }

/-- CONSEQUENCE_WINDOW_CLOSE: the oldest window closes 20 ms after the fence, one record for each source counted
(R441); MASK_NOTE keeps a NOTE from the rings (R434). -/
def execConsequenceWindowClose (s : State) : Out :=
  .next (match s.evt.wins with
    | [] => s
    | w :: rest =>
      let s := s.moveTo w.close
      let s : State := { s with evt.wins := rest }
      w.counted.foldl (fun s c =>
        if c.react = 1 ∧ bit (s.parN 13 c.source 0x100) 4 = 1 then s
        else s.writeRecord raiseTop c.rings (c.toRec w.primary s.node)) s)

/-- GONG_READBACK: the level read back differs for 1 ms (R445). -/
def execGongReadback (s : State) : Out := .next (s.event 0x055)

/-- FW_WATCHDOG: a missed deadline; the firmware counts as stopped. Suspended from the freeze of a hand-over to its
end (R447). -/
def execFwWatchdog (s : State) : Out :=
  .next (
    if (s.fw.state = 1 ∨ s.fw.state = 2) ∧ s.fw.hand ≠ 2 then
      ({ s with fw := { s.fw with state := 3, hand := 0 } } : State).event 0x050
    else s)

/-- FABRIC_PARITY: FATAL in hardware (R456). -/
def execFabricParity (s : State) : Out := .next (s.event 0x056)

/-- SRAM_UE: FATAL in hardware (R456). -/
def execSramUe (s : State) : Out := .next (s.event 0x059)

/-- SRAM_CORR (R456). -/
def execSramCorr (s : State) : Out := .next (s.event 0x058)

/-! ## Boot -/

/-- Slot of the calibration flash that boots: valid, the higher GENERATION, slot 0 on a tie (17 R473). -/
def StoreSt.best (st : StoreSt) : Option Bool :=
  if st.slot0.valid ∧ (st.slot1.valid = false ∨ st.slot1.gen ≤ st.slot0.gen) then some false
  else if st.slot1.valid then some true
  else none

/-- A slot. -/
def StoreSt.slot (st : StoreSt) (b : Bool) : SlotSt := if b then st.slot1 else st.slot0

/-- A slot holds a GENERATION that is not erased, but is invalid. -/
def SlotSt.broken (x : SlotSt) : Bool := decide (x.gen ≠ 0xFFFFFFFF) && !x.valid

/-- A stored unit takes its place. -/
def State.loadRef (s : State) (r : StoredRef) : State :=
  if r.unit < 16 then s.updGrp r.unit (fun g =>
    { g with refState := r.state, calTemp := r.temp, refCount := r.count, refReject := r.reject, refTai := r.tai })
  else s.updDps (r.unit - 16) (fun d =>
    { d with refState := r.state, calTemp := r.temp, refCount := r.count, refReject := r.reject, refTai := r.tai
             corr := r.corr })

/-- The secure firmware loads the calibration flash (17 R473; 07 R235). -/
def State.loadStore (s : State) : State :=
  let st := s.cal.store
  match st.best with
  | none => s.event 0x5E4 [2]
  | some b =>
    let x := st.slot b
    let s : State := { s with cal.store := { st with active := b } }
    let s := x.refs.foldl State.loadRef s
    let s := x.lanes.foldl (fun s l => s.updLane l.1 (fun y => { y with
      refD := l.2.refD, refC := l.2.refC, levels := l.2.levels })) s
    let s := x.convs.foldl (fun s c => s.updPadc c.1 (fun y => { y with ref := some c.2 })) s
    let s := { s.setPar (pid 7 0 0x101) x.ageing with acq.osc := { s.acq.osc with ageing := x.ageing } }
    if (st.slot (!b)).broken then s.event 0x5E4 [1] else s

/-- Event of a repair: the row and its pseudo-channel (R321). -/
def State.repairEvent (s : State) (src cause : Nat) (r : MemRow) : State :=
  s.event src [cause + r.pc * 2 ^ 4, r.row % 2 ^ 32]

/-- A row of a failed repair: its pages are POISONED. At a reset partition 0 holds every page. -/
def State.killRow (s : State) (r : MemRow) : State :=
  { s with mem.dead := s.mem.dead ++
      ((Config.rowPages r.pc r.bank r.row).filter (fun n => pageChan (s.pageRuns 0) n == some (r.pc / 2))).map (fun n => (0, n)) }

/-- One scheduled repair: done; without a spare row in the bank, when the row stays a candidate and in use; or failed. -/
def State.repairOne (s : State) (r : MemRow) (fails : Bool) : State :=
  let m := r.pc / 2
  if s.bankSpares r.pc r.bank = 0 then s.repairEvent (0x581 + 2 * m) 4 r
  else
    let s := s.updMc m (fun x => { x with cands := x.cands.filter (· != r), repaired := x.repaired ++ [r] })
    if fails then (s.killRow r).repairEvent (0x581 + 2 * m) 5 r
    else s.repairEvent (0x580 + 2 * m) 6 r

/-- Repairs of a channel: the first fails where the stack reports a failure. -/
def State.repairs (s : State) (m : Nat) (fails : Bool) : State :=
  let l := (s.mcAt m).sched
  (l.zipIdx).foldl (fun s x => s.repairOne x.1 (fails && x.2 == 0)) (s.updMc m (fun x => { x with sched := [] }))

/-- Scheduled repairs run before any page is granted (11 R318). -/
def State.runRepairs (s : State) (failed : List Mc) : State :=
  (List.range 32).foldl (fun s m => s.repairs m (failed.any (fun f => f.val == m))) s

/-- Channels whose training at reset has not ended are trained before any page is granted (11 R305). -/
def State.trainAll (s : State) : State :=
  (List.range 32).foldl (fun s m => if (s.mcAt m).mode = 0 then s.updMc m (fun c => { c with
    mode := 1, lastTrain := s.now, trainTemp := (s.stackAt (m / 16)).temp }) else s) s

/-- What firmware that runs reports: the cause of a supply reset, an escalated reset (15 R408; 14 R404). -/
def State.report (s : State) : State :=
  let cause := s.pwr.sup.cause
  let s := if cause = 0 then s
    else ({ s with pwr.sup := { s.pwr.sup with cause := 0 } } : State).event 0x002 [cause]
  match s.fw.escPart with
  | some p => ({ s with fw := { s.fw with escPart := none } } : State).event (0x080 + p.val) [2]
  | none => s

/-- The firmware of the active bank runs; its microcode image stands in the control stores before any engine joins the
pool (02 R79). -/
def State.boot (s : State) (failed : List Mc) : State :=
  let s : State := { s with fw := { s.fw with state := 1, next := s.fw.bank, bootRetry := false } }
  ((((s.loadControl (s.fw.ucodeOf s.fw.bank)).trainAll).runRepairs failed).loadStore).report

/-- FIRMWARE_BOOT: the secure ROM verifies the active bank, else the other; with none, FW_STATE reads 3 (R450). -/
def execFirmwareBoot (activeOk otherOk : Bool) (pprFailed : List Mc) (s : State) : Out :=
  .next (
    if s.fw.state ≠ 0 ∨ s.pwr.sup.released = false then s
    else if activeOk then s.boot pprFailed
    else
      let b := !s.fw.bank
      if otherOk then
        let s : State := { s with fw := { s.fw with bank := b, fellBack := true } }
        (s.boot pprFailed).event 0x051 [1, b2n b]
      else { s with fw := { s.fw with state := 3 } })

/-- BOOT_TIMEOUT: FW_STATE has not reached 1 within 10 s; one restart from the other bank (R450). -/
def execBootTimeout (s : State) : Out :=
  .next (
    if s.fw.state ≠ 0 ∨ s.pwr.sup.released = false then s
    else if s.fw.bootRetry then { s with fw := { s.fw with state := 3 } }
    else
      let b := !s.fw.bank
      ({ s with fw := { s.fw with bank := b, fellBack := true, bootRetry := true } } : State).event 0x051 [2, b2n b])

/-! ## Service lock (R453) -/

/-- SVC_LOCK with its partition and seconds. -/
def State.svcEvent (s : State) (p seconds : Nat) : State := s.event 0x052 [p, seconds]

/-- SERVICE_LOCK_EXPIRY: the lock returns. -/
def execServiceLockExpiry (s : State) : Out :=
  .next (match s.fw.svcUntil with
    | some t =>
      let s := s.moveTo t
      ({ s with fw := { s.fw with svcUntil := none } } : State).svcEvent s.fw.svcBy.val 0
    | none => s)

end Sys2Proof.Machine
end

