-- ==== Sys2Proof/Machine/ReadRO.lean ====
section
/-!
DEFINITION. What a read of a parameter returns: live values of the RO and RL parameters of every block, companion
words, the few RW parameters that read otherwise than they were written (00 R4–R8, R10; the tables R85, R147, R183,
R184, R217, R240, R241, R273, R304, R117, R322, R356, R374, R405, R431, R457, R477).
-/

namespace Sys2Proof.Machine

/-! ## Codes -/

def Pll.code : Pll → Nat
  | .off => 0 | .locking => 1 | .locked => 2 | .fenced => 3

def LaneMode.code : LaneMode → Nat
  | .hiz => 0 | .hold => 1 | .driveLow => 2 | .driveHigh => 3 | .vtt => 4 | .opened => 5 | .pmu => 6 | .burst => 7

def DpsMode.code : DpsMode → Nat
  | .off => 0 | .sweep => 1 | .ramping => 2 | .settling => 3 | .on => 4 | .limited => 5 | .discharging => 6 | .fenced => 7

def PortMode.code : PortMode → Nat
  | .off => 0 | .training => 1 | .active => 2 | .standby => 3 | .down => 4

def HsMode.code : HsMode → Nat
  | .closed => 0 | .open_ => 1 | .losing => 2 | .error => 3

/-- ENG_STATE of a burst's phase, and RSE_STATE (02 R85, 09 R273): dispatched, running, draining. -/
def BPhase.engCode : BPhase → Nat
  | .filling | .prefill | .waitTrig | .started => 1
  | .running => 2
  | .draining => 3

/-- Live value, or a value that the outside world shows and no row reports: drawn free. -/
inductive Live where
  | val (v : Int)
  | free
  deriving DecidableEq, Repr

/-- A number as a live value. -/
def nat (n : Nat) : Live := .val n

/-! ## Values by block -/

/-- SYS (14 R405). -/
def State.roSys (s : State) (num el : Nat) : Live :=
  match num with
  | 0x003 => nat s.host.sysPart.val
  | 0x004 => nat (s.fnAt el).staged.length
  | _ => nat (s.fnAt el).cplHeld.length

/-- Microcode version that most engines hold; the first of those that tie (02 R85). -/
def State.ucodeVersion (s : State) : Nat :=
  let vs := (List.range 32).map (fun e => (s.engAt e).ucode.version)
  let n (v : Nat) : Nat := vs.count v
  vs.foldl (fun best v => if n best < n v then v else best) (vs.headD 0)

/-- A site is another partition's: a value that names it reads as none, but for the system partition (14 R393). -/
def State.hidden (s : State) (p k : Nat) : Bool := !s.isSystem p && !(s.part p).sites.getLsbD k

/-- VE (02 R85). -/
def State.roVe (s : State) (p num el : Nat) : Live :=
  match num with
  | 0x001 => nat s.ucodeVersion
  | 0x002 => nat (match (s.engAt el).mode, s.burstAt el with
      | .fenced, _ => 5
      | .loading, _ => 4
      | _, some b => b.phase.engCode
      | _, none => 0)
  | 0x003 => nat (match s.burstAt el with
      | some b => if b.phase.engCode = 1 ∨ s.hidden p b.home.val then 0xFFFF else b.home.val
      | none => 0xFFFF)
  | 0x004 => nat (s.engAt el).mchk
  | 0x005 => nat (s.engAt el).lsCorr
  | _ => nat (Config.markDelay el)

/-- The group is fenced by whatever cause. -/
def GrpSt.fenced (x : GrpSt) : Bool := x.dead || x.sensorFence || x.calFence || x.pll == .fenced

/-- TMG (04 R147). TS_OWNER of a set without an owner reads 0xFF (notes/assumptions/109.md, DESIGN CHOICE). -/
def State.roTmg (s : State) (num el : Nat) : Live :=
  let g := s.grpAt el
  let l := s.laneAt el
  match num with
  | 0x001 => nat (if g.fenced then 3 else g.pll.code)
  | 0x002 => .val g.tIsl
  | 0x003 => .val g.calTemp
  | 0x004 => nat (b2n g.calStale)
  | 0x006 => nat 128000
  | 0x007 => nat (b2n g.bank + 256 * b2n (s.ve.bursts.any (fun x =>
      x.2.banks.any (fun y => y.1.val == el && y.2 != g.bank))))
  | 0x020 => nat (g.l32.getD 0x3F)
  | 0x021 => nat (b2n (l.fenced || l.vacated))
  | 0x030 => .val l.tc
  | 0x031 => .val (l.refD + l.statD + l.tc)
  | 0x032 => .val (l.refC + l.statC + l.tc)
  | 0x033 => .val (Config.tcCoef el)
  | 0x040 => nat (s.siteAt el).ebMin
  | _ => nat ((s.ownerBy (fun r => r.timingSets.getLsbD el)).getD 0xFF)

/-- PFE (05 R183). -/
def State.roPfe (s : State) (num el : Nat) : Live :=
  match num with
  | 0x018 =>
    let g := s.grpAt el
    let on := s.pmuOn el
    nat (b2n (g.pmuClamp && on.isSome) + 2 * b2n (g.pmuSettled && on.isSome) +
      4 * ((on.map (· % 32)).getD 0x3F))
  | _ =>
    let l := s.laneAt el
    nat (l.mode.code + 8 * b2n l.limit + 16 * b2n l.sweep + 32 * b2n (l.fenced || l.vacated))

/-- DPS (05 R184). -/
def State.roDps (s : State) (num el : Nat) : Live :=
  let d := s.dpsAt el
  match num with
  | 0x001 => nat ((s.dpsSite el).getD 0xFFFF)
  | 0x016 => nat ((if !d.known then 3 else if d.lo then 1 else if d.hi then 2 else 0) + 4 * b2n (d.known && d.cur) +
      8 * b2n d.blanked + 16 * b2n d.settled)
  | 0x019 => nat (if d.on ∧ d.limited then 5 else d.mode.code)
  | _ => nat d.demand

/-- FIRST_FAIL as 48 bits, all ones for none. -/
def SiteSt.firstFail48 (t : SiteSt) : Nat := t.firstFail.getD (2 ^ 48 - 1)

/-- A capture unit with a channel in a fenced compare slice (06 R216, R217). -/
def State.cuFenced (s : State) (u : Nat) : Bool :=
  (List.range 4).any (fun j =>
    let c := s.parN 5 u (0x041 + j)
    decide (c < 512) && (s.grpAt (c / 32)).cmpFenced)

/-- CAP (06 R217). -/
def State.roCap (s : State) (num el : Nat) : Live :=
  match num with
  | 0x001 => nat ((s.siteAt el).failCount % 2 ^ 32)
  | 0x003 => nat ((s.siteAt el).firstFail48 % 2 ^ 32)
  | 0x015 =>
    let l := (s.siteAt el).log
    nat (b2n l.held + 2 * b2n (decide (l.lostFull ≠ 0)) + 4 * b2n (decide (l.lostRate ≠ 0)))
  | 0x030 => nat (s.chFailAt el)
  | 0x04D => nat ((if s.cuFenced el then 3 else (s.cuAt el).mode) + 256 * (s.cuAt el).flags.toNat)
  | 0x06A => nat (s.trgAt el).fires
  | 0x06B => nat (s.trgAt el).ignored
  | 0x080 => nat (s.hsAt el).mode.code
  | 0x081 => nat (s.hsAt el).lost
  | 0x082 => nat ((s.ownerBy (fun r => r.streams.getLsbD el)).getD 0xFF)
  | _ => nat 1500

/-- RSE (09 R273). -/
def State.roRse (s : State) (num el : Nat) : Live :=
  let r := s.rseAt el
  match num with
  | 0x040 => nat r.latTol
  | 0x041 => nat r.underPix
  | _ => nat ((if r.fenced then 3 else match s.burstAt (32 + el) with
      | some b => min 2 b.phase.engCode
      | none => 0) + 256 * b2n r.late)

/-- OSC_TOTAL (07 R235). -/
def OscSt.total (o : OscSt) : Int := o.ageing + o.tcomp + o.steer

/-- TMU (07 R240). -/
def State.roTmu (s : State) (num el : Nat) : Live :=
  let m := s.msAt el
  let o := s.acq.osc
  match num with
  | 0x00E => nat (if m.fenced then 3 else if m.armed then 1 else if m.published then 2 else 0)
  | 0x010 => nat (m.seq % 2 ^ 32)
  | 0x020 => nat ((s.ownerBy (fun r => r.tmuSets.getLsbD el)).getD 0xFF)
  | 0x100 => nat o.state
  | 0x102 => .val o.tcomp
  | 0x103 => .val o.steer
  | 0x104 => .val o.total
  | _ => .val o.temp

/-- PADC_STATE (08 R241). -/
def PadcSt.stateCode (c : PadcSt) : Nat :=
  (if c.fenced then 5 else if !c.warmed || c.calRun then 4 else match c.running with
    | some r => if r.injected then 3 else if c.pending.isSome then 2 else 1
    | none => if c.pending.isSome then 2 else 0) + 256 * b2n c.accepted

/-- PADC (08 R241). -/
def State.roPadc (s : State) (num el : Nat) : Live :=
  let c := s.padcAt el
  let d := s.dpsAt el
  match num with
  | 0x001 => nat c.stateCode
  | 0x002 => .val c.ofs
  | 0x003 => .val c.gain
  | 0x004 => .val c.calTemp
  | 0x005 => nat c.calCount
  | 0x013 => nat c.skipped
  | 0x030 => nat c.dropBusy
  | 0x031 => nat c.dropPend
  | 0x032 => nat c.dropCal
  | 0x033 => nat c.acceptedInj
  | 0x040 => nat (c.seq % 2 ^ 32)
  | 0x080 => .val d.hkV
  | 0x081 => .val d.hkI
  | _ => nat (b2n s.acq.hkStale)

/-- SITE_STATE (10 R304). -/
def State.siteState (s : State) (k : Nat) : Nat :=
  let has (l : List (Nat × Burst)) : Bool := l.any (fun x => x.2.sites.any (fun a => a.val == k))
  if (s.siteAt k).defn.isNone then 0
  else match (s.siteRunner k).bind s.burstAt with
    | some b => b.phase.engCode + 1
    | none => if has s.ve.drain then 4 else if (s.siteAt k).log.held then 5 else 1

/-- Matching-store entries of a partition. -/
def State.msUsed (s : State) (p : Nat) : Nat := (s.sch.tasks.filter (fun x => x.2.part.val == p)).length

/-- Tasks in a queue. -/
def State.queueFill (s : State) (q : Nat) : Nat := (s.sch.tasks.filter (fun x => x.2.desc.queue.val == q)).length

/-- Orderly stop or orderly removal closes admission (10 R292). -/
def State.orderlyStop (s : State) : Bool := s.pwr.therm.stop.isSome || s.pwr.sup.hp == 2

/-- SCH (10 R304). -/
def State.roSch (s : State) (num el : Nat) : Live :=
  let g := s.sch.gov
  match num with
  | 0x001 => nat (s.siteState el)
  | 0x002 => nat (s.siteAt el).engine
  | 0x003 => nat ((s.siteOwner el).getD 0xFF)
  | 0x010 => nat g.budget
  | 0x011 => nat s.pCommitted
  | 0x012 => nat g.supply
  | 0x013 => nat g.thermal
  | 0x017 => nat (b2n (decide (g.budget < 40000)) + 2 * b2n s.orderlyStop + 4 * b2n g.closed +
      8 * b2n (decide (g.budget < s.pCommitted)))
  | 0x020 => nat (s.pool + 256 * s.engCap)
  | 0x021 => nat (s.shareOf el)
  | 0x022 => nat (s.enginesOf el)
  | 0x023 => nat (s.msUsed el)
  | 0x024 => nat (s.tokUsed el)
  | 0x025 => nat (Tbl.get s.sch.tokLost 0 el)
  | n => nat (s.queueFill (64 * el + (n - 0x1C0)))

/-- MEM (11 R322, 03 R117). -/
def State.roMem (s : State) (num el : Nat) : Live :=
  let m := s.mcAt el
  let k := s.stackAt el
  match num with
  | 0x001 => nat Config.gibPerStack
  | 0x002 => nat m.mode
  | 0x003 => .val k.temp
  | 0x004 => nat (b2n k.doubled + 2 * b2n k.throttle + 4 * b2n k.stop + 8 * b2n k.missing)
  | 0x005 => nat ((s.pcAt el).owedAt s.now)
  | 0x007 => nat m.corr
  | 0x008 => nat m.ue
  | 0x009 => nat m.replay
  | 0x00C => nat (m.lastTrain % 2 ^ 32)
  | 0x00E => nat (b2n m.trainFlag)
  | 0x010 => nat (s.pcAt el).power
  | 0x020 => nat (m.cands.length + 256 * m.sched.length)
  | 0x021 => nat (s.sparesLeft el)
  | 0x030 => nat (s.pagesOf el)
  | 0x031 => nat (s.partFree el)
  | 0x032 => nat (s.poisonedPages el)
  | 0x040 => nat s.streamAdmit
  | 0x100 => nat s.streamCapacity
  | 0x101 => nat s.streamHeld
  | 0x102 => nat (s.partStreamHeld el)
  | 0x103 => nat (s.engAt el).lsFree
  | 0x111 => nat (s.siteAt el).underrun
  | _ => nat (s.siteAt el).stretch

/-- LANE_STATE [2:0] of an Ngulos port or a host lane (13 R374). -/
def State.laneLink (s : State) (l : Nat) : Nat :=
  if (s.slaneAt l).prbs.isSome then 5
  else if l < 6 then
    match (s.portAt l).mode with
    | .off => 0 | .training => 1 | .active => 2
    | .standby => if (s.portAt l).exiting then 1 else 3
    | .down => 4
  else
    let h := s.hlinkAt ((l - 6) / 8)
    if h.up then (if (l - 6) % 8 < h.width then 2 else 0) else 1

/-- TIME_STATE of the NGL block (12 R356). -/
def State.timeState (s : State) : Nat :=
  b2n s.ngl.tm.valid + 2 * b2n s.ngl.tm.lock + 4 * b2n s.ngl.tm.joined

/-- NGL (12 R356, 13 R374). The counts of a PRBS checker that has locked are what the line shows. -/
def State.roNgl (s : State) (num el : Nat) : Live :=
  let p := s.portAt el
  let d := s.domAt el
  let l := s.slaneAt el
  match num with
  | 0x010 => nat (p.mode.code + 256 * p.far)
  | 0x011 => .val p.delay
  | 0x013 => nat p.farAddr
  | 0x014 => nat p.xoffCount
  | 0x015 => nat p.crcErr
  | 0x020 => nat s.ngl.tm.sel
  | 0x024 => nat (word32 s.ngl.tm.c)
  | 0x026 => nat (word32 d.d)
  | 0x028 => nat (d.master + 2 ^ 15 * b2n d.tracked)
  | 0x029 => nat d.hops
  | 0x02A => nat s.timeState
  | 0x02B => nat (s.now % 2 ^ 32)
  | 0x030 => nat ((s.ownerBy (fun r => r.nglTriggers.getLsbD el)).getD 0xFF)
  | 0x032 => nat (s.ntrgAt el).rx
  | 0x033 => nat (s.ntrgAt el).late
  | 0x043 => nat s.ngl.c3Dropped
  | 0x044 => nat s.ngl.noRoute
  | 0x050 => nat (s.ngl.tm.todSec % 2 ^ 32)
  | 0x060 => nat (s.chimeAt el).state
  | 0x061 => nat (Config.chimeDelay el)
  | 0x080 => nat (s.laneLink el + 8 * b2n (l.far || (decide (6 ≤ el) && (s.hlinkAt ((el - 6) / 8)).up)) +
      16 * (if 6 ≤ el ∧ (s.hlinkAt ((el - 6) / 8)).up then (s.hlinkAt ((el - 6) / 8)).rate else 0))
  | 0x085 => nat l.retrains
  | 0x086 => .val p.ppm
  | 0x087 => nat p.c0Lost
  | _ => if l.prbsLock then .free else nat 0

/-- VIN_STATE without its bit [2], which the input stage shows (15 R431). -/
def State.vinState (s : State) : Nat :=
  b2n s.pwr.sup.below + 2 * b2n s.pwr.sup.high + 8 * b2n ((List.range 128).any (fun k => (s.siteAt k).shed))

/-- THERM_STATE (15 R431). -/
def State.thermState (s : State) : Nat :=
  let t := s.pwr.therm
  b2n t.dieThrottle + 2 * b2n t.dieStop + 4 * b2n t.dieTrip + 8 * b2n (s.stackAt 0).throttle +
    16 * b2n (s.stackAt 1).throttle + 32 * b2n ((s.stackAt 0).stop || (s.stackAt 1).stop) + 64 * b2n t.inStop +
    128 * b2n t.coolant + 256 * b2n t.stop.isSome

/-- SNS_STATE (15 R431). -/
def State.snsState (s : State) (n : Nat) : Nat :=
  let x := s.snsAt n
  x.broken + 8 * b2n x.latched + 16 * b2n x.fencing +
    256 * min 255 (x.breakAt.filter (fun t => decide (s.now < t + 3600000000000))).length

/-- HLT (15 R431, 16 R457). IIN, P_IN and the input limit are measured and no row reports them. -/
def State.roHlt (s : State) (num el : Nat) : Live :=
  match num with
  | 0x001 => nat s.pwr.sup.vinFilt
  | 0x003 => nat (s.vinState + 4 * (s.freeVal % 2))
  | 0x004 | 0x005 => .free
  | 0x006 => nat s.pwr.sup.pIdle
  | 0x010 => nat s.pwr.sup.hp
  | 0x012 => nat (b2n (s.siteAt el).shed)
  | 0x020 => .val (s.snsTemp el)
  | 0x021 => .val ((s.snsAt el).raw.getD 0x7FFFFFFF)
  | 0x022 => nat (s.snsState el)
  | 0x030 => .val s.tDie
  | 0x031 => .val (s.tHbm el)
  | 0x032 => nat s.thermState
  | 0x033 => nat s.pwr.therm.tripSrc
  | 0x101 => nat (Tbl.get s.evt.count 0 el)
  | 0x102 => nat (Tbl.get s.evt.conseq 0 el)
  | 0x103 => nat (b2n s.evt.gong + 2 * b2n s.evt.fatal + 65536 * s.evt.gongFirst)
  | 0x104 => nat (b2n s.evt.tabor + 2 * b2n (!s.evt.tabor))
  | 0x105 => nat (s.evt.fatalSrc + 65536 * b2n s.evt.fatal)
  | 0x106 => nat (s.fnAt el).evtHeld.length
  | 0x110 => nat (b2n s.fw.bank + 2 * b2n s.fw.next + 4 * b2n s.fw.validA + 8 * b2n s.fw.validB + 16 * b2n s.fw.fellBack)
  | 0x111 => nat s.fw.verA
  | 0x112 => nat s.fw.verB
  | _ => nat (match s.fw.svcUntil with
      | some t => 1 + 256 * ((t - s.now) / 1000000000)
      | none => 0)

/-- REF_STATE: queued and running come before what the last attempt left (17 R477). -/
def State.refCode (s : State) (u : CalUnit) (last attempts : Nat) : Nat :=
  let state := match s.cal.run.running with
    | some (v, _) => if v = u then 4 else last
    | none => last
  (if state ≠ 4 ∧ s.cal.run.queue.any (fun x => x.1 == u) then 3 else state) + 256 * attempts

/-- CAL (17 R477). -/
def State.roCal (s : State) (num el : Nat) : Live :=
  let st := s.cal.store
  let g := s.grpAt el
  let d := s.dpsAt el
  let l := s.laneAt el
  match num with
  | 0x004 => nat (b2n st.active + 2 * b2n st.slot0.valid + 4 * b2n st.slot1.valid + 8 * b2n st.pending +
      16 * b2n (decide (st.step ≠ 0)))
  | 0x005 => nat (st.slot st.active).gen
  | 0x006 => nat st.writes
  | 0x010 => nat (s.refCode (.group (toFin 16 el (by decide))) g.refState g.refAttempts)
  | 0x011 => nat g.refCount
  | 0x012 => nat g.refReject
  | 0x013 => nat (g.refLast % 2 ^ 32)
  | 0x015 => nat (g.refTai % 2 ^ 32)
  | 0x020 => nat (s.refCode (.dps (toFin 18 el (by decide))) d.refState d.refAttempts)
  | 0x021 => nat d.refCount
  | 0x022 => nat d.refReject
  | 0x023 => nat (d.refLast % 2 ^ 32)
  | 0x025 => nat (d.refTai % 2 ^ 32)
  | 0x026 => .val d.calTemp
  | 0x031 => .val l.statD
  | 0x032 => .val l.statC
  | 0x033 => nat g.statCount
  | _ => nat (g.statLast % 2 ^ 32)

/-! ## Companion words (00 R6) -/

/-- A companion parameter: the number of its low word, and its place among the companions. -/
def companion (blk num : Nat) : Option (Nat × Nat) :=
  match blk, num with
  | 5, 0x002 => some (0x001, 0)
  | 5, 0x004 => some (0x003, 0)
  | 7, n => if 0x011 ≤ n ∧ n ≤ 0x01D then some (0x010, n - 0x011) else none
  | 8, n => if 0x041 ≤ n ∧ n ≤ 0x044 then some (0x040, n - 0x041) else none
  | 10, 0x00D => some (0x00C, 0)
  | 11, 0x025 => some (0x024, 0)
  | 11, 0x027 => some (0x026, 0)
  | 11, 0x02C => some (0x02B, 0)
  | 11, n =>
    if 0x051 ≤ n ∧ n ≤ 0x053 then some (0x050, n - 0x051)
    else if 0x089 ≤ n ∧ n ≤ 0x08C then some (0x088, n - 0x089) else none
  | 14, 0x014 => some (0x013, 0)
  | 14, 0x024 => some (0x023, 0)
  | 14, 0x035 => some (0x034, 0)
  | _, _ => none

/-- High word of a 64-bit value. -/
def hi32 (n : Nat) : Nat := n / 2 ^ 32 % 2 ^ 32

/-- Companion words that a read of an RL low word latches. -/
def State.companions (s : State) (blk num el : Nat) : List Nat :=
  match blk, num with
  | 5, 0x001 => [hi32 (s.siteAt el).failCount % 2 ^ 16]
  | 5, 0x003 => [hi32 (s.siteAt el).firstFail48]
  | 7, _ =>
    let w (i : Nat) : Nat := (s.msAt el).result[i]?.getD 0
    (List.range 12).map w ++ [w 13]
  | 8, _ =>
    let w (i : Nat) : Nat := (s.padcAt el).result[i]?.getD 0
    (List.range 4).map w
  | 10, _ => [hi32 (s.mcAt el).lastTrain]
  | 11, 0x024 => (words64 s.ngl.tm.c).drop 1
  | 11, 0x026 => (words64 (s.domAt el).d).drop 1
  | 11, 0x02B => [hi32 s.now]
  | 11, 0x050 => [hi32 s.ngl.tm.todSec % 2 ^ 16, s.ngl.tm.todMt % 2 ^ 32, hi32 s.ngl.tm.todMt]
  | 11, _ =>
    let l := s.slaneAt el
    if l.prbsLock then
      [s.freeVal / 2 ^ 32 % 2 ^ 16, s.freeVal / 2 ^ 48 % 2 ^ 32, s.freeVal / 2 ^ 80 % 2 ^ 32, l.prbsRelock]
    else [0, 0, 0, l.prbsRelock]
  | 14, 0x013 => [hi32 (s.grpAt el).refLast]
  | 14, 0x023 => [hi32 (s.dpsAt el).refLast]
  | 14, _ => [hi32 (s.grpAt el).statLast]
  | _, _ => []

/-- The latch of a register or parameter of a function. -/
def FnSt.latched (f : FnSt) (r : RlReg) : List Nat := ((f.latch.find? (fun x => x.1 == r)).map (·.2)).getD []

/-- A read of a low word latches its companions (R6). -/
def FnSt.setLatch (r : RlReg) (ws : List Nat) (f : FnSt) : FnSt :=
  { f with latch := f.latch.filter (fun x => x.1 != r) ++ [(r, ws)] }

/-! ## A read -/

/-- Live value of an RO or RL parameter. -/
def State.liveOf (s : State) (p blk num el : Nat) : Live :=
  match blk with
  | 0 => s.roSys num el
  | 1 => s.roVe p num el
  | 2 => s.roTmg num el
  | 3 => s.roPfe num el
  | 4 => s.roDps num el
  | 5 => s.roCap num el
  | 6 => s.roRse num el
  | 7 => s.roTmu num el
  | 8 => s.roPadc num el
  | 9 => s.roSch num el
  | 10 => s.roMem num el
  | 11 => s.roNgl num el
  | 13 => s.roHlt num el
  | _ => s.roCal num el

/-- Value of an RW parameter: MAX_DEPTH reads 15 in RING (12 R356), FORCE reads 0 (16 R457), PMU_MODE reads OFF while
no channel of the group has CONN = 2 (05 R159). -/
def State.rwValue (s : State) (id : Nat) : Int :=
  if id = pid 11 0 0x003 ∧ s.nglMode = 2 then 15
  else if pidBlk id = 3 ∧ pidNum id = 0x010 ∧ (s.pmuChan (pidEl id)).isNone then 0
  else if pidBlk id = 13 ∧ pidNum id = 0x100 then ((s.par id).toNat % 256 : Nat)
  else s.par id

/-- Staged or pending value of a partition's parameter: a staged one first (14 R392). -/
def State.stagedOf (s : State) (p id : Nat) : Option Int :=
  match Tbl.find (s.fnAt p).staged id with
  | some v => some v
  | none => s.pendingOf id

/-- What partition `p` reads, and the state after it: an RL read latches its companions, a free value is drawn. -/
def State.readParam (s : State) (p : Nat) (staged : Bool) (id : Nat) : Int × State :=
  let blk := pidBlk id
  let num := pidNum id
  let el := pidEl id
  match idRow id with
  | none => (0, s)
  | some r =>
    match r.acc with
    | .rw => ((if staged then (s.stagedOf p id).map r.rng.norm else none).getD (s.rwValue id), s)
    | .rl =>
      let s := s.updFn p (FnSt.setLatch (.param id) (s.companions blk num el))
      match s.liveOf p blk num el with
      | .val v => (v, s)
      | .free => (((s.freeVal % 2 ^ 32 : Nat) : Int), s.drawFree)
    | .ro =>
      match companion blk num with
      | some (low, i) => ((((s.fnAt p).latched (.param (pid blk el low)))[i]?.getD 0 : Nat), s)
      | none =>
        match s.liveOf p blk num el with
        | .val v => (v, if blk = 13 ∧ num = 0x003 then s.drawFree else s)
        | .free => (((s.freeVal % 2 ^ 32 : Nat) : Int), s.drawFree)

/-- Values of several parameters, read in order. -/
def State.readAll (s : State) (p : Nat) (staged : Bool) : List Nat → List Int × State
  | [] => ([], s)
  | id :: r =>
    let (v, s) := s.readParam p staged id
    let (vs, s) := s.readAll p staged r
    (v :: vs, s)

end Sys2Proof.Machine
end

