-- ==== Sys2Proof/Machine/Commit.lean ====
section
/-!
DEFINITION. Staging and commit of parameters, timing sets and rate tables: the relational rules of every chapter and
the apply points (14 R391; 02 R85, 04 R128, R132, R136, 05 R150, R159–R161, R167, R171, R179, 06 R189, R195, R201,
R210, R217, 07 R221–R225, R240, 08 R257, 09 R260–R266, R270, 10 R304, 12 R356, 16 R446, R457, 17 R474).
-/

namespace Sys2Proof.Machine

/-- Value of a parameter after the commit of a partition: staged, else pending, else applied. -/
def State.fut (s : State) (p id : Nat) : Int :=
  match Tbl.find (s.fnAt p).staged id with
  | some v => v
  | none => (s.pendingOf id).getD (s.par id)

/-- The same by block, element, number, as a natural number. -/
def State.futN (s : State) (p blk el num : Nat) : Nat := (s.fut p (pid blk el num)).toNat

/-- First failure of a list of checks: whether it fails, its status, its result words. -/
def firstBad (l : List (Bool × Status × List Nat)) : Option (Status × List Nat) := (l.find? (·.1)).map (·.2)

/-- A value that names a site, or 0xFFFF for none, names one of the partition's (02 R85, 06 R217, 12 R356). -/
def State.siteCheck (s : State) (p : Nat) (v : Nat) : Bool × Status × List Nat :=
  (decide (v < 128) && !(s.part p).sites.getLsbD v, .conflict, [resId 9 v 1])

/-! ## Pin front end and DPS -/

/-- PFE (05 R150, R159–R161, R179, R446). -/
def State.checkPfe (s : State) (p id : Nat) (v : Int) : Option (Status × List Nat) :=
  let el := pidEl id
  let num := pidNum id
  let n := s.futN p 3 el
  firstBad
    [(s.evt.fatal, .fenced, [id]),
     ((num == 0x001 || num == 0x002) && decide (n 0x001 < n 0x002), .outOfRange, [el]),
     ((num == 0x004 || num == 0x005) && decide (n 0x004 < n 0x005), .outOfRange, [el]),
     (num == 0x00A && v != s.par id && (s.chanSite el).any s.siteBusy, .busy, [id]),
     (num == 0x00A && v == 2 && (List.range 32).any (fun k =>
        decide (32 * (el / 32) + k ≠ el) && s.futN p 3 (32 * (el / 32) + k) 0x00A == 2), .conflict, [resId 3 (el / 32) 2]),
     (num == 0x00A && v == 2 && (s.laneAt (s.laneOf el)).fenced, .conflict, [resId 3 (s.laneOf el) 1]),
     ((num == 0x014 || num == 0x015) && decide (n 0x014 < n 0x015 + 800), .outOfRange, [id])]

/-- DPS (05 R167, R171, R446). -/
def State.checkDps (s : State) (p id : Nat) (v : Int) : Option (Status × List Nat) :=
  let el := pidEl id
  let num := pidNum id
  firstBad
    [(s.evt.fatal, .fenced, [id]),
     (num == 0x009 && v == 3 && decide (16 ≤ el), .outOfRange, [id]),
     ((num == 0x010 || num == 0x011) && decide (s.futN p 4 el 0x010 < s.futN p 4 el 0x011), .outOfRange, [id])]

/-! ## Capture -/

/-- Fail-log region of a site and buffer of a RING unit: first page and pages; none while off (06 R189, R197). -/
def State.logRegion (s : State) (p k : Nat) : Option (Nat × Nat) :=
  if (s.part p).sites.getLsbD k ∧ s.futN p 5 k 0x010 ≠ 0 then some (s.futN p 5 k 0x011, s.futN p 5 k 0x012) else none
def State.cuRegion (s : State) (p u : Nat) : Option (Nat × Nat) :=
  if (s.part p).units.getLsbD u ∧ s.futN p 5 u 0x045 = 1 then some (s.futN p 5 u 0x047, s.futN p 5 u 0x048) else none

/-- Two regions share a page. -/
def overlap (a b : Nat × Nat) : Bool := decide (a.1 < b.1 + b.2) && decide (b.1 < a.1 + a.2)

/-- A region lies outside the partition's space or overlaps another CAP region. -/
def State.regionBad (s : State) (p : Nat) (r : Nat × Nat) (log unit : Option Nat) : Bool :=
  decide (s.pagesOf p < r.1 + r.2) ||
    (List.range 128).any (fun k => decide (some k ≠ log) && (s.logRegion p k).any (overlap r)) ||
    (List.range 16).any (fun u => decide (some u ≠ unit) && (s.cuRegion p u).any (overlap r))

/-- TRG_ARG fits TRG_SRC and TRG_SITE (06 R201). -/
def State.trgFit (s : State) (p t : Nat) : Option (Status × List Nat) :=
  let src := s.futN p 5 t 0x061
  let arg := s.futN p 5 t 0x062
  let site := s.futN p 5 t 0x060
  let bad : Status × List Nat := (.outOfRange, [pid 5 t 0x062])
  let chans := s.siteChans site
  match src with
  | 0 | 1 | 2 | 4 => firstBad [(decide (arg ≠ 0), bad)]
  | 3 => firstBad [(decide (512 ≤ arg), bad), (!chans.contains arg, .conflict, [resId 3 arg 3])]
  | 5 => firstBad [(decide (16 ≤ arg), bad), (decide (site < 128) && chans.all (fun c => decide (c / 32 ≠ arg)), bad)]
  | 6 => firstBad [(decide (arg % 256 / 2 ≠ 0), bad),
      (decide (128 ≤ site) || decide (s.futN p 5 (arg % 2) 0x0A2 ≠ site), .conflict, [resId 5 (arg % 2) 5])]
  | _ => firstBad [(decide (256 ≤ arg), bad),
      (decide (128 ≤ site) || decide (s.futN p 11 arg 0x031 ≠ site), .conflict, [resId 11 arg 2])]

/-- The triggers whose source is an element keep their fit when its site changes (06 R201). -/
def State.trgSources (s : State) (p src el : Nat) : Option (Status × List Nat) :=
  (List.range 32).findSome? (fun t =>
    let arg := s.futN p 5 t 0x062
    if s.futN p 5 t 0x061 = src ∧ (if src = 6 then arg % 2 else arg) = el then s.trgFit p t else none)

/-- A host stream is bound to one local stream of one site (06 R210). -/
def State.boundTwice (s : State) (p id h : Nat) : Bool :=
  (List.range 128).any (fun k => (List.range 8).any (fun n =>
    decide (pid 5 k (0x020 + n) ≠ id) && s.futN p 5 k (0x020 + n) == h))

/-- CAP. -/
def State.checkCap (s : State) (p id : Nat) (v : Int) : Option (Status × List Nat) :=
  let el := pidEl id
  let num := pidNum id
  let n := v.toNat
  let cuCh (j : Nat) : Option (Status × List Nat) :=
    let c := s.futN p 5 el (0x041 + j)
    firstBad [(decide (c < 512) && !(s.siteChans (s.futN p 5 el 0x040)).contains c, .conflict, [resId 3 c 3])]
  let cuTrig : Option (Status × List Nat) :=
    let t := s.futN p 5 el 0x04B
    firstBad [(decide (t < 32) && (!(s.part p).capTriggers.getLsbD t ||
      decide (s.futN p 5 t 0x060 ≠ s.futN p 5 el 0x040)), .conflict, [resId 5 t 2])]
  if num = 0x010 ∨ num = 0x011 ∨ num = 0x012 then
    firstBad [((s.logRegion p el).any (fun r => s.regionBad p r (some el) none), .conflict, [resId 5 el 4])]
  else if 0x020 ≤ num ∧ num ≤ 0x027 then
    firstBad [(decide (n < 64) && (!(s.part p).streams.getLsbD n || s.boundTwice p id n), .conflict, [resId 5 n 3])]
  else if num = 0x040 then
    [firstBad [s.siteCheck p n], cuCh 0, cuCh 1, cuCh 2, cuCh 3, cuTrig].findSome? (fun x => x)
  else if 0x041 ≤ num ∧ num ≤ 0x044 then cuCh (num - 0x041)
  else if num = 0x045 ∨ num = 0x047 ∨ num = 0x048 then
    firstBad [((s.cuRegion p el).any (fun r => s.regionBad p r none (some el)), .conflict, [resId 5 el 1])]
  else if num = 0x04B then cuTrig
  else if num = 0x060 then [firstBad [s.siteCheck p n], s.trgFit p el].findSome? (fun x => x)
  else if num = 0x061 ∨ num = 0x062 then s.trgFit p el
  else if num = 0x067 then
    firstBad [(bit n 8 == 1 && !(s.part p).nglTriggers.getLsbD (n % 256), .conflict, [resId 11 (n % 256) 2])]
  else if num = 0x0A2 then [firstBad [s.siteCheck p n], s.trgSources p 6 el].findSome? (fun x => x)
  else none

/-! ## Raster engines -/

/-- Channels mapped to an engine after the commit. -/
def State.futMap (s : State) (p n : Nat) : List Nat :=
  (List.range 512).filter (fun c => let v := s.futN p 6 c 0x030; bit v 3 == 1 && bits v 1 0 == n)

/-- Mode, rate and ownership of the rate tables (09 R260–R262). -/
def State.checkMode (s : State) (p n id : Nat) : Option (Status × List Nat) :=
  let mode := s.futN p 6 n 0x002
  let ser := s.futN p 6 n 0x004
  let frac := s.futN p 6 n 0x003 == 1
  let m := muxFactor (s.futN p 6 n 0x005)
  let tb := rseTb (rasterMode mode).hz ser frac
  [firstBad [(frac && !fracMode mode, .outOfRange, [id]),
     (decide (4000000000 < (rasterMode mode).hz * ser), .outOfRange, [id]),
     (decide (tb < 4194304) || decide (262144 * 2 ^ 24 < tb) || decide (m * tb < 10485760), .outOfRange, [id]),
     (decide (m < ser), .outOfRange, [id])],
   (groupsOf (s.futMap p n)).findSome? (fun g =>
     firstBad [((s.grpAt g).rateOwner.any (fun o => o != .inr n), .conflict, [resId 2 g 4])])].findSome? (fun x => x)

/-- A layer: its stride, its place, its region (09 R264, R265). -/
def State.checkLayer (s : State) (p l id : Nat) : Option (Status × List Nat) :=
  let n := l / 2
  let m := rasterMode (s.futN p 6 n 0x002)
  if s.futN p 6 l 0x010 = 0 then none
  else
    let rect := s.futN p 6 n 0x014
    let size := s.futN p 6 n 0x015
    let w := if l % 2 = 0 then m.ha else size % 65536
    let h := if l % 2 = 0 then m.va else size / 65536
    let line := w * layerBytes (s.futN p 6 l 0x011)
    let stride := s.futN p 6 l 0x013
    firstBad [(decide (stride < line), .outOfRange, [id]),
      (l % 2 == 1 && (decide (m.ha < rect % 65536 + w) || decide (m.va < rect / 65536 + h)), .outOfRange, [id]),
      (decide (0 < h) && decide (s.pagesOf p * 4096 < s.futN p 6 l 0x012 * 4096 + (h - 1) * stride + line), .conflict,
        [resId 6 n 1])]

/-- A rectangle lies within the active area; size 0 disables it (09 R270). -/
def State.checkRect (s : State) (p r id : Nat) : Option (Status × List Nat) :=
  let m := rasterMode (s.futN p 6 (r / 16) 0x002)
  let pos := s.futN p 6 r 0x020
  let size := s.futN p 6 r 0x021
  firstBad [(decide (size % 65536 ≠ 0) && decide (size / 65536 ≠ 0) &&
    (decide (m.ha < pos % 65536 + size % 65536) || decide (m.va < pos / 65536 + size / 65536)), .outOfRange, [id])]

/-- RSE. -/
def State.checkRse (s : State) (p id : Nat) (v : Int) : Option (Status × List Nat) :=
  let el := pidEl id
  match pidNum id with
  | 0x001 => firstBad [s.siteCheck p v.toNat]
  | 0x002 => ([s.checkMode p el id, s.checkLayer p (2 * el) id, s.checkLayer p (2 * el + 1) id] ++
      (List.range 16).map (fun r => s.checkRect p (16 * el + r) id)).findSome? (fun x => x)
  | 0x003 | 0x004 | 0x005 => s.checkMode p el id
  | 0x010 | 0x011 | 0x012 | 0x013 => s.checkLayer p el id
  | 0x014 | 0x015 => s.checkLayer p (2 * el + 1) id
  | 0x020 | 0x021 => s.checkRect p el id
  | 0x030 => s.checkMode p (v.toNat % 4) id
  | _ => none

/-! ## Measurement sets, converters -/

/-- Channel of an MS_START or MS_STOP value, if any. -/
def edgeChan (v : Nat) : Option Nat := if v % 1024 < 512 then some (v % 1024) else none

/-- TMU (07 R221, R222, R225, R240). -/
def State.checkTmu (s : State) (p id : Nat) : Option (Status × List Nat) :=
  let m := pidEl id
  if 0x00D < pidNum id then none
  else
    let n := s.futN p 7 m
    let cs := (edgeChan (n 0x003)).toList ++ (edgeChan (n 0x004)).toList
    let taken (c : Nat) : Bool := (List.range 256).any (fun k => decide (k ≠ m) &&
      (edgeChan (s.futN p 7 k 0x003) == some c || edgeChan (s.futN p 7 k 0x004) == some c))
    [firstBad
      [((s.msAt m).armed && s.parN 7 m 0x00B == 1, .busy, [id]),
       (decide (n 0x001 < 128) && !(s.part p).sites.getLsbD (n 0x001), .conflict, [resId 7 m 2]),
       (cs.any (fun c => !(s.siteChans (n 0x001)).contains c), .conflict, [resId 7 m 2])],
     cs.findSome? (fun c => firstBad
      [(taken c, .conflict, [resId 7 c 1]),
       ((s.msAt m).armed && decide (s.futN p 3 c 0x00A ≠ 1), .conflict, [resId 3 (s.laneOf c) 1])]),
     firstBad
      [((edgeChan (n 0x004)).isSome && n 0x002 != 1, .badParam, [id]),
       (n 0x002 == 3 && bits (n 0x003) 18 17 == 3, .badParam, [id]),
       (n 0x008 == 1 && n 0x00B == 1, .badParam, [id])]].findSome? (fun x => x)

/-! ## The relational rules together -/

/-- The rules of a staged value. -/
def State.checkVal (s : State) (p id : Nat) (v : Int) : Option (Status × List Nat) :=
  let el := pidEl id
  match pidBlk id with
  | 1 => if pidNum id = 0x021 then firstBad [s.siteCheck p v.toNat] else none
  | 2 => firstBad [(pidNum id == 0x010 && (s.chanSite el).any s.siteTasked, .busy, [id])]
  | 3 => s.checkPfe p id v
  | 4 => s.checkDps p id v
  | 5 => s.checkCap p id v
  | 6 => s.checkRse p id v
  | 7 => s.checkTmu p id
  | 8 => firstBad [(s.convHolds id, .busy, [id])]
  | 9 => firstBad [(pidNum id == 0x026 && decide (2048 < ((List.range 16).map (fun q => s.futN p 9 q 0x026)).sum),
      .outOfRange, [id])]
  | 11 => if pidNum id = 0x031 then
      [firstBad [s.siteCheck p v.toNat], s.trgSources p 7 el].findSome? (fun x => x) else none
  | _ => none

/-- Timing sets staged for a group while a burst is bound to its inactive bank (04 R128). -/
def State.checkTs (s : State) (rs : List TsRec) : Option (Status × List Nat) :=
  (List.range 16).findSome? (fun g =>
    let ts := (rs.filter (fun r => r.group == g)).map (·.ts)
    let bound := s.ve.bursts.any (fun x => x.2.banks.any (fun y => y.1.val == g && y.2 != (s.grpAt g).bank))
    firstBad [(!ts.isEmpty && bound, .busy, [tsRes g (lowest ts)])])

/-- A burst runs resampled by the rate table of a group, through any of its sites. -/
def State.rateInUse (s : State) (g : Nat) : Bool :=
  s.ve.bursts.any (fun x => x.2.usesGroup g && x.2.sites.any (fun k =>
    s.rsmpGroup k.val g && (s.siteChans k.val).any (fun c => c / 32 == g)))

/-- A rate table that a running burst uses, or that a raster engine owns (04 R136, 09 R262). -/
def State.checkRate (s : State) (r : RateRec) : Option (Status × List Nat) :=
  firstBad
    [((s.grpAt r.group).rateOwner.any (fun o => match o with
        | .inr _ => true
        | .inl _ => false), .conflict, [resId 2 r.group 4]),
     (s.rateInUse r.group, .busy, [resId 2 r.group 4])]

/-- First failure over all that the partition has staged: timing sets, rate tables, values by rising ID. -/
def State.commitCheck (s : State) (p : Nat) : Option (Status × List Nat) :=
  let f := s.fnAt p
  [s.checkTs f.stagedTs, f.stagedRate.findSome? s.checkRate,
   f.staged.findSome? (fun x => s.checkVal p x.1 x.2)].findSome? (fun x => x)

/-! ## Applying -/

/-- The staged sets of a group go into the inactive bank beside the unchanged ones, and it becomes current (R128). -/
def GrpSt.commitTs (rs : List TsRec) (g : GrpSt) : GrpSt :=
  let t := rs.foldl (fun t r => if r.define then Tbl.put t r.ts r else Tbl.del t r.ts) (g.bankOf g.bank)
  if g.bank then { g with bank0 := t, bank := false } else { g with bank1 := t, bank := true }

/-- Commit the staged timing sets of every group. -/
def State.commitTs (s : State) (rs : List TsRec) : State :=
  (List.range 16).foldl (fun s g =>
    let mine := rs.filter (fun r => r.group == g)
    if mine.isEmpty then s else s.updGrp g (GrpSt.commitTs mine)) s

/-- Raster engine that a block RSE parameter belongs to. -/
def rseOf (id : Nat) : Nat :=
  match pidNum id with
  | 0x010 | 0x011 | 0x012 | 0x013 => pidEl id / 2
  | 0x020 | 0x021 | 0x022 => pidEl id / 16
  | _ => pidEl id

/-- Where a raster commit that reaches the engine now lands (09 R266): before the window closes, after it before
the blanking, or in the blanking; and the first frame that uses it. -/
def State.rseWindow (s : State) (n : Nat) : Option (Bool × Bool × Nat) :=
  (s.burstAt (32 + n)).map (fun b =>
    let m := s.rseMode n
    let q := b.emitted * s.rseFactor n / max 1 (s.parN 6 n 0x004)
    let f := q / m.frameClocks
    if f < (s.rseAt n).blanks then (false, true, f + 2)
    else if m.lineOf q + 1 < m.va then (false, false, f + 1)
    else (true, true, f + 2))

/-- Stage a value for its blanking. -/
def State.stageRse (s : State) (id : Nat) (v : Int) : State :=
  let n := rseOf id
  match s.rseWindow n with
  | none => s.applyVal id v
  | some (second, missed, _) =>
    s.updRse n (fun e =>
      if second then { e with stage2 := Tbl.put e.stage2 id v, late2 := e.late2 || missed, late := e.late || missed }
      else { e with stage1 := Tbl.put e.stage1 id v, late1 := e.late1 || missed, late := e.late || missed })

/-- Raster engines whose window a commit of these values misses: each is told once (R266). -/
def State.missedRse (s : State) (ids : List Nat) : List Nat :=
  (((ids.filter (fun id => (idRow id).any (fun r => decide (r.apply = .blanking)))).map rseOf).eraseDups).filter (fun n =>
    (s.rseWindow n).any (·.2.1))

/-- The value waits for its apply point; a later commit replaces it. -/
def State.pendValue (s : State) (p : Part) (id : Nat) (v : Int) : State :=
  { s with host.pendVals := s.host.pendVals.filter (fun x => x.id != id) ++ [{ part := p, id, value := v }] }

/-- FORCE of EVT_CFG raises one occurrence with payload 0 (16 R435). -/
def State.applyCfg (s : State) (id : Nat) (v : Int) : State :=
  let s := s.applyVal id (Rng.evtCfg.norm v)
  if bit v.toNat 8 = 1 then s.force (pidEl id) [0] else s

/-- A value of the same element that applies between bursts is held back: all values of one element in one commit apply
together (14 R391). -/
def State.heldWith (s : State) (vals : Tbl Int) (id : Nat) : Bool :=
  match idRow id with
  | some r => vals.any (fun y => pidBlk y.1 == pidBlk id && pidEl y.1 == pidEl id &&
      (idRow y.1).any (fun q => q.own == r.own && q.apply == .between && s.heldBack q y.1 y.2))
  | none => false

/-- One value of a commit takes effect at once or waits for its apply point, as `held` says for one between bursts
(14 R391). -/
def State.commitVal (s : State) (p : Part) (id : Nat) (v : Int) (held : Bool) : State :=
  match idRow id with
  | none => s
  | some r =>
    match r.apply with
    | .commit =>
      if r.rng = .evtCfg then s.applyCfg id v
      else
        let s := s.applyVal id v
        if pidBlk id = 7 then { s with cal.store := { s.cal.store with pending := true } } else s
    | .blanking => s.stageRse id v
    | .between => if held then s.pendValue p id v else s.applyVal id v
    | .rowMode => if s.heldBack r id v then s.pendValue p id v else s.applyVal id v
    | .reset | .nglConfig | .training | .detect => s.pendValue p id v

/-- Lanes that a partition reset left in their safe state open with the owner's next commit (01 R26, 05 R158). -/
def State.openHeld (s : State) (p : Nat) : State :=
  if s.pwr.safe then s
  else (s.pf.lane.map (·.1)).foldl (fun s l => match s.chanOf l with
    | some c =>
      if s.ownsChan p c && s.parN 3 c 0x00A == 0 && (s.laneAt l).mode != .opened then s.updLane l LaneSt.open_ else s
    | none => s) s

/-- First frame that uses the values of a raster commit (09 R266): of the lowest engine it names. -/
def State.firstFrame (s : State) (ids : List Nat) : List Nat :=
  let es := (ids.filter (fun i => pidBlk i == 6 && decide (pidNum i < 0x030))).map rseOf
  match minOf es with
  | some n => [match s.rseWindow n with
      | some (_, _, f) => f
      | none => 0]
  | none => []

/-- Commit everything a partition has staged: nothing when a check fails, and the staged set stays (14 R391). -/
def State.commit (s : State) (p : Part) : Status × List Nat × State :=
  match s.commitCheck p.val with
  | some (st, ws) => (st, ws, s)
  | none =>
    let f := s.fnAt p.val
    let words := s.firstFrame (f.staged.map (·.1))
    let missed := s.missedRse (f.staged.map (·.1))
    let s := s.updFn p.val (fun f => { f with staged := [], stagedTs := [], stagedRate := [] })
    let s := s.commitTs f.stagedTs
    let s := f.stagedRate.foldl (fun s r =>
      s.updGrp r.group (fun x => { x with rate := some r, rateOwner := some (.inl p.val) })) s
    let held := f.staged.filter (fun x => s.heldWith f.staged x.1)
    let s := f.staged.foldl (fun s x => s.commitVal p x.1 x.2 (held.contains x)) s
    let s := missed.foldl (fun s n => s.event (0x551 + 4 * n)) s
    (.ok, words, s.openHeld p.val)

/-! ## Staging -/

/-- The value as it is staged: FORCE is kept until the commit. -/
def stageNorm (r : Rng) (v : Int) : Int :=
  match r with
  | .evtCfg => ((v.toNat &&& 0x117 : Nat) : Int)
  | r => r.norm v

/-- First pair that a check refuses: status and index (14 R391). -/
def State.pairsBad (s : State) (p : Nat) (pairs : List (Nat × Int)) : Option (Status × Nat) :=
  (pairs.zipIdx.findSome? (fun x => (s.writeCheck p x.1.1 x.1.2).map (fun st => (st, x.2))))

/-- Stage pairs; a later value of an ID replaces the earlier one. -/
def State.stagePairs (s : State) (p : Nat) (pairs : List (Nat × Int)) : State :=
  let put (t : Tbl Int) (x : Nat × Int) : Tbl Int :=
    match idRow x.1 with
    | some r => Tbl.put t x.1 (stageNorm r.rng x.2)
    | none => t
  s.updFn p (fun f => { f with staged := pairs.foldl put f.staged })

/-- Check and stage pairs, with a commit when asked: status, result words, state. -/
def State.setPairs (s : State) (p : Part) (pairs : List (Nat × Int)) (commit : Bool) : Status × List Nat × State :=
  match s.pairsBad p.val pairs with
  | some (st, i) => (st, [i], s)
  | none =>
    let t := s.stagePairs p.val pairs
    if 4096 < (t.fnAt p.val).staged.length then (.noCredit, [], s)
    else if commit then t.commit p
    else (.ok, [], t)

end Sys2Proof.Machine
end

