-- ==== Sys2Proof/Machine/HostRows.lean ====
section
/-!
DEFINITION. The rows of the host interface: doorbell and intake, ring stop, the consumer counts, DMA errors, register
reads and writes, partition and module reset (14 R379–R388, R394–R396).
-/

namespace Sys2Proof.Machine

/-! ## Aborting tasks (10 R300) -/

/-- Runner of the burst of a matching-store index. -/
def State.taskRunner (s : State) (i : Nat) : Option Nat := ((s.ve.bursts.find? (fun x => x.2.task == i)).map (·.1))

/-- Abort a dispatched burst: before its start tick it gives up, a running one ends ABORTED. -/
def State.abortBurst (s : State) (r : Nat) : State :=
  match s.burstAt r with
  | some b => if b.isStarted then s.endBurst r .stop abortedRes else s.giveUp r abortedRes
  | none => s

/-- Abort the task of a matching-store index. -/
def State.abortTask (s : State) (i : Nat) : State :=
  match s.taskAt i with
  | some t => s.endTask i t .ok (notRun t.raster abortedRes) abortedRes
  | none => match s.taskRunner i with
    | some r => s.abortBurst r
    | none => s

/-- Abort every task of the store, and every burst, that satisfy a test. -/
def State.abortAll (s : State) (task : TaskSt → Bool) (burst : Burst → Bool) : State :=
  let s := ((s.sch.tasks.filter (fun x => task x.2)).map (·.1)).foldl State.abortTask s
  (s.runnersBy burst).foldl State.abortBurst s

/-- Abort everything of a partition (14 R385). -/
def State.abortPart (s : State) (p : Part) : State :=
  s.abortAll (fun t => t.part == p) (fun b => b.part == p)

/-! ## Intake (R381, R382, R389, R390, 16 R455, 17 R475) -/

/-- Operand words of the defined opcodes: fewest, most; and with LIST. -/
def opcodeLen (op : BitVec 16) (list : Bool) : Option (Nat × Nat) :=
  if list then
    (match op.toNat with
     | 0x0002 => some (5, 5) | 0x0003 => some (3, 3) | _ => none)
  else
    match op.toNat with
    | 0x0001 | 0x0004 | 0x0005 | 0x0007 | 0x0B01 | 0x0C04 | 0x0D02 | 0x0E02 => some (0, 0)
    | 0x0002 => some (1, 6)
    | 0x0003 => some (2, 12)
    | 0x0006 | 0x0008 | 0x0102 | 0x0205 | 0x0206 | 0x0402 | 0x0403 | 0x0502 | 0x0504 | 0x0506 | 0x0702 | 0x0801
    | 0x0802 | 0x0906 | 0x0A03 | 0x0A04 | 0x0A05 | 0x0B03 | 0x0B08 | 0x0D03 | 0x0D04 | 0x0D05 | 0x0D06
    | 0x0E03 => some (1, 1)
    | 0x0103 | 0x0204 | 0x0401 | 0x0505 | 0x0901 | 0x0902 | 0x0903 | 0x0B04 | 0x0B05 | 0x0B06 | 0x0B07 | 0x0C01
    | 0x0E01 => some (2, 2)
    | 0x0104 | 0x0201 | 0x0202 | 0x0701 | 0x0703 | 0x0904 | 0x0905 | 0x0C02 => some (3, 3)
    | 0x0101 | 0x0203 | 0x0B02 | 0x0C03 => some (4, 4)
    | 0x0501 => some (5, 5)
    | 0x0503 | 0x0A01 | 0x0A02 => some (6, 6)
    | 0x0D01 => some (1, 11)
    | _ => none

/-- Flags that an opcode takes. -/
def flagsOk (e : CmdEntry) : Bool :=
  let op := e.opcode.toNat
  (!e.commit || [0x0003, 0x0201, 0x0204].contains op) && (!e.list || [0x0002, 0x0003].contains op) &&
    (!e.staged || op == 0x0002)

/-- An entry is well formed: LEN, reserved bits, flags. -/
def cmdFormed (e : CmdEntry) : Bool :=
  !e.rsvd && flagsOk e &&
    (match opcodeLen e.opcode e.list with
     | some (lo, hi) => decide (lo ≤ e.len) && decide (e.len ≤ hi) && (e.opcode != 0x0003 || e.list || e.len % 2 == 0)
     | none => false)

/-- The module takes commands of the partition: enabled, not stopped, no reset in progress, no 512 completions held,
link up, firmware running. -/
def State.intake (s : State) (p : Nat) : Bool :=
  let f := s.fnAt p
  f.enable && !f.stop && (decide (f.reset = 0) || decide (f.reset = 3)) && decide (f.cplHeld.length < 512) &&
    s.linkUp p && s.fw.state == 1 && s.fw.hand == 0

/-- CMD_TAIL: the doorbell. A count that leaves more than 256 entries, or moves back, is ignored with kind 2. -/
def execCmdTail (p : Part) (count : Nat) (written : List CmdEntry) (s : State) : Out :=
  .next (
    let f := s.fnAt p.val
    let c := count % 65536
    let ahead := (c + 65536 - f.head) % 65536
    let old := (f.tail + 65536 - f.head) % 65536
    if 256 < ahead ∨ ahead < old then s.fnErr p.val 2 0x020 0 0
    else s.updFn p.val (fun f => { f with tail := c, ring := f.ring ++ written.take (ahead - old) }))

/-- The partition's ring has an entry that can be taken. -/
def State.canTake (s : State) (p : Nat) : Bool :=
  s.intake p && (match (s.fnAt p).ring with
    | [] => false
    | e :: _ => !e.ordered || (s.fnAt p).tags.isEmpty)

/-- Partition whose ring is served next: round-robin, up to 4 entries per turn (R389). -/
def State.nextTurn (s : State) : Option Nat :=
  let (cur, n) := s.host.turn
  if s.canTake cur && decide (n < 4) then some cur
  else ((List.range 16).map (fun i => (cur + 1 + i) % 16)).find? s.canTake

/-- An entry of a partition is taken in its turn. -/
def State.countTurn (s : State) (p : Nat) : State :=
  let (cur, n) := s.host.turn
  { s with host.turn := if p = cur ∧ n < 4 then (cur, n + 1) else (p, 1) }

/-- CMD_TAKE: the module takes the next entry, advances CMD_HEAD and checks opcode, tag and form; a command that
passes goes on in its own row. Rings are served in turn. ORDERED waits until every earlier command has its final completion. 512 held
completions are told here (R387, R389). -/
def execCmdTake (p : Part) (s : State) : Out :=
  .next (
    let s := if (s.fnAt p.val).holdFull then
        (s.updFn p.val (fun f => { f with holdFull := false })).event (0x080 + p.val) [5] [.part p.val]
      else s
    if s.nextTurn ≠ some p.val then s
    else match (s.fnAt p.val).ring with
      | [] => s
      | e :: r =>
          let s := (s.countTurn p.val).updFn p.val (fun f => { f with ring := r, head := (f.head + 1) % 65536 })
          if (opcodeLen e.opcode false).isNone then s.refuseCmd p.val e.tag e.opcode .badOpcode []
          else if (s.fnAt p.val).tags.any (fun t => t.tag == e.tag) then s.command p e.tag e.opcode true true [] (fun s => s)
          else if !cmdFormed e then s.refuseCmd p.val e.tag e.opcode .badParam []
          else s.updFn p.val (fun f => { f with
            tags := f.tags ++ [{ tag := e.tag, opcode := e.opcode, taken := true, dma := e.dma }] }))

/-- CMD_ENABLE: CMD_CTRL ENABLE starts or stops the intake; a ring programmed and enabled takes what was held (R382,
16 R440). -/
def execCmdEnable (p : Part) (enable : Bool) (s : State) : Out :=
  .next (
    let s := s.updFn p.val (fun f => { f with enable })
    if enable then (s.flushCpl p.val).drainEvts p.val else s)

/-- RING_STOP: no further entry is taken and every task of the partition is aborted (R385). -/
def execRingStop (p : Part) (s : State) : Out :=
  .next (
    let was := (s.fnAt p.val).stop
    let s := (s.updFn p.val (fun f => { f with stop := true })).abortPart p
    if was then s else s.event (0x080 + p.val) [4] [.part p.val])

/-- RING_RESUME: intake resumes (R385). -/
def execRingResume (p : Part) (s : State) : Out := .next (s.updFn p.val (fun f => { f with stop := false }))

/-! ## Completion and event rings -/

/-- MSIX_COAL_TIMEOUT: the oldest unannounced entry is COAL_TIME old (R379). -/
def execMsixCoalTimeout (p : Part) (evt : Bool) (s : State) : Out :=
  .next (s.updFn p.val (fun f =>
    if evt then
      (if bits f.evtMsix 31 16 ≠ 0 ∧ ringFill f.evtProd f.evtTold ≠ 0 then
        { f with evtTold := f.evtProd, msixSent := f.msixSent + 1 } else f)
    else if bits f.cplMsix 31 16 ≠ 0 ∧ ringFill f.cplProd f.cplTold ≠ 0 then
      { f with cplTold := f.cplProd, msixSent := f.msixSent + 1 }
    else f))

/-- CPL_DMA_ERROR: no further completion is written (R386). -/
def execCplDmaError (p : Part) (addr : Nat) (s : State) : Out :=
  .next (((s.updFn p.val (fun f => { f with cplErr := true })).fnErr p.val 3 0 (addr % 2 ^ 32) (hi32 addr)).event
    (0x080 + p.val) [6] [.part p.val])

/-- EVT_DMA_ERROR: no further event record is written (R386). -/
def execEvtDmaError (p : Part) (addr : Nat) (s : State) : Out :=
  .next (((s.updFn p.val (fun f => { f with evtErr := true })).fnErr p.val 4 0 (addr % 2 ^ 32) (hi32 addr)).event
    (0x080 + p.val) [7] [.part p.val])

/-- CPL_CONS: the field takes the count (00 R5); the host has consumed, and what is held is written (R383, R387). A count
beyond CPL_PROD leaves the ring without room by the counts. -/
def execCplCons (p : Part) (count : Nat) (s : State) : Out :=
  .next ((s.updFn p.val (fun f => { f with
    cplCons := count % 2 ^ 32, cpls := f.cpls.drop (ringFill count f.cplCons) })).flushCpl p.val)

/-- EVT_CONS: the field takes the count (00 R5); space returns, and held sources are written COALESCED, then LOST (16
R439). -/
def execEvtCons (p : Part) (count : Nat) (s : State) : Out :=
  .next ((s.updFn p.val (fun f => { f with
    evtCons := count % 2 ^ 32, evts := f.evts.drop (ringFill count f.evtCons) })).drainEvts p.val)

/-! ## Registers (R5, R6, R379, R380) -/

/-- FERR_CLEAR: the first-error record is cleared and armed again. -/
def execFerrClear (p : Part) (s : State) : Out := .next (s.updFn p.val (fun f => { f with ferr := none }))

/-- LINK_LOST_CLEAR: PART_STATUS LINK_LOST, W1C. -/
def execLinkLostClear (p : Part) (s : State) : Out := .next (s.updFn p.val (fun f => { f with linkLost := false }))

/-- FERR_INFO: KIND and DETAIL. -/
def PartFerr.info (e : PartFerr) : Nat := e.kind + 65536 * e.detail

/-- Companion words that a read of a low word latches: SERIAL_HI, TIME_HI, 0x084–0x090, or those of an RL
parameter that the partition may read. -/
def State.rlWords (s : State) (p : Nat) (reg : RlReg) : Option (List Nat) :=
  match reg with
  | .serial => some [hi32 Config.serial]
  | .time => some [hi32 s.now]
  | .ferrTime => some (match (s.fnAt p).ferr with
      | some e => [hi32 e.time, e.info, e.lo, e.hi]
      | none => [0, 0, 0, 0])
  | .param id =>
    match idRow id with
    | some r => if r.acc = .rl ∧ s.readCheck p id = none then some (s.companions (pidBlk id) (pidNum id) (pidEl id))
        else none
    | none => none

/-- RL_LOW_READ: the companions are latched in one clock (R6). -/
def execRlLowRead (p : Part) (reg : RlReg) (s : State) : Out :=
  .next (match s.rlWords p.val reg with
    | some ws => s.updFn p.val (FnSt.setLatch reg ws)
    | none => s)

/-- Low and high word of a 64-bit register. -/
def setLo (v w : Nat) : Nat := v / 2 ^ 32 * 2 ^ 32 + w % 2 ^ 32
def setHi (v w : Nat) : Nat := v % 2 ^ 32 + w % 2 ^ 32 * 2 ^ 32

/-- Reserved bits of an MSI-X register are ignored. -/
def msixMask (w : Nat) : Nat := w % 32 + w / 256 * 256

/-- The ring registers; none for an offset that holds no RW field of its own. -/
def FnSt.setRing (f : FnSt) (offset w : Nat) : Option FnSt :=
  match offset with
  | 0x030 => some { f with cplBase := setLo f.cplBase w }
  | 0x034 => some { f with cplBase := setHi f.cplBase w }
  | 0x038 => some { f with cplSize := w }
  | 0x03C => some { f with cplMsix := msixMask w }
  | 0x040 => some { f with cplAddr := setLo f.cplAddr w }
  | 0x044 => some { f with cplAddr := setHi f.cplAddr w }
  | 0x050 => some { f with evtBase := setLo f.evtBase w }
  | 0x054 => some { f with evtBase := setHi f.evtBase w }
  | 0x058 => some { f with evtMsix := msixMask w }
  | 0x05C => some { f with evtAddr := setLo f.evtAddr w }
  | 0x060 => some { f with evtAddr := setHi f.evtAddr w }
  | _ => none

/-- REGISTER_WRITE: an RW field is set, an RO field ignores it; the ring registers are closed while ENABLE is 1
(R5, R382). -/
def execRegisterWrite (p : Part) (offset : Nat) (value : Word) (s : State) : Out :=
  .next (match (s.fnAt p.val).setRing offset value.toNat with
    | some f => if f.enable then s.fnErr p.val 2 offset 0 0 else s.updFn p.val (fun _ => f)
    | none =>
      if 0x0B0 ≤ offset ∧ offset ≤ 0x0BC ∧ offset % 4 = 0 then
        s.updFn p.val (fun f => { f with scratch := Tbl.put f.scratch ((offset - 0x0B0) / 4) value.toNat })
      else s)

/-! ## Partition reset (R394, R395) -/

/-- A reset is requested; one in progress is not disturbed, an expired one starts again. -/
def State.requestPart (s : State) (p : Nat) : State :=
  s.updFn p (fun f => if f.reset = 1 ∨ f.reset = 2 then f else { f with reset := 1, resetAt := s.now })

/-- PART_RESET: the key requests the reset of this partition; another value records kind 2. -/
def execPartReset (p : Part) (key : Word) (s : State) : Out :=
  .next (if key.toNat = 0x50525354 then s.requestPart p.val else s.fnErr p.val 2 0x0A0 0 0)

/-- FUNCTION_LEVEL_RESET: a partition reset requested at the FLR (R388). -/
def execFunctionLevelReset (p : Part) (s : State) : Out := .next (s.requestPart p.val)

/-- Final completions that the partition's long commands owe are never written (R394 step 1). -/
def State.forgetCmds (s : State) (p : Part) : State :=
  let mine (x : Option (Part × Nat)) : Option (Part × Nat) := x.filter (fun y => y.1 != p)
  { s with
    host.xfers := s.host.xfers.filter (fun x => x.part != p)
    host.fn := s.host.fn.map (fun x => (x.1, { x.2 with resetBy := x.2.resetBy.filter (fun y => y.1 != p) }))
    pf.site := s.pf.site.map (fun x => (x.1, { x.2 with seqRun := x.2.seqRun.filter (fun r => r.part != p) }))
    acq.padc := s.acq.padc.map (fun x => (x.1, { x.2 with calCmd := mine x.2.calCmd }))
    ngl.port := s.ngl.port.map (fun x => (x.1, { x.2 with retrainCmd := mine x.2.retrainCmd }))
    ngl.slane := s.ngl.slane.map (fun x => (x.1, { x.2 with scan := x.2.scan.filter (fun y => y.1 != p) }))
    sch.link := s.sch.link.map (fun x => (x.1, { x.2 with own := x.2.own.filter (fun o => o.part != p) }))
    fw := { s.fw with handCmd := mine s.fw.handCmd, ucodeCmd := mine s.fw.ucodeCmd }
    cal.run := { s.cal.run with
      cmds := s.cal.run.cmds.filter (fun c => c.1 != p), runOwn := mine s.cal.run.runOwn
      queue := s.cal.run.queue.map (fun x => (x.1, mine x.2)) }
    cal.store := { s.cal.store with cmds := s.cal.store.cmds.filter (fun x => x.1 != p) }
    cal.unfence := s.cal.unfence.filter (fun x => x.2.1 != p) }

/-- Step 1: every task and burst of the partition ends ABORTED, with nothing left to be written. -/
def State.dropBursts (s : State) (p : Part) : State :=
  let s := ((s.sch.tasks.filter (fun x => x.2.part == p)).map (·.1)).foldl State.freeTask s
  let live := s.ve.bursts.filter (fun x => x.2.part == p)
  let done := s.ve.drain.filter (fun x => x.2.part == p)
  let s := live.foldl (fun s x => s.delBurst x.1) s
  let s : State := { s with ve.drain := s.ve.drain.filter (fun x => x.2.part != p) }
  ((live ++ done).foldl (fun s x => s.reportTask x.2 (notRun x.2.raster abortedRes) abortedRes.code) s).applyPend

/-- Step 2: lanes take SAFE_MODE, DPS channels discharge; a lane on the PMU opens. -/
def State.safePart (s : State) (p : Nat) : State :=
  let s := (bitList (s.part p).channels).foldl State.safeChan s
  let s : State := { s with pf.lane := s.pf.lane.map (fun x =>
    if x.2.mode = .pmu ∧ s.ownsLane p x.1 = true then (x.1, x.2.open_) else x) }
  (bitList (s.part p).dps).foldl State.dischargeDps s

/-- A parameter that a reset of the partition returns to its reset value. -/
def State.resetsWith (s : State) (p id : Nat) : Bool :=
  match idRow id with
  | some r => !r.sysOnly && r.own != .part && r.own != .src &&
      (if isPmuParam id then s.ownsPmu p (pidEl id) else (s.ownsElem p r.own (pidEl id)).getD false)
  | none => false

/-- Change the listed elements that satisfy a test. -/
def mapIf {α : Type} (t : Tbl α) (own : Nat → Bool) (f : α → α) : Tbl α :=
  t.map (fun x => if own x.1 then (x.1, f x.2) else x)

/-- Steps 3 and 4: images, streams, tokens, sites, parameters, results, timing sets and rate tables. -/
def State.clearPart (s : State) (p : Nat) : State :=
  let r := s.part p
  let pmu := s.ownsPmu p
  { s with
    ve.images := s.ve.images.filter (fun x => x.1 / 64 != p)
    ve.eng := s.ve.eng.map (fun x => (x.1, { x.2 with ls := x.2.ls.filter (fun l => l.part != p) }))
    sch.tokens := s.sch.tokens.filter (fun t => !r.sites.getLsbD t.scope.val)
    sch.tokFifo := s.sch.tokFifo.filter (fun t => !r.sites.getLsbD t.scope.val)
    host.params := s.host.params.filter (fun x => !s.resetsWith p x.1)
    host.pendVals := s.host.pendVals.filter (fun x => !s.resetsWith p x.id)
    pf.site := mapIf s.pf.site (fun k => r.sites.getLsbD k) (fun t =>
      { underrun := t.underrun, stretch := t.stretch, shed := t.shed })
    pf.grp := s.pf.grp.map (fun x =>
      let keep (t : Nat × TsRec) : Bool := !r.timingSets.getLsbD (64 * x.1 + t.1)
      let gone := match x.2.rateOwner with
        | some (.inl q) => decide (q = p)
        | some (.inr n) => r.raster.getLsbD n
        | none => false
      let g : GrpSt := { x.2 with
        bank0 := x.2.bank0.filter keep, bank1 := x.2.bank1.filter keep
        rate := if gone then none else x.2.rate, rateOwner := if gone then none else x.2.rateOwner }
      (x.1, if pmu x.1 then { g with pmuConn := none, pmuClamp := false, pmuSettled := false } else g))
    acq.chFail := s.acq.chFail.filter (fun x => !r.channels.getLsbD x.1)
    acq.cu := mapIf s.acq.cu (fun u => r.units.getLsbD u) (fun c => { mode := if c.mode = 3 then 3 else 0 })
    acq.trg := s.acq.trg.filter (fun x => !r.capTriggers.getLsbD x.1)
    acq.hs := s.acq.hs.filter (fun x => !r.streams.getLsbD x.1)
    acq.ms := mapIf s.acq.ms (fun m => r.tmuSets.getLsbD m) (fun m => { seq := m.seq, fenced := m.fenced })
    acq.padc := mapIf s.acq.padc (fun c => decide (c < 16) && pmu c) (fun c =>
      { c with running := none, pending := none, singles := 0, result := [] })
    rse := mapIf s.rse (fun n => r.raster.getLsbD n) (fun e => { fenced := e.fenced, fences := e.fences }) }

/-- Step 6: the register file; the first-error record and the held event sources stay (R380, 16 R440). -/
def State.clearFn (s : State) (p : Part) : State :=
  { s.updFn p.val (fun f => { ferr := f.ferr, reset := 2, resetAt := f.resetAt, resetBy := f.resetBy
                              evtHeld := f.evtHeld, msixSent := f.msixSent }) with
    evt.buffer := s.evt.buffer.filter (fun x => x.1 != p) }

/-- PART_RESET_ACK: the firmware acknowledges and takes the partition to its reset state, its memory apart (R394). -/
def execPartResetAck (p : Part) (s : State) : Out :=
  .next (
    if (s.fnAt p.val).reset = 1 ∧ s.fw.hand = 0 ∧ s.fw.state = 1 then
      ((((s.dropBursts p).forgetCmds p).safePart p.val).clearPart p.val).clearFn p
    else s)

/-- PART_RESET_COMPLETE: the DPS channels are off and the HBM pages zeroed; RESET_STATE reads 3 (R394). -/
def execPartResetComplete (p : Part) (s : State) : Out :=
  .next (
    let f := s.fnAt p.val
    if f.reset = 2 ∧ (bitList (s.part p.val).dps).all (fun d => !(s.dpsAt d).on) then
      let s := s.rewrite (fun b => 64 * b / 2 ^ 36 == p.val)
      let s : State := { s with mem.hbm := Memory.clear s.mem.hbm (fun k => k / 2 ^ 36 == p.val) }
      let s := s.updFn p.val (fun f => { f with reset := 3, resetBy := [] })
      let s := f.resetBy.foldl (fun s x => s.complete x.1.val x.2 0x0006 .ok []) s
      s.event (0x080 + p.val) [1] [.part p.val]
    else s)

/-- RESET_ACK_TIMEOUT: 50 ms without acknowledgement escalate to a module reset, or leave the partition RESETTING
(R395). -/
def execResetAckTimeout (p : Part) (s : State) : Out :=
  .next (
    let f := s.fnAt p.val
    if f.reset = 1 ∧ s.fw.hand = 0 then
      let s := s.moveTo (f.resetAt + 50000000)
      if s.parN 0 0 0x001 = 1 then ({ s with fw := { s.fw with escPart := some p } } : State).moduleReset 3
      else
        let s := s.updFn p.val (fun f => { f with reset := 4, resetBy := [] })
        let s := f.resetBy.foldl (fun s x => s.complete x.1.val x.2 0x0006 .timeout []) s
        s.event (0x080 + p.val) [3] [.part p.val]
    else s)

/-! ## Module reset (R380, R396) -/

/-- MOD_RESET: another value records kind 2, a partition without the right kind 6; ignored while EJECT_N is asserted
(15 R418). -/
def execModReset (p : Part) (key : Word) (s : State) : Out :=
  .next (
    if key.toNat ≠ 0x4D525354 then s.fnErr p.val 2 0x0A4 0 0
    else if !s.rightModReset p.val then s.fnErr p.val 6 0 0x0A4 0
    else if s.pwr.sup.eject then s
    else s.requestReset 2)

end Sys2Proof.Machine
end

