-- ==== Sys2Proof/Machine/SysCmds.lean ====
section
/-!
DEFINITION. The commands of block SYS (14 R390–R396, 16 R453).
-/

namespace Sys2Proof.Machine

/-- Version of the running firmware. -/
def FwSt.version (f : FwSt) : Nat := if f.bank then f.verB else f.verA

/-- sys.nop: RESULT0 FW_VERSION, RESULT1 the partition (R390). -/
def execSysNop (p : Part) (tag : Nat) (s : State) : Out :=
  .next (s.command p tag 0x0001 false true [] (fun s =>
    s.complete p.val tag 0x0001 .ok [s.fw.version, p.val]))

/-- COUNT of a list, or number of inline operands. -/
def countCheck (list : Bool) (n : Nat) : List (Bool × Status × List Nat) :=
  [(list && (decide (n < 1) || decide (4096 < n)), .outOfRange, []),
   (!list && (decide (n < 1) || decide (6 < n)), .badParam, [])]

/-- A parameter command is refused. One that a host may not reach across the worlds is an access of R377: kind 6 with the
opcode, and WORLD_VIOLATION (14 R404); the world tag's check failed in the parameter's block (16 R442). `ids` are the
parameters of the command, `ws` the index of the one refused. -/
def State.refuseParam (s : State) (p tag : Nat) (op : BitVec 16) (st : Status) (ws ids : List Nat) (write : Bool) : State :=
  let id := ids.getD (ws.headD 0) 0
  let s := if st = .deniedWorld then
      ((s.fnErr p 6 0 op.toNat 0).tagCheck (pidBlk id) 0 p (b2n write) (pidEl id)).event 0x092 [p, op.toNat] [.part p]
    else s
  s.refuseCmd p tag op st ws

/-- First ID that a read refuses: status and index (R392). -/
def State.idsBad (s : State) (p : Nat) (ids : List Nat) : Option (Status × Nat) :=
  ids.zipIdx.findSome? (fun x => (s.readCheck p x.1).map (fun st => (st, x.2)))

/-- sys.param_get: inline IDs are read in one instant; a list is read at its final completion (R392). -/
def execSysParamGet (p : Part) (tag : Nat) (ids : List Nat) (list staged : Bool) (s : State) : Out :=
  .next (s.command p tag 0x0002 false true (countCheck list ids.length) (fun s =>
    if list then
      (s.updFn p.val (fun f => { f with listCmd := f.listCmd ++
        [{ tag, pairs := ids.map (fun i => (i, 0)), set := false, commit := false, staged }] })).complete
        p.val tag 0x0002 .accepted []
    else match s.idsBad p.val ids with
      | some (st, i) => s.refuseParam p.val tag 0x0002 st [i] ids false
      | none =>
        let (vs, s) := s.readAll p.val staged ids
        s.complete p.val tag 0x0002 .ok (vs.map word32)))

/-- sys.param_set: checked and staged, with a commit when asked; a list at its final completion (R391). -/
def execSysParamSet (p : Part) (tag : Nat) (pairs : List (Nat × Int)) (commit list : Bool) (s : State) : Out :=
  .next (s.command p tag 0x0003 false true (countCheck list pairs.length) (fun s =>
    if list then
      (s.updFn p.val (fun f => { f with listCmd := f.listCmd ++ [{ tag, pairs, set := true, commit, staged := false }] })).complete
        p.val tag 0x0003 .accepted []
    else
      let (st, ws, s) := s.setPairs p pairs commit
      if st = .ok then s.complete p.val tag 0x0003 .ok ws else s.refuseParam p.val tag 0x0003 st ws (pairs.map (·.1)) true))

/-- PARAM_LIST_DONE: a LIST command's list is moved; what it does happens at its final completion (R391, R392). -/
def execParamListDone (p : Part) (tag : Nat) (s : State) : Out :=
  .next (match (s.fnAt p.val).listCmd.find? (fun c => c.tag == tag) with
    | none => s
    | some c =>
      let s := s.updFn p.val (fun f => { f with listCmd := f.listCmd.filter (fun d => d.tag != tag) })
      if c.set then
        let (st, ws, s) := s.setPairs p c.pairs c.commit
        if st = .ok then s.complete p.val tag 0x0003 .ok ws else s.refuseParam p.val tag 0x0003 st ws (c.pairs.map (·.1)) true
      else
        let ids := c.pairs.map (·.1)
        match s.idsBad p.val ids with
        | some (st, i) => s.refuseParam p.val tag 0x0002 st [i] ids false
        | none =>
          let (vs, s) := s.readAll p.val c.staged ids
          s.complete p.val tag 0x0002 .ok [] vs)

/-- sys.param_commit (R391). -/
def execSysParamCommit (p : Part) (tag : Nat) (s : State) : Out :=
  .next (s.command p tag 0x0004 false true [] (fun s =>
    let (st, ws, s) := s.commit p
    if st = .ok then s.complete p.val tag 0x0004 .ok ws else s.refuseCmd p.val tag 0x0004 st ws))

/-- sys.param_discard empties the staged set (R391). -/
def execSysParamDiscard (p : Part) (tag : Nat) (s : State) : Out :=
  .next (s.command p tag 0x0005 false true [] (fun s =>
    (s.updFn p.val (fun f => { f with staged := [], stagedTs := [], stagedRate := [] })).complete p.val tag 0x0005 .ok []))

/-- sys.reset_partition: the own one without a completion, another one by the system partition (R394). -/
def execSysResetPartition (p : Part) (tag : Nat) (target : Part) (s : State) : Out :=
  .next (s.command p tag 0x0006 false (p == target || s.isSystem p.val) [] (fun s =>
    let s := s.requestPart target.val
    if p = target then s
    else (s.updFn target.val (fun f => { f with resetBy := f.resetBy ++ [(p, tag)] })).complete p.val tag 0x0006 .accepted []))

/-- sys.reset_module: BUSY while EJECT_N is asserted (R396, 15 R418). -/
def execSysResetModule (p : Part) (tag : Nat) (s : State) : Out :=
  .next (s.command p tag 0x0007 false (s.rightModReset p.val) [(s.pwr.sup.eject, .busy, [])] (fun s => s.requestReset 2))

/-- sys.service_unlock: Rudiment is unlocked for 1 to 86,400 s, 0 locks it at once (16 R453). -/
def execSysServiceUnlock (p : Part) (tag : Nat) (seconds : Nat) (s : State) : Out :=
  .next (s.command p tag 0x0008 false (s.rightService p.val) [(decide (86400 < seconds), .outOfRange, [])] (fun s =>
    let change := decide (0 < seconds) || s.fw.svcUntil.isSome
    let s : State := { s with fw := { s.fw with
      svcUntil := if seconds = 0 then none else some (s.now + seconds * 1000000000), svcBy := p } }
    let s := if change then s.svcEvent p.val seconds else s
    s.complete p.val tag 0x0008 .ok []))

end Sys2Proof.Machine
end

