-- ==== Sys2Proof/Machine/VeCmds.lean ====
section
/-!
DEFINITION. The commands of block VE: pattern images and the microcode image (02 R46, R80, R81; 03 R95–R98, R102).
-/

namespace Sys2Proof.Machine

/-! ## The loader -/

/-- P_MIN at load: the shortest PERIOD among the sets that the image can select, defined and owned (02 R56). -/
def State.loadPmin (s : State) (p : Nat) (i : Image) : Option Nat :=
  let sets := (List.range i.segments.length).flatMap i.segSets ++ tsetSets i.all
  minOf (sets.filterMap (fun x => s.periodOwned p x.1 x.2))

/-- Faults of instructions, on paths and by themselves: the first by address (02 R46, R68). -/
def State.instrFault (s : State) (p : Nat) (i : Image) : Option Viol :=
  let pmin := s.loadPmin p i
  let (nodes, bad) := i.walkAll i.ctx
  let entries := (List.range i.segments.length).filter i.isEntry
  let slow := match pmin with
    | some q => ((i.throughput s.fw.ucode.costs q entries).map (fun ip => ({ ip, st := .outOfRange } : Viol))).toList
    | none => []
  firstViol (i.allOwnFaults pmin ++ bad ++ nestFaults nodes ++ slow)

/-- What a load is refused with (R46, R95, R97; 14 R378). -/
def State.loadBad (s : State) (p : Nat) (x : ImgSt) : Option (Status × List Nat) :=
  let i := x.img
  if !i.signed then some (.deniedWorld, [])
  else match i.layoutBad with
    | some o => some (.badParam, [0, 1, o % 2 ^ 32, hi32 o])
    | none => match s.instrFault p i with
      | some v => some (v.st, [v.ip, 0])
      | none => match i.overflow i.mustReside 0 with
        | some n => some (.outOfRange, [n, 2])
        | none =>
          if x.mcs.isEmpty ∨ s.pagesOf p < s.usedPages p then some (.outOfRange, [0xFFFFFFFF, 2]) else none

/-- The lowest handle of a partition that names no image. -/
def State.freeHandle (s : State) (p : Nat) : Option Nat := (List.range 64).find? (fun h => (s.imageAt (imgKey p h)).isNone)

/-- ve.image_load: ACCEPTED with the handle; the image is LOADING (R95, R96). -/
def execVeImageLoad (p : Part) (tag : Nat) (image : Image) (s : State) : Out :=
  .next (s.command p tag 0x0101 false true [((s.freeHandle p.val).isNone, .outOfRange, [])] (fun s =>
    match s.freeHandle p.val with
    | some h =>
      ((s.putImage (imgKey p.val h)
        { mode := .loading, img := image, tag, mcs := s.freeMcs.take (ceilDiv image.bytes 256) }).leaveLow).complete
        p.val tag 0x0101 .accepted [h]
    | none => s))

/-- IMAGE_LOAD_DONE: the copy and the checks are done; READY, or nothing of the image stays (R95–R98). -/
def execImageLoadDone (p : Part) (h : Handle) (s : State) : Out :=
  .next (
    let k := imgKey p.val h.val
    match s.imageAt k with
    | none => s
    | some x =>
      if x.mode ≠ .loading then s
      else match s.loadBad p.val x with
        | some (st, ws) => (s.delImage k).refuseCmd p.val x.tag 0x0101 st ws
        | none =>
          let res := x.img.residentSet
          (s.putImage k { x with mode := .ready, resident := res, size := x.img.setBytes res }).complete
            p.val x.tag 0x0101 .ok [])

/-- The image of a handle, if the partition has one. -/
def State.ownImage (s : State) (p h : Nat) : Option ImgSt := if h < 64 then s.imageAt (imgKey p h) else none

/-- A task that names the image is queued, dispatched or running, or its result is open. -/
def State.imageUsed (s : State) (p h : Nat) : Bool :=
  s.sch.tasks.any (fun x => x.2.part.val == p && x.2.desc.kind == 0 && x.2.desc.source == h) ||
    (s.ve.bursts ++ s.ve.drain).any (fun x => x.2.part.val == p && !x.2.raster && x.2.handle == h)

/-- ve.image_unload: HBM and loop-store sets are freed (R96). -/
def execVeImageUnload (p : Part) (tag : Nat) (handle : Nat) (s : State) : Out :=
  .next (s.command p tag 0x0102 false true
    [((s.ownImage p.val handle).isNone, .outOfRange, []),
     ((s.ownImage p.val handle).any (fun x => x.mode == .loading) || s.imageUsed p.val handle, .busy, [])] (fun s =>
      let s : State := { s.delImage (imgKey p.val handle) with
        ve.eng := s.ve.eng.map (fun x => (x.1, { x.2 with ls := x.2.ls.filter (fun l => !(l.part == p.val && l.handle == handle)) })) }
      s.complete p.val tag 0x0102 .ok []))

/-- State code of ve.image_info. -/
def ImgMode.code : ImgMode → Nat
  | .loading => 0 | .ready => 1 | .damaged => 2

/-- Period of a set for `ve.image_info` (03 R105): a group that a site of the partition runs resampled is taken at the
shortest cycle programmed for it. -/
def State.infoPeriod (s : State) (p g ts : Nat) : Option Nat :=
  let ks := (List.range 128).filter (fun k => s.siteOwner k == some p && s.rsmpGroup k g &&
    (s.siteChans k).any (fun c => c / 32 == g))
  if ks.isEmpty then s.periodOwned p g ts else minOf (ks.filterMap (fun k => s.dispPeriod k p g ts))

/-- ve.image_info: state, resident bytes, demand D of an entry segment (R96). -/
def execVeImageInfo (p : Part) (tag : Nat) (handle entry : Nat) (s : State) : Out :=
  .next (s.command p tag 0x0103 false true
    [((s.ownImage p.val handle).isNone, .outOfRange, []),
     ((s.ownImage p.val handle).any (fun x => decide (x.img.segments.length ≤ entry)), .outOfRange, [])] (fun s =>
      match s.ownImage p.val handle with
      | some x =>
        let words := if x.mode = .loading then [0, 0, 0]
          else [x.mode.code, x.size, (x.img.demand x.resident (s.infoPeriod p.val) entry).getD 0xFFFFFFFF]
        s.complete p.val tag 0x0103 .ok words
      | none => s))

/-! ## Microcode (02 R80, R81) -/

/-- A load of the engines that has nothing left to do completes OK. -/
def State.ucodeDone (s : State) : State :=
  match s.fw.ucodeCmd, s.fw.ucodeTodo with
  | some (p, tag), [] => ({ s with fw := { s.fw with ucodeCmd := none } } : State).complete p.val tag 0x0104 .ok []
  | _, _ => s

/-- ve.ucode_load: an image that verifies becomes the running one and goes to the engines one at a time; one that
does not is refused (R80; 14 R404). -/
def execVeUcodeLoad (p : Part) (tag : Nat) (verified : Bool) (image : UImage) (s : State) : Out :=
  .next (s.command p tag 0x0104 false (s.rightConfig p.val) [(s.fw.ucodeCmd.isSome, .busy, [])] (fun s =>
    if !verified then (s.refuseCmd p.val tag 0x0104 .deniedWorld []).event 0x091
    else
      let todo := (List.range 32).filter (fun e => (s.engAt e).mode != .fenced)
      let s : State := { s with fw := { s.fw with ucode := image, ucodeCmd := some (p, tag), ucodeTodo := todo } }
      (s.complete p.val tag 0x0104 .accepted []).ucodeDone))

/-- UCODE_ENGINE_LOAD: an engine free of bursts is written and read back; a mismatch is retried once, a second one
fences the engine (R80, R81). A fenced engine is passed over. -/
def execUcodeEngineLoad (e : Eng) (readBackOk : Bool) (s : State) : Out :=
  .next (
    let x := s.engAt e.val
    if !s.fw.ucodeTodo.contains e.val ∨ (s.burstAt e.val).isSome then s
    else
      let out : State := { s with fw := { s.fw with ucodeTodo := s.fw.ucodeTodo.filter (· != e.val) } }
      if x.mode = .fenced then out.ucodeDone
      else if readBackOk then
        (out.updEng e.val (fun x => { x with mode := .idle, ucode := s.fw.ucode, retried := false })).ucodeDone
      else if x.retried then
        ((out.updEng e.val (fun x => { x with mode := .idle, retried := false })).event (0x100 + 8 * e.val)).ucodeDone
      else s.updEng e.val (fun x => { x with mode := .loading, retried := true }))

end Sys2Proof.Machine
end

