-- ==== Sys2Proof/Machine/TmgCmds.lean ====
section
/-!
DEFINITION. The commands of block TMG: timing sets, rate tables, the spare lane (04 R126–R129, R133, R136, R142,
R143).
-/

namespace Sys2Proof.Machine

/-- First record that fails its checks: status and index (R127). -/
def State.recsFault (s : State) (p : Nat) (recs : List TsRec) : Option (Status × Nat) :=
  recs.zipIdx.findSome? (fun x => ((s.tsBad p x.1).find? (·.1)).map (fun y => (y.2, x.2)))

/-- A later record for the same set replaces the earlier one. -/
def stageTs (l : List TsRec) (r : TsRec) : List TsRec :=
  l.filter (fun x => !(x.group == r.group && x.ts == r.ts)) ++ [r]

/-- Completion of a command that staged and may commit. -/
def State.stagedDone (s : State) (p : Part) (tag : Nat) (op : BitVec 16) (commit : Bool) : State :=
  if commit then
    let (st, ws, s) := s.commit p
    if st = .ok then s.complete p.val tag op .ok ws else s.refuseCmd p.val tag op st ws
  else s.complete p.val tag op .ok []

/-- tmg.set: every record is checked before any is staged (R127, R129). -/
def execTmgSet (p : Part) (tag : Nat) (recs : List TsRec) (commit : Bool) (s : State) : Out :=
  let denied := recs.any (fun r => decide (r.group < 16) && decide (r.ts < 64) && !s.ownsTs p.val r.group r.ts)
  .next (s.command p tag 0x0201 false (!denied)
    ([(decide (recs.length < 1) || decide (1024 < recs.length), .outOfRange, [])] ++
      (match s.recsFault p.val recs with
       | some (st, i) => [(true, st, [i])]
       | none => [])) (fun s =>
      (s.updFn p.val (fun f => { f with stagedTs := recs.foldl stageTs f.stagedTs })).stagedDone p tag 0x0201 commit))

/-- A channel entry as the 14 words of the record (R126). -/
def entryWords (e : TsEntry) : List Nat :=
  [e.driveFmt + 16 * e.cmpMode, 0] ++
    [e.dAt 0, e.dAt 1, e.dAt 2, e.dAt 3, e.cAt 0, e.cAt 1].flatMap (fun x => [x % 2 ^ 32, x / 2 ^ 32 % 4])

/-- The record of a committed set as a partition sees it, 452 words: positions that carry none of its channels read 0
(R126). -/
def State.tsWords (s : State) (p g ts : Nat) : List Int :=
  let words := match s.tsNow g ts with
    | some r => [g + 2 ^ 16 * ts + 2 ^ 24, r.period, 0, 0] ++ (List.range 32).flatMap (fun k =>
        if s.ownsChan p (32 * g + k) then entryWords (r.entryAt k) else List.replicate 14 0)
    | none => [g + 2 ^ 16 * ts, 0, 0, 0] ++ List.replicate 448 0
  words.map (fun (n : Nat) => (n : Int))

/-- tmg.get (R126, R129). -/
def execTmgGet (p : Part) (tag : Nat) (group : Grp) (ts : Fin 64) (s : State) : Out :=
  .next (s.command p tag 0x0202 false (s.ownsTs p.val group.val ts.val) [] (fun s =>
    s.complete p.val tag 0x0202 .ok [] (s.tsWords p.val group.val ts.val)))

/-- tmg.check: the tests of R133 for a site and a list of sets. -/
def execTmgCheck (p : Part) (tag : Nat) (site : Site) (group : Grp) (sets : BitVec 64) (s : State) : Out :=
  .next (s.command p tag 0x0203 false ((s.part p.val).sites.getLsbD site.val)
    [((s.siteAt site.val).defn.isNone, .badParam, [])] (fun s =>
      let l := bitList sets
      let words := match l.find? (fun t => (s.tsNow group.val t).isNone) with
        | some t => [tsRes group.val t, t + 256 * t]
        | none => match s.edgeBad site.val group.val l with
          | some (lane, a, b) => [resId 2 lane 2, a + 256 * b]
          | none => [0]
      s.complete p.val tag 0x0203 .ok words))

/-- A rate table belongs to the owner of every channel of its group, else to the system partition (14 R393). -/
def State.ownsRate (s : State) (p g : Nat) : Bool :=
  s.ownsGrp p g || (s.isSystem p && (List.range 16).all (fun q => !s.ownsGrp q g))

/-- First entry that breaks a limit of R136, with the multiplex factors of the sites that run the group resampled. -/
def State.rateFault (s : State) (r : RateRec) : Option Nat :=
  let ms := ((List.range 128).filter (fun k => s.rsmpGroup k r.group)).flatMap (fun k => s.muxOf k r.group)
  (r.entries.zipIdx.find? (fun x => x.1.bad || ms.any (fun m =>
    [x.1.bit 0, x.1.bit (x.1.dwell - 1)].any (fun t => decide ((muxFactor m : Int) * t < 10485760))))).map (·.2)

/-- tmg.rate_set (R136; 09 R262). -/
def execTmgRateSet (p : Part) (tag : Nat) (rec : RateRec) (commit : Bool) (s : State) : Out :=
  .next (s.command p tag 0x0204 false (decide (16 ≤ rec.group) || s.ownsRate p.val rec.group)
    ([(rec.rsvd || decide (1 < rec.mode), .badParam, []),
      (decide (16 ≤ rec.group) || decide (rec.entries.length < 1) || decide (64 < rec.entries.length), .outOfRange, []),
      ((s.grpAt rec.group).rateOwner.any (fun o => match o with
        | .inr _ => true
        | .inl _ => false), .conflict, [resId 2 rec.group 4])] ++
      (match s.rateFault rec with
       | some i => [(true, .outOfRange, [i])]
       | none => [])) (fun s =>
      (s.updFn p.val (fun f => { f with
        stagedRate := f.stagedRate.filter (fun r => r.group != rec.group) ++ [rec] })).stagedDone p tag 0x0204 commit))

/-! ## The spare lane -/

/-- L32 of a group has no accepted reference calibration (17 R468), or its group is under calibration (17 R470). -/
def State.l32Checks (s : State) (g : Nat) : List (Bool × Status × List Nat) :=
  [(s.cal.run.running.any (fun x => isGroup g x.1), .busy, []),
   (decide ((s.grpAt g).refState ≠ 1), .conflict, [resId 2 g 3])]

/-- What a channel uses moves from one lane to another: driver, comparator, load, PMU connection (R143). From a lane
that a fence had opened, the committed connection is made anew. -/
def State.moveLane (s : State) (c a b : Nat) : State :=
  let l := s.laneAt a
  let l : LaneSt := if l.mode = .opened ∧ s.parN 3 c 0x00A ≠ 0 ∧ l.changing = false ∧ l.sweep = false then l.break_ else l
  let s := s.updLane b (fun x => { x with
    mode := l.mode, drive := l.drive, load := l.load, idle := l.idle, sweep := l.sweep, changing := l.changing
    limit := false })
  s.updLane a LaneSt.open_

/-- tmg.remap: a channel moves onto L32; its home lane is fenced and disconnected (R142, R143). For the channel that L32
carries already it is OK without effect (notes/assumptions/110.md, DESIGN CHOICE). -/
def execTmgRemap (p : Part) (tag : Nat) (group : Grp) (pos : Fin 32) (s : State) : Out :=
  let g := group.val
  let c := 32 * g + pos.val
  .next (s.command p tag 0x0205 false (s.rightConfig p.val)
    ([((s.chanSite c).any s.siteTasked, .busy, []),
     ((s.grpAt g).l32.any (· != pos.val), .conflict, [resId 2 g 3])] ++ s.l32Checks g) (fun s =>
      let s := if (s.grpAt g).l32.isSome then s
        else
          let s := s.moveLane c (33 * g + pos.val) (33 * g + 32)
          let s := s.updLane (33 * g + pos.val) (fun l => { l with vacated := true })
          (s.updGrp g (fun x => { x with l32 := some pos.val })).event (0x205 + 16 * g)
      s.complete p.val tag 0x0205 .ok []))

/-- tmg.unremap: the channel returns to its home lane (R142). With nothing remapped it is refused as an L32 that does
not carry the channel. -/
def execTmgUnremap (p : Part) (tag : Nat) (group : Grp) (s : State) : Out :=
  let g := group.val
  .next (s.command p tag 0x0206 false (s.rightConfig p.val)
    ([((s.grpAt g).l32.any (fun k => (s.chanSite (32 * g + k)).any s.siteTasked), .busy, []),
      ((s.grpAt g).l32.isNone, .conflict, [resId 2 g 3])] ++ s.l32Checks g) (fun s =>
      let s := match (s.grpAt g).l32 with
        | some k =>
          let s := (s.moveLane (32 * g + k) (33 * g + 32) (33 * g + k)).updLane (33 * g + k) (fun l =>
            if l.fenced then { l.open_ with vacated := false } else { l with vacated := false })
          (s.updGrp g (fun x => { x with l32 := none })).event (0x205 + 16 * g)
        | none => s
      s.complete p.val tag 0x0206 .ok []))

end Sys2Proof.Machine
end

