-- ==== Sys2Proof/Machine/DpsCmds.lean ====
section
/-!
DEFINITION. The commands of block DPS: the sequence record, power-up, power-down (05 R173–R175; 16 R446).
-/

namespace Sys2Proof.Machine

/-- The partition owns the site. -/
def State.ownsSite (s : State) (p k : Nat) : Bool := (s.part p).sites.getLsbD k

/-- Some DPS channel of the site is on. -/
def State.siteOn (s : State) (k : Nat) : Bool := (s.siteDps k).any (fun d => (s.dpsAt d).on)

/-- The first channel of a sequence that is not of the site. -/
def State.strayDps (s : State) (k : Nat) (steps : List SeqStep) : Option Nat :=
  (steps.find? (fun x => !(s.siteDps k).contains x.channel)).map (·.channel)

/-- The first channel of a sequence that the sequence of another site names (R179). -/
def State.otherSeq (s : State) (k : Nat) (steps : List SeqStep) : Option Nat :=
  (steps.find? (fun x => (List.range 128).any (fun j => decide (j ≠ k) &&
    ((s.siteAt j).seq.any (fun q => q.steps.any (fun y => decide (y.channel = x.channel))))))).map (·.channel)

/-- The first contest over a channel of a sequence. -/
def State.seqConflict (s : State) (k : Nat) (steps : List SeqStep) : Option Nat :=
  match s.strayDps k steps with
  | some d => some d
  | none => s.otherSeq k steps

/-- A channel named twice, or a reserved field that is not 0 (R173). -/
def seqMalformed (r : SeqRec) : Bool :=
  r.rsvd || !(decide (r.steps.map (·.channel)).Nodup)

/-- SITE, STEPS, CHANNEL, VOUT and DELAY within their ranges (R164, R173). -/
def seqInRange (r : SeqRec) : Bool :=
  decide (r.site < 128) && decide (1 ≤ r.steps.length) && decide (r.steps.length ≤ 18) &&
    r.steps.all (fun x => decide (x.channel < 18) && decide (x.vout ≤ 64000) && decide (x.delay ≤ 10000000))

/-- dps.seq_set: a refused record changes nothing (R173). A sequence in progress counts as a channel that is on. -/
def execDpsSeqSet (p : Part) (tag : Nat) (rec : SeqRec) (s : State) : Out :=
  .next (s.command p tag 0x0401 false (decide (128 ≤ rec.site) || s.ownsSite p.val rec.site)
    [(seqMalformed rec, .badParam, []),
     (!seqInRange rec, .outOfRange, []),
     ((s.seqConflict rec.site rec.steps).isSome, .conflict, [resId 4 ((s.seqConflict rec.site rec.steps).getD 0) 1]),
     (s.siteOn rec.site || (s.siteAt rec.site).seqRun.isSome, .busy, [])] (fun s =>
      (s.updSite rec.site (fun t => { t with seq := some rec })).complete p.val tag 0x0401 .ok []))

/-- Steps of a site's sequence record. -/
def State.seqSteps (s : State) (k : Nat) : List SeqStep :=
  match (s.siteAt k).seq with
  | some r => r.steps
  | none => []

/-- dps.power_up: ACCEPTED; the first step waits for its admission (R174). In the FATAL state it is refused. The statuses
without a record, with a fenced channel and with a channel on are notes/assumptions/113.md (DESIGN CHOICE). -/
def execDpsPowerUp (p : Part) (tag : Nat) (site : Site) (s : State) : Out :=
  let k := site.val
  .next (s.command p tag 0x0402 false (s.ownsSite p.val k)
    [(s.evt.fatal, .fenced, []),
     ((s.siteAt k).seq.isNone, .badParam, []),
     ((s.seqConflict k (s.seqSteps k)).isSome, .conflict, [resId 4 ((s.seqConflict k (s.seqSteps k)).getD 0) 1]),
     ((s.seqSteps k).any (fun x => decide ((s.dpsAt x.channel).mode = .fenced)), .fenced, []),
     (s.siteOn k || (s.siteAt k).seqRun.isSome, .busy, [])] (fun s =>
      (s.updSite k (fun t => { t with
        seqRun := some { up := true, step := 0, phase := .waitAdmit, part := p, tag, due := s.now } })).complete
        p.val tag 0x0402 .accepted []))

/-- dps.power_down: ACCEPTED; the last step of the record ramps down first (R175). Without a record BAD_PARAM
(notes/assumptions/113.md, DESIGN CHOICE). -/
def execDpsPowerDown (p : Part) (tag : Nat) (site : Site) (s : State) : Out :=
  let k := site.val
  .next (s.command p tag 0x0403 false (s.ownsSite p.val k)
    [((s.siteAt k).seq.isNone, .badParam, []),
     (s.siteBusy k || (s.siteAt k).seqRun.isSome, .busy, [])] (fun s =>
      let last := (s.seqSteps k).length - 1
      let s := (s.complete p.val tag 0x0403 .accepted []).updSite k (fun t => { t with
        seqRun := some { up := false, step := last, phase := .ramp, part := p, tag, due := s.now } })
      s.downStep k last))

end Sys2Proof.Machine
end

