-- ==== Sys2Proof/Machine/CapCmds.lean ====
section
/-!
DEFINITION. The commands of block CAP, and the end of a transfer between HBM and host memory (06 R194, R199, R201,
R205; 11 R307, R312, R317; 14 R389, R390).
-/

namespace Sys2Proof.Machine

/-! ## Transfers -/

/-- 32-bit words of a partition's HBM space from a byte address (00 R4). -/
def State.hbmWords (s : State) (p a n : Nat) : List Int :=
  (List.range n).map (fun i =>
    (((List.range 4).foldl (fun v j => v + (s.readHbm p (a + 4 * i + j)).toNat * 256 ^ j) 0 : Nat) : Int))

/-- Write bytes of a partition's space; pages on fenced channels discard them. -/
def State.writeBytes (s : State) (p a : Nat) (bs : List (BitVec 8)) : State :=
  bs.zipIdx.foldl (fun s x => s.writeHbm p (a + x.2) [x.1]) s

/-- A transfer that moves data: ACCEPTED, and the transfer is in progress (R390). -/
def State.startXfer (s : State) (p : Part) (tag : Nat) (op : BitVec 16) (addr : Nat) (data : List Int)
    (write : Option (Nat × List (BitVec 8))) (reads : List (Nat × Nat)) : State :=
  let s := s.complete p.val tag op .accepted []
  ({ s with host.xfers := s.host.xfers ++ [{ part := p, tag, opcode := op, data, write, addr, reads }] } : State).leaveLow

/-- Put the bytes of a transfer's write. -/
def State.putXfer (s : State) (x : Xfer) : State :=
  match x.write with
  | some (a, bs) => s.writeBytes x.part.val a bs
  | none => s

/-- Writes of the partition up to a tag, in command order (R307). -/
def upToTag (tag : Nat) : List Xfer → List Xfer
  | [] => []
  | x :: r => if x.tag = tag then [x] else x :: upToTag tag r

/-- Bytes of a mem.write or mem.read; no other transfer is refused for a fenced page. -/
def Xfer.memLen (x : Xfer) : Nat :=
  match x.write with
  | some (_, bs) => bs.length
  | none => if x.opcode = 0x0A02 then 4 * x.data.length else 0

/-- First page address of a range that lies on a fenced channel (R307, R316). -/
def State.fencedPage (s : State) (p a len : Nat) : Option Nat :=
  if len = 0 then none
  else
    let lo := a / 4096
    ((List.range ((a + len - 1) / 4096 + 1 - lo)).find? (fun i => s.poisoned p (lo + i))).map (fun i => (lo + i) * 4096)

/-- Final completion of a transfer whose data has moved; one that met a fenced page is FENCED, one that read an
uncorrectable word INTERNAL (R307, R312). -/
def State.endXfer (s : State) (x : Xfer) : State :=
  match s.fencedPage x.part.val x.addr x.memLen with
  | some a => s.complete x.part.val x.tag x.opcode .fenced [a % 2 ^ 32]
  | none => match x.reads.findSome? (fun r => s.badIn x.part.val r.1 r.2) with
    | some a => s.complete x.part.val x.tag x.opcode .internal [a % 2 ^ 32]
    | none => s.complete x.part.val x.tag x.opcode .ok [] x.data

/-- HOST_TRANSFER_DONE: the transfer finishes. Writes of a partition take effect in command order; a read of an
uncorrectable word, or a DMA error, ends it INTERNAL (R307, R312, R389). -/
def execHostTransferDone (p : Part) (tag : Nat) (how : XferEnd) (s : State) : Out :=
  .next (
    let mine := s.host.xfers.filter (fun x => x.part == p)
    match mine.find? (fun x => x.tag == tag) with
    | none => s
    | some x =>
      let failed := match how with
        | .dmaError _ => true
        | _ => false
      let due := (upToTag tag mine).filter (fun y => y.tag != tag || !failed)
      let s := due.foldl State.putXfer s
      let done (y : Xfer) : Bool := y.part == p && due.any (fun z => z.tag == y.tag)
      let rest := s.host.xfers.filter (fun y => !(y.part == p && y.tag == tag))
      let s : State := { s with host.xfers := rest.map (fun y => if done y then { y with write := none } else y) }
      match how with
      | .good => s.endXfer x
      | .uncorrectable a => if x.write.isSome then s.endXfer x
        else (s.spoil (hbmKey p.val a / 64)).complete p.val tag x.opcode .internal [a % 2 ^ 32]
      | .dmaError a => s.dmaFail p.val tag x.opcode a)

/-! ## Fail log and raw capture -/

/-- cap.log_read: a range of slots of the site's log region (R194). -/
def execCapLogRead (p : Part) (tag : Nat) (site : Site) (first count : Nat) (s : State) : Out :=
  let k := site.val
  .next (s.command p tag 0x0501 false (s.ownsSite p.val k)
    [(s.siteBusy k, .busy, []),
     (decide (count < 1) || decide (s.parN 5 k 0x012 * 128 < first + count), .outOfRange, [])] (fun s =>
      let a := s.parN 5 k 0x011 * 4096 + 32 * first
      s.startXfer p tag 0x0501 a (s.hbmWords p.val a (8 * count)) none [(a, 32 * count)]))

/-- cap.log_release: the site's next task may be dispatched (R194). -/
def execCapLogRelease (p : Part) (tag : Nat) (site : Site) (s : State) : Out :=
  .next (s.command p tag 0x0502 false (s.ownsSite p.val site.val) [] (fun s =>
    (s.updSite site.val (fun t => { t with log := { t.log with held := false } })).complete p.val tag 0x0502 .ok []))

/-- SELECT of the content of a unit (R199 FLAGS [6]). -/
def CuSt.select (c : CuSt) : Nat := b2n (c.flags.getLsbD 6)

/-- TRIG_OFFSET, t − f, in samples. -/
def CuSt.offset (c : CuSt) (t : Nat) : Int :=
  let at_ : Int := if c.select = 0 then (t : Int) - c.first else (c.taken : Int) - c.post
  at_ - ((c.taken : Int) - c.samples.length)

/-- The 64-byte header of a unit's content (R199). With TRIG_SEEN 0 the words of TRIG_OFFSET and TRIG_TIME hold a value
that the rule does not state. -/
def CuSt.header (c : CuSt) (u open_ : Nat) : List Nat :=
  let firstPos := (c.samples.head?.map (·.1)).getD c.first
  let (pos, off, time) := match c.trig with
    | some t => (t, c.offset t, c.trigTime)
    | none => (0, (open_ : Int), open_)
  [u + c.site * 2 ^ 16, c.flags.toNat] ++ words64 (c.samples.length : Nat) ++ words64 (firstPos : Nat) ++
    words64 (pos : Nat) ++ words64 off ++ words64 (time : Nat) ++ [c.extra, c.ignored] ++ words64 (c.startTime : Nat)

/-- Words of a kept sample (R195–R197). -/
def CuSt.sampleLen (c : CuSt) : Nat := 1 + c.select

/-- Address of a kept sample. -/
def CuSt.sampleAt (c : CuSt) (n : Nat) : Nat := c.base + n % max 1 c.size * 4 * c.sampleLen

/-- Its words. -/
def State.sampleWords (s : State) (p : Nat) (c : CuSt) (n : Nat) : List Int :=
  s.hbmWords p (c.sampleAt n) c.sampleLen

/-- cap.capture_read: header and a range of kept samples (R199). -/
def execCapCaptureRead (p : Part) (tag : Nat) (u : Cu) (first count : Nat) (s : State) : Out :=
  let c := s.cuAt u.val
  let k := s.parN 5 u.val 0x040
  .next (s.command p tag 0x0503 false ((s.part p.val).units.getLsbD u.val)
    [(decide (k < 128) && s.siteBusy k, .busy, []),
     (decide (c.samples.length < first + count), .outOfRange, [])] (fun s =>
      let open_ := s.freeVal
      let s := if c.trig.isNone then s.drawFree else s
      let head := (c.header u.val open_).map (fun (n : Nat) => (n : Int))
      let kept := (c.samples.drop first).take count
      s.startXfer p tag 0x0503 c.base (head ++ kept.flatMap (fun x => s.sampleWords p.val c x.2)) none
        (kept.map (fun x => (c.sampleAt x.2, 4 * c.sampleLen)))))

/-! ## Triggers and streams -/

/-- cap.trigger: an occurrence of a SOFTWARE trigger at the site's islands (R201); no occurrence of another source. -/
def execCapTrigger (p : Part) (tag : Nat) (t : Trg) (s : State) : Out :=
  .next (s.command p tag 0x0504 false ((s.part p.val).capTriggers.getLsbD t.val) [] (fun s =>
    let k := s.parN 5 t.val 0x060
    let s := if k < 128 then
        s.occurAt k (4000 * s.now) ((s.trgsOf k 1 (fun _ => true)).filter (· == t.val)) none false
      else s
    s.complete p.val tag 0x0504 .ok []))

/-- Alignment and size limits of a descriptor (R205). -/
def streamInRange (d : StreamDesc) : Bool :=
  decide (d.stream < 64) && decide (d.msix < 32) && decide (d.base % 4096 = 0) &&
    (List.range 15).any (fun i => decide (d.size = 2 ^ (16 + i))) && decide (d.prodAddr % 8 = 0) &&
    decide (d.consAddr % 8 = 0) && decide (32 ≤ d.watermark) && decide (d.watermark ≤ d.size)

/-- cap.stream_open: the stream takes records; the first is an EPOCH (R205, R209). -/
def execCapStreamOpen (p : Part) (tag : Nat) (desc : StreamDesc) (s : State) : Out :=
  let h := desc.stream
  .next (s.command p tag 0x0505 false (decide (64 ≤ h) || (s.part p.val).streams.getLsbD h)
    [(desc.rsvd, .badParam, []),
     (!streamInRange desc, .outOfRange, []),
     (decide ((s.hsAt h).mode ≠ .closed), .conflict, [resId 5 h 3])] (fun s =>
      (s.updHs h (fun _ => ({ mode := .open_, desc := some desc } : HsSt).append s.now s.epochNow)).complete p.val tag
        0x0505 .ok []))

/-- A site with a local stream bound to the host stream has a burst dispatched or running. -/
def State.streamBusy (s : State) (h : Nat) : Bool :=
  (List.range 128).any (fun k => s.siteBusy k && (List.range 8).any (fun n => s.bound k n == some h))

/-- cap.stream_close: what the stream holds and the final producer count are written (R205). -/
def execCapStreamClose (p : Part) (tag : Nat) (h : Hs) (s : State) : Out :=
  .next (s.command p tag 0x0506 false ((s.part p.val).streams.getLsbD h.val) [(s.streamBusy h.val, .busy, [])] (fun s =>
    ((s.streamWrite h.val (s.now + capDelay)).updHs h.val (fun x =>
      { x with mode := .closed, prodOut := x.prod })).complete p.val tag 0x0506 .ok []))

end Sys2Proof.Machine
end

