-- ==== Sys2Proof/Machine/TmuCmds.lean ====
section
/-!
DEFINITION. The commands of blocks TMU and PADC (07 R221–R224, R230, R239, R240; 08 R246, R252, R255).
-/

namespace Sys2Proof.Machine

/-- Channels that a set measures: START, and STOP in INTERVAL. -/
def State.msChans (s : State) (m : Nat) : List Nat :=
  let ch (num : Nat) : List Nat :=
    let c := bits (s.msPar m num) 9 0
    if c < 512 then [c] else []
  ch 0x003 ++ (if s.msPar m 0x002 = 1 then ch 0x004 else [])

/-- A channel of the set whose CONN is not 1 (R221). -/
def State.msOff (s : State) (m : Nat) : Option Nat := (s.msChans m).find? (fun c => s.parN 3 c 0x00A != 1)

/-- The partition owns the set. -/
def State.ownsSet (s : State) (p m : Nat) : Bool := (s.part p).tmuSets.getLsbD m

/-- tmu.arm: REF in ns; 0, or a time that has passed, is the arrival (R222, R223). -/
def execTmuArm (p : Part) (tag : Nat) (m : MSet) (ref : Nat) (s : State) : Out :=
  .next (s.command p tag 0x0701 false (s.ownsSet p.val m.val)
    [(decide (s.msPar m.val 0x00B ≠ 1), .conflict, [resId 7 m.val 2]),
     ((s.msAt m.val).fenced, .fenced, []),
     ((s.msOff m.val).isSome, .conflict, [resId 3 (s.laneOf ((s.msOff m.val).getD 0)) 1])] (fun s =>
      let late := decide (0 < ref) && decide (ref < s.now)
      (s.armSet m.val (nsPs (if ref = 0 || late then s.now else ref)) late).complete p.val tag 0x0701 .ok []))

/-- tmu.disarm: an armed set publishes (R224). -/
def execTmuDisarm (p : Part) (tag : Nat) (m : MSet) (s : State) : Out :=
  .next (s.command p tag 0x0702 false (s.ownsSet p.val m.val) [] (fun s =>
    (s.disarmSet m.val false false).complete p.val tag 0x0702 .ok []))

/-- The 64-byte record of the latest result (R207, R230). -/
def State.msRecord (s : State) (m : Nat) : List Int :=
  let x := s.msAt m
  let head := [tTMU + 2 * 2 ^ 8 + x.src * 2 ^ 16 + 2 ^ 24, shortTime x.pubAt]
  (head ++ (if x.result.isEmpty then List.replicate 14 0 else x.result)).map (fun (n : Nat) => (n : Int))

/-- tmu.result (R230). -/
def execTmuResult (p : Part) (tag : Nat) (m : MSet) (s : State) : Out :=
  .next (s.command p tag 0x0703 false (s.ownsSet p.val m.val) [] (fun s =>
    s.complete p.val tag 0x0703 .ok [] (s.msRecord m.val)))

/-- padc.convert: one conversion in SINGLE, now or once the converter is free (R246). PADC16 takes no request of any
partition (R241). -/
def execPadcConvert (p : Part) (tag : Nat) (c : Conv) (s : State) : Out :=
  .next (s.command p tag 0x0801 false (decide (c.val < 16) && s.ownsPmu p.val c.val)
    [((s.padcAt c.val).fenced, .fenced, []),
     (decide (s.parN 8 c.val 0x010 ≠ 1), .conflict, [resId 8 c.val 1])] (fun s =>
      ((s.updPadc c.val (fun x => { x with singles := x.singles + 1 })).startSingle c.val).complete p.val tag 0x0801 .ok []))

/-- The partition may calibrate the converter: its owner, the system partition for PADC16. -/
def State.ownsConv (s : State) (p c : Nat) : Bool := if c < 16 then s.ownsPmu p c else s.isSystem p

/-- padc.selfcal: ACCEPTED, and the calibration starts after a running conversion (R252). -/
def execPadcSelfcal (p : Part) (tag : Nat) (c : Conv) (s : State) : Out :=
  .next (s.command p tag 0x0802 false (s.ownsConv p.val c.val)
    [((s.padcAt c.val).fenced, .fenced, []),
     (!(s.padcAt c.val).warmed || (s.padcAt c.val).calRun || (s.padcAt c.val).calWait, .busy, [])] (fun s =>
      let s := (s.complete p.val tag 0x0802 .accepted []).updPadc c.val (fun x => { x with calCmd := some (p, tag) })
      (s.askCal c.val false).runCal c.val))

end Sys2Proof.Machine
end

