-- ==== Sys2Proof/Machine/SchCmds.lean ====
section
/-!
DEFINITION. The commands of block SCH: sites, tasks, tokens (10 R274–R282, R289, R293, R297–R300; 02 R39, R62; 06 R210;
12 R347; 16 R446).
-/

namespace Sys2Proof.Machine

/-! ## Sites (R274) -/

/-- Every element of a site record is the partition's. -/
def State.ownsSiteRec (s : State) (p : Nat) (r : SiteRec) : Bool :=
  (decide (128 ≤ r.site) || s.ownsSite p r.site) && (bitList r.chMap).all (s.ownsChan p) &&
    (bitList r.dps).all (fun d => (s.part p).dps.getLsbD d)

/-- A reserved field that is not 0, or a definition without a channel. -/
def siteMalformed (r : SiteRec) : Bool :=
  r.rsvd || (r.define && r.chMap == 0) || decide (2 ^ 14 ≤ r.home) ||
    (!r.linked && (decide (r.members ≠ 0) || decide (r.linkId ≠ 0) || decide (r.home ≠ 0)))

/-- The first channel, then DPS channel, that belongs to another defined site. -/
def State.siteConflict (s : State) (r : SiteRec) : Option Nat :=
  let other (k : Option Nat) : Bool := k.any (fun j => decide (j ≠ r.site))
  if !r.define then none
  else match (bitList r.chMap).find? (fun c => other (s.chanSite c)) with
    | some c => some (resId 3 c 3)
    | none => ((bitList r.dps).find? (fun d => other (s.dpsSite d))).map (fun d => resId 4 d 1)

/-- sch.site_define: defines or removes a site. -/
def execSchSiteDefine (p : Part) (tag : Nat) (rec : SiteRec) (s : State) : Out :=
  let k := rec.site
  .next (s.command p tag 0x0901 false (s.ownsSiteRec p.val rec)
    [(siteMalformed rec, .badParam, []),
     (decide (128 ≤ k) || (rec.linked && (decide (rec.members < 2) || decide (255 < rec.members))), .outOfRange, []),
     ((s.siteConflict rec).isSome, .conflict, [(s.siteConflict rec).getD 0]),
     (s.siteTasked k || s.siteOn k, .busy, [])] (fun s =>
      (s.updSite k (fun t => { t with defn := if rec.define then some rec else none })).complete p.val tag 0x0901 .ok []))

/-! ## Submission (R277) -/

/-- Slots in use. -/
def usedSlots (d : TaskDesc) : List Slot := d.slots.take d.nops

/-- The partition owns the queue, the sites of the burst and the scopes of its slots (R277, R279). -/
def State.ownsTask (s : State) (p : Nat) (d : TaskDesc) : Bool :=
  (sitesOf d).all (fun k => s.ownsSite p k.val) && (usedSlots d).all (fun x => s.ownsSite p x.scope.val)

/-- The image that a pattern task names. -/
def State.descImage (s : State) (p : Nat) (d : TaskDesc) : Option ImgSt :=
  if d.kind = 0 ∧ d.source < 64 then s.imageAt (imgKey p d.source) else none

/-- The definition of the home site is linked. -/
def State.homeLinked (s : State) (d : TaskDesc) : Bool := ((s.siteAt (homeOf d)).defn.map (·.linked)).getD false

/-- BAD_PARAM of a submission: reserved values, the number of slots, the sites, LINKED (R39, R277, R280, R293). -/
def State.submitBad (s : State) (p : Nat) (d : TaskDesc) : Bool :=
  d.rsvd || decide (2 ≤ d.kind) || decide (4 < d.nops) || decide (2 ^ 48 ≤ d.outKey) ||
    (decide (d.kind = 0) && decide (2 ^ 24 ≤ d.entry)) ||
    (usedSlots d).any (fun x => x.rsvd || decide (7 ≤ x.tkind)) ||
    !decide ((sitesOf d).Nodup) || (sitesOf d).any (fun k => (s.siteAt k.val).defn.isNone) ||
    (decide (1 < (sitesOf d).length) && (decide (d.kind ≠ 0) ||
      ((s.descImage p d).map (fun i => i.img.failDep d.entry)).getD false)) ||
    d.linked != s.homeLinked d || (!d.linked && decide (d.linkTrig.val ≠ 0))

/-- The resource that an instruction names and the burst's sites do not own (02 R60, R62; 06 R210; 07 R222; 08 R244). -/
def State.instrConflict (s : State) (sites : List Nat) (home : Nat) : Instr → Option Nat
  | .mark _ output _ => if sites.contains (s.parN 1 output.val 0x021) then none else some (resId 1 output.val 2)
  | .stream _ _ n _ => if (s.bound home n).isSome then none else some (resId 9 home 1)
  | .capon _ u | .capoff _ u => if u < 16 ∧ sites.contains (s.parN 5 u 0x040) = true then none else some (resId 5 u 1)
  | .stamp _ m _ =>
    if m < 256 ∧ sites.contains (s.msPar m 0x001) = true ∧ s.msPar m 0x00B = 0 then none else some (resId 7 m 2)
  | .inj _ g c =>
    if c < 16 ∧ ((s.pmuChan g.val).bind s.chanSite).any (fun k => sites.contains k) = true then none
    else some (resId 8 g.val 1)
  | .wtrg _ sel _ _ _ =>
    let n := sel % 256
    match sel / 256 % 16 with
    | 0 => if sites.contains (s.parN 11 n 0x031) then none else some (resId 11 n 2)
    | 1 => if sites.contains (s.parN 5 0 0x0A2) then none else some (resId 5 0 5)
    | 2 => if sites.contains (s.parN 5 1 0x0A2) then none else some (resId 5 1 5)
    | _ => if n < 32 ∧ sites.contains (s.parN 5 n 0x060) = true then none else some (resId 5 n 2)
  | _ => none

/-- A CU_STREAM, LOG_STREAM or TRG_STREAM of a site that names a local stream which is not bound (06 R210). -/
def State.streamConflict (s : State) (k : Nat) : Option Nat :=
  let open_ (n : Nat) : Bool := decide (n < 8) && (s.bound k n).isNone
  if open_ (s.parN 5 k 0x014) ||
      (List.range 16).any (fun u => s.parN 5 u 0x040 == k && s.parN 5 u 0x045 == 2 && open_ (s.parN 5 u 0x04C)) ||
      (List.range 32).any (fun t => s.parN 5 t 0x060 == k && open_ (s.parN 5 t 0x069)) then some (resId 9 k 1)
  else none

/-- CONFLICT of a submission: the first resource that the burst's sites do not own. -/
def State.submitConflict (s : State) (p : Nat) (d : TaskDesc) : Option Nat :=
  let home := homeOf d
  let sites := (sitesOf d).map (·.val)
  let prog := match s.descImage p d with
    | some i => if i.img.isEntry d.entry then i.img.reach d.entry else []
    | none => []
  let named := (prog.map (fun x => s.instrConflict sites home x.2)) ++ sites.map s.streamConflict ++
    (usedSlots d).map (fun x =>
      if x.tkind = 5 ∧ (256 ≤ x.key ∨ s.parN 11 x.key 0x031 ≠ x.scope.val) then some (resId 11 (min x.key 0xFFF) 2) else none) ++
    [if d.linked = true ∧ s.parN 11 d.linkTrig.val 0x031 ≠ home then some (resId 11 d.linkTrig.val 2) else none,
     if d.kind = 1 ∧ d.source < 4 ∧ s.parN 6 d.source 0x001 ≠ home then some (resId 6 d.source 1) else none]
  named.findSome? (fun x => x)

/-- OUT_OF_RANGE of a submission: image, entry segment, engine, FRAMES, estimate (R277, R289). -/
def State.submitRange (s : State) (p : Nat) (d : TaskDesc) : Bool :=
  (if d.kind = 0 then
    (match s.descImage p d with
     | some i => !i.img.isEntry d.entry
     | none => true)
   else decide (4 ≤ d.source) || decide (d.entry = 0)) ||
    decide (classCeiling d.eclass.val < s.estimate p d)

/-- Matching-store entries that a partition holds. -/
def State.entriesOf (s : State) (p : Nat) : Nat := (s.sch.tasks.filter (fun x => x.2.part.val == p)).length

/-- An unreserved entry is free. -/
def State.spareEntry (s : State) : Bool :=
  let held := (List.range 16).map (fun q => s.entriesOf q - (s.part q).msReserve)
  let reserved := (List.range 16).map (fun q => (s.part q).msReserve)
  decide (held.sum + reserved.sum < 4096)

/-- NO_CREDIT of a submission (R297). -/
def State.submitFull (s : State) (p : Nat) (d : TaskDesc) : Bool :=
  let q := d.queue.val
  decide (s.parN 9 (q / 64) (0x100 + q % 64) ≤ (s.sch.tasks.filter (fun x => x.2.desc.queue == d.queue)).length) ||
    decide ((s.part p).msLimit ≤ s.entriesOf p) ||
    (decide ((s.part p).msReserve ≤ s.entriesOf p) && !s.spareEntry)

/-- A free entry of the store: one that no dispatched burst came from, while there is one. -/
def State.freeEntry (s : State) : Option Nat :=
  match (List.range 4096).find? (fun i => (s.taskAt i).isNone && (s.taskRunner i).isNone) with
  | some i => some i
  | none => (List.range 4096).find? (fun i => (s.taskAt i).isNone)

/-- sch.submit: the checks of R277 in order, then ACCEPTED with the entry's index; a task whose tokens have come is
ready at once (R282). -/
def execSchSubmit (p : Part) (tag : Nat) (desc : TaskDesc) (s : State) : Out :=
  .next (s.command p tag 0x0902 false (s.ownsTask p.val desc)
    [(s.evt.fatal, .fenced, []),
     (s.submitBad p.val desc, .badParam, []),
     (((s.descImage p.val desc).map (fun i => i.mode == .loading)).getD false, .busy, []),
     ((s.submitConflict p.val desc).isSome, .conflict, [(s.submitConflict p.val desc).getD 0]),
     (s.submitRange p.val desc, .outOfRange, []),
     (s.submitFull p.val desc || s.freeEntry.isNone, .noCredit, [])] (fun s =>
      let i := s.freeEntry.getD 0
      let t : TaskSt := { desc, part := p, tag, order := s.sch.nextOrder, at_ := s.now, e := s.estimate p.val desc }
      let s := (s.complete p.val tag 0x0902 .accepted [i]).putTask i t
      let s : State := { s with sch.nextOrder := s.sch.nextOrder + 1 }
      s.wake))

/-! ## Abort, information (R300, 14 R390) -/

/-- Partition of the task that an index names, waiting or dispatched. -/
def State.taskPart (s : State) (i : Nat) : Option Part :=
  match s.taskAt i with
  | some t => some t.part
  | none => ((s.taskRunner i).bind s.burstAt).map (·.part)

/-- The partition may act on the index: the task is its own, or there is none. -/
def State.ownsIndex (s : State) (p : Part) (i : Nat) : Bool :=
  match s.taskPart i with
  | some q => q == p
  | none => true

/-- Owner of what an abort names. -/
def State.ownsAbort (s : State) (p : Part) : AbortOf → Bool
  | .task i => s.ownsIndex p i.val
  | .queue q => s.ownsSite p.val (q.val / 64)
  | .site k => s.ownsSite p.val k.val

/-- Abort a task, the tasks of a queue, or those of a site (R300). -/
def State.abortOf (s : State) : AbortOf → State
  | .task i => s.abortTask i.val
  | .queue q => s.abortAll (fun t => t.desc.queue == q) (fun b => b.queue == q.val)
  | .site k => s.abortAll (fun t => (sitesOf t.desc).contains k) (fun b => b.sites.contains k)

/-- sch.abort: a task that has completed is left alone. -/
def execSchAbort (p : Part) (tag : Nat) (what : AbortOf) (s : State) : Out :=
  .next (s.command p tag 0x0903 false (s.ownsAbort p what) [] (fun s =>
    (s.abortOf what).complete p.val tag 0x0903 .ok []))

/-- State code, E and queue of a task. -/
def State.taskWords (s : State) (i : Nat) : Option (List Nat) :=
  match s.taskAt i with
  | some t => some [if t.mode = .ready then 1 else 0, t.e, t.desc.queue.val]
  | none => ((s.taskRunner i).bind s.burstAt).map (fun b => [if b.isStarted then 3 else 2, b.charge, b.queue])

/-- sch.task_info. -/
def execSchTaskInfo (p : Part) (tag : Nat) (i : TaskIx) (s : State) : Out :=
  .next (s.command p tag 0x0906 false (s.ownsIndex p i.val) [((s.taskWords i.val).isNone, .outOfRange, [])] (fun s =>
    s.complete p.val tag 0x0906 .ok ((s.taskWords i.val).getD [])))

/-! ## Tokens (R280, R281) -/

/-- The token that a slot describes. -/
def slotTok (x : Slot) : TokIn := { scope := x.scope, kind := x.tkind, key := x.key, result := 0 }

/-- sch.token: a USER token into a site of the partition, here or on a stated node (R280); without room here it waits in
the overflow FIFO (R299). -/
def execSchToken (p : Part) (tag : Nat) (slot : Slot) (node : Nat) (remote : Bool) (s : State) : Out :=
  let away := remote && decide (node ≠ s.node)
  .next (s.command p tag 0x0904 false (s.ownsSite p.val slot.scope.val)
    [(slot.rsvd || decide (slot.tkind ≠ 0) || decide (2 ^ 48 ≤ slot.key) || decide (2 ^ 14 ≤ node), .badParam, [])] (fun s =>
      let s := if away then s.sendC1 node (.token node s.node (slotTok slot)) else s.issueTok (slotTok slot)
      s.complete p.val tag 0x0904 .ok []))

/-- sch.token_clear: the entry of a scope, kind and key, or every entry of a site (R281). -/
def execSchTokenClear (p : Part) (tag : Nat) (slot : Slot) (all : Bool) (s : State) : Out :=
  .next (s.command p tag 0x0905 false (s.ownsSite p.val slot.scope.val)
    [(slot.rsvd || (!all && decide (7 ≤ slot.tkind)), .badParam, [])] (fun s =>
      let s : State := { s with sch.tokens := s.sch.tokens.filter (fun t =>
        !(if all then t.scope == slot.scope else t.is slot.scope.val slot.tkind slot.key)) }
      s.complete p.val tag 0x0905 .ok []))

/-- MS_PARITY: a task whose matching-store entry fails its parity check completes INTERNAL; the entry is freed
(R278, R300). -/
def execMsParity (i : TaskIx) (s : State) : Out :=
  .next (match s.taskAt i.val with
    | some t => (s.endTask i.val t .internal [] skippedRes).event 0x5C9 [i.val] [.part t.part.val]
    | none => s)

end Sys2Proof.Machine
end

