-- ==== Sys2Proof/Machine/MemCmds.lean ====
section
/-!
DEFINITION. The commands of block MEM (11 R307, R316–R318, R320).
-/

namespace Sys2Proof.Machine

/-! ## Transfers (R307) -/

/-- Handles of the partition's images that are LOADING or READY. -/
def State.liveImages (s : State) (p : Nat) : List Nat :=
  (s.ve.images.filter (fun x => decide (x.1 / 64 = p) && x.2.mode != .damaged)).map (·.1 % 64)

/-- The image whose pages a range touches. The spec does not say where in the space an image lies, so a free value
picks one of the partition's images, or none. -/
def State.touched (s : State) (p : Nat) : Option Nat × State :=
  let l := s.liveImages p
  if l.isEmpty then (none, s) else (l[s.freeVal % (l.length + 1)]?, s.drawFree)

/-- The address and the length that R307 takes, within the partition's space. -/
def State.rangeOk (s : State) (p addr len : Nat) : Bool :=
  decide (addr % 64 = 0) && decide (len % 64 = 0) && decide (len ≤ 2 ^ 30) && decide (addr + len ≤ 4096 * s.pagesOf p)

/-- A transfer that passes the checks of its range: pages of an image, a page on a fenced channel. -/
def State.memMove (s : State) (p : Part) (tag : Nat) (op : BitVec 16) (addr len : Nat) (data : List Int)
    (write : Option (Nat × List (BitVec 8)))
    (reads : List (Nat × Nat)) : State :=
  match s.touched p.val with
  | (some h, s) => s.refuseCmd p.val tag op .conflict [resId 10 (64 * p.val + h) 2]
  | (none, s) => match s.fencedPage p.val addr len with
    | some a => s.refuseCmd p.val tag op .fenced [a % 2 ^ 32]
    | none => s.startXfer p tag op addr data write reads

/-- mem.write: from host memory into the partition's space. -/
def execMemWrite (p : Part) (tag : Nat) (addr : Nat) (bytes : List (BitVec 8)) (s : State) : Out :=
  .next (s.command p tag 0x0A01 false true [(!s.rangeOk p.val addr bytes.length, .outOfRange, [])] (fun s =>
    s.memMove p tag 0x0A01 addr bytes.length [] (some (addr, bytes)) []))

/-- mem.read: the other way. -/
def execMemRead (p : Part) (tag : Nat) (addr len : Nat) (s : State) : Out :=
  .next (s.command p tag 0x0A02 false true [(!s.rangeOk p.val addr len, .outOfRange, [])] (fun s =>
    s.memMove p tag 0x0A02 addr len (s.hbmWords p.val addr (len / 4)) none [(addr, len)]))

/-! ## Fences, remapping, repair (R316–R318) -/

/-- mem.fence: the effects of a hardware fence, cause FENCED_BY_COMMAND; a fenced channel stays as it is. -/
def execMemFence (p : Part) (tag : Nat) (m : Mc) (s : State) : Out :=
  .next (s.command p tag 0x0A03 false (s.rightConfig p.val) [] (fun s =>
    let s := if (s.mcAt m.val).mode = 3 then s else s.channelEvent (0x581 + 2 * m.val) m.val 6
    s.complete p.val tag 0x0A03 .ok []))

/-- Unfenced memory channels, rising. -/
def State.goodMcs (s : State) : List Nat := (List.range 32).filter (fun m => (s.mcAt m).mode != 3)

/-- A run whose pages on fenced channels lie on unfenced ones, taken in turn. -/
def PageRun.remap (bad : Nat → Bool) (good : List Nat) (r : PageRun) : PageRun :=
  { r with chans := r.chans.zipIdx.map (fun x => if bad x.1 then good.getD (x.2 % max 1 good.length) x.1 else x.1) }

/-- Every POISONED page of a partition becomes a zeroed page on an unfenced channel; the page of a failed repair is one of
its channel. -/
def State.remapPart (s : State) (t : Nat) : State :=
  let runs := (s.pageRuns t).map (PageRun.remap (fun m => (s.mcAt m).mode == 3) s.goodMcs)
  let gone (k : Nat) : Bool := k / 2 ^ 36 == t && s.poisoned t (k % 2 ^ 36 / 4096)
  let s := (s.rewrite (fun b => gone (64 * b))).loseDead t 0
  { s with
    mem.hbm := Memory.clear s.mem.hbm gone
    mem.pages := Tbl.put s.mem.pages t runs }

/-- A burst of the partition is dispatched or running. -/
def State.partBusy (s : State) (t : Nat) : Bool := s.ve.bursts.any (fun x => x.2.part.val == t)

/-- mem.remap: ACCEPTED and OK (R317). -/
def execMemRemap (p : Part) (tag : Nat) (target : Part) (s : State) : Out :=
  .next (s.command p tag 0x0A04 false (s.isSystem p.val)
    [(s.partBusy target.val, .busy, []),
     (decide (s.freePages < s.poisonedPages target.val), .outOfRange, [])] (fun s =>
      ((s.complete p.val tag 0x0A04 .accepted []).remapPart target.val).complete p.val tag 0x0A04 .ok []))

/-- mem.repair: the candidates of a channel, or of every channel, run at the next module reset (R318). -/
def execMemRepair (p : Part) (tag : Nat) (m : Option Mc) (s : State) : Out :=
  .next (s.command p tag 0x0A05 false (s.rightConfig p.val) [] (fun s =>
    let l := match m with
      | some x => [x.val]
      | none => List.range 32
    (l.foldl (fun s i => s.updMc i (fun c => { c with sched := c.cands })) s).complete p.val tag 0x0A05 .ok []))

end Sys2Proof.Machine
end

