-- ==== Sys2Proof/Machine/NglCmds.lean ====
section
/-!
DEFINITION. The commands of block NGL (12 R323, R324, R348, R351–R353; 13 R369–R372).
-/

namespace Sys2Proof.Machine

/-! ## ngl.config (R323) -/

/-- Values that `ngl.config` applies. -/
def State.applyConfig (s : State) : State :=
  let mine (x : PendVal) : Bool := match idRow x.id with
    | some r => r.apply == .nglConfig
    | none => false
  let go := s.host.pendVals.filter mine
  let s : State := { s with host.pendVals := s.host.pendVals.filter (fun x => !mine x) }
  go.foldl (fun s x => s.applyVal x.id x.value) s

/-- A port is used in a mode: none in STANDALONE, every one in TREE, U-A and D0 in RING (R323, R325). -/
def portUsed (mode p : Nat) : Bool := decide (mode = 1) || (decide (mode = 2) && (p == 0 || p == 2))

/-- A port is off; its counters stay. -/
def PortSt.shut (x : PortSt) : PortSt :=
  { mode := .off, c2 := x.c2, sent := x.sent, xoffCount := x.xoffCount, crcErr := x.crcErr, c0Lost := x.c0Lost }

/-- Every port retrains, or is off; a PRBS test ends. -/
def State.configPorts (s : State) : State :=
  (List.range 6).foldl (fun s p =>
    let s := (s.retrainDoneCmd p .timeout).updPort p PortSt.shut
    let s := s.updSlane p (fun x => { x with prbs := none, prbsLock := false, far := false })
    if portUsed s.nglMode p then s.attempt p 0 false false else s) s

/-- The domain that the module is the master of, A first. -/
def State.rootOf (s : State) : Option Nat := [0, 1].find? s.isMaster

/-- Module time after the configuration: valid and locked at once in STANDALONE and at a master, which is its own
root; elsewhere the module joins anew (R323, R341–R343). -/
def State.rejoin (s : State) : State :=
  let own := decide (s.nglMode = 0) || s.rootOf.isSome
  let tm := s.ngl.tm
  let s : State := { s with
    ngl.dom := [], ngl.route := []
    ngl.tm := { tm with valid := own, joined := s.rootOf.isSome, sel := s.rootOf.getD 0, c := 0, inLockSince := none
                        lockedOnce := own } }
  (s.setLock own).setOsc s.oscFollow

/-- A linked task is queued, dispatched or running. -/
def State.linkedTask (s : State) : Bool :=
  s.sch.tasks.any (fun x => x.2.desc.linked) || s.ve.bursts.any (fun x => x.2.linked)

/-- ngl.config: the values that wait for it apply, every port retrains, the module rejoins; ACCEPTED and OK. -/
def execNglConfig (p : Part) (tag : Nat) (s : State) : Out :=
  .next (s.command p tag 0x0B01 false (s.isSystem p.val) [(s.linkedTask, .busy, [])] (fun s =>
    ((s.complete p.val tag 0x0B01 .accepted []).applyConfig.configPorts.rejoin).complete p.val tag 0x0B01 .ok []))

/-! ## Triggers, stops, labels (R348, R351, R352) -/

/-- Module time at which the trigger of a command acts. -/
def State.trigTime (s : State) (lead : Bool) (time : Nat) : Nat := if lead then s.now + time else s.ofSel time

/-- The lead, or the act time, lies in its range. -/
def State.trigOk (s : State) (lead : Bool) (time : Nat) : Bool :=
  if lead then decide (100 ≤ time) && decide (time ≤ 2000000000)
  else decide (s.now ≤ s.ofSel time) && decide (s.ofSel time ≤ s.now + 2 ^ 31)

/-- ngl.trigger. -/
def execNglTrigger (p : Part) (tag : Nat) (number : NTrg) (lead : Bool) (time : Nat) (s : State) : Out :=
  .next (s.command p tag 0x0B02 false ((s.part p.val).nglTriggers.getLsbD number.val)
    [(!s.trigOk lead time, .outOfRange, [])] (fun s =>
      (s.sendTrig number (s.trigTime lead time)).complete p.val tag 0x0B02 .ok []))

/-- The partition may stop the LINK_ID, or everything. -/
def State.ownsStop (s : State) (p linkId : Nat) (all : Bool) : Bool :=
  if all then s.isSystem p
  else match s.linkSite linkId with
    | some (k, _) => s.ownsSite p k
    | none => false

/-- ngl.stop: the STOP goes to every module and acts here. -/
def execNglStop (p : Part) (tag : Nat) (linkId : Nat) (all : Bool) (result reason : Nat) (s : State) : Out :=
  .next (s.command p tag 0x0B03 false (s.ownsStop p.val linkId all) [] (fun s =>
    let s := s.broadcast none (fun s q => s.queueC0 q (.stop all linkId result reason s.node))
    (s.stopAct all linkId (stopResult result reason)).complete p.val tag 0x0B03 .ok []))

/-- The module is the master of the selected domain. -/
def State.timeMaster (s : State) : Bool := decide (s.ngl.tm.sel < 2) && s.parN 11 s.ngl.tm.sel 0x004 == 1

/-- ngl.time_label: the stamp of the arrival, within ±20 µs, is rounded to the 1 ms tick. -/
def execNglTimeLabel (p : Part) (tag : Nat) (seconds : Nat) (s : State) : Out :=
  .next (s.command p tag 0x0B04 false (s.isSystem p.val)
    [(decide (2 ^ 48 ≤ seconds), .outOfRange, []), (!s.timeMaster, .conflict, [])] (fun s =>
      let stamp := s.now + s.freeVal % 40001 - 20000
      let mt := (stamp + 500000) / 1000000 * 1000000
      let dom := s.domSel
      let s := s.drawFree
      let s := s.broadcast none (fun s q => s.queueC1 q (.timeLabel s.node dom seconds (s.toSel mt)))
      (s.label seconds mt).complete p.val tag 0x0B04 .ok []))

/-! ## ngl.chime (R353) -/

/-- The fields of a schedule lie in their ranges; a cancelling record gives none. -/
def chimeInRange (now : Nat) (r : ChimeRec) : Bool :=
  !r.enable ||
    (if r.period = 0 then decide (5 ≤ r.width) && decide (r.width < 2 ^ 32) && decide (now ≤ r.t0)
     else decide (20 ≤ r.period) && decide (r.period ≤ 2 ^ 40) && decide (5 ≤ r.width) && decide (r.width + 5 ≤ r.period))

/-- What a record does to its output: cancels, waits for the end of a pulse in progress, or starts. -/
def ChimeSt.order (now : Nat) (r : ChimeRec) (x : ChimeSt) : ChimeSt :=
  let rest := (x.cfg.map (·.invert)).getD x.level
  if !r.enable then { level := rest }
  else if x.state = 2 ∧ x.level ≠ rest then { x with queued := some r }
  else ChimeSt.start now r

/-- ngl.chime. -/
def execNglChime (p : Part) (tag : Nat) (rec : ChimeRec) (s : State) : Out :=
  .next (s.command p tag 0x0B05 false (decide (4 ≤ rec.output) || (s.part p.val).chime.getLsbD rec.output)
    [(rec.rsvd, .badParam, []),
     (decide (4 ≤ rec.output) || !chimeInRange s.now rec, .outOfRange, [])] (fun s =>
      (s.updChime rec.output (ChimeSt.order s.now rec)).complete p.val tag 0x0B05 .ok []))

/-! ## Lanes (R369–R372) -/

/-- A descriptor's fields lie in their ranges. -/
def scanInRange (d : ScanDesc) : Bool :=
  let r (lo v hi : Int) : Bool := decide (lo ≤ v) && decide (v ≤ hi)
  decide (d.lane < 38) && r 1 d.phStep 16 && r 1 d.vStep 16 && r (-32) d.phMin 0 && r 0 d.phMax 31 && r (-64) d.vMin 0 &&
    r 0 d.vMax 64 && r 20 d.dwellExp 40 && decide (d.result % 64 = 0)

/-- Host port of a host lane. -/
def hostPortOf (l : Nat) : Nat := (l - 6) / 8

/-- The lane carries live traffic or a locked test. -/
def State.laneLive (s : State) (l : Nat) : Bool :=
  if (s.slaneAt l).prbs.isSome then (s.slaneAt l).prbsLock else s.laneLink l == 2

/-- ngl.lane_scan: ACCEPTED, and the scan runs. -/
def execNglLaneScan (p : Part) (tag : Nat) (desc : ScanDesc) (s : State) : Out :=
  let l := desc.lane
  .next (s.command p tag 0x0B06 false (s.isSystem p.val)
    [(desc.rsvd, .badParam, []),
     (!scanInRange desc, .outOfRange, []),
     (decide (6 ≤ l) && s.parN 11 (hostPortOf l) 0x08D == 0, .conflict, []),
     (!s.laneLive l || (s.slaneAt l).scan.isSome, .busy, [])] (fun s =>
      (s.complete p.val tag 0x0B06 .accepted []).updSlane l (fun x => { x with scan := some (p, tag, desc, s.now) })))

/-- A test may run: an Ngulos port that is OFF or DOWN, a host lane whose link is not up. -/
def State.prbsFree (s : State) (l : Nat) : Bool :=
  if l < 6 then (s.portAt l).mode == .off || (s.portAt l).mode == .down else !(s.hlinkAt (hostPortOf l)).up

/-- ngl.prbs: a test begins, or ends and gives the port back to its retries. -/
def execNglPrbs (p : Part) (tag : Nat) (lane pattern mode inject : Nat) (s : State) : Out :=
  .next (s.command p tag 0x0B07 false (s.isSystem p.val)
    [(decide (4 < pattern) || decide (3 < mode), .badParam, []),
     (decide (38 ≤ lane) || !(decide (inject ≤ 1) || (decide (10 ≤ inject) && decide (inject ≤ 40))), .outOfRange, []),
     (!s.prbsFree lane, .busy, [])] (fun s =>
      let s := s.updSlane lane (fun x => { x with
        prbs := if mode = 0 then none else some (pattern, mode, inject), prbsLock := false, prbsRelock := 0 })
      let s := if mode = 0 ∧ lane < 6 then s.updPort lane (fun x => { x with trainDue := s.now + s.retryTime }) else s
      s.complete p.val tag 0x0B07 .ok []))

/-- ngl.lane_retrain: ACCEPTED, and the port of an Ngulos lane trains anew. -/
def execNglLaneRetrain (p : Part) (tag : Nat) (lane : Nat) (s : State) : Out :=
  .next (s.command p tag 0x0B08 false (s.isSystem p.val)
    [(decide (6 ≤ lane), .outOfRange, []),
     ((s.portAt lane).mode == .off || (s.portAt lane).mode == .training || (s.slaneAt lane).prbs.isSome, .busy, [])] (fun s =>
      let s := (s.complete p.val tag 0x0B08 .accepted []).updPort lane (fun x => { x with retrainCmd := some (p, tag) })
      (s.retrainPort lane).wakeB lane))

end Sys2Proof.Machine
end

