-- ==== Sys2Proof/Machine/SupCmds.lean ====
section
/-!
DEFINITION. The commands of blocks SUP and HLT: the partition table, firmware images and the hand-over, forced events,
first-error records, lifting a fence (14 R397, R401–R403; 16 R435, R442, R443, R445, R448–R450, R455).
-/

namespace Sys2Proof.Machine

/-! ## The partition table (14 R397) -/

/-- A kind of resource of the table: how many, whether an entry holds number `i`, the resource ID of number `i`. -/
structure ResKind where
  count : Nat
  holds : PartRec → Nat → Bool
  id    : Nat → Nat

/-- The kinds of resources in the order of the record. -/
def resKinds : List ResKind := [
  ⟨18, fun r i => r.dps.getLsbD i, fun i => resId 4 i 1⟩,
  ⟨16, fun r i => r.units.getLsbD i, fun i => resId 5 i 1⟩,
  ⟨2, fun r i => r.xtrig.getLsbD i, fun i => resId 5 i 5⟩,
  ⟨4, fun r i => r.chime.getLsbD i, fun i => resId 11 i 3⟩,
  ⟨8, fun r i => r.marks.getLsbD i, fun i => resId 1 i 2⟩,
  ⟨4, fun r i => r.raster.getLsbD i, fun i => resId 6 i 1⟩,
  ⟨32, fun r i => r.capTriggers.getLsbD i, fun i => resId 5 i 2⟩,
  ⟨64, fun r i => r.streams.getLsbD i, fun i => resId 5 i 3⟩,
  ⟨128, fun r i => r.sites.getLsbD i, fun i => resId 9 i 1⟩,
  ⟨512, fun r i => r.channels.getLsbD i, fun i => resId 3 i 3⟩,
  ⟨256, fun r i => r.tmuSets.getLsbD i, fun i => resId 7 i 2⟩,
  ⟨256, fun r i => r.nglTriggers.getLsbD i, fun i => resId 11 i 2⟩,
  ⟨1024, fun r i => r.timingSets.getLsbD i, fun i => resId 2 i 1⟩]

/-- The record is malformed: a reserved field, or a system role that would end or go to a disabled partition. -/
def State.recBad (s : State) (r : PartRec) : Bool :=
  r.rsvd || (s.isSystem r.part && !r.system) || (r.system && !r.enable)

/-- The fields of the record lie in their ranges. -/
def recInRange (r : PartRec) : Bool :=
  decide (r.part < 16) && decide (r.engReserve ≤ 32) && decide (r.msReserve ≤ 4096) && decide (r.msReserve ≤ r.msLimit) &&
    decide (r.msLimit ≤ 4096) && decide (r.streamShare ≤ 98304)

/-- First resource of the record that another partition's entry holds. -/
def State.heldElsewhere (s : State) (r : PartRec) : Option Nat :=
  resKinds.findSome? (fun k => ((List.range k.count).find? (fun i =>
    k.holds r i && (List.range 16).any (fun q => decide (q ≠ r.part) && k.holds (s.part q) i))).map k.id)

/-- Sum of a quantity over all entries, with the record in its place. -/
def State.sumWith (s : State) (r : PartRec) (f : PartRec → Nat) : Nat :=
  ((List.range 16).map (fun q => if q = r.part then f r else f (s.part q))).sum

/-- A sum over all entries exceeds what the module has; new pages come from unfenced channels. -/
def State.sumsBad (s : State) (r : PartRec) : Bool :=
  decide (32 < s.sumWith r (·.engReserve)) || decide (4096 < s.sumWith r (·.msReserve)) ||
    decide (98304 < s.sumWith r (·.streamShare)) || decide (modulePages < s.sumWith r (·.hbmPages)) ||
    decide (s.pagesOf r.part + s.freePages < r.hbmPages)

/-- A resource that the record takes away is in use: a site that is defined or has a task, a channel or DPS channel of
a defined site, an open stream. -/
def State.takenBusy (s : State) (r : PartRec) : Bool :=
  let old := s.part r.part
  (List.range 128).any (fun k => old.sites.getLsbD k && !r.sites.getLsbD k &&
      ((s.siteAt k).defn.isSome || s.siteTasked k)) ||
    (List.range 512).any (fun c => old.channels.getLsbD c && !r.channels.getLsbD c && (s.chanSite c).isSome) ||
    (List.range 18).any (fun d => old.dps.getLsbD d && !r.dps.getLsbD d && (s.dpsSite d).isSome) ||
    (List.range 64).any (fun h => old.streams.getLsbD h && !r.streams.getLsbD h && (s.hsAt h).mode != .closed)

/-- Committed regions of a partition's space, as first page and pages: logs, capture buffers, layers. -/
def State.regions (s : State) (p : Nat) : List (Nat × Nat) :=
  let e := s.part p
  ((List.range 128).filterMap (fun k =>
    if e.sites.getLsbD k ∧ s.parN 5 k 0x010 ≠ 0 then some (s.parN 5 k 0x011, s.parN 5 k 0x012) else none)) ++
  ((List.range 16).filterMap (fun u =>
    if e.units.getLsbD u ∧ s.parN 5 u 0x045 = 1 then some (s.parN 5 u 0x047, s.parN 5 u 0x048) else none)) ++
  ((List.range 8).filterMap (fun l =>
    if e.raster.getLsbD (l / 2) ∧ s.parN 6 l 0x010 = 1 then
      some (s.parN 6 l 0x012, ceilDiv (s.parN 6 l 0x013 * (s.rseMode (l / 2)).va) 4096) else none))

/-- A page at or above a count is in use. The spec does not say where images lie: a loaded one counts. -/
def State.pagesBusy (s : State) (p n : Nat) : Bool :=
  decide (n < s.pagesOf p) &&
    (s.ve.images.any (fun x => decide (x.1 / 64 = p)) || (s.regions p).any (fun x => decide (n < x.1 + x.2)))

/-- The first `n` pages of a list of runs. -/
def keepPages : List PageRun → Nat → List PageRun
  | [], _ => []
  | r :: rs, n =>
    if n = 0 then []
    else if r.count ≤ n then r :: keepPages rs (n - r.count)
    else [{ r with count := n }]

/-- The partition's space grows by pages of the unfenced channels in turn, or loses its last pages. -/
def State.setPages (s : State) (p n : Nat) : State :=
  let have_ := s.pagesOf p
  if have_ < n then
    { s with mem.pages := Tbl.put s.mem.pages p (s.pageRuns p ++ [{ count := n - have_, chans := s.goodMcs }]) }
  else
    let s := (s.rewrite (fun b => 64 * b / 2 ^ 36 == p && decide (n ≤ 64 * b % 2 ^ 36 / 4096))).loseDead p n
    { s with
      mem.pages := Tbl.put s.mem.pages p (keepPages (s.pageRuns p) n)
      mem.hbm := Memory.clear s.mem.hbm (fun k => k / 2 ^ 36 == p && decide (n ≤ k % 2 ^ 36 / 4096)) }

/-- The record becomes the entry; a record with SYSTEM set moves the role. -/
def State.setPart (s : State) (r : PartRec) : State :=
  let old := s.host.sysPart.val
  let s : State := { s with host.muxMoved :=
    s.host.muxMoved ++ (List.range 512).filter (fun c => r.channels.getLsbD c && !s.ownsChan r.part c) }
  let s := s.setPages r.part r.hbmPages
  let tab := Tbl.put s.host.ptab r.part r
  if r.system ∧ r.part ≠ old then
    { s with
      host.ptab := Tbl.put tab old { s.part old with system := false }
      host.sysPart := toFin 16 r.part (by decide) }
  else { s with host.ptab := tab }

/-- Event PART_TABLE for every entry that changed. -/
def State.tableEvents (before s : State) : State :=
  (List.range 16).foldl (fun s q => if before.part q = s.part q then s else s.event 0x093 [q] [.part q]) s

/-- sup.part_set. -/
def execSupPartSet (p : Part) (tag : Nat) (rec : PartRec) (s : State) : Out :=
  .next (s.command p tag 0x0C01 false (s.isSystem p.val)
    [(s.recBad rec, .badParam, []),
     (!recInRange rec, .outOfRange, []),
     ((s.heldElsewhere rec).isSome, .conflict, (s.heldElsewhere rec).toList),
     (s.sumsBad rec, .outOfRange, []),
     (s.takenBusy rec || s.pagesBusy rec.part rec.hbmPages, .busy, [])] (fun s =>
      (s.tableEvents (s.setPart rec)).complete p.val tag 0x0C01 .ok []))

/-- The first `n` words of a mask. -/
def maskWords {w : Nat} (n : Nat) (m : BitVec w) : List Nat :=
  (List.range n).map (fun i => m.toNat / 2 ^ (32 * i) % 2 ^ 32)

/-- An entry in the layout of the record, as 96 words. -/
def recWords (r : PartRec) : List Nat :=
  [r.part + 2 ^ 16 * (b2n r.enable + 2 * b2n r.system + 4 * b2n r.evtGlobal) +
     2 ^ 24 * (b2n r.config + 2 * b2n r.modReset + 4 * b2n r.service),
   r.engReserve, r.msReserve + 2 ^ 16 * r.msLimit, r.streamShare, r.hbmPages, r.dps.toNat,
   r.units.toNat + 2 ^ 16 * (r.xtrig.toNat + 4 * r.chime.toNat) + 2 ^ 24 * r.marks.toNat, r.raster.toNat,
   r.capTriggers.toNat, 0] ++ maskWords 2 r.streams ++ maskWords 4 r.sites ++ maskWords 16 r.channels ++
    maskWords 8 r.tmuSets ++ maskWords 8 r.nglTriggers ++ maskWords 32 r.timingSets ++ List.replicate 16 0

/-- sup.part_get. -/
def execSupPartGet (p : Part) (tag : Nat) (target : Part) (s : State) : Out :=
  .next (s.command p tag 0x0C02 false (p == target || s.isSystem p.val) [] (fun s =>
    s.complete p.val tag 0x0C02 .ok [] ((recWords (s.part target.val)).map (fun (n : Nat) => (n : Int)))))

/-! ## Firmware images and the hand-over (14 R401–R403) -/

/-- The inactive bank takes an image with the microcode image in it (02 R80). -/
def FwSt.storeImage (version : Nat) (ucode : UImage) (mayHand : Bool) (f : FwSt) : FwSt :=
  if f.bank then { f with verA := version, ucodeA := ucode, validA := true, mayHand }
  else { f with verB := version, ucodeB := ucode, validB := true, mayHand }

/-- The inactive bank holds a verified image. -/
def FwSt.otherValid (f : FwSt) : Bool := if f.bank then f.validA else f.validB

/-- sup.fw_load: an image that does not verify leaves the bank unchanged. -/
def execSupFwLoad (p : Part) (tag : Nat) (verified : Bool) (image : FwImage) (minHandover : Nat) (s : State) : Out :=
  .next (s.command p tag 0x0C03 false (s.isSystem p.val) [(decide (s.fw.hand ≠ 0), .busy, [])] (fun s =>
    if !verified then (s.refuseCmd p.val tag 0x0C03 .deniedWorld []).event 0x091
    else
      let may := decide (minHandover ≤ s.fw.version)
      ({ s.complete p.val tag 0x0C03 .accepted [] with fw := s.fw.storeImage image.version image.ucode may } : State).complete
        p.val tag 0x0C03 .ok [image.version, b2n may]))

/-- sup.fw_handover: step 1 begins. -/
def execSupFwHandover (p : Part) (tag : Nat) (s : State) : Out :=
  .next (s.command p tag 0x0C04 false (s.isSystem p.val)
    [(decide (s.fw.hand ≠ 0), .busy, []), (!s.fw.mayHand || !s.fw.otherValid, .conflict, [])] (fun s =>
      let s := s.complete p.val tag 0x0C04 .accepted []
      let s : State := { s with fw := { s.fw with
        hand := 1, state := 2, handCmd := some (p, tag), handDue := s.now + 1000000 * s.parN 0 0 0x002 } }
      s.event 0x090 [1]))

/-- Every L command in progress but `sch.submit` has its final completion. -/
def State.drained (s : State) : Bool :=
  (List.range 16).all (fun p => (s.fnAt p).tags.all (fun t => t.opcode == 0x0902 || t.opcode == 0x0C04))

/-- HANDOVER_DRAIN_DONE: step 2, the freeze. -/
def execHandoverDrainDone (s : State) : Out :=
  .next (
    if s.fw.hand = 1 ∧ s.drained then { s with fw := { s.fw with hand := 2, handDue := s.now + 400000000 } }
    else s)

/-- Final completion of the hand-over's command. -/
def State.endHandover (s : State) (st : Status) (words : List Nat) : State :=
  match s.fw.handCmd with
  | some (p, tag) => ({ s with fw := { s.fw with handCmd := none } } : State).complete p.val tag 0x0C04 st words
  | none => s

/-- Intake, dispatch and admission resume; held entries are written in order; the timer of a reset requested meanwhile
starts (R402, R403). -/
def State.resumeFw (s : State) : State :=
  let s : State := { s with fw := { s.fw with hand := 0, state := 1 } }
  let held := s.evt.buffer
  let s : State := { s with evt.buffer := [] }
  let s := (List.range 16).foldl (fun s p =>
    (s.flushCpl p).updFn p (fun f => if f.reset = 1 then { f with resetAt := s.now } else f)) s
  let s := held.foldl (fun s x => s.deliver x.1.val x.2) s
  (List.range 16).foldl State.drainEvts s

/-- HANDOVER_DRAIN_TIMEOUT: the hand-over is abandoned. -/
def execHandoverDrainTimeout (s : State) : Out :=
  .next (
    if s.fw.hand = 1 ∧ ¬ s.drained then
      (((s.moveTo s.fw.handDue).resumeFw.event 0x090 [3]).endHandover .busy [])
    else s)

/-- HANDOVER_RESUME: step 4; the new bank is active. -/
def execHandoverResume (us : Nat) (s : State) : Out :=
  .next (
    if s.fw.hand = 2 ∧ us ≤ 400000 then
      let s := s.moveTo (s.fw.handDue - 400000000 + 1000 * us)
      let b := !s.fw.bank
      let s : State := { s with fw := { s.fw with bank := b, next := b, mayHand := false } }
      ((s.resumeFw).endHandover .ok [s.fw.version, us]).event 0x090 [2]
    else s)

/-- HANDOVER_REVERT: the new firmware has not resumed; the old one runs from its bank. -/
def execHandoverRevert (s : State) : Out :=
  .next (
    if s.fw.hand = 2 then (((s.moveTo s.fw.handDue).resumeFw).endHandover .internal []).event 0x090 [4]
    else s)

/-- hlt.fw_select: the bank of the next boot (16 R450). -/
def execHltFwSelect (p : Part) (tag : Nat) (bankB : Bool) (s : State) : Out :=
  .next (s.command p tag 0x0D06 false (s.isSystem p.val)
    [(!(if bankB then s.fw.validB else s.fw.validA), .conflict, [])] (fun s =>
      ({ s with fw := { s.fw with next := bankB } } : State).complete p.val tag 0x0D06 .ok []))

/-! ## Events and first-error records (16 R435, R442, R443, R445) -/

/-- hlt.force: one occurrence with a stated payload. -/
def execHltForce (p : Part) (tag : Nat) (source : Nat) (payload : List Nat) (s : State) : Out :=
  .next (s.command p tag 0x0D01 false (s.isSystem p.val)
    [(decide (2048 ≤ source) || reservedSrc source || decide (10 < payload.length), .badParam, [])] (fun s =>
      (s.force source payload).complete p.val tag 0x0D01 .ok []))

/-- hlt.alarm_ack: GONG_N is released, but in the FATAL state. -/
def execHltAlarmAck (p : Part) (tag : Nat) (s : State) : Out :=
  .next (s.command p tag 0x0D02 false (s.isSystem p.val) [] (fun s =>
    let s : State := if s.evt.fatal then s else { s with evt.gong := false, evt.gongFirst := 0x7FF }
    s.complete p.val tag 0x0D02 .ok []))

/-- The partition may read a record. -/
def State.mayErr (s : State) (p : Nat) (e : FErr) : Bool :=
  s.isSystem p || decide (e.master = p) || (match e.elem with
    | some x => (s.ownersOf x).contains p
    | none => false)

/-- The partition may read the record of a block; one that holds no error is no one's. -/
def State.mayFerr (s : State) (p block : Nat) : Bool :=
  match Tbl.find s.evt.ferr block with
  | some e => s.mayErr p e
  | none => s.isSystem p

/-- A first-error record in the words of a completion. -/
def FErr.words (e : FErr) : List Nat :=
  words64 e.time ++ words64 e.addr ++
    [e.master % 256 + 2 ^ 8 * e.access + 2 ^ 11 + 2 ^ 12 * (e.element % 4096), e.source + 2 ^ 16 * e.count]

/-- hlt.ferr_read. -/
def execHltFerrRead (p : Part) (tag : Nat) (block : Nat) (s : State) : Out :=
  .next (s.command p tag 0x0D03 false (decide (14 < block) || s.mayFerr p.val block)
    [(decide (14 < block), .badParam, [])] (fun s =>
      s.complete p.val tag 0x0D03 .ok (match Tbl.find s.evt.ferr block with
        | some e => e.words
        | none => [0, 0, 0, 0, 0, 0])))

/-- hlt.ferr_clear: one record, or all that the partition may read. -/
def execHltFerrClear (p : Part) (tag : Nat) (block : Nat) (s : State) : Out :=
  .next (s.command p tag 0x0D04 false (decide (14 < block) || s.mayFerr p.val block)
    [(decide (14 < block) && block != 0xFF, .badParam, [])] (fun s =>
      let s : State := if block = 0xFF then { s with evt.ferr := s.evt.ferr.filter (fun x => !s.mayErr p.val x.2) }
        else { s with evt.ferr := Tbl.del s.evt.ferr block }
      s.complete p.val tag 0x0D04 .ok []))

/-! ## Lifting a fence (16 R448, R449) -/

/-- Resource ID of a unit that `hlt.unfence` names. -/
def unitRes : RepairUnit → Nat
  | .engine e => resId 1 e.val 1
  | .lane l => resId 3 l.val 1
  | .raster n => resId 6 n.val 1
  | .badKind | .badElement => 0

/-- The unit is fenced. -/
def State.unitFenced (s : State) : RepairUnit → Bool
  | .engine e => (s.engAt e.val).mode == .fenced
  | .lane l => (s.laneAt l.val).fenced
  | .raster n => (s.rseAt n.val).fenced
  | .badKind | .badElement => false

/-- Times that the unit has been fenced since module reset. -/
def State.unitFences (s : State) : RepairUnit → Nat
  | .engine e => (s.engAt e.val).fences
  | .lane l => (s.laneAt l.val).fences
  | .raster n => (s.rseAt n.val).fences
  | .badKind | .badElement => 0

/-- What an accepted `hlt.unfence` of the unit answers without a test, if anything. -/
def State.unfenceNow (s : State) (u : RepairUnit) : Option (Status × List Nat) :=
  match u with
  | .lane l =>
    if (s.laneAt l.val).vacated then some (.conflict, [resId 2 (l.val / 33) 3])
    else if !s.unitFenced u then some (.ok, [])
    else if 3 ≤ s.unitFences u then some (.fenced, [])
    else none
  | u =>
    if !s.unitFenced u then some (.ok, [])
    else if 3 ≤ s.unitFences u then some (.fenced, [])
    else none

/-- hlt.unfence: ACCEPTED, and the unit's self-test runs. -/
def execHltUnfence (p : Part) (tag : Nat) (unit : RepairUnit) (s : State) : Out :=
  .next (s.command p tag 0x0D05 false (s.rightConfig p.val)
    [(unit == .badKind, .badParam, []), (unit == .badElement, .outOfRange, []),
     ((match unit with
       | .lane l => (s.pmuOn (l.val / 33)).isSome
       | _ => false) || s.cal.unfence.any (fun x => x.1 == unit), .busy, [])] (fun s =>
      let s := s.complete p.val tag 0x0D05 .accepted []
      match s.unfenceNow unit with
      | some (st, ws) => s.complete p.val tag 0x0D05 st ws
      | none => { s with cal.unfence := s.cal.unfence ++ [(unit, p, tag)] }))

/-- An engine returns with the running microcode; while its sensor is broken it stays fenced for the sensor (15 R421). -/
def State.unfenceEngine (s : State) (e : Nat) : State :=
  let shares := s.shares
  if (s.snsAt (16 + e / 8)).fencing then s.updEng e (fun x => { x with sensorFence := true, ucode := s.fw.ucode })
  else (s.updEng e (fun x => { x with mode := .idle, ucode := s.fw.ucode })).poolEvent raiseTop shares

/-- A lane returns: its channel's pin electronics run the seed sweep (05 R156, R163). -/
def State.unfenceLane (s : State) (l : Nat) : State :=
  let on := match s.chanOf l with
    | some c => s.parN 3 c 0x00A == 1
    | none => false
  s.updLane l (fun x => { x with fenced := false, sweep := on })

/-- The unit returns to service. -/
def State.unfenceUnit (s : State) : RepairUnit → State
  | .engine e => s.unfenceEngine e.val
  | .lane l => s.unfenceLane l.val
  | .raster n => s.updRse n.val (fun x => { x with fenced := false })
  | .badKind | .badElement => s

/-- UNFENCE_SELFTEST_DONE: OK returns the unit with event UNFENCE, a failure leaves it fenced. -/
def execUnfenceSelftestDone (unit : RepairUnit) (ok : Bool) (s : State) : Out :=
  .next (match s.cal.unfence.find? (fun x => x.1 == unit) with
    | none => s
    | some (_, p, tag) =>
      let s : State := { s with cal.unfence := s.cal.unfence.filter (fun x => x.1 != unit) }
      let s := if ok then s.unfenceUnit unit else s
      if ok && !s.unitFenced unit then (s.event 0x057 [unitRes unit]).complete p.val tag 0x0D05 .ok []
      else s.complete p.val tag 0x0D05 .fenced [])

end Sys2Proof.Machine
end

