-- ==== Sys2Proof/Machine/CalRows.lean ====
section
/-!
DEFINITION. Reference calibration, the store of the calibration flash, the commands of block CAL (17 R463–R475).
Stored values: deskew in units of 0.25 ps, offsets in µV, gains as their difference from 1 in units of 10⁻⁶.
-/

namespace Sys2Proof.Machine

/-! ## The queue (R464) -/

/-- Units that two masks name: groups, then DPS channels, rising. -/
def calUnits (groups dps : Nat) : List CalUnit :=
  (((List.range 16).filter (fun g => bit groups g == 1)).map (fun g => CalUnit.group (toFin 16 g (by decide)))) ++
    (((List.range 18).filter (fun d => bit dps d == 1)).map (fun d => CalUnit.dps (toFin 18 d (by decide))))

/-- The requester owns a unit: every channel of the group, or the site of the DPS channel. -/
def State.ownsCal (s : State) (p : Nat) : CalUnit → Bool
  | .group g => s.ownsGrp p g.val
  | .dps d => match s.dpsSite d.val with
    | some k => (s.part p).sites.getLsbD k
    | none => false

/-- A unit that is fenced. -/
def State.calFenced (s : State) : CalUnit → Bool
  | .group g => (s.grpAt g.val).dead || (s.grpAt g.val).sensorFence || (s.grpAt g.val).pll == .fenced
  | .dps d => (s.dpsAt d.val).mode == .fenced

/-- A DPS channel that is on, or a unit already queued. -/
def State.calBusy (s : State) (u : CalUnit) : Bool :=
  s.inCal u || (match u with
    | .group _ => false
    | .dps d => (s.dpsAt d.val).on)

/-- cal.run: ACCEPTED, and the units join the queue. -/
def execCalRun (p : Part) (tag : Nat) (groups dps : Nat) (s : State) : Out :=
  let us := calUnits groups dps
  .next (s.command p tag 0x0E01 false (s.isSystem p.val || us.all (s.ownsCal p.val))
    [(decide (groups = 0 ∧ dps = 0) || decide (2 ^ 16 ≤ groups) || decide (2 ^ 18 ≤ dps), .outOfRange, []),
     (s.parN 14 0 0x001 == 0 || s.parN 14 0 0x002 == 0, .badParam, []),
     (us.any s.calBusy, .busy, []),
     (us.any s.calFenced, .fenced, [])] (fun s =>
      let s := s.complete p.val tag 0x0E01 .accepted []
      { s with cal.run := { s.cal.run with
          queue := s.cal.run.queue ++ us.map (fun u => (u, some (p, tag)))
          cmds := s.cal.run.cmds ++ [(p, tag, [0, 0, 0, 0, 0])] } }))

/-- The unit at the head may start: no burst uses the group, none of the DPS channel's site is dispatched or running,
and the channel is off. -/
def State.calFree (s : State) : CalUnit → Bool
  | .group g => !s.grpBusy g.val
  | .dps d => !(s.dpsAt d.val).on && (match s.dpsSite d.val with
    | some k => !s.siteBusy k
    | none => true)

/-- An attempt begins: the group is fenced, with every lane open (R465). -/
def State.calBegin (s : State) (u : CalUnit) : State :=
  match u with
  | .group g =>
    ((List.range 33).map (33 * g.val + ·)).foldl (fun s l => s.updLane l LaneSt.open_)
      (s.updGrp g.val (fun x => { x with calFence := true }))
  | .dps _ => s

/-- Temperature that an attempt on the unit watches (R466). -/
def State.calTempOf (s : State) : CalUnit → Int
  | .group g => (s.grpAt g.val).tIsl
  | .dps d => s.snsTemp (28 + d.val)

/-- An attempt starts now. -/
def State.calStart (s : State) (u : CalUnit) (n : Nat) : State :=
  { s with cal.run := { s.cal.run with running := some (u, n), startedAt := s.now, startTemp := s.calTempOf u } }

/-- CAL_UNIT_START: the first attempt on the unit at the head; one that has been fenced meanwhile is abandoned. -/
def execCalUnitStart (s : State) : Out :=
  .next (match s.cal.run.running, s.cal.run.queue with
    | none, (u, own) :: rest =>
      if s.calFenced u then
        (({ s with cal.run := { s.cal.run with queue := rest } } : State)).calDone u .abandoned own
      else if s.calFree u then
        (({ s with cal.run := { s.cal.run with queue := rest, runOwn := own } } : State).calStart u 1).calBegin u
      else s
    | _, _ => s)

/-! ## The end of an attempt (R465–R468) -/

/-- TAI second of now; 0 without a label (R477; 12 R352). -/
def State.taiNow (s : State) : Nat :=
  let t := s.ngl.tm
  if t.todSec = 0 then 0 else (t.todSec + (s.now - t.todMt) / 1000000000) % 2 ^ 32

/-- `n` free values, each within ±`m`. -/
def State.freeInts (s : State) (n m : Nat) : List Int :=
  (List.range n).map (fun i => ((Config.freeNat (s.free + i) % (2 * m + 1) : Nat) : Int) - (m : Int))

/-- Count `n` drawn free values. -/
def State.drawn (s : State) (n : Nat) : State := { s with free := s.free + n }

/-- New reference values of a lane: they are measured, so free within the ranges of R466. -/
def State.newLane (s : State) (l : Nat) : State :=
  let dsk := s.freeInts 2 8192
  let ofs := (s.drawn 2).freeInts 8 50000
  let gain := (s.drawn 10).freeInts 8 20000
  (s.drawn 18).updLane l (fun x => { x with
    refD := dsk.headD 0, refC := dsk.getD 1 0, levels := (ofs.zip gain).flatMap (fun y => [y.1, y.2]) })

/-- A new internal-reference value of a converter. -/
def State.newRef (s : State) (c : Nat) : State :=
  (s.drawn 1).updPadc c (fun x => { x with ref := some (s.freeVal : Nat) })

/-- A pending store (R474). -/
def State.storeDue (s : State) : State := { s with cal.store := { s.cal.store with pending := true } }

/-- An attempt passes: the new values are accepted and applied. -/
def State.calAccept (s : State) (u : CalUnit) (n : Nat) : State :=
  let tai := s.taiNow
  match u with
  | .group g =>
    let s := (s.newRef g.val)
    let s := ((List.range 33).map (33 * g.val + ·)).foldl State.newLane s
    let s := s.updGrp g.val (fun x => { x with
      refState := 1, refCount := satAdd x.refCount 1 0xFFFFFFFF, refLast := s.now, refTai := tai, calTemp := x.tIsl
      refAttempts := n
      tcClamp := false })
    let s := (s.statZero g.val).retarget g.val
    let s := (grpLanes g.val).foldl (fun s l => s.updLane l (fun x => { x with tc := x.tcTarget })) s
    (s.event 0x5E0 [0, g.val, n] [.grp g.val]).storeDue
  | .dps d =>
    let s := s.newRef 16
    let corr := s.freeInts 7 50000
    let s := (s.drawn 7).updDps d.val (fun x => { x with
      refState := 1, refCount := satAdd x.refCount 1 0xFFFFFFFF, refLast := s.now, refTai := tai, corr, refAttempts := n
      calTemp := s.snsTemp (28 + d.val) })
    (s.event 0x5E0 [1, d.val, n] [.dps d.val]).storeDue

/-- The third failure rejects the unit: its previous values stay applied. -/
def State.calReject (s : State) (u : CalUnit) (quantity lane : Nat) : State :=
  match u with
  | .group g =>
    let s := s.updGrp g.val (fun x => { x with
      refState := 2, refReject := satAdd x.refReject 1 0xFFFFFFFF, refAttempts := 3 })
    ((s.followStale g.val).event 0x5E1 [0, g.val, quantity, lane] [.grp g.val]).storeDue
  | .dps d =>
    let s := s.updDps d.val (fun x => { x with
      refState := 2, refReject := satAdd x.refReject 1 0xFFFFFFFF, refAttempts := 3 })
    (s.event 0x5E1 [1, d.val, quantity, lane] [.dps d.val]).storeDue

/-- Length of an attempt in ns. -/
def calNs : CalUnit → Nat
  | .group _ => 240000000
  | .dps _ => 90000000

/-- The unit's calibration is over: its fence is lifted and its command counts it. -/
def State.calFinish (s : State) (u : CalUnit) (how : CalHow) : State :=
  let own := s.cal.run.runOwn
  ((({ s with cal.run := { s.cal.run with running := none, runOwn := none } } : State)).calRelease u).calDone u how own

/-- A failed attempt: repeated at once, up to 3 in all (R466). -/
def State.calFail (s : State) (u : CalUnit) (n quantity lane : Nat) : State :=
  if 3 ≤ n then (s.calReject u quantity lane).calFinish u .rejected else s.calStart u (n + 1)

/-- The watched temperature has moved by more than 1.0 °C over the attempt (R466). -/
def State.calMoved (s : State) (u : CalUnit) : Bool := decide (100 < (s.calTempOf u - s.cal.run.startTemp).natAbs)

/-- CAL_ATTEMPT_END: passed, failed (repeated up to 3 attempts), or abandoned for want of a reference. An attempt whose
readings pass fails when the temperature has moved; which quantity is then named is a free value. -/
def execCalAttemptEnd (u : CalUnit) (outcome : CalEnd) (s : State) : Out :=
  .next (match s.cal.run.running with
    | none => s
    | some (v, n) =>
      if v ≠ u then s
      else match outcome with
        | .refAbsent which => (s.calFinish u .abandoned).event 0x5E5 [which]
        | .pass =>
          let s := s.moveTo (s.cal.run.startedAt + calNs u)
          if s.calMoved u then s.drawFree.calFail u n s.freeVal 0
          else (s.calAccept u n).calFinish u .accepted
        | .fail quantity lane => (s.moveTo (s.cal.run.startedAt + calNs u)).calFail u n quantity lane)

/-! ## The store (R471–R474) -/

/-- cal.store: OK at once when no store is pending; else the pending one starts, after a running one, and OK comes when it
verifies. -/
def execCalStore (p : Part) (tag : Nat) (s : State) : Out :=
  .next (s.command p tag 0x0E02 false (s.isSystem p.val) [] (fun s =>
    let st := s.cal.store
    if st.pending = false then s.complete p.val tag 0x0E02 .ok []
    else ({ s with cal.store := { st with cmds := st.cmds ++ [(p, tag, decide (st.step ≠ 0))] } } : State).startStore))

/-- STORE_INTERVAL_EXPIRY: STORE_MIN_INTERVAL after the start of the last store, a pending one starts. -/
def execStoreIntervalExpiry (s : State) : Out :=
  .next (
    let st := s.cal.store
    if st.pending ∧ st.step = 0 then
      (match st.lastAt with
        | some t => s.moveTo (t + 1000000000 * s.parN 14 0 0x003)
        | none => s).startStore
    else s)

/-- The commands that wait for the store that has verified; a later store starts for the others. -/
def State.answerStore (s : State) : State :=
  let cs := s.cal.store.cmds
  let later := (cs.filter (fun x => x.2.2)).map (fun x => (x.1, x.2.1, false))
  let s : State := { s with cal.store := { s.cal.store with cmds := later } }
  let s := (cs.filter (fun x => !x.2.2)).foldl (fun s x => s.complete x.1.val x.2.1 0x0E02 .ok []) s
  if later.isEmpty then s else s.startStore

/-- Write a slot. -/
def StoreSt.putSlot (b : Bool) (x : SlotSt) (st : StoreSt) : StoreSt :=
  if b then { st with slot1 := x } else { st with slot0 := x }

/-- What a verified step of R472 has written into the inactive slot: the erase leaves nothing, then the header from MAGIC
on with DATA, the CRC, GENERATION. Length and contents of DATA are free. -/
def State.storeStep (s : State) (st : StoreSt) : SlotSt :=
  let x := st.slot (!st.active)
  let gen := (st.slot st.active).gen
  match st.step with
  | 1 => x
  | 2 => { st.snap with
      gen := 0xFFFFFFFF, crc := 0xFFFFFFFF, magic := 0x53444331, format := 1, length := s.freeVal % 262113
      sum := s.drawFree.freeVal % 2 ^ 32 }
  | 3 => { x with crc := x.sum }
  | _ => { x with gen := if gen = 0xFFFFFFFF then 1 else gen + 1 }

/-- STORE_STEP_VERIFIED: the next step of R472, the inactive slot active after the last; a failure keeps the store
pending. -/
def execStoreStepVerified (ok : Bool) (s : State) : Out :=
  .next (
    let st := s.cal.store
    if st.step = 0 then s
    else if !ok then
      ({ s with cal.store := { st with step := 0, pending := true } } : State).event 0x5E3 [b2n (!st.active), st.step]
    else
      let new := st.putSlot (!st.active) (s.storeStep st)
      let s := if st.step = 2 then s.drawFree.drawFree else s
      if st.step < 4 then { s with cal.store := { new with step := st.step + 1 } }
      else ({ s with cal.store := { new with step := 0, active := !st.active } } : State).answerStore)

/-- cal.stat_clear: the statistics of a group end at its next moment between bursts (R463). -/
def execCalStatClear (p : Part) (tag : Nat) (g : Grp) (s : State) : Out :=
  .next (s.command p tag 0x0E03 false (s.isSystem p.val || s.ownsGrp p.val g.val) [] (fun s =>
    ((s.updGrp g.val (fun x => { x with statClear := true })).statClears).complete p.val tag 0x0E03 .ok []))

end Sys2Proof.Machine
end

