-- ==== Sys2Proof/Machine/Rudiment.lean ====
section
/-!
DEFINITION. The Rudiment monitor of the service port: its commands as the service core has parsed them (16 R451–R454).
-/

namespace Sys2Proof.Machine

/-- Print. -/
def State.print (s : State) (o : RudOut) : State := { s with uart := o :: s.uart }

/-- `sys.service_unlock` holds. -/
def State.unlocked (s : State) : Bool := s.fw.svcUntil.isSome

/-- Firmware runs. -/
def State.fwRuns (s : State) : Bool := s.fw.state == 1 || s.fw.state == 2

/-- Parameters held in hardware: those of block HLT, which hold sensors and the event fabric (notes/assumptions/34.md). -/
def hwHeld (id : Nat) : Bool := pidBlk id == 13

/-- Why a status is refused, as Rudiment prints it. -/
def rudErr : Status → RudErr
  | .deniedWorld | .deniedPartition => .denied
  | _ => .range

/-- help. -/
def execHelp (s : State) : Out := .next (s.print .help)

/-- What `peek` shows: the value as the system partition reads it, and for an RL value the companion words that this read
latched (00 R5, R6). -/
def State.peekVal (s : State) (id : Nat) : (Int × List Nat) × State :=
  let sp := s.host.sysPart.val
  let (v, t) := s.readParam sp false id
  let rl := (idRow id).any (fun r => decide (r.acc = .rl))
  ((v, if rl then (t.fnAt sp).latched (.param id) else []), t)

/-- peek: locked, it refuses the secure parameters, which no host reads (R452); without firmware, those held in hardware only. -/
def execPeek (id : Nat) (s : State) : Out :=
  .next (
    match s.readCheck s.host.sysPart.val id with
    | some .deniedWorld =>
      if !s.unlocked then s.print (.err .denied)
      else if !s.fwRuns && !hwHeld id then s.print (.err .nofw)
      else
        let (x, t) := s.peekVal id
        t.print (.value x.1 x.2)
    | some st => s.print (.err (rudErr st))
    | none =>
      if !s.fwRuns && !hwHeld id then s.print (.err .nofw)
      else
        let (x, t) := s.peekVal id
        t.print (.value x.1 x.2))

/-- One parameter staged and committed as the system partition would, its own staged sets left as they are. -/
def State.pokeVal (s : State) (id : Nat) (value : Int) : Status × State :=
  let sp := s.host.sysPart
  let f := s.fnAt sp.val
  let bare := s.updFn sp.val (fun f => { f with staged := [], stagedTs := [], stagedRate := [] })
  let (st, _, t) := bare.setPairs sp [(id, value)] true
  (st, t.updFn sp.val (fun g => { g with staged := f.staged, stagedTs := f.stagedTs, stagedRate := f.stagedRate }))

/-- poke: unlocked only; each one raises SVC_POKE. -/
def execPoke (id : Nat) (value : Int) (s : State) : Out :=
  .next (
    if !s.unlocked then s.print (.err .denied)
    else if !s.fwRuns && !hwHeld id then s.print (.err .nofw)
    else
      let (st, t) := s.pokeVal id value
      if st = .ok then (t.event 0x053 [id, word32 value]).print .done else s.print (.err (rudErr st)))

/-- Fenced units. -/
def State.fencedUnits (s : State) : List FUnit :=
  let of {α : Type} (t : Tbl α) (f : α → Bool) (u : Nat → FUnit) : List FUnit :=
    (t.filter (fun x => f x.2)).map (fun x => u x.1)
  of s.ve.eng (fun x => x.mode == .fenced) .engine ++
    of s.pf.grp (fun x => x.dead || x.pll == .fenced || x.calFence) (fun g => .group g ((s.grpAt g).dead == false)) ++
    of s.pf.grp (fun x => x.sensorFence) .groupSensor ++ of s.pf.grp (fun x => x.cmpFenced) .slice ++
    of s.pf.lane (fun x => x.fenced || x.vacated) .lane ++
    of s.pf.dps (fun x => x.mode == .fenced) (fun d => .dps d (s.dpsAt d).tripped) ++
    of s.rse (fun x => x.fenced) .rse ++ of s.pf.lane (fun x => x.tmuFenced) .tmuLane ++
    of s.acq.ms (fun x => x.fenced) .tmuSet ++ of s.acq.padc (fun x => x.fenced) .conv ++
    of s.mem.mc (fun x => x.mode == 3) .mc

/-- FATAL_STATE. -/
def State.fatalState (s : State) : Int := ((s.evt.fatalSrc + 65536 * b2n s.evt.fatal : Nat) : Int)

/-- faults. -/
def execFaults (s : State) : Out :=
  .next (s.print (.faults (s.evt.sticky.map (fun x => (x.1, x.2.1, x.2.2.1))) s.evt.ferr s.fencedUnits s.fatalState))

/-- temps. -/
def execTemps (s : State) : Out :=
  .next (s.print (.temps ((List.range 48).map (fun n => (s.snsTemp n, s.snsState n))) s.tDie (s.tHbm 0) (s.tHbm 1)
    s.thermState))

/-- time. -/
def execTime (s : State) : Out :=
  .next (s.print (.time s.now s.ngl.tm.sel s.timeState s.acq.osc.state s.ngl.tm.todSec))

/-- lanes. -/
def execLanes (s : State) : Out :=
  .next (s.print (.lanes ((List.range 38).map s.laneLink)
    ((List.range 528).filter (fun l => (s.laneAt l).fenced || (s.laneAt l).vacated ||
      (l % 33 == 32 && (s.grpAt (l / 33)).l32.isSome)))))

/-- FW_BANK. -/
def FwSt.bankWord (f : FwSt) : Nat :=
  b2n f.bank + 2 * b2n f.next + 4 * b2n f.validA + 8 * b2n f.validB + 16 * b2n f.fellBack

/-- fw. -/
def execFw (s : State) : Out := .next (s.print (.fw s.fw.state s.fw.bankWord s.fw.verA s.fw.verB))

/-- fw select: as `hlt.fw_select`, unlocked only. -/
def execFwSelect (bankB : Bool) (s : State) : Out :=
  .next (
    if !s.unlocked then s.print (.err .denied)
    else if !(if bankB then s.fw.validB else s.fw.validA) then s.print (.err .range)
    else ({ s with fw := { s.fw with next := bankB } } : State).print .done)

/-- reset: unlocked, or locked while FW_STATE reads 3; not while EJECT_N is asserted (15 R418), after a die trip once
the die has cooled (15 R427). -/
def execRudimentReset (s : State) : Out :=
  .next (
    if (s.unlocked || s.fw.state == 3) && !s.pwr.sup.eject then s.requestReset 4
    else s.print (.err .denied))

end Sys2Proof.Machine
end

