-- ==== Sys2Proof/Machine/Dispatch.lean ====
section
/-!
DEFINITION. The meaning of each command: one arm per constructor, in the table's order.
-/

namespace Sys2Proof.Machine

/-- What a command does to everything but the queue. -/
def exec (i : Instr) (s : State) : Host.Outcome State Fault Refusal :=
  match i with
  | .vec e count => Sys2Proof.Machine.execVec e count s
  | .rpt e count => Sys2Proof.Machine.execRpt e count s
  | .loop e count => Sys2Proof.Machine.execLoop e count s
  | .endl e => Sys2Proof.Machine.execEndl e s
  | .call e segment => Sys2Proof.Machine.execCall e segment s
  | .ret e => Sys2Proof.Machine.execRet e s
  | .jmp e segment lpop => Sys2Proof.Machine.execJmp e segment lpop s
  | .jf e segment lpop clr => Sys2Proof.Machine.execJf e segment lpop clr s
  | .jnf e segment lpop clr => Sys2Proof.Machine.execJnf e segment lpop clr s
  | .matchLoop e segment maxIter sense toFail => Sys2Proof.Machine.execMatchLoop e segment maxIter sense toFail s
  | .matchDecide e => Sys2Proof.Machine.execMatchDecide e s
  | .wait e ns count => Sys2Proof.Machine.execWait e ns count s
  | .wtrg e trigger timeout latch toFail => Sys2Proof.Machine.execWtrg e trigger timeout latch toFail s
  | .wtrgTo e => Sys2Proof.Machine.execWtrgTo e s
  | .mark e output act => Sys2Proof.Machine.execMark e output act s
  | .signal e token => Sys2Proof.Machine.execSignal e token s
  | .tset e ts groups off => Sys2Proof.Machine.execTset e ts groups off s
  | .stream e value strm act => Sys2Proof.Machine.execStream e value strm act s
  | .capon e config => Sys2Proof.Machine.execCapon e config s
  | .capoff e config => Sys2Proof.Machine.execCapoff e config s
  | .stamp e mset disarm => Sys2Proof.Machine.execStamp e mset disarm s
  | .inj e group conv => Sys2Proof.Machine.execInj e group conv s
  | .failstop e en => Sys2Proof.Machine.execFailstop e en s
  | .halt e => Sys2Proof.Machine.execHalt e s
  | .controlDescriptorAct r => Sys2Proof.Machine.execControlDescriptorAct r s
  | .illegalOpcodeTrap e opcode => Sys2Proof.Machine.execIllegalOpcodeTrap e opcode s
  | .controlStoreScrub e parityError addr => Sys2Proof.Machine.execControlStoreScrub e parityError addr s
  | .taskDispatch ix => Sys2Proof.Machine.execTaskDispatch ix s
  | .loopStoreFillDone e ecc x => Sys2Proof.Machine.execLoopStoreFillDone e ecc x s
  | .islandFilled r g => Sys2Proof.Machine.execIslandFilled r g s
  | .burstStartTick r => Sys2Proof.Machine.execBurstStartTick r s
  | .granuleDelivered e ecc x gran => Sys2Proof.Machine.execGranuleDelivered e ecc x gran s
  | .positionMissing r cause mc => Sys2Proof.Machine.execPositionMissing r cause mc s
  | .pauseResume r => Sys2Proof.Machine.execPauseResume r s
  | .stretchLimitReached r => Sys2Proof.Machine.execStretchLimitReached r s
  | .compareResultFinal r seen => Sys2Proof.Machine.execCompareResultFinal r seen s
  | .asyncEventAct r => Sys2Proof.Machine.execAsyncEventAct r s
  | .runLimitExpiry r => Sys2Proof.Machine.execRunLimitExpiry r s
  | .burstEnd r => Sys2Proof.Machine.execBurstEnd r s
  | .burstResultFinal r => Sys2Proof.Machine.execBurstResultFinal r s
  | .tokenArrival scope kind key result => Sys2Proof.Machine.execTokenArrival scope kind key result s
  | .tokenOverflowDrain => Sys2Proof.Machine.execTokenOverflowDrain s
  | .waitTimeoutExpiry ix => Sys2Proof.Machine.execWaitTimeoutExpiry ix s
  | .admitPatienceExpiry => Sys2Proof.Machine.execAdmitPatienceExpiry s
  | .affPatienceExpiry ix => Sys2Proof.Machine.execAffPatienceExpiry ix s
  | .linkTimeoutExpiry r => Sys2Proof.Machine.execLinkTimeoutExpiry r s
  | .linkMemberLost site node => Sys2Proof.Machine.execLinkMemberLost site node s
  | .budgetRecompute => Sys2Proof.Machine.execBudgetRecompute s
  | .c1Stall port => Sys2Proof.Machine.execC1Stall port s
  | .dpsStepAdmitted site => Sys2Proof.Machine.execDpsStepAdmitted site s
  | .dpsSeedSweepEnd d hi lo cur => Sys2Proof.Machine.execDpsSeedSweepEnd d hi lo cur s
  | .dpsRampEnd d => Sys2Proof.Machine.execDpsRampEnd d s
  | .dpsSettled d => Sys2Proof.Machine.execDpsSettled d s
  | .seqDelayExpiry site => Sys2Proof.Machine.execSeqDelayExpiry site s
  | .seqTimeout site => Sys2Proof.Machine.execSeqTimeout site s
  | .dpsOffLevelReached d => Sys2Proof.Machine.execDpsOffLevelReached d s
  | .dischSlow d => Sys2Proof.Machine.execDischSlow d s
  | .windowFault d => Sys2Proof.Machine.execWindowFault d s
  | .senseOpen d => Sys2Proof.Machine.execSenseOpen d s
  | .dpsStageTrip d loopFault => Sys2Proof.Machine.execDpsStageTrip d loopFault s
  | .laneOvercurrent l => Sys2Proof.Machine.execLaneOvercurrent l s
  | .laneOvervoltage l => Sys2Proof.Machine.execLaneOvervoltage l s
  | .laneSeedSweepEnd l selfCheckOk => Sys2Proof.Machine.execLaneSeedSweepEnd l selfCheckOk s
  | .connChangeComplete done => Sys2Proof.Machine.execConnChangeComplete done s
  | .pmuSettled g => Sys2Proof.Machine.execPmuSettled g s
  | .xtrigEdge input falling t => Sys2Proof.Machine.execXtrigEdge input falling t s
  | .captureRingEnd u => Sys2Proof.Machine.execCaptureRingEnd u s
  | .streamProdUpdate h => Sys2Proof.Machine.execStreamProdUpdate h s
  | .streamConsRead h cons => Sys2Proof.Machine.execStreamConsRead h cons s
  | .epochDue => Sys2Proof.Machine.execEpochDue s
  | .streamError h addr => Sys2Proof.Machine.execStreamError h addr s
  | .rawRecordClose m => Sys2Proof.Machine.execRawRecordClose m s
  | .stampEdge l vcl rising stamp => Sys2Proof.Machine.execStampEdge l vcl rising stamp s
  | .msTimeout m => Sys2Proof.Machine.execMsTimeout m s
  | .freqGateClose m stamp edges => Sys2Proof.Machine.execFreqGateClose m stamp edges s
  | .oscTcompUpdate temp => Sys2Proof.Machine.execOscTcompUpdate temp s
  | .oscAgeingStep => Sys2Proof.Machine.execOscAgeingStep s
  | .oscWarm => Sys2Proof.Machine.execOscWarm s
  | .oscFault => Sys2Proof.Machine.execOscFault s
  | .regIntervalDue c => Sys2Proof.Machine.execRegIntervalDue c s
  | .injConversionStart c => Sys2Proof.Machine.execInjConversionStart c s
  | .conversionEnd c outputs clamp ovr => Sys2Proof.Machine.execConversionEnd c outputs clamp ovr s
  | .selfcalStart c => Sys2Proof.Machine.execSelfcalStart c s
  | .selfcalEnd c zeroMean refMean => Sys2Proof.Machine.execSelfcalEnd c zeroMean refMean s
  | .padcPowerupWarm c => Sys2Proof.Machine.execPadcPowerupWarm c s
  | .hkSlotEnd value => Sys2Proof.Machine.execHkSlotEnd value s
  | .rseVblank n => Sys2Proof.Machine.execRseVblank n s
  | .rseFrameChecked n crcs invalid syncLost => Sys2Proof.Machine.execRseFrameChecked n crcs invalid syncLost s
  | .rsePixelUnderrun n layer count => Sys2Proof.Machine.execRsePixelUnderrun n layer count s
  | .latTolReport n tol => Sys2Proof.Machine.execLatTolReport n tol s
  | .refreshDue x => Sys2Proof.Machine.execRefreshDue x s
  | .stackTempRead k reading => Sys2Proof.Machine.execStackTempRead k reading s
  | .retrainDue m => Sys2Proof.Machine.execRetrainDue m s
  | .retrainDeferExpiry m => Sys2Proof.Machine.execRetrainDeferExpiry m s
  | .retrainDone m good => Sys2Proof.Machine.execRetrainDone m good s
  | .parityAlert x sameCommandThird => Sys2Proof.Machine.execParityAlert x sameCommandThird s
  | .lpEntry x selfRefresh => Sys2Proof.Machine.execLpEntry x selfRefresh s
  | .lpExit x => Sys2Proof.Machine.execLpExit x s
  | .memRequestServed x cls write p addr ecc => Sys2Proof.Machine.execMemRequestServed x cls write p addr ecc s
  | .tickSend => Sys2Proof.Machine.execTickSend s
  | .tickReceive rx dom master usLo depart arrival => Sys2Proof.Machine.execTickReceive rx dom master usLo depart arrival s
  | .tickLoss dom => Sys2Proof.Machine.execTickLoss dom s
  | .timeLock => Sys2Proof.Machine.execTimeLock s
  | .domainRevert => Sys2Proof.Machine.execDomainRevert s
  | .c0TriggerReceive rx dom number tShort t => Sys2Proof.Machine.execC0TriggerReceive rx dom number tShort t s
  | .ngulosTriggerAct number => Sys2Proof.Machine.execNgulosTriggerAct number s
  | .c0StopReceive rx all linkId cause node => Sys2Proof.Machine.execC0StopReceive rx all linkId cause node s
  | .echoSend port => Sys2Proof.Machine.execEchoSend port s
  | .echoRequestReceive rx sendTime t => Sys2Proof.Machine.execEchoRequestReceive rx sendTime t s
  | .echoReplyReceive rx t1 t4 turnaround => Sys2Proof.Machine.execEchoReplyReceive rx t1 t4 turnaround s
  | .flowReceive rx xoff credits ackSeq nak => Sys2Proof.Machine.execFlowReceive rx xoff credits ackSeq nak s
  | .c1ReplayTimeout port => Sys2Proof.Machine.execC1ReplayTimeout port s
  | .tokenFrame port h scope kind key result => Sys2Proof.Machine.execTokenFrame port h scope kind key result s
  | .linkReadyFrame port ends fcs linkId => Sys2Proof.Machine.execLinkReadyFrame port ends fcs linkId s
  | .linkResultFrame port ends fcs linkId result => Sys2Proof.Machine.execLinkResultFrame port ends fcs linkId result s
  | .announce rx addr withdraw => Sys2Proof.Machine.execAnnounce rx addr withdraw s
  | .timeSet rx dom master hops t => Sys2Proof.Machine.execTimeSet rx dom master hops t s
  | .timeSetPeriodic => Sys2Proof.Machine.execTimeSetPeriodic s
  | .timeLabel rx dom seconds t => Sys2Proof.Machine.execTimeLabel rx dom seconds t s
  | .alarmFrame port ends fcs event count t => Sys2Proof.Machine.execAlarmFrame port ends fcs event count t s
  | .logFrame port ends fcs rec => Sys2Proof.Machine.execLogFrame port ends fcs rec s
  | .logDrop port ends fcs count => Sys2Proof.Machine.execLogDrop port ends fcs count s
  | .alarmSend event => Sys2Proof.Machine.execAlarmSend event s
  | .chimeEdge c => Sys2Proof.Machine.execChimeEdge c s
  | .trainBlockReceive rx phase standby refIndep farPort node rec => Sys2Proof.Machine.execTrainBlockReceive rx phase standby refIndep farPort node rec s
  | .trainingComplete port ppm => Sys2Proof.Machine.execTrainingComplete port ppm s
  | .trainTimeoutExpiry port => Sys2Proof.Machine.execTrainTimeoutExpiry port s
  | .blockLockLoss port => Sys2Proof.Machine.execBlockLockLoss port s
  | .elasticOverflow port => Sys2Proof.Machine.execElasticOverflow port s
  | .activityDetect port => Sys2Proof.Machine.execActivityDetect port s
  | .fastExitFail port => Sys2Proof.Machine.execFastExitFail port s
  | .standbyCheckDue port ok => Sys2Proof.Machine.execStandbyCheckDue port ok s
  | .standbyReturn => Sys2Proof.Machine.execStandbyReturn s
  | .retryIntervalExpiry port => Sys2Proof.Machine.execRetryIntervalExpiry port s
  | .laneScanDone l counts incomplete => Sys2Proof.Machine.execLaneScanDone l counts incomplete s
  | .hostLinkDown h refclk => Sys2Proof.Machine.execHostLinkDown h refclk s
  | .hostLinkUp h rate width => Sys2Proof.Machine.execHostLinkUp h rate width s
  | .functionLevelReset p => Sys2Proof.Machine.execFunctionLevelReset p s
  | .vinMate vin => Sys2Proof.Machine.execVinMate vin s
  | .prechargeComplete => Sys2Proof.Machine.execPrechargeComplete s
  | .resetRelease ga => Sys2Proof.Machine.execResetRelease ga s
  | .supplyReset vinStayed => Sys2Proof.Machine.execSupplyReset vinStayed s
  | .vinWarn vinFilt => Sys2Proof.Machine.execVinWarn vinFilt s
  | .vinHigh => Sys2Proof.Machine.execVinHigh s
  | .vinOv vin => Sys2Proof.Machine.execVinOv vin s
  | .ovRecovery => Sys2Proof.Machine.execOvRecovery s
  | .inputLimit => Sys2Proof.Machine.execInputLimit s
  | .prsntNLoss => Sys2Proof.Machine.execPrsntNLoss s
  | .prsntNAssert => Sys2Proof.Machine.execPrsntNAssert s
  | .ejectNAssert => Sys2Proof.Machine.execEjectNAssert s
  | .ejectNRelease => Sys2Proof.Machine.execEjectNRelease s
  | .ejectGraceExpiry => Sys2Proof.Machine.execEjectGraceExpiry s
  | .ejectSafe => Sys2Proof.Machine.execEjectSafe s
  | .sensorRead n reading second => Sys2Proof.Machine.execSensorRead n reading second s
  | .sensorRestore n => Sys2Proof.Machine.execSensorRestore n s
  | .throttleDwellComplete stack => Sys2Proof.Machine.execThrottleDwellComplete stack s
  | .stopGraceExpiry => Sys2Proof.Machine.execStopGraceExpiry s
  | .thermalTrip n => Sys2Proof.Machine.execThermalTrip n s
  | .inconvShutdown => Sys2Proof.Machine.execInconvShutdown s
  | .pIdleMeasure power => Sys2Proof.Machine.execPIdleMeasure power s
  | .referenceCompUpdate => Sys2Proof.Machine.execReferenceCompUpdate s
  | .pllLock g => Sys2Proof.Machine.execPllLock g s
  | .pllUnlock g => Sys2Proof.Machine.execPllUnlock g s
  | .pllRelock g ok => Sys2Proof.Machine.execPllRelock g ok s
  | .ebFault g => Sys2Proof.Machine.execEbFault g s
  | .tsParity g => Sys2Proof.Machine.execTsParity g s
  | .islandTempRead g tIsl => Sys2Proof.Machine.execIslandTempRead g tIsl s
  | .tcStep l => Sys2Proof.Machine.execTcStep l s
  | .statDeskewStep l drive => Sys2Proof.Machine.execStatDeskewStep l drive s
  | .consequenceWindowClose => Sys2Proof.Machine.execConsequenceWindowClose s
  | .gongReadback => Sys2Proof.Machine.execGongReadback s
  | .fwWatchdog => Sys2Proof.Machine.execFwWatchdog s
  | .fabricParity => Sys2Proof.Machine.execFabricParity s
  | .sramUe => Sys2Proof.Machine.execSramUe s
  | .sramCorr => Sys2Proof.Machine.execSramCorr s
  | .firmwareBoot activeOk otherOk pprFailed => Sys2Proof.Machine.execFirmwareBoot activeOk otherOk pprFailed s
  | .bootTimeout => Sys2Proof.Machine.execBootTimeout s
  | .serviceLockExpiry => Sys2Proof.Machine.execServiceLockExpiry s
  | .msixCoalTimeout p evt => Sys2Proof.Machine.execMsixCoalTimeout p evt s
  | .cplDmaError p addr => Sys2Proof.Machine.execCplDmaError p addr s
  | .evtDmaError p addr => Sys2Proof.Machine.execEvtDmaError p addr s
  | .cmdTail p count written => Sys2Proof.Machine.execCmdTail p count written s
  | .cmdTake p => Sys2Proof.Machine.execCmdTake p s
  | .cmdEnable p enable => Sys2Proof.Machine.execCmdEnable p enable s
  | .ringStop p => Sys2Proof.Machine.execRingStop p s
  | .ringResume p => Sys2Proof.Machine.execRingResume p s
  | .cplCons p count => Sys2Proof.Machine.execCplCons p count s
  | .evtCons p count => Sys2Proof.Machine.execEvtCons p count s
  | .ferrClear p => Sys2Proof.Machine.execFerrClear p s
  | .linkLostClear p => Sys2Proof.Machine.execLinkLostClear p s
  | .partReset p key => Sys2Proof.Machine.execPartReset p key s
  | .modReset p key => Sys2Proof.Machine.execModReset p key s
  | .rlLowRead p reg => Sys2Proof.Machine.execRlLowRead p reg s
  | .registerWrite p offset value => Sys2Proof.Machine.execRegisterWrite p offset value s
  | .partResetAck p => Sys2Proof.Machine.execPartResetAck p s
  | .partResetComplete p => Sys2Proof.Machine.execPartResetComplete p s
  | .resetAckTimeout p => Sys2Proof.Machine.execResetAckTimeout p s
  | .sysNop p tag => Sys2Proof.Machine.execSysNop p tag s
  | .sysParamGet p tag ids list staged => Sys2Proof.Machine.execSysParamGet p tag ids list staged s
  | .sysParamSet p tag pairs commit list => Sys2Proof.Machine.execSysParamSet p tag pairs commit list s
  | .paramListDone p tag => Sys2Proof.Machine.execParamListDone p tag s
  | .sysParamCommit p tag => Sys2Proof.Machine.execSysParamCommit p tag s
  | .sysParamDiscard p tag => Sys2Proof.Machine.execSysParamDiscard p tag s
  | .sysResetPartition p tag target => Sys2Proof.Machine.execSysResetPartition p tag target s
  | .sysResetModule p tag => Sys2Proof.Machine.execSysResetModule p tag s
  | .sysServiceUnlock p tag seconds => Sys2Proof.Machine.execSysServiceUnlock p tag seconds s
  | .veImageLoad p tag image => Sys2Proof.Machine.execVeImageLoad p tag image s
  | .imageLoadDone p h => Sys2Proof.Machine.execImageLoadDone p h s
  | .veImageUnload p tag handle => Sys2Proof.Machine.execVeImageUnload p tag handle s
  | .veImageInfo p tag handle entry => Sys2Proof.Machine.execVeImageInfo p tag handle entry s
  | .veUcodeLoad p tag verified image => Sys2Proof.Machine.execVeUcodeLoad p tag verified image s
  | .ucodeEngineLoad e readBackOk => Sys2Proof.Machine.execUcodeEngineLoad e readBackOk s
  | .tmgSet p tag recs commit => Sys2Proof.Machine.execTmgSet p tag recs commit s
  | .tmgGet p tag group ts => Sys2Proof.Machine.execTmgGet p tag group ts s
  | .tmgCheck p tag site group sets => Sys2Proof.Machine.execTmgCheck p tag site group sets s
  | .tmgRateSet p tag rec commit => Sys2Proof.Machine.execTmgRateSet p tag rec commit s
  | .tmgRemap p tag group pos => Sys2Proof.Machine.execTmgRemap p tag group pos s
  | .tmgUnremap p tag group => Sys2Proof.Machine.execTmgUnremap p tag group s
  | .dpsSeqSet p tag rec => Sys2Proof.Machine.execDpsSeqSet p tag rec s
  | .dpsPowerUp p tag site => Sys2Proof.Machine.execDpsPowerUp p tag site s
  | .dpsPowerDown p tag site => Sys2Proof.Machine.execDpsPowerDown p tag site s
  | .capLogRead p tag site first count => Sys2Proof.Machine.execCapLogRead p tag site first count s
  | .capLogRelease p tag site => Sys2Proof.Machine.execCapLogRelease p tag site s
  | .capCaptureRead p tag u first count => Sys2Proof.Machine.execCapCaptureRead p tag u first count s
  | .hostTransferDone p tag how => Sys2Proof.Machine.execHostTransferDone p tag how s
  | .capTrigger p tag t => Sys2Proof.Machine.execCapTrigger p tag t s
  | .capStreamOpen p tag desc => Sys2Proof.Machine.execCapStreamOpen p tag desc s
  | .capStreamClose p tag h => Sys2Proof.Machine.execCapStreamClose p tag h s
  | .tmuArm p tag m ref => Sys2Proof.Machine.execTmuArm p tag m ref s
  | .tmuDisarm p tag m => Sys2Proof.Machine.execTmuDisarm p tag m s
  | .tmuResult p tag m => Sys2Proof.Machine.execTmuResult p tag m s
  | .padcConvert p tag c => Sys2Proof.Machine.execPadcConvert p tag c s
  | .padcSelfcal p tag c => Sys2Proof.Machine.execPadcSelfcal p tag c s
  | .schSiteDefine p tag rec => Sys2Proof.Machine.execSchSiteDefine p tag rec s
  | .schSubmit p tag desc => Sys2Proof.Machine.execSchSubmit p tag desc s
  | .schAbort p tag what => Sys2Proof.Machine.execSchAbort p tag what s
  | .schToken p tag slot node remote => Sys2Proof.Machine.execSchToken p tag slot node remote s
  | .schTokenClear p tag slot all => Sys2Proof.Machine.execSchTokenClear p tag slot all s
  | .schTaskInfo p tag ix => Sys2Proof.Machine.execSchTaskInfo p tag ix s
  | .memWrite p tag addr bytes => Sys2Proof.Machine.execMemWrite p tag addr bytes s
  | .memRead p tag addr len => Sys2Proof.Machine.execMemRead p tag addr len s
  | .memFence p tag m => Sys2Proof.Machine.execMemFence p tag m s
  | .memRemap p tag target => Sys2Proof.Machine.execMemRemap p tag target s
  | .memRepair p tag m => Sys2Proof.Machine.execMemRepair p tag m s
  | .nglConfig p tag => Sys2Proof.Machine.execNglConfig p tag s
  | .nglTrigger p tag number lead t => Sys2Proof.Machine.execNglTrigger p tag number lead t s
  | .nglStop p tag linkId all result reason => Sys2Proof.Machine.execNglStop p tag linkId all result reason s
  | .nglTimeLabel p tag seconds => Sys2Proof.Machine.execNglTimeLabel p tag seconds s
  | .nglChime p tag rec => Sys2Proof.Machine.execNglChime p tag rec s
  | .nglLaneScan p tag desc => Sys2Proof.Machine.execNglLaneScan p tag desc s
  | .nglPrbs p tag lane pattern mode inject => Sys2Proof.Machine.execNglPrbs p tag lane pattern mode inject s
  | .nglLaneRetrain p tag lane => Sys2Proof.Machine.execNglLaneRetrain p tag lane s
  | .supPartSet p tag rec => Sys2Proof.Machine.execSupPartSet p tag rec s
  | .supPartGet p tag target => Sys2Proof.Machine.execSupPartGet p tag target s
  | .supFwLoad p tag verified image minHandover => Sys2Proof.Machine.execSupFwLoad p tag verified image minHandover s
  | .supFwHandover p tag => Sys2Proof.Machine.execSupFwHandover p tag s
  | .handoverDrainDone => Sys2Proof.Machine.execHandoverDrainDone s
  | .handoverDrainTimeout => Sys2Proof.Machine.execHandoverDrainTimeout s
  | .handoverResume us => Sys2Proof.Machine.execHandoverResume us s
  | .handoverRevert => Sys2Proof.Machine.execHandoverRevert s
  | .hltForce p tag source payload => Sys2Proof.Machine.execHltForce p tag source payload s
  | .hltAlarmAck p tag => Sys2Proof.Machine.execHltAlarmAck p tag s
  | .hltFerrRead p tag block => Sys2Proof.Machine.execHltFerrRead p tag block s
  | .hltFerrClear p tag block => Sys2Proof.Machine.execHltFerrClear p tag block s
  | .hltUnfence p tag unit => Sys2Proof.Machine.execHltUnfence p tag unit s
  | .unfenceSelftestDone unit ok => Sys2Proof.Machine.execUnfenceSelftestDone unit ok s
  | .hltFwSelect p tag bankB => Sys2Proof.Machine.execHltFwSelect p tag bankB s
  | .calRun p tag groups dps => Sys2Proof.Machine.execCalRun p tag groups dps s
  | .calUnitStart => Sys2Proof.Machine.execCalUnitStart s
  | .calAttemptEnd u outcome => Sys2Proof.Machine.execCalAttemptEnd u outcome s
  | .calStore p tag => Sys2Proof.Machine.execCalStore p tag s
  | .storeIntervalExpiry => Sys2Proof.Machine.execStoreIntervalExpiry s
  | .storeStepVerified ok => Sys2Proof.Machine.execStoreStepVerified ok s
  | .calStatClear p tag g => Sys2Proof.Machine.execCalStatClear p tag g s
  | .help => Sys2Proof.Machine.execHelp s
  | .peek id => Sys2Proof.Machine.execPeek id s
  | .poke id value => Sys2Proof.Machine.execPoke id value s
  | .faults => Sys2Proof.Machine.execFaults s
  | .temps => Sys2Proof.Machine.execTemps s
  | .time => Sys2Proof.Machine.execTime s
  | .lanes => Sys2Proof.Machine.execLanes s
  | .fw => Sys2Proof.Machine.execFw s
  | .fwSelect bankB => Sys2Proof.Machine.execFwSelect bankB s
  | .rudimentReset => Sys2Proof.Machine.execRudimentReset s
  | .positionEmitted r ls => Sys2Proof.Machine.execPositionEmitted r ls s
  | .blockLockGain port => Sys2Proof.Machine.execBlockLockGain port s
  | .prbsCheckerLock l relock => Sys2Proof.Machine.execPrbsCheckerLock l relock s
  | .blockSend port => Sys2Proof.Machine.execBlockSend port s
  | .winStateChange d hi lo cur t => Sys2Proof.Machine.execWinStateChange d hi lo cur t s
  | .currentLimit at_ enters => Sys2Proof.Machine.execCurrentLimit at_ enters s
  | .vinHighClear => Sys2Proof.Machine.execVinHighClear s
  | .cmpFault g => Sys2Proof.Machine.execCmpFault g s
  | .tmuFault lane set => Sys2Proof.Machine.execTmuFault lane set s
  | .padcFault c => Sys2Proof.Machine.execPadcFault c s
  | .rseFault n => Sys2Proof.Machine.execRseFault n s
  | .msParity ix => Sys2Proof.Machine.execMsParity ix s

end Sys2Proof.Machine
end

