-- ==== Sys2Proof/Machine/Electrical.lean ====
section
/-!
DEFINITION. What the module shows at its connectors beside the commands of the table: the bits of an Ngulos block on a
serial lane (13 R361, 12 R328), the SMBus register map (18 R482), the guards of the DUT connector (18 R484).
-/

namespace Sys2Proof.Machine

/-! ## Blocks on an Ngulos lane (13 R361, 12 R328) -/

/-- The last 58 scrambled bits, bit 0 the newest. -/
abbrev Scrambler := BitVec 58

/-- Sum of the taps of x^58 + x^39 + 1. -/
def Scrambler.tap (h : Scrambler) : Bool := h.getLsbD 38 ^^ h.getLsbD 57

/-- One scrambled bit has passed. -/
def Scrambler.push (h : Scrambler) (b : Bool) : Scrambler := (h <<< 1) ||| (BitVec.ofBool b).zeroExtend 58

/-- The transmitter's scrambler over the payload bits in their order. -/
def scramble (h : Scrambler) : List Bool → List Bool × Scrambler
  | [] => ([], h)
  | b :: l =>
    let x := b ^^ h.tap
    let (r, h') := scramble (h.push x) l
    (x :: r, h')

/-- The receiver's descrambler: it holds received bits alone, so that it finds the transmitter's state by itself. -/
def descramble (h : Scrambler) : List Bool → List Bool × Scrambler
  | [] => ([], h)
  | x :: l =>
    let (r, h') := descramble (h.push x) l
    ((x ^^ h.tap) :: r, h')

/-- Sync header bits in the order sent, bit [1] first: 0b01 data, 0b10 control. -/
def syncHeader (control : Bool) : List Bool := [control, !control]

/-- Kind of a received header: `some true` for a control block, `none` for a block error. -/
def headerKind (first second : Bool) : Option Bool := if first = second then none else some first

/-- Payload bits in the order sent, bit [0] first. -/
def payloadBits (payload : BitVec 64) : List Bool := (List.range 64).map payload.getLsbD

/-- Payload of 64 bits in the order received. -/
def bitsPayload (l : List Bool) : BitVec 64 := BitVec.ofNat 64 (l.foldr (fun b n => b2n b + 2 * n) 0)

/-- A 66-bit block as the lane carries it: the header as it is, the payload scrambled. -/
def sendBlock (h : Scrambler) (control : Bool) (payload : BitVec 64) : List Bool × Scrambler :=
  let (l, h') := scramble h (payloadBits payload)
  (syncHeader control ++ l, h')

/-- What the receiver makes of an aligned block of 66 bits: its kind and payload, nothing for a block error. -/
def receiveBlock (h : Scrambler) (bits : List Bool) : Option (Bool × BitVec 64) × Scrambler :=
  match bits with
  | a :: b :: l =>
    let (p, h') := descramble h l
    ((headerKind a b).map (fun k => (k, bitsPayload p)), h')
  | _ => (none, h)

/-- Duration of a block in units of 0.01 ns: 66 bits at 25.78125 Gbit/s. -/
def blockTime : Nat := 66 * 100000 * 100 / 2578125

/-! ## PRBS tests (13 R372) -/

/-- Taps of a pattern's polynomial. -/
def prbsTaps (pattern : Nat) : Nat × Nat :=
  match pattern with
  | 0 => (7, 6) | 1 => (9, 5) | 2 => (15, 14) | 3 => (23, 18) | _ => (31, 28)

/-- Next bit of a pattern after the bits that a number holds, the newest its bit 0. -/
def prbsNext (pattern h : Nat) : Bool := h.testBit ((prbsTaps pattern).1 - 1) ^^ h.testBit ((prbsTaps pattern).2 - 1)

/-- The `n` bits that a generator sends next on the raw line. -/
def prbsBits (pattern h : Nat) : Nat → List Bool
  | 0 => []
  | n + 1 => let b := prbsNext pattern h; b :: prbsBits pattern (2 * h + b2n b) n

/-- INJECT inverts bit `i` of a test: none, the first, or one in every 2^INJECT. -/
def prbsInverts (inject i : Nat) : Bool :=
  if inject = 0 then false else if inject = 1 then i == 0 else i % 2 ^ inject == 0

/-- Errored bits that a locked checker counts: those that differ from what the bits before them foretell. -/
def prbsErrors (pattern : Nat) (h : Nat) : List Bool → Nat
  | [] => 0
  | b :: l => b2n (b != prbsNext pattern h) + prbsErrors pattern (2 * h + b2n b) l

/-! ## Eye scan (13 R370) -/

/-- A phase step in fs: a sixty-fourth of the unit interval. -/
def phaseStepFs (lane : Nat) : Nat := uiFs lane / 64

/-! ## SMBus (18 R482) -/

/-- 7-bit address of the slave. -/
def smbAddress : BitVec 7 := 0x52

/-- The slave answers: from 20 ms after precharge ends, in every state of the module. -/
def State.smbAnswers (s : State) : Bool := s.pwr.sup.precharged && decide (s.pwr.sup.smbFrom ≤ s.now)

/-- The low `n` bytes of a value, low byte first. -/
def leBytes (v n : Nat) : List Nat := (List.range n).map (fun i => v / 2 ^ (8 * i) % 256)

/-- SMB_STATUS. -/
def State.smbStatus (s : State) : Nat :=
  b2n s.evt.tabor + 2 * b2n s.evt.fatal + 4 * b2n s.evt.gong + 8 * b2n (!s.pwr.sup.released) +
    16 * b2n s.pwr.sup.eject + 32 * b2n s.pwr.sup.prsnt + 64 * b2n (decide (s.fw.state = 1))

/-- Bytes of a register by its command, low byte first. P_IN is measured and no row reports it: a free value
(notes/assumptions/1.md). -/
def State.smbReg (s : State) (command : Nat) : Option (List Nat) :=
  match command with
  | 0x00 => some (leBytes 0x0512 2)
  | 0x01 => some (leBytes Config.hwRev 1)
  | 0x02 => some (leBytes Config.serial 8)
  | 0x03 => some [0]
  | 0x04 => some [if s.pwr.sup.released then s.pwr.sup.hp else 0]
  | 0x05 => some [s.smbStatus]
  | 0x06 => some (leBytes s.pwr.sup.vinFilt 2)
  | 0x07 => some (leBytes (s.tDie % 2 ^ 16).toNat 2)
  | 0x08 => some (leBytes s.freeVal 2)
  | 0x09 => some (leBytes (s.node % 2 ^ 14) 2)
  | _ => none

/-- A read transaction of `n` bytes at a command: one instant's values; other commands give 0xFF for each byte. -/
def State.smbRead (s : State) (command n : Nat) : Option (List Nat) × State :=
  if s.smbAnswers then (some ((s.smbReg command).getD (List.replicate n 0xFF)), if command = 0x08 then s.drawFree else s)
  else (none, s)

/-- A write transaction is acknowledged and ignored; `false` where the slave does not answer. -/
def State.smbWrite (s : State) (_command : Nat) (_data : List Nat) : Bool × State := (s.smbAnswers, s)

/-! ## Guards of the DUT connector (18 R484) -/

/-- What the guard of a module lane does. -/
inductive Guard where
  | ground
  /-- Follows the PMU output of the group. -/
  | pmu (g : Nat)
  deriving DecidableEq, Repr

/-- Guard of a module lane: it follows the PMU while the lane's channel has CONN = 2. -/
def State.guardOf (s : State) (lane : Nat) : Guard :=
  match s.pmuChan (lane / 33) with
  | some c => if s.laneOf c = lane then .pmu (lane / 33) else .ground
  | none => .ground

/-- Contacts of block DGg for lane l: signal and guard. -/
def laneContacts (l : Nat) : Nat × Nat := (2 * l + 1, 2 * l + 2)

/-- Contacts of block DP for a DPS channel: force, force return, sense, sense return, shield (R484). -/
def dpsContacts (n : Nat) : List Nat := (List.range 5).map (fun i => 5 * n + 1 + i)

/-- Backplane contacts of lane `k` of host port `n`: transmitter and receiver, positive and negative (R481). -/
def hostContacts (n k : Nat) : (Nat × Nat) × (Nat × Nat) :=
  let b := 21 + 50 * n
  ((b + 2 * k, b + 2 * k + 1), (b + 16 + 2 * k, b + 17 + 2 * k))

/-- Contacts of an Ngulos port: transmit and receive pair (R483). -/
def nglContacts (p : Nat) : (Nat × Nat) × (Nat × Nat) := ((4 * p + 1, 4 * p + 2), (4 * p + 3, 4 * p + 4))

/-- Service contacts of a MARK output: positive and negative (R485). -/
def markContacts (m : Nat) : Nat × Nat := (13 + 2 * m, 14 + 2 * m)

end Sys2Proof.Machine
end

