-- ==== Sys2Proof/Machine/RegFile.lean ====
section
/-!
DEFINITION. The host register file of a function as a read shows it (14 R379, R380). A read changes nothing but the
companion words of an RL register (row RL_LOW_READ); this file gives the value that the read returns.
-/

namespace Sys2Proof.Machine

/-! ## The function and its BARs (R375, R376) -/

/-- Device ID, class code and MSI-X vectors of each function. -/
def deviceId : BitVec 16 := 0x0512
def classCode : BitVec 24 := 0xFF0000
def msixVectors : Nat := 32

/-- What stands at an offset of BAR0. -/
inductive Bar0 where
  | register | msixTable | pendingBits | reserved
  deriving DecidableEq, Repr

/-- BAR0: the register file, the MSI-X table of 16 bytes per vector, the pending-bit array. -/
def bar0 (offset : Nat) : Bar0 :=
  if offset < 0x1C0 then .register
  else if 0x800 ≤ offset ∧ offset < 0x800 + 16 * msixVectors then .msixTable
  else if 0xC00 ≤ offset ∧ offset < 0xC08 then .pendingBits
  else .reserved

/-- BAR2: offset of the entry that a count names, of 256 entries of 64 bytes (R382). -/
def entryOffset (count : Nat) : Nat := 64 * (count % 256)

/-! ## Entries in their words (R381, R383) -/

/-- Words 0 and 1 of a command entry. -/
def cmdWords (e : CmdEntry) : List Nat :=
  [e.tag % 2 ^ 16 + e.opcode.toNat * 2 ^ 16,
   e.len % 16 + b2n e.commit * 2 ^ 16 + b2n e.list * 2 ^ 17 + b2n e.staged * 2 ^ 18 + b2n e.ordered * 2 ^ 19]

/-- PHASE of the entry that a count of entries written before names: 1 on the first pass, inverted on each wrap. -/
def phaseOf (count size : Nat) : Bool := count / max 1 size % 2 == 0

/-- The 8 words of a completion; words that a command does not name read 0. -/
def Cpl.words (c : Cpl) (phase : Bool) : List Nat :=
  [c.tag % 2 ^ 16 + c.status.code * 2 ^ 16, c.opcode.toNat + b2n c.final * 2 ^ 16 + b2n phase * 2 ^ 31] ++
    (List.range 6).map (fun i => (c.result[i]?).getD 0 % 2 ^ 32)

/-- Host addresses at which completion and event record number `count` of a function stand (R383). -/
def FnSt.cplAt (f : FnSt) (count : Nat) : Nat := f.cplBase + 32 * (count % max 1 f.cplSize)
def FnSt.evtAt (f : FnSt) (count : Nat) : Nat := f.evtBase + 64 * (count % 4096)

/-- Low word of a 64-bit register. -/
def lo32 (n : Nat) : Nat := n % 2 ^ 32

/-- PF_ID: partition x is function x mod 4 of port x / 4 (R375); RF_VERSION 1. -/
def pfId (p : Nat) : Nat := p + p / 4 * 2 ^ 4 + p % 4 * 2 ^ 6 + 1 * 2 ^ 8

/-- FW_VERSION: version of the image in the running bank. -/
def State.fwVersion (s : State) : Nat := if s.fw.bank then s.fw.verB else s.fw.verA

/-- FW_STATE. -/
def State.fwState (s : State) : Nat := s.fw.state + b2n s.fw.bank * 2 ^ 8

/-- RESETTING: a reset is requested, acknowledged, or was not acknowledged (R394, R395). -/
def FnSt.resetting (f : FnSt) : Bool := f.reset == 1 || f.reset == 2 || f.reset == 4

/-- PART_STATUS. -/
def State.partStatus (s : State) (p : Nat) : Nat :=
  let f := s.fnAt p
  let on := (s.part p).enable
  b2n on + b2n (s.fw.state == 1 && on && !f.resetting) * 2 + b2n f.resetting * 2 ^ 2 + b2n f.stop * 2 ^ 3 +
    b2n (s.isSystem p) * 2 ^ 4 + b2n (s.rightConfig p) * 2 ^ 5 + b2n (s.rightModReset p) * 2 ^ 6 +
    b2n (s.rightService p) * 2 ^ 7 + b2n f.linkLost * 2 ^ 8 + b2n f.cplErr * 2 ^ 9 + b2n f.evtErr * 2 ^ 10 +
    b2n f.ferr.isSome * 2 ^ 11 + b2n (s.fw.state == 2) * 2 ^ 12 + b2n (!f.cplHeld.isEmpty) * 2 ^ 13

/-- MODULE_STATUS. -/
def State.moduleStatus (s : State) : Nat :=
  b2n s.orderlyStop + b2n (decide (s.sch.gov.budget < 40000)) * 2 + b2n s.evt.gong * 2 ^ 2 +
    b2n (!s.fencedUnits.isEmpty) * 2 ^ 3 + b2n s.pwr.sup.eject * 2 ^ 4 + b2n s.unlocked * 2 ^ 5

/-- MODULE_INFO. -/
def State.moduleInfo (s : State) : Nat :=
  Config.gibPerStack + s.parN 11 0 0x002 % 2 ^ 14 * 2 ^ 8 + s.pwr.sup.ga.toNat * 2 ^ 22

/-- MS_FREE: entries that the partition can still take: up to MS_LIMIT, its own reserve and the unreserved entries
(10 R297). -/
def State.msFree (s : State) (p : Nat) : Nat :=
  let rest (q : Nat) : Nat := (s.part q).msReserve
  let used (q : Nat) : Nat := s.entriesOf q
  let free := 4096 - ((List.range 16).map rest).sum
  let taken := ((List.range 16).map (fun q => used q - rest q)).sum
  min ((s.part p).msLimit - used p) ((rest p - used p) + (free - taken))

/-- FERR_BLOCKS: blocks whose first-error record holds an entry that the partition may read. -/
def State.ferrBlocks (s : State) (p : Nat) : Nat :=
  ((List.range 15).map (fun b => b2n ((Tbl.find s.evt.ferr b).isSome && s.mayFerr p b) * 2 ^ b)).sum

/-- Companion word of an RL register as the function's latch holds it. -/
def State.latchWord (s : State) (p : Nat) (r : RlReg) (i : Nat) : Nat := ((s.fnAt p).latched r)[i]?.getD 0

/-- RESET_STATE. -/
def State.resetState (s : State) (p : Nat) : Nat :=
  (s.fnAt p).reset + s.parN 0 0 0x001 % 2 * 2 ^ 3 + s.fw.lastCause * 2 ^ 8

/-- Value of a register of partition `p`'s function; a write-only register and an offset that the map does not
name read 0 (00 R5, R7). -/
def State.readReg (s : State) (p offset : Nat) : Nat :=
  let f := s.fnAt p
  match offset with
  | 0x000 => pfId p
  | 0x004 => s.fwVersion
  | 0x008 => s.fwState
  | 0x00C => s.partStatus p
  | 0x010 => s.moduleStatus
  | 0x014 => s.moduleInfo
  | 0x018 => lo32 Config.serial
  | 0x01C => s.latchWord p .serial 0
  | 0x020 => f.tail % 2 ^ 16
  | 0x024 => f.head % 2 ^ 16
  | 0x028 => b2n f.enable + b2n f.stop * 2
  | 0x02C => s.msFree p
  | 0x030 => lo32 f.cplBase
  | 0x034 => hi32 f.cplBase
  | 0x038 => f.cplSize
  | 0x03C => f.cplMsix
  | 0x040 => lo32 f.cplAddr
  | 0x044 => hi32 f.cplAddr
  | 0x048 => f.cplProd
  | 0x04C => f.cplCons
  | 0x050 => lo32 f.evtBase
  | 0x054 => hi32 f.evtBase
  | 0x058 => f.evtMsix
  | 0x05C => lo32 f.evtAddr
  | 0x060 => hi32 f.evtAddr
  | 0x064 => f.evtProd
  | 0x068 => f.evtCons
  | 0x06C => f.evtLost
  | 0x070 => lo32 s.now
  | 0x074 => s.latchWord p .time 0
  | 0x078 => lo32 s.now
  | 0x07C => b2n s.ngl.tm.valid + b2n s.ngl.tm.lock * 2 + s.ngl.tm.sel * 2 ^ 2 + s.acq.osc.state * 2 ^ 4
  | 0x080 => lo32 ((f.ferr.map (·.time)).getD 0)
  | 0x084 => s.latchWord p .ferrTime 0
  | 0x088 => s.latchWord p .ferrTime 1
  | 0x08C => s.latchWord p .ferrTime 2
  | 0x090 => s.latchWord p .ferrTime 3
  | 0x098 => s.ferrBlocks p
  | 0x0A8 => s.resetState p
  | _ =>
    if 0x0B0 ≤ offset ∧ offset ≤ 0x0BC ∧ offset % 4 = 0 then Tbl.get f.scratch 0 ((offset - 0x0B0) / 4)
    else 0

end Sys2Proof.Machine
end

