-- ==== Sys2Proof/Safety.lean ====
section
/-!
DEFINITION. The terms in which claims are stated: steps, runs and answers, what a command passes before it acts, what a
completion ring shows last, and the instruction that an engine executes next.
-/

namespace Sys2Proof

open Sys2Proof.Machine

/-- One step of the module. -/
def Steps (s t : State) : Prop := step s = .next t

/-- A run of `n` steps from one state to another. -/
def Runs : Nat → State → State → Prop
  | 0, s, t => s = t
  | n + 1, s, t => ∃ u, Steps s u ∧ Runs n u t

/-- The command at the front of the queue answers a next state. -/
def Completes (c : Instr) (s : State) : Prop := ∃ t, exec c s = .next t

/-- The command answers a next state, of which `P` holds. -/
def Answers (c : Instr) (s : State) (P : State → Prop) : Prop := ∃ t, exec c s = .next t ∧ P t

/-- What a command passes before checks of its own (14 R389): its tag is free, its partition is enabled, no transfer of
it ended in a DMA error. -/
abbrev Passes (s : State) (p : Part) (tag : Nat) (op : BitVec 16) : Prop :=
  s.tagBusy p tag op = false ∧ (s.part p).enable = true ∧ (s.fnAt p).dmaOf tag op = none

/-- The state in which the effect of such a command begins: its tag is in use (14 R381). -/
def taken (s : State) (p : Part) (tag : Nat) (op : BitVec 16) : State := s.updFn p (fun f => f.useTag tag op)

/-- The newest completion of a partition, written or held. -/
def lastCpl (s : State) (p : Nat) : Option Cpl := ((s.fnAt p).cpls ++ (s.fnAt p).cplHeld).getLast?

/-- The newest completion of the partition has this tag, opcode, status and result; ACCEPTED alone is not final. -/
def Posted (s : State) (p tag : Nat) (op : BitVec 16) (st : Status) (result : List Nat) : Prop :=
  ∃ data, lastCpl s p = some { tag, status := st, opcode := op, final := st != .accepted, result, data }

/-- A state that differs from another in its host functions alone. -/
def SameButHost (s t : State) : Prop := t = { s with host.fn := t.host.fn }

/-- Engine `e` executes instruction `i` next, of burst `b` and image `m`: `b` issues, the engine is not fenced, it stands
at no commit point inside a routine, and its microcode image is given by its version alone (02 R80). -/
abbrev Fetches (s : State) (e : Eng) (i : Instr) (b : Burst) (m : ImgSt) : Prop :=
  s.fetch e = some (b, m) ∧ (s.engAt e.val).ucode.words = [] ∧ (s.engAt e.val).micro.pc = none ∧
    m.img.instrAt e b.ip = some i

/-- The same of an engine whose control store holds microwords: it executes instruction `i`, of word `w` at `ir`, by its
routine there, from its start or from the commit point it has reached. -/
abbrev Interprets (s : State) (e : Eng) (i : Instr) (b : Burst) (m : ImgSt) (ir : Nat) (w : IWord) : Prop :=
  s.fetch e = some (b, m) ∧ (s.engAt e.val).ucode.words ≠ [] ∧
    (ir = if (s.engAt e.val).micro.pc.isSome then (s.engAt e.val).micro.ir else b.ip) ∧
    m.img.wordAt ir = some w ∧ decodePat e w = some i

/-- After an instruction the engine's fetch queue and pump have moved on: the granules that follow `ir` are asked for, and
positions are written as far ahead as the island allows (02 R42, 03 R103). -/
def burstMovedOn (m : ImgSt) (ir : Nat) (b : Burst) : Burst := (b.prefetch m (some ir)).pump

/-- The state in which the effect of the instruction at `ip` begins: the engine notes where it is. -/
def noted (s : State) (e : Eng) (ip : Nat) : State :=
  s.updEng e.val (fun x => { x with micro := { x.micro with ir := ip, lastIp := ip } })

/-- The state after the effect of the instruction at `ir`: the burst of its engine has moved on. -/
def movedOn (s : State) (e : Eng) (m : ImgSt) (ir : Nat) : State := s.updBurst e.val (burstMovedOn m ir)

/-- Vectors of the positions that a run has yet to write, in order; none for a hold position. -/
def runAhead (d : RunDesc) : List (Option Nat) := ((List.range d.n).drop d.done).map d.vecAt

/-- Vectors of the positions of a burst that are issued and not emitted, in order: those that the islands hold, then those
of the run queue. -/
def positionsAhead (b : Burst) : List (Option Nat) := b.cols.map (·.vec) ++ b.runs.flatMap runAhead

/-- Runs of `n` positions with these vectors are issued to the burst of engine `e`, which then stands at `ip` and `vp`;
nothing else changes but what the engine notes. -/
def Issues (s : State) (e : Eng) (b : Burst) (vecs : List (Option Nat)) (next : Nat × Nat) (t : State) : Prop :=
  ∃ c, t.burstAt e.val = some c ∧ positionsAhead c = positionsAhead b ++ vecs ∧ c.vix = b.vix + vecs.length ∧
    (c.ip, c.vp) = next ∧ t = { s with ve := { s.ve with eng := t.ve.eng, bursts := t.ve.bursts } }

/-- The burst of engine `e` becomes `b` moved on, and the engine notes which instruction it executed; nothing else
changes. -/
def BurstBecomes (s : State) (e : Eng) (m : ImgSt) (ip : Nat) (b : Burst) (t : State) : Prop :=
  t.burstAt e.val = some (burstMovedOn m ip b) ∧ (t.engAt e.val).micro.lastIp = ip ∧
    t = { s with ve := { s.ve with eng := t.ve.eng, bursts := t.ve.bursts } }

/-- Engine of a pattern instruction; every other row has none. -/
def ownEngine : Instr → Option Eng
  | .vec e _ | .rpt e _ | .loop e _ | .endl e | .call e _ | .ret e | .jmp e _ _ | .jf e _ _ _ | .jnf e _ _ _ => some e
  | .matchLoop e _ _ _ _ | .wait e _ _ | .wtrg e _ _ _ _ | .mark e _ _ | .signal e _ | .tset e _ _ _ => some e
  | .stream e _ _ _ | .capon e _ | .capoff e _ | .stamp e _ _ | .inj e _ _ | .failstop e _ | .halt e => some e
  | _ => none

/-- A command that reads and has no other effect. -/
def onlyReads : Instr → Bool
  | .sysNop .. | .veImageInfo .. | .tmgGet .. | .tmgCheck .. | .tmuResult .. | .schTaskInfo .. | .supPartGet ..
  | .hltFerrRead .. => true
  | _ => false

/-- Host partition, tag and opcode of a command of the opcode table; a row of the hardware has none. -/
def issuedBy : Instr → Option (Part × Nat × BitVec 16)
  | .sysNop p tag => some (p, tag, 0x0001)
  | .sysParamGet p tag _ _ _ => some (p, tag, 0x0002)
  | .sysParamSet p tag _ _ _ => some (p, tag, 0x0003)
  | .sysParamCommit p tag => some (p, tag, 0x0004)
  | .sysParamDiscard p tag => some (p, tag, 0x0005)
  | .sysResetPartition p tag _ => some (p, tag, 0x0006)
  | .sysResetModule p tag => some (p, tag, 0x0007)
  | .sysServiceUnlock p tag _ => some (p, tag, 0x0008)
  | .veImageLoad p tag _ => some (p, tag, 0x0101)
  | .veImageUnload p tag _ => some (p, tag, 0x0102)
  | .veImageInfo p tag _ _ => some (p, tag, 0x0103)
  | .veUcodeLoad p tag _ _ => some (p, tag, 0x0104)
  | .tmgSet p tag _ _ => some (p, tag, 0x0201)
  | .tmgGet p tag _ _ => some (p, tag, 0x0202)
  | .tmgCheck p tag _ _ _ => some (p, tag, 0x0203)
  | .tmgRateSet p tag _ _ => some (p, tag, 0x0204)
  | .tmgRemap p tag _ _ => some (p, tag, 0x0205)
  | .tmgUnremap p tag _ => some (p, tag, 0x0206)
  | .dpsSeqSet p tag _ => some (p, tag, 0x0401)
  | .dpsPowerUp p tag _ => some (p, tag, 0x0402)
  | .dpsPowerDown p tag _ => some (p, tag, 0x0403)
  | .capLogRead p tag _ _ _ => some (p, tag, 0x0501)
  | .capLogRelease p tag _ => some (p, tag, 0x0502)
  | .capCaptureRead p tag _ _ _ => some (p, tag, 0x0503)
  | .capTrigger p tag _ => some (p, tag, 0x0504)
  | .capStreamOpen p tag _ => some (p, tag, 0x0505)
  | .capStreamClose p tag _ => some (p, tag, 0x0506)
  | .tmuArm p tag _ _ => some (p, tag, 0x0701)
  | .tmuDisarm p tag _ => some (p, tag, 0x0702)
  | .tmuResult p tag _ => some (p, tag, 0x0703)
  | .padcConvert p tag _ => some (p, tag, 0x0801)
  | .padcSelfcal p tag _ => some (p, tag, 0x0802)
  | .schSiteDefine p tag _ => some (p, tag, 0x0901)
  | .schSubmit p tag _ => some (p, tag, 0x0902)
  | .schAbort p tag _ => some (p, tag, 0x0903)
  | .schToken p tag _ _ _ => some (p, tag, 0x0904)
  | .schTokenClear p tag _ _ => some (p, tag, 0x0905)
  | .schTaskInfo p tag _ => some (p, tag, 0x0906)
  | .memWrite p tag _ _ => some (p, tag, 0x0A01)
  | .memRead p tag _ _ => some (p, tag, 0x0A02)
  | .memFence p tag _ => some (p, tag, 0x0A03)
  | .memRemap p tag _ => some (p, tag, 0x0A04)
  | .memRepair p tag _ => some (p, tag, 0x0A05)
  | .nglConfig p tag => some (p, tag, 0x0B01)
  | .nglTrigger p tag _ _ _ => some (p, tag, 0x0B02)
  | .nglStop p tag _ _ _ _ => some (p, tag, 0x0B03)
  | .nglTimeLabel p tag _ => some (p, tag, 0x0B04)
  | .nglChime p tag _ => some (p, tag, 0x0B05)
  | .nglLaneScan p tag _ => some (p, tag, 0x0B06)
  | .nglPrbs p tag _ _ _ _ => some (p, tag, 0x0B07)
  | .nglLaneRetrain p tag _ => some (p, tag, 0x0B08)
  | .supPartSet p tag _ => some (p, tag, 0x0C01)
  | .supPartGet p tag _ => some (p, tag, 0x0C02)
  | .supFwLoad p tag _ _ _ => some (p, tag, 0x0C03)
  | .supFwHandover p tag => some (p, tag, 0x0C04)
  | .hltForce p tag _ _ => some (p, tag, 0x0D01)
  | .hltAlarmAck p tag => some (p, tag, 0x0D02)
  | .hltFerrRead p tag _ => some (p, tag, 0x0D03)
  | .hltFerrClear p tag _ => some (p, tag, 0x0D04)
  | .hltUnfence p tag _ => some (p, tag, 0x0D05)
  | .hltFwSelect p tag _ => some (p, tag, 0x0D06)
  | .calRun p tag _ _ => some (p, tag, 0x0E01)
  | .calStore p tag => some (p, tag, 0x0E02)
  | .calStatClear p tag _ => some (p, tag, 0x0E03)
  | _ => none

end Sys2Proof
end

