-- ==== Sys2Proof/Certificates/Slice0/Obligations.lean ====
section
/-!
DEFINITION. The statements for the provers. Each docstring names the rules of spec/ it rests on. Most are completion
statements: a row answers the next state that its rules give, for every state that meets the conditions named; an equation
with the next state says at once what the row leaves unchanged.
-/

open Sys2Proof Sys2Proof.Machine

/-- One step takes the command at the front of the queue and is that command on the state with the rest of the queue; with
an empty queue the module lets one nanosecond pass and nothing else (14 R389; the tick is the model's choice,
notes/assumptions/5.md). -/
def Obligations.StepRunsTheFrontCommand : Prop := ∀ (c : Instr) (rest : List Instr) (s : State),
  step { s with pending := c :: rest } = exec c { s with pending := rest } ∧
  step { s with pending := [] } = .next { s with pending := [], now := s.now + 1 }

/-- After reset: the queue is empty, the memory lists nothing and has its canonical form, no command has a tag, no ring is
enabled, HP0 is the system partition, every register that R380 gives a reset value reads it (14 R380, R397). -/
def Obligations.ResetHoldsTheInvariant : Prop :=
  State.reset.pending = [] ∧ State.reset.mem.hbm = [] ∧ Memory.wf State.reset.mem.hbm = true ∧
  State.reset.host.sysPart = 0 ∧
  ∀ p : Part, (State.reset.fnAt p).tags = [] ∧ (State.reset.fnAt p).enable = false ∧
    State.reset.readReg p.val 0x000 / 2 ^ 8 = 1 ∧ State.reset.readReg p.val 0x028 = 0 ∧
    State.reset.readReg p.val 0x030 = 0 ∧ State.reset.readReg p.val 0x034 = 0 ∧ State.reset.readReg p.val 0x03C = 0 ∧
    State.reset.readReg p.val 0x048 = 0 ∧ State.reset.readReg p.val 0x04C = 0 ∧ State.reset.readReg p.val 0x058 = 0 ∧
    State.reset.readReg p.val 0x06C = 0 ∧ State.reset.readReg p.val 0x088 = 0 ∧ State.reset.readReg p.val 0x0B0 = 0

/-- Every step keeps the canonical form of the memory, whatever command it runs; it takes one command from the queue and
adds none, and draws no free value that was drawn before (11 R306). -/
def Obligations.EveryStepKeepsTheInvariant : Prop := ∀ s t : State,
  Memory.wf s.mem.hbm = true → step s = .next t →
  Memory.wf t.mem.hbm = true ∧ t.pending = s.pending.tail ∧ s.free ≤ t.free

/-- Every well-formed pattern instruction of an engine has a word, and the decoder of the image loader reads that very
instruction back from it, with every operand (02 R44 and the opcode table of 02). -/
def Obligations.PatternInstructionsDecodeAsEncoded : Prop := ∀ (e : Eng) (i : Instr),
  ownEngine i = some e → i.wf = true → ∃ w : IWord, encodePat i = some w ∧ decodePat e w = some i

/-- Words written out from the encodings of 02: the JF example, RPT, MATCH, WTRG, TSET, INJ, and reserved words (02 R44, R46, R53, R60). -/
def Obligations.WordsOfTheSpecDecode : Prop := ∀ e : Eng,
  decodePat e 0x2010000000000031 = some (.jf e 0x31 0 true) ∧
  decodePat e 0x08000000000003E8 = some (.rpt e 1000) ∧
  decodePat e 0x2802000064000007 = some (.matchLoop e 7 100 false true) ∧
  decodePat e 0x3001000003E80105 = none ∧
  decodePat e 0x3001000003E80101 = some (.wtrg e 0x101 1000 true false) ∧
  decodePat e 0x3C00000300000005 = some (.tset e 5 3 false) ∧
  decodePat e 0x5000000000000203 = some (.inj e 3 2) ∧
  decodePat e 0 = none ∧ decodePat e 0x5C00000000000000 = none

/-- A microword has 40 bits: even parity over [39:0], or it is none; NEXT in [38:27], UOP in [26:22], OPS in [21:0] in the
format that the micro-op names (02 R70). -/
def Obligations.MicrowordFields : Prop :=
  (∀ (w : Nat) m, w < 2 ^ 40 → decodeMicro w = some m →
    ((List.range 40).map (fun i => w / 2 ^ i % 2)).sum % 2 = 0 ∧ m.next = w / 2 ^ 27 % 2 ^ 12 ∧
    microOp (w / 2 ^ 22 % 2 ^ 5) (w % 2 ^ 22) = some m.op) ∧
  (∀ (next uop ops : Nat) op, next < 2 ^ 12 → uop < 2 ^ 5 → ops < 2 ^ 22 → microOp uop ops = some op →
    let v := next * 2 ^ 27 + uop * 2 ^ 22 + ops
    let p := ((List.range 39).map (fun i => v / 2 ^ i % 2)).sum % 2
    decodeMicro (v + p * 2 ^ 39) = some { next, op } ∧ decodeMicro (v + (1 - p) * 2 ^ 39) = none)

/-- The counts of the command ring: a CMD_TAIL write that exceeds 256 entries or moves back is ignored and records kind 2,
any other adds what was written; an entry taken advances CMD_HEAD; nothing is taken while ENABLE is 0; the completion and
event registers are closed while ENABLE is 1 (14 R382). -/
def Obligations.CommandRingCounts : Prop := ∀ (s : State) (p : Part),
  let f := s.fnAt p.val
  (∀ count written, f.head < 2 ^ 16 → f.tail < 2 ^ 16 → count < 2 ^ 16 →
    ((256 < (count + 2 ^ 16 - f.head) % 2 ^ 16 ∨
        (count + 2 ^ 16 - f.head) % 2 ^ 16 < (f.tail + 2 ^ 16 - f.head) % 2 ^ 16) →
      exec (.cmdTail p count written) s = .next (s.fnErr p.val 2 0x020 0 0) ∧
      ((s.fnErr p.val 2 0x020 0 0).fnAt p.val).tail = f.tail ∧ ((s.fnErr p.val 2 0x020 0 0).fnAt p.val).ring = f.ring ∧
      (f.ferr = none → (((s.fnErr p.val 2 0x020 0 0).fnAt p.val).ferr.map (fun x => (x.kind, x.detail))) =
        some (2, 0x020))) ∧
    ((count + 2 ^ 16 - f.head) % 2 ^ 16 ≤ 256 →
      (f.tail + 2 ^ 16 - f.head) % 2 ^ 16 ≤ (count + 2 ^ 16 - f.head) % 2 ^ 16 →
      Answers (.cmdTail p count written) s (fun t => t.fnAt p.val = { f with
        tail := count
        ring := f.ring ++ written.take ((count + 2 ^ 16 - f.head) % 2 ^ 16 - (f.tail + 2 ^ 16 - f.head) % 2 ^ 16) } ∧
        t = { s with host.fn := t.host.fn }))) ∧
  (∀ e r, f.holdFull = false → s.intake p.val = true → f.ring = e :: r → (e.ordered = false ∨ f.tags = []) →
    s.nextTurn = some p.val → Answers (.cmdTake p) s (fun t => (t.fnAt p.val).ring = r ∧ (t.fnAt p.val).head = (f.head + 1) % 2 ^ 16)) ∧
  (f.enable = false → s.intake p.val = false ∧ (f.holdFull = false → exec (.cmdTake p) s = .next s) ∧
    (f.holdFull = true → exec (.cmdTake p) s = .next
      ((s.updFn p.val (fun f => { f with holdFull := false })).event (0x080 + p.val) [5] [.part p.val]))) ∧
  (∀ offset (value : Word), offset ∈ [0x030, 0x034, 0x038, 0x03C, 0x040, 0x044, 0x050, 0x054, 0x058, 0x05C, 0x060] →
    f.enable = true → exec (.registerWrite p offset value) s = .next (s.fnErr p.val 2 offset 0 0))

/-- A partition reset that the firmware does not acknowledge within 50 ms of its request: with RESET_ESCALATE the module
resets with LAST_CAUSE 3; without it PART reads 4, PART_EVENT tells RESET_NO_ACK, the partition stays RESETTING with its
intake stopped, a late acknowledgement does nothing, a new request starts again (14 R395); the timer does not act while a
firmware hand-over runs (14 R403). -/
def Obligations.ResetWithoutAcknowledgement : Prop := ∀ (s : State) (p : Part),
  let f := s.fnAt p.val
  (f.reset ≠ 1 → f.reset ≠ 2 → Answers (.functionLevelReset p) s (fun t =>
    (t.fnAt p.val).reset = 1 ∧ (t.fnAt p.val).resetAt = s.now)) ∧
  (f.reset = 1 → s.fw.hand = 0 → s.parN 0 0 0x001 = 1 → exec (.resetAckTimeout p) s = .next
    (({ s with now := max s.now (f.resetAt + 50000000), fw.escPart := some p } : State).moduleReset 3) ∧
    (({ s with now := max s.now (f.resetAt + 50000000), fw.escPart := some p } : State).moduleReset 3).fw.lastCause = 3) ∧
  (f.reset = 1 → s.fw.hand = 0 → s.parN 0 0 0x001 ≠ 1 → ∃ u : State,
    exec (.resetAckTimeout p) s = .next (u.event (0x080 + p.val) [3] [.part p.val]) ∧
    u.now = max s.now (f.resetAt + 50000000) ∧ (u.fnAt p.val).reset = 4 ∧ u.intake p.val = false ∧
    u = { s with now := u.now, host.fn := u.host.fn }) ∧
  ((f.reset ≠ 1 ∨ s.fw.hand ≠ 0) → exec (.resetAckTimeout p) s = .next s) ∧
  (f.reset = 4 → s.readReg p.val 0x0A8 % 8 = 4 ∧ s.readReg p.val 0x00C / 4 % 2 = 1 ∧ s.intake p.val = false ∧
    exec (.partResetAck p) s = .next s ∧
    Answers (.functionLevelReset p) s (fun t => (t.fnAt p.val).reset = 1 ∧ (t.fnAt p.val).resetAt = s.now))

/-- `sys.service_unlock` of a partition with the right opens the monitor for its seconds, in place of what was left, or
locks it; the lock returns at its time and at every reset; each change raises 0x052; SERVICE_OPEN shows it (16 R453). -/
def Obligations.ServiceUnlock : Prop := ∀ (s : State) (p : Part) (tag seconds : Nat),
  (Passes s p tag 0x0008 → s.rightService p.val = true → 1 ≤ seconds → seconds ≤ 86400 →
    let u := taken s p tag 0x0008
    exec (.sysServiceUnlock p tag seconds) s = .next ((({ u with fw := { u.fw with
      svcUntil := some (s.now + seconds * 1000000000), svcBy := p } } : State).event 0x052 [p.val, seconds]).complete p tag
        0x0008 .ok [])) ∧
  (Passes s p tag 0x0008 → s.rightService p.val = true → s.fw.svcUntil.isSome = true →
    let u := taken s p tag 0x0008
    exec (.sysServiceUnlock p tag 0) s = .next ((({ u with fw := { u.fw with
      svcUntil := none, svcBy := p } } : State).event 0x052 [p.val, 0]).complete p tag 0x0008 .ok [])) ∧
  (Passes s p tag 0x0008 → s.rightService p.val = true → s.fw.svcUntil = none →
    Answers (.sysServiceUnlock p tag 0) s (fun t => t.fw = { s.fw with svcBy := p } ∧
      t = { s with host.fn := t.host.fn, fw := t.fw })) ∧
  (∀ t0, s.fw.svcUntil = some t0 → exec .serviceLockExpiry s = .next
    (({ s with now := max s.now t0, fw.svcUntil := none } : State).event 0x052 [s.fw.svcBy.val, 0])) ∧
  (∀ cause, (s.moduleReset cause).fw.svcUntil = none) ∧
  (∀ stayed cause, (s.supplyResetBy stayed cause).fw.svcUntil = none) ∧
  s.readReg p.val 0x010 / 2 ^ 5 % 2 = (if s.fw.svcUntil.isSome then 1 else 0)

/-- A read of an RL low word latches its companion words for that function alone; the companion registers return what is
latched; a module reset and a reset of the partition clear the latch, and a companion then reads 0 (01 R6). -/
def Obligations.LatchedCompanions : Prop := ∀ (s : State) (p : Part),
  (∀ reg ws, s.rlWords p.val reg = some ws → Answers (.rlLowRead p reg) s (fun t =>
    (∀ i, t.latchWord p.val reg i = ws[i]?.getD 0) ∧
    (∀ other i, other ≠ reg → t.latchWord p.val other i = s.latchWord p.val other i) ∧
    (∀ (q : Part) r i, q ≠ p → t.latchWord q.val r i = s.latchWord q.val r i) ∧ t = { s with host.fn := t.host.fn })) ∧
  s.rlWords p.val .time = some [s.now / 2 ^ 32 % 2 ^ 32] ∧
  s.readReg p.val 0x074 = s.latchWord p.val .time 0 ∧ s.readReg p.val 0x01C = s.latchWord p.val .serial 0 ∧
  s.readReg p.val 0x084 = s.latchWord p.val .ferrTime 0 ∧
  (∀ cause reg i, (s.moduleReset cause).latchWord p.val reg i = 0) ∧
  ((s.fnAt p.val).reset = 1 → s.fw.hand = 0 → s.fw.state = 1 → Answers (.partResetAck p) s (fun t =>
    ∀ reg i, t.latchWord p.val reg i = 0))

/-- A command that only reads answers, whether it succeeds or is refused, and changes nothing outside the rings of the
partition that sent it (14 R389, R390). -/
def Obligations.ReadingCommandsChangeNothingElse : Prop := ∀ (c : Instr) (p : Part) (tag : Nat) (op : BitVec 16) (s : State),
  issuedBy c = some (p, tag, op) → onlyReads c = true →
  ∃ t, exec c s = .next t ∧ SameButHost s t ∧ ∀ q : Part, q ≠ p → t.fnAt q.val = s.fnAt q.val

/-- The commands of block SYS complete and do what 14 R390 to R396 give them: identify, read, stage, commit and discard
parameters, request resets, unlock the service monitor. -/
def Obligations.SystemCommandsComplete : Prop := ∀ (p : Part) (tag : Nat) (s : State),
  (Passes s p tag 0x0001 → Answers (.sysNop p tag) s (fun t =>
    Posted t p tag 0x0001 .ok [s.fw.version, p.val] ∧ SameButHost s t)) ∧
  (∀ ids staged, Passes s p tag 0x0002 → 1 ≤ ids.length → ids.length ≤ 6 → (taken s p tag 0x0002).idsBad p ids = none →
    Answers (.sysParamGet p tag ids false staged) s (fun t => Posted t p tag 0x0002 .ok
      (((taken s p tag 0x0002).readAll p staged ids).1.map word32) ∧ t.host.params = s.host.params)) ∧
  (∀ ids staged, Passes s p tag 0x0002 → 1 ≤ ids.length → ids.length ≤ 4096 →
    Answers (.sysParamGet p tag ids true staged) s (fun t => Posted t p tag 0x0002 .accepted [] ∧
      ((t.fnAt p).listCmd.getLast?.map (fun c => (c.tag, c.pairs.map (·.1), c.set))) = some (tag, ids, false) ∧
      SameButHost s t)) ∧
  (∀ pairs, Passes s p tag 0x0003 → 1 ≤ pairs.length → pairs.length ≤ 6 →
    (taken s p tag 0x0003).pairsBad p pairs = none →
    (((taken s p tag 0x0003).stagePairs p pairs).fnAt p).staged.length ≤ 4096 →
    Answers (.sysParamSet p tag pairs false false) s (fun t => Posted t p tag 0x0003 .ok [] ∧
      (t.fnAt p).staged = (((taken s p tag 0x0003).stagePairs p pairs).fnAt p).staged ∧ SameButHost s t)) ∧
  (∀ pairs ws u, Passes s p tag 0x0003 → 1 ≤ pairs.length → pairs.length ≤ 6 →
    (taken s p tag 0x0003).setPairs p pairs true = (.ok, ws, u) →
    Answers (.sysParamSet p tag pairs true false) s (fun t => Posted t p tag 0x0003 .ok ws ∧ SameButHost u t)) ∧
  (∀ pairs commit, Passes s p tag 0x0003 → 1 ≤ pairs.length → pairs.length ≤ 4096 →
    Answers (.sysParamSet p tag pairs commit true) s (fun t => Posted t p tag 0x0003 .accepted [] ∧
      ((t.fnAt p).listCmd.getLast?.map (fun c => (c.tag, c.pairs, c.set, c.commit))) = some (tag, pairs, true, commit) ∧
      SameButHost s t)) ∧
  (∀ c, (s.fnAt p).listCmd.find? (fun c => c.tag == tag) = some c → c.set = false →
    let u := s.updFn p (fun f => { f with listCmd := f.listCmd.filter (fun d => d.tag != tag) })
    u.idsBad p (c.pairs.map (·.1)) = none →
    Answers (.paramListDone p tag) s (fun t => lastCpl t p = some
      { tag, status := .ok, opcode := 0x0002, final := true, result := []
        data := (u.readAll p c.staged (c.pairs.map (·.1))).1 })) ∧
  (∀ c ws v, (s.fnAt p).listCmd.find? (fun c => c.tag == tag) = some c → c.set = true →
    (s.updFn p (fun f => { f with listCmd := f.listCmd.filter (fun d => d.tag != tag) })).setPairs p c.pairs c.commit =
      (.ok, ws, v) →
    Answers (.paramListDone p tag) s (fun t => Posted t p tag 0x0003 .ok ws ∧ SameButHost v t)) ∧
  (Passes s p tag 0x0004 → ∀ ws u, (taken s p tag 0x0004).commit p = (.ok, ws, u) →
    Answers (.sysParamCommit p tag) s (fun t => Posted t p tag 0x0004 .ok ws ∧ SameButHost u t)) ∧
  (Passes s p tag 0x0005 → Answers (.sysParamDiscard p tag) s (fun t => Posted t p tag 0x0005 .ok [] ∧
    (t.fnAt p).staged = [] ∧ (t.fnAt p).stagedTs = [] ∧ (t.fnAt p).stagedRate = [] ∧ SameButHost s t)) ∧
  (Passes s p tag 0x0006 → (s.fnAt p).reset = 0 →
    Answers (.sysResetPartition p tag p) s (fun t => (t.fnAt p).reset = 1 ∧ (t.fnAt p).resetAt = s.now ∧
      lastCpl t p = lastCpl s p ∧ SameButHost s t)) ∧
  (∀ target : Part, Passes s p tag 0x0006 → target ≠ p → s.isSystem p = true → (s.fnAt target).reset = 0 →
    Answers (.sysResetPartition p tag target) s (fun t => (t.fnAt target).reset = 1 ∧ Posted t p tag 0x0006 .accepted [] ∧
      SameButHost s t)) ∧
  (Passes s p tag 0x0007 → s.rightModReset p = true → s.pwr.sup.eject = false →
    exec (.sysResetModule p tag) s = .next ((taken s p tag 0x0007).requestReset 2)) ∧
  (∀ seconds, Passes s p tag 0x0008 → s.rightService p = true → seconds ≤ 86400 →
    let u : State := { taken s p tag 0x0008 with fw := { s.fw with
      svcUntil := if seconds = 0 then none else some (s.now + seconds * 1000000000), svcBy := p } }
    exec (.sysServiceUnlock p tag seconds) s = .next
      ((if 0 < seconds ∨ s.fw.svcUntil.isSome then u.svcEvent p seconds else u).complete p tag 0x0008 .ok []))

/-- The image and microcode commands complete: a load is accepted with a handle and ends READY or refused, an image that
is not in use is unloaded, its state is told, a verified microcode goes to the engines one at a time (02 R80, R81, R95 to
R98). -/
def Obligations.ImageCommandsComplete : Prop := ∀ (p : Part) (tag : Nat) (s : State),
  (∀ image h, Passes s p tag 0x0101 → s.freeHandle p = some h →
    Answers (.veImageLoad p tag image) s (fun t => Posted t p tag 0x0101 .accepted [h] ∧
      (t.imageAt (imgKey p h)).map (fun x => (x.mode, x.img, x.tag)) = some (.loading, image, tag) ∧
      t = { s with host.fn := t.host.fn, ve.images := t.ve.images, mem.pc := t.mem.pc })) ∧
  (∀ (h : Handle) x, s.imageAt (imgKey p h.val) = some x → x.mode = .loading → s.loadBad p x = none →
    Answers (.imageLoadDone p h) s (fun t => Posted t p x.tag 0x0101 .ok [] ∧
      t.imageAt (imgKey p h.val) = some { x with mode := .ready, resident := x.img.residentSet
                                                 size := x.img.setBytes x.img.residentSet } ∧
      t = { s with host.fn := t.host.fn, ve.images := t.ve.images })) ∧
  (∀ (h : Handle) x st ws, s.imageAt (imgKey p h.val) = some x → x.mode = .loading → s.loadBad p x = some (st, ws) →
    Answers (.imageLoadDone p h) s (fun t => Posted t p x.tag 0x0101 st ws ∧ t.imageAt (imgKey p h.val) = none ∧
      t = { s with host.fn := t.host.fn, ve.images := t.ve.images })) ∧
  (∀ handle x, Passes s p tag 0x0102 → s.ownImage p handle = some x → x.mode ≠ .loading → s.imageUsed p handle = false →
    Answers (.veImageUnload p tag handle) s (fun t => Posted t p tag 0x0102 .ok [] ∧ t.imageAt (imgKey p handle) = none ∧
      t = { s with host.fn := t.host.fn, ve.images := t.ve.images, ve.eng := t.ve.eng })) ∧
  (∀ handle entry x, Passes s p tag 0x0103 → s.ownImage p handle = some x → entry < x.img.segments.length →
    Answers (.veImageInfo p tag handle entry) s (fun t => Posted t p tag 0x0103 .ok
      (if x.mode = .loading then [0, 0, 0]
       else [x.mode.code, x.size, (x.img.demand x.resident (s.infoPeriod p) entry).getD 0xFFFFFFFF]) ∧
      SameButHost s t)) ∧
  (∀ (image : UImage), Passes s p tag 0x0104 → s.rightConfig p = true → s.fw.ucodeCmd = none →
    exec (.veUcodeLoad p tag true image) s = .next
      ((({ taken s p tag 0x0104 with fw := { s.fw with
          ucode := image, ucodeCmd := some (p, tag)
          ucodeTodo := (List.range 32).filter (fun e => (s.engAt e).mode != .fenced) } } : State).complete
        p tag 0x0104 .accepted []).ucodeDone)) ∧
  (∀ (image : UImage), Passes s p tag 0x0104 → s.rightConfig p = true → s.fw.ucodeCmd = none →
    exec (.veUcodeLoad p tag false image) s = .next
      (((taken s p tag 0x0104).refuseCmd p tag 0x0104 .deniedWorld []).event 0x091)) ∧
  (∀ e : Eng, s.fw.ucodeTodo.contains e.val = true → s.burstAt e.val = none →
    let out : State := { s with fw := { s.fw with ucodeTodo := s.fw.ucodeTodo.filter (· != e.val) } }
    ((s.engAt e.val).mode = .fenced → ∀ ok, exec (.ucodeEngineLoad e ok) s = .next out.ucodeDone) ∧
    ((s.engAt e.val).mode ≠ .fenced → exec (.ucodeEngineLoad e true) s = .next
      (out.updEng e.val (fun x => { x with mode := .idle, ucode := s.fw.ucode, retried := false })).ucodeDone) ∧
    ((s.engAt e.val).mode ≠ .fenced → (s.engAt e.val).retried = false → exec (.ucodeEngineLoad e false) s = .next
      (s.updEng e.val (fun x => { x with mode := .loading, retried := true }))) ∧
    ((s.engAt e.val).mode ≠ .fenced → (s.engAt e.val).retried = true → exec (.ucodeEngineLoad e false) s = .next
      (((out.updEng e.val (fun x => { x with mode := .idle, retried := false })).event (0x100 + 8 * e.val)).ucodeDone)))

/-- The timing commands complete: sets and rate tables are staged whole, read back, checked against each other; a channel
moves onto the spare lane of its group and back (04 R126 to R129, R133, R136, R142, R143). -/
def Obligations.TimingCommandsComplete : Prop := ∀ (p : Part) (tag : Nat) (s : State),
  (∀ recs, Passes s p tag 0x0201 →
    (∀ r ∈ recs, r.group < 16 → r.ts < 64 → s.ownsTs p r.group r.ts = true) → 1 ≤ recs.length → recs.length ≤ 1024 →
    s.recsFault p recs = none →
    Answers (.tmgSet p tag recs false) s (fun t => Posted t p tag 0x0201 .ok [] ∧
      (t.fnAt p).stagedTs = recs.foldl stageTs (s.fnAt p).stagedTs ∧ SameButHost s t)) ∧
  (∀ recs ws u, Passes s p tag 0x0201 →
    (∀ r ∈ recs, r.group < 16 → r.ts < 64 → s.ownsTs p r.group r.ts = true) → 1 ≤ recs.length → recs.length ≤ 1024 →
    s.recsFault p recs = none →
    ((taken s p tag 0x0201).updFn p (fun f => { f with stagedTs := recs.foldl stageTs f.stagedTs })).commit p = (.ok, ws, u) →
    Answers (.tmgSet p tag recs true) s (fun t => Posted t p tag 0x0201 .ok ws ∧ SameButHost u t)) ∧
  (∀ (group : Grp) (ts : Fin 64), Passes s p tag 0x0202 → s.ownsTs p group.val ts.val = true →
    Answers (.tmgGet p tag group ts) s (fun t => lastCpl t p = some
      { tag, status := .ok, opcode := 0x0202, final := true, result := [], data := s.tsWords p group.val ts.val } ∧
      SameButHost s t)) ∧
  (∀ (site : Site) (group : Grp) (sets : BitVec 64), Passes s p tag 0x0203 → (s.part p).sites.getLsbD site.val = true →
    (s.siteAt site.val).defn.isSome = true →
    Answers (.tmgCheck p tag site group sets) s (fun t => SameButHost s t ∧
      (∀ n, (bitList sets).find? (fun n => (s.tsNow group.val n).isNone) = some n →
        Posted t p tag 0x0203 .ok [tsRes group.val n, n + 256 * n]) ∧
      ((bitList sets).find? (fun n => (s.tsNow group.val n).isNone) = none →
        (∀ lane a b, s.edgeBad site.val group.val (bitList sets) = some (lane, a, b) →
          Posted t p tag 0x0203 .ok [resId 2 lane 2, a + 256 * b]) ∧
        (s.edgeBad site.val group.val (bitList sets) = none → Posted t p tag 0x0203 .ok [0])))) ∧
  (∀ rec : RateRec, Passes s p tag 0x0204 → s.ownsRate p rec.group = true → rec.rsvd = false → rec.mode ≤ 1 →
    rec.group < 16 → 1 ≤ rec.entries.length → rec.entries.length ≤ 64 →
    (∀ n, (s.grpAt rec.group).rateOwner ≠ some (.inr n)) → s.rateFault rec = none →
    Answers (.tmgRateSet p tag rec false) s (fun t => Posted t p tag 0x0204 .ok [] ∧
      (t.fnAt p).stagedRate = (s.fnAt p).stagedRate.filter (fun r => r.group != rec.group) ++ [rec] ∧ SameButHost s t)) ∧
  (∀ (rec : RateRec) ws u, Passes s p tag 0x0204 → s.ownsRate p rec.group = true → rec.rsvd = false → rec.mode ≤ 1 →
    rec.group < 16 → 1 ≤ rec.entries.length → rec.entries.length ≤ 64 →
    (∀ n, (s.grpAt rec.group).rateOwner ≠ some (.inr n)) → s.rateFault rec = none →
    ((taken s p tag 0x0204).updFn p (fun f => { f with
      stagedRate := f.stagedRate.filter (fun r => r.group != rec.group) ++ [rec] })).commit p = (.ok, ws, u) →
    Answers (.tmgRateSet p tag rec true) s (fun t => Posted t p tag 0x0204 .ok ws ∧ SameButHost u t)) ∧
  (∀ (g : Grp) (pos : Fin 32), Passes s p tag 0x0205 → s.rightConfig p = true →
    (s.chanSite (32 * g.val + pos.val)).any s.siteTasked = false →
    s.cal.run.running.any (fun x => isGroup g.val x.1) = false → (s.grpAt g.val).refState = 1 →
    ((s.grpAt g.val).l32 = none → exec (.tmgRemap p tag g pos) s = .next
      ((((((taken s p tag 0x0205).moveLane (32 * g.val + pos.val) (33 * g.val + pos.val) (33 * g.val + 32)).updLane
        (33 * g.val + pos.val) (fun l => { l with vacated := true })).updGrp g.val
          (fun x => { x with l32 := some pos.val })).event (0x205 + 16 * g.val)).complete p tag 0x0205 .ok [])) ∧
    ((s.grpAt g.val).l32 = some pos.val → Answers (.tmgRemap p tag g pos) s (fun t =>
      Posted t p tag 0x0205 .ok [] ∧ SameButHost s t))) ∧
  (∀ (g : Grp) (k : Nat), Passes s p tag 0x0206 → s.rightConfig p = true → (s.grpAt g.val).l32 = some k →
    (s.chanSite (32 * g.val + k)).any s.siteTasked = false →
    s.cal.run.running.any (fun x => isGroup g.val x.1) = false → (s.grpAt g.val).refState = 1 →
    exec (.tmgUnremap p tag g) s = .next
      ((((((taken s p tag 0x0206).moveLane (32 * g.val + k) (33 * g.val + 32) (33 * g.val + k)).updLane (33 * g.val + k)
        (fun l => if l.fenced then { l.open_ with vacated := false } else { l with vacated := false })).updGrp g.val
          (fun x => { x with l32 := none })).event (0x205 + 16 * g.val)).complete p tag 0x0206 .ok []))

/-- The DUT power commands complete: a sequence record is taken whole, a power-up is accepted and waits for the admission
of its first step, a power-down begins with the last step of the record (05 R173 to R175). -/
def Obligations.PowerCommandsComplete : Prop := ∀ (p : Part) (tag : Nat) (s : State),
  (∀ rec : SeqRec, Passes s p tag 0x0401 → s.ownsSite p rec.site = true → seqMalformed rec = false →
    seqInRange rec = true → s.seqConflict rec.site rec.steps = none → s.siteOn rec.site = false →
    (s.siteAt rec.site).seqRun = none →
    Answers (.dpsSeqSet p tag rec) s (fun t => Posted t p tag 0x0401 .ok [] ∧ (t.siteAt rec.site).seq = some rec ∧
      t = { s with host.fn := t.host.fn, pf.site := t.pf.site })) ∧
  (∀ (site : Site) (rec : SeqRec), Passes s p tag 0x0402 → s.ownsSite p site.val = true → s.evt.fatal = false →
    (s.siteAt site.val).seq = some rec → s.seqConflict site.val rec.steps = none →
    (∀ x ∈ rec.steps, (s.dpsAt x.channel).mode ≠ .fenced) → s.siteOn site.val = false →
    (s.siteAt site.val).seqRun = none →
    Answers (.dpsPowerUp p tag site) s (fun t => Posted t p tag 0x0402 .accepted [] ∧
      (t.siteAt site.val).seqRun = some { up := true, step := 0, phase := .waitAdmit, part := p, tag, due := s.now } ∧
      t = { s with host.fn := t.host.fn, pf.site := t.pf.site })) ∧
  (∀ (site : Site) (rec : SeqRec), Passes s p tag 0x0403 → s.ownsSite p site.val = true →
    (s.siteAt site.val).seq = some rec → s.siteBusy site.val = false → (s.siteAt site.val).seqRun = none →
    exec (.dpsPowerDown p tag site) s = .next
      ((((taken s p tag 0x0403).complete p tag 0x0403 .accepted []).updSite site.val (fun t => { t with
        seqRun := some { up := false, step := rec.steps.length - 1, phase := .ramp, part := p, tag, due := s.now } })).downStep
        site.val (rec.steps.length - 1)))

/-- The acquisition commands complete: log and capture ranges move to the host, a held log is released, a software trigger
occurs, streams open and close (06 R194, R199, R201, R205, R209); a transfer ends as its words and its bus say (11 R307,
R312; 14 R389). -/
def Obligations.CaptureCommandsComplete : Prop := ∀ (p : Part) (tag : Nat) (s : State),
  (∀ (site : Site) first count, Passes s p tag 0x0501 → s.ownsSite p site.val = true → s.siteBusy site.val = false →
    1 ≤ count → first + count ≤ s.parN 5 site.val 0x012 * 128 →
    Answers (.capLogRead p tag site first count) s (fun t => Posted t p tag 0x0501 .accepted [] ∧
      t.host.xfers = s.host.xfers ++ [⟨p, tag, 0x0501,
        s.hbmWords p (s.parN 5 site.val 0x011 * 4096 + 32 * first) (8 * count), none,
        s.parN 5 site.val 0x011 * 4096 + 32 * first,
        [(s.parN 5 site.val 0x011 * 4096 + 32 * first, 32 * count)]⟩] ∧ t.mem = { s.mem with pc := t.mem.pc })) ∧
  (∀ site : Site, Passes s p tag 0x0502 → s.ownsSite p site.val = true →
    Answers (.capLogRelease p tag site) s (fun t => Posted t p tag 0x0502 .ok [] ∧
      (t.siteAt site.val).log.held = false ∧ t = { s with host.fn := t.host.fn, pf.site := t.pf.site })) ∧
  (∀ (u : Cu) first count, Passes s p tag 0x0503 → (s.part p).units.getLsbD u.val = true →
    (128 ≤ s.parN 5 u.val 0x040 ∨ s.siteBusy (s.parN 5 u.val 0x040) = false) →
    first + count ≤ (s.cuAt u.val).samples.length →
    let c := s.cuAt u.val
    let kept := (c.samples.drop first).take count
    Answers (.capCaptureRead p tag u first count) s (fun t => Posted t p tag 0x0503 .accepted [] ∧
      t.mem = { s.mem with pc := t.mem.pc } ∧ t.host.xfers = s.host.xfers ++ [{
        part := p, tag, opcode := 0x0503, write := none, addr := c.base,
        data := (c.header u.val s.freeVal).map (fun (n : Nat) => (n : Int)) ++
          kept.flatMap (fun x => s.sampleWords p c x.2),
        reads := kept.map (fun x => (c.sampleAt x.2, 4 * c.sampleLen)) }])) ∧
  (∀ t : Trg, Passes s p tag 0x0504 → (s.part p).capTriggers.getLsbD t.val = true →
    let u := taken s p tag 0x0504
    let k := s.parN 5 t.val 0x060
    exec (.capTrigger p tag t) s = .next
      ((if k < 128 then u.occurAt k (4000 * s.now) ((s.trgsOf k 1 (fun _ => true)).filter (· == t.val)) none false
        else u).complete p tag 0x0504 .ok [])) ∧
  (∀ d : StreamDesc, Passes s p tag 0x0505 → (s.part p).streams.getLsbD d.stream = true → d.rsvd = false →
    streamInRange d = true → (s.hsAt d.stream).mode = .closed →
    exec (.capStreamOpen p tag d) s = .next
      (((taken s p tag 0x0505).updHs d.stream (fun _ =>
        ({ mode := .open_, desc := some d } : HsSt).append s.now s.epochNow)).complete p tag 0x0505 .ok [])) ∧
  (∀ h : Hs, Passes s p tag 0x0506 → (s.part p).streams.getLsbD h.val = true → s.streamBusy h.val = false →
    let u := (taken s p tag 0x0506).streamWrite h.val (s.now + capDelay)
    exec (.capStreamClose p tag h) s = .next
      ((u.updHs h.val (fun x => { x with mode := .closed, prodOut := x.prod })).complete p tag 0x0506 .ok [])) ∧
  (∀ x, (s.host.xfers.filter (fun x => x.part == p)).find? (fun x => x.tag == tag) = some x →
    (∀ y ∈ s.host.xfers, y.part = p → y.write = none) →
    (s.fencedPage p x.addr x.memLen = none → x.reads.findSome? (fun r => s.badIn p r.1 r.2) = none →
      Answers (.hostTransferDone p tag .good) s (fun t => lastCpl t p = some
        { tag, status := .ok, opcode := x.opcode, final := true, result := [], data := x.data } ∧ t.mem = s.mem)) ∧
    (∀ a, s.fencedPage p x.addr x.memLen = some a →
      Answers (.hostTransferDone p tag .good) s (fun t => Posted t p tag x.opcode .fenced [a % 2 ^ 32] ∧ t.mem = s.mem)) ∧
    (∀ a, s.fencedPage p x.addr x.memLen = none → x.reads.findSome? (fun r => s.badIn p r.1 r.2) = some a →
      Answers (.hostTransferDone p tag .good) s (fun t => Posted t p tag x.opcode .internal [a % 2 ^ 32] ∧
        t.mem = s.mem)) ∧
    (∀ a, Answers (.hostTransferDone p tag (.uncorrectable a)) s (fun t =>
      Posted t p tag x.opcode .internal [a % 2 ^ 32] ∧ t.mem = (s.spoil (hbmKey p a / 64)).mem)) ∧
    (∀ a, Answers (.hostTransferDone p tag (.dmaError a)) s (fun t =>
      Posted t p tag x.opcode .internal [] ∧ t.mem = s.mem)))

/-- The measurement commands complete: a set is armed with the reference of the command, disarmed, its result read; a
single conversion is requested; a self-calibration is accepted (07 R222 to R224, R230; 08 R246, R252). -/
def Obligations.MeasurementCommandsComplete : Prop := ∀ (p : Part) (tag : Nat) (s : State),
  (∀ (m : MSet) ref, Passes s p tag 0x0701 → s.ownsSet p m.val = true → s.msPar m.val 0x00B = 1 →
    (s.msAt m.val).fenced = false → s.msOff m.val = none →
    (ref = 0 → exec (.tmuArm p tag m ref) s = .next
      (((taken s p tag 0x0701).armSet m.val (nsPs s.now) false).complete p tag 0x0701 .ok [])) ∧
    (0 < ref → ref < s.now → exec (.tmuArm p tag m ref) s = .next
      (((taken s p tag 0x0701).armSet m.val (nsPs s.now) true).complete p tag 0x0701 .ok [])) ∧
    (0 < ref → s.now ≤ ref → exec (.tmuArm p tag m ref) s = .next
      (((taken s p tag 0x0701).armSet m.val (nsPs ref) false).complete p tag 0x0701 .ok []))) ∧
  (∀ m : MSet, Passes s p tag 0x0702 → s.ownsSet p m.val = true → exec (.tmuDisarm p tag m) s = .next
    (((taken s p tag 0x0702).disarmSet m.val false false).complete p tag 0x0702 .ok [])) ∧
  (∀ m : MSet, Passes s p tag 0x0703 → s.ownsSet p m.val = true →
    Answers (.tmuResult p tag m) s (fun t => lastCpl t p = some
      { tag, status := .ok, opcode := 0x0703, final := true, result := [], data := s.msRecord m.val } ∧
      SameButHost s t)) ∧
  (∀ c : Conv, Passes s p tag 0x0801 → c.val < 16 → s.ownsPmu p c.val = true → (s.padcAt c.val).fenced = false →
    s.parN 8 c.val 0x010 = 1 → exec (.padcConvert p tag c) s = .next
      ((((taken s p tag 0x0801).updPadc c.val (fun x => { x with singles := x.singles + 1 })).startSingle c.val).complete
        p tag 0x0801 .ok [])) ∧
  (∀ c : Conv, Passes s p tag 0x0802 → s.ownsConv p c.val = true → (s.padcAt c.val).fenced = false →
    (s.padcAt c.val).warmed = true → (s.padcAt c.val).calRun = false → (s.padcAt c.val).calWait = false →
    exec (.padcSelfcal p tag c) s = .next
      (((((taken s p tag 0x0802).complete p tag 0x0802 .accepted []).updPadc c.val
        (fun x => { x with calCmd := some (p, tag) })).askCal c.val false).runCal c.val))

/-- The reference-calibration commands complete: the units join the queue, a store is answered, statistics end (17 R463,
R464, R471 to R474). -/
def Obligations.CalibrationCommandsComplete : Prop := ∀ (p : Part) (tag : Nat) (s : State),
  (∀ groups dps, Passes s p tag 0x0E01 →
    (s.isSystem p = true ∨ ∀ u ∈ calUnits groups dps, s.ownsCal p u = true) → ¬ (groups = 0 ∧ dps = 0) →
    groups < 2 ^ 16 → dps < 2 ^ 18 → s.parN 14 0 0x001 ≠ 0 → s.parN 14 0 0x002 ≠ 0 →
    (∀ u ∈ calUnits groups dps, s.calBusy u = false) → (∀ u ∈ calUnits groups dps, s.calFenced u = false) →
    Answers (.calRun p tag groups dps) s (fun t => Posted t p tag 0x0E01 .accepted [] ∧
      t.cal.run.queue = s.cal.run.queue ++ (calUnits groups dps).map (fun u => (u, some (p, tag))) ∧
      t.cal.run.cmds = s.cal.run.cmds ++ [(p, tag, [0, 0, 0, 0, 0])] ∧
      t = { s with host.fn := t.host.fn, cal.run := t.cal.run })) ∧
  (Passes s p tag 0x0E02 → s.isSystem p = true → s.cal.store.pending = false →
    Answers (.calStore p tag) s (fun t => Posted t p tag 0x0E02 .ok [] ∧ SameButHost s t)) ∧
  (Passes s p tag 0x0E02 → s.isSystem p = true → s.cal.store.pending = true →
    exec (.calStore p tag) s = .next
      (({ taken s p tag 0x0E02 with cal.store := { s.cal.store with
        cmds := s.cal.store.cmds ++ [(p, tag, decide (s.cal.store.step ≠ 0))] } } : State).startStore)) ∧
  (∀ g : Grp, Passes s p tag 0x0E03 → (s.isSystem p = true ∨ s.ownsGrp p g.val = true) →
    exec (.calStatClear p tag g) s = .next
      ((((taken s p tag 0x0E03).updGrp g.val (fun x => { x with statClear := true })).statClears).complete
        p tag 0x0E03 .ok []))

/-- The scheduler's commands complete: a site is defined or removed, a task enters the matching store, tasks are aborted
and told, USER tokens are issued and cleared (10 R274, R277, R280 to R282, R300). -/
def Obligations.SchedulerCommandsComplete : Prop := ∀ (p : Part) (tag : Nat) (s : State),
  (∀ rec : SiteRec, Passes s p tag 0x0901 → s.ownsSiteRec p rec = true → siteMalformed rec = false → rec.site < 128 →
    (rec.linked = true → 2 ≤ rec.members ∧ rec.members ≤ 255) → s.siteConflict rec = none →
    s.siteTasked rec.site = false → s.siteOn rec.site = false →
    Answers (.schSiteDefine p tag rec) s (fun t => Posted t p tag 0x0901 .ok [] ∧
      (t.siteAt rec.site).defn = (if rec.define then some rec else none) ∧
      t = { s with host.fn := t.host.fn, pf.site := t.pf.site })) ∧
  (∀ d : TaskDesc, Passes s p tag 0x0902 → s.ownsTask p d = true → s.evt.fatal = false → s.submitBad p d = false →
    (∀ x, s.descImage p d = some x → x.mode ≠ .loading) → s.submitConflict p d = none → s.submitRange p d = false →
    s.submitFull p d = false → s.freeEntry.isSome = true →
    let u := taken s p tag 0x0902
    let i := u.freeEntry.getD 0
    let v := (u.complete p tag 0x0902 .accepted [i]).putTask i
      { desc := d, part := p, tag, order := s.sch.nextOrder, at_ := s.now, e := u.estimate p d }
    exec (.schSubmit p tag d) s = .next ({ v with sch.nextOrder := v.sch.nextOrder + 1 } : State).wake) ∧
  (∀ what, Passes s p tag 0x0903 → s.ownsAbort p what = true →
    Answers (.schAbort p tag what) s (fun t => Posted t p tag 0x0903 .ok [] ∧
      SameButHost ((taken s p tag 0x0903).abortOf what) t)) ∧
  (∀ (slot : Slot) node remote, Passes s p tag 0x0904 → s.ownsSite p slot.scope.val = true → slot.rsvd = false →
    slot.tkind = 0 → slot.key < 2 ^ 48 → node < 2 ^ 14 →
    ((remote = false ∨ node = s.node) →
      Answers (.schToken p tag slot node remote) s (fun t => Posted t p tag 0x0904 .ok [] ∧
        SameButHost ((taken s p tag 0x0904).issueTok (slotTok slot)) t)) ∧
    (remote = true → node ≠ s.node →
      Answers (.schToken p tag slot node remote) s (fun t => Posted t p tag 0x0904 .ok [] ∧
        SameButHost ((taken s p tag 0x0904).sendC1 node (.token node s.node (slotTok slot))) t))) ∧
  (∀ (slot : Slot) all, Passes s p tag 0x0905 → s.ownsSite p slot.scope.val = true → slot.rsvd = false →
    (all = true ∨ slot.tkind < 7) →
    Answers (.schTokenClear p tag slot all) s (fun t => Posted t p tag 0x0905 .ok [] ∧
      (all = true → ∀ x ∈ t.sch.tokens, x.scope ≠ slot.scope) ∧
      (all = false → ∀ x ∈ t.sch.tokens, x.is slot.scope.val slot.tkind slot.key = false) ∧
      (∀ x ∈ s.sch.tokens, x.scope ≠ slot.scope → x ∈ t.sch.tokens) ∧
      t = { s with host.fn := t.host.fn, sch.tokens := t.sch.tokens })) ∧
  (∀ (i : TaskIx) ws, Passes s p tag 0x0906 → s.ownsIndex p i.val = true → s.taskWords i.val = some ws →
    Answers (.schTaskInfo p tag i) s (fun t => Posted t p tag 0x0906 .ok ws ∧ SameButHost s t))

/-- The memory commands complete: a transfer within the partition's space that meets no image and no fenced page is
accepted, its write takes effect when it is done; a channel is fenced, POISONED pages are remapped, repairs are scheduled
(11 R307, R316 to R318). The image that a range touches is a free value (notes/assumptions/47.md): with no image that is
LOADING or READY it touches none. -/
def Obligations.MemoryCommandsComplete : Prop := ∀ (p : Part) (tag : Nat) (s : State),
  (∀ addr bytes, Passes s p tag 0x0A01 → s.rangeOk p addr bytes.length = true → s.liveImages p = [] →
    s.fencedPage p addr bytes.length = none →
    Answers (.memWrite p tag addr bytes) s (fun t => Posted t p tag 0x0A01 .accepted [] ∧
      t.host.xfers = s.host.xfers ++ [⟨p, tag, 0x0A01, [], some (addr, bytes), addr, []⟩] ∧
      t.mem = { s.mem with pc := t.mem.pc })) ∧
  (∀ addr len, Passes s p tag 0x0A02 → s.rangeOk p addr len = true → s.liveImages p = [] →
    s.fencedPage p addr len = none →
    Answers (.memRead p tag addr len) s (fun t => Posted t p tag 0x0A02 .accepted [] ∧
      t.host.xfers = s.host.xfers ++ [⟨p, tag, 0x0A02, s.hbmWords p addr (len / 4), none, addr, [(addr, len)]⟩] ∧
      t.mem = { s.mem with pc := t.mem.pc })) ∧
  (∀ a bytes, s.host.xfers = [⟨p, tag, 0x0A01, [], some (a, bytes), a, []⟩] → s.fencedPage p a bytes.length = none →
    Answers (.hostTransferDone p tag .good) s (fun t => Posted t p tag 0x0A01 .ok [] ∧
      t.mem.hbm = (s.writeBytes p a bytes).mem.hbm ∧ t.host.xfers = [])) ∧
  (∀ m : Mc, Passes s p tag 0x0A03 → s.rightConfig p = true →
    ((s.mcAt m.val).mode = 3 → Answers (.memFence p tag m) s (fun t => Posted t p tag 0x0A03 .ok [] ∧ SameButHost s t)) ∧
    ((s.mcAt m.val).mode ≠ 3 → exec (.memFence p tag m) s = .next
      (((taken s p tag 0x0A03).channelEvent (0x581 + 2 * m.val) m.val 6).complete p tag 0x0A03 .ok []))) ∧
  (∀ target : Part, Passes s p tag 0x0A04 → s.isSystem p = true → s.partBusy target = false →
    s.poisonedPages target ≤ s.freePages →
    Answers (.memRemap p tag target) s (fun t => Posted t p tag 0x0A04 .ok [] ∧
      t.mem = (s.remapPart target).mem ∧ t = { s with host.fn := t.host.fn, mem := t.mem })) ∧
  (∀ m : Mc, Passes s p tag 0x0A05 → s.rightConfig p = true →
    Answers (.memRepair p tag (some m)) s (fun t => Posted t p tag 0x0A05 .ok [] ∧
      (t.mcAt m.val).sched = (s.mcAt m.val).cands ∧ t = { s with host.fn := t.host.fn, mem.mc := t.mem.mc })) ∧
  (Passes s p tag 0x0A05 → s.rightConfig p = true →
    Answers (.memRepair p tag none) s (fun t => Posted t p tag 0x0A05 .ok [] ∧
      SameButHost ((List.range 32).foldl (fun s i => s.updMc i (fun c => { c with sched := c.cands }))
        (taken s p tag 0x0A05)) t))

/-- The Ngulos commands complete: the module is configured anew, triggers and STOPs are sent, the time is labelled, CHIME
schedules start and end, lanes are scanned, tested and trained (12 R323, R348, R351 to R353; 13 R369 to R372). -/
def Obligations.LinkCommandsComplete : Prop := ∀ (p : Part) (tag : Nat) (s : State),
  (Passes s p tag 0x0B01 → s.isSystem p = true → s.linkedTask = false →
    Answers (.nglConfig p tag) s (fun t => Posted t p tag 0x0B01 .ok [] ∧
      SameButHost (((((taken s p tag 0x0B01).complete p tag 0x0B01 .accepted []).applyConfig).configPorts).rejoin) t)) ∧
  (∀ (number : NTrg) lead time, Passes s p tag 0x0B02 → (s.part p).nglTriggers.getLsbD number.val = true →
    s.trigOk lead time = true →
    Answers (.nglTrigger p tag number lead time) s (fun t => Posted t p tag 0x0B02 .ok [] ∧
      SameButHost ((taken s p tag 0x0B02).sendTrig number (s.trigTime lead time)) t)) ∧
  (∀ linkId all result reason, Passes s p tag 0x0B03 → s.ownsStop p linkId all = true →
    Answers (.nglStop p tag linkId all result reason) s (fun t => Posted t p tag 0x0B03 .ok [] ∧
      SameButHost (((taken s p tag 0x0B03).broadcast none
        (fun s q => s.queueC0 q (.stop all linkId result reason s.node))).stopAct all linkId (stopResult result reason)) t)) ∧
  (∀ seconds, Passes s p tag 0x0B04 → s.isSystem p = true → seconds < 2 ^ 48 → s.timeMaster = true →
    let u := taken s p tag 0x0B04
    let mt := (u.now + u.freeVal % 40001 - 20000 + 500000) / 1000000 * 1000000
    Answers (.nglTimeLabel p tag seconds) s (fun t => Posted t p tag 0x0B04 .ok [] ∧
      SameButHost ((u.drawFree.broadcast none
        (fun v q => v.queueC1 q (.timeLabel v.node u.domSel seconds (v.toSel mt)))).label seconds mt) t)) ∧
  (∀ rec : ChimeRec, Passes s p tag 0x0B05 → rec.output < 4 → (s.part p).chime.getLsbD rec.output = true →
    rec.rsvd = false → chimeInRange s.now rec = true →
    Answers (.nglChime p tag rec) s (fun t => Posted t p tag 0x0B05 .ok [] ∧
      t.chimeAt rec.output = (s.chimeAt rec.output).order s.now rec ∧
      t = { s with host.fn := t.host.fn, ngl.chime := t.ngl.chime })) ∧
  (∀ d : ScanDesc, Passes s p tag 0x0B06 → s.isSystem p = true → d.rsvd = false → scanInRange d = true →
    (6 ≤ d.lane → s.parN 11 (hostPortOf d.lane) 0x08D ≠ 0) → s.laneLive d.lane = true → (s.slaneAt d.lane).scan = none →
    Answers (.nglLaneScan p tag d) s (fun t => Posted t p tag 0x0B06 .accepted [] ∧
      (t.slaneAt d.lane).scan = some (p, tag, d, s.now) ∧
      t = { s with host.fn := t.host.fn, ngl.slane := t.ngl.slane })) ∧
  (∀ lane pattern mode inject, Passes s p tag 0x0B07 → s.isSystem p = true → pattern ≤ 4 → mode ≤ 3 → lane < 38 →
    (inject ≤ 1 ∨ (10 ≤ inject ∧ inject ≤ 40)) → s.prbsFree lane = true →
    Answers (.nglPrbs p tag lane pattern mode inject) s (fun t => Posted t p tag 0x0B07 .ok [] ∧
      (t.slaneAt lane).prbs = (if mode = 0 then none else some (pattern, mode, inject)) ∧
      (t.slaneAt lane).prbsLock = false ∧
      t = { s with host.fn := t.host.fn, ngl.slane := t.ngl.slane, ngl.port := t.ngl.port })) ∧
  (∀ lane, Passes s p tag 0x0B08 → s.isSystem p = true → lane < 6 → (s.portAt lane).mode ≠ .off →
    (s.portAt lane).mode ≠ .training → (s.slaneAt lane).prbs = none →
    exec (.nglLaneRetrain p tag lane) s = .next
      (((((taken s p tag 0x0B08).complete p tag 0x0B08 .accepted []).updPort lane
        (fun x => { x with retrainCmd := some (p, tag) })).retrainPort lane).wakeB lane))

/-- The supervisory commands complete: the partition table is written and read, firmware images are loaded, handed over
and selected (14 R397, R401, R402; 16 R450). -/
def Obligations.SupervisorCommandsComplete : Prop := ∀ (p : Part) (tag : Nat) (s : State),
  (∀ rec : PartRec, Passes s p tag 0x0C01 → s.isSystem p = true → s.recBad rec = false → recInRange rec = true →
    s.heldElsewhere rec = none → s.sumsBad rec = false → s.takenBusy rec = false →
    s.pagesBusy rec.part rec.hbmPages = false →
    Answers (.supPartSet p tag rec) s (fun t => Posted t p tag 0x0C01 .ok [] ∧
      SameButHost ((taken s p tag 0x0C01).tableEvents ((taken s p tag 0x0C01).setPart rec)) t)) ∧
  (∀ target : Part, Passes s p tag 0x0C02 → (p = target ∨ s.isSystem p = true) →
    Answers (.supPartGet p tag target) s (fun t => lastCpl t p = some
      { tag, status := .ok, opcode := 0x0C02, final := true, result := []
        data := (recWords (s.part target)).map (fun (n : Nat) => (n : Int)) } ∧ SameButHost s t)) ∧
  (∀ version minHandover ucode, Passes s p tag 0x0C03 → s.isSystem p = true → s.fw.hand = 0 →
    Answers (.supFwLoad p tag true ⟨version, ucode⟩ minHandover) s (fun t =>
      Posted t p tag 0x0C03 .ok [version, b2n (decide (minHandover ≤ s.fw.version))] ∧
      t.fw = s.fw.storeImage version ucode (decide (minHandover ≤ s.fw.version)) ∧
      t = { s with host.fn := t.host.fn, fw := t.fw })) ∧
  (∀ version minHandover ucode, Passes s p tag 0x0C03 → s.isSystem p = true → s.fw.hand = 0 →
    exec (.supFwLoad p tag false ⟨version, ucode⟩ minHandover) s = .next
      (((taken s p tag 0x0C03).refuseCmd p tag 0x0C03 .deniedWorld []).event 0x091)) ∧
  (Passes s p tag 0x0C04 → s.isSystem p = true → s.fw.hand = 0 → s.fw.mayHand = true → s.fw.otherValid = true →
    exec (.supFwHandover p tag) s = .next
      (({ (taken s p tag 0x0C04).complete p tag 0x0C04 .accepted [] with fw := { s.fw with
        hand := 1, state := 2, handCmd := some (p, tag), handDue := s.now + 1000000 * s.parN 0 0 0x002 } } : State).event
        0x090 [1])) ∧
  (∀ bankB, Passes s p tag 0x0D06 → s.isSystem p = true → (if bankB then s.fw.validB else s.fw.validA) = true →
    Answers (.hltFwSelect p tag bankB) s (fun t => Posted t p tag 0x0D06 .ok [] ∧ t.fw = { s.fw with next := bankB } ∧
      t = { s with host.fn := t.host.fn, fw := t.fw }))

/-- The steps of a hand-over: the freeze after the drain, its abandonment, the resume of the new firmware and the return
to the old one (14 R402, R403). -/
def Obligations.HandoverStepsComplete : Prop := ∀ s : State,
  (s.fw.hand = 1 → s.drained = true → Answers .handoverDrainDone s (fun t =>
    t = { s with fw := { s.fw with hand := 2, handDue := s.now + 400000000 } })) ∧
  (s.fw.hand = 1 → s.drained = false → exec .handoverDrainTimeout s = .next
    (((s.moveTo s.fw.handDue).resumeFw.event 0x090 [3]).endHandover .busy [])) ∧
  (∀ us, s.fw.hand = 2 → us ≤ 400000 →
    let u := s.moveTo (s.fw.handDue - 400000000 + 1000 * us)
    let v : State := { u with fw := { s.fw with bank := !s.fw.bank, next := !s.fw.bank, mayHand := false } }
    exec (.handoverResume us) s = .next ((v.resumeFw.endHandover .ok [v.fw.version, us]).event 0x090 [2])) ∧
  (s.fw.hand = 2 → exec .handoverRevert s = .next
    ((((s.moveTo s.fw.handDue).resumeFw).endHandover .internal []).event 0x090 [4]))

/-- The fault commands complete: a forced occurrence, the release of GONG_N, first-error records read and cleared, the
lifting of a fence and the end of its self-test (16 R435, R442, R443, R445, R448, R449). -/
def Obligations.FaultCommandsComplete : Prop := ∀ (p : Part) (tag : Nat) (s : State),
  (∀ source payload, Passes s p tag 0x0D01 → s.isSystem p = true → source < 2048 → reservedSrc source = false →
    payload.length ≤ 10 → exec (.hltForce p tag source payload) s = .next
      (((taken s p tag 0x0D01).force source payload).complete p tag 0x0D01 .ok []) ∧
    (source ≠ 0x562 → source ≠ 0x573 → (taken s p tag 0x0D01).force source payload =
      (taken s p tag 0x0D01).raise { src := source, payload, forced := true })) ∧
  (Passes s p tag 0x0D02 → s.isSystem p = true →
    Answers (.hltAlarmAck p tag) s (fun t => Posted t p tag 0x0D02 .ok [] ∧
      t.evt.gong = (s.evt.fatal && s.evt.gong) ∧ (s.evt.fatal = false → t.evt.gongFirst = 0x7FF) ∧
      t = { s with host.fn := t.host.fn, evt.gong := t.evt.gong, evt.gongFirst := t.evt.gongFirst })) ∧
  (∀ block, Passes s p tag 0x0D03 → block ≤ 14 → s.mayFerr p block = true →
    Answers (.hltFerrRead p tag block) s (fun t => SameButHost s t ∧
      (∀ e, Tbl.find s.evt.ferr block = some e → Posted t p tag 0x0D03 .ok e.words) ∧
      (Tbl.find s.evt.ferr block = none → Posted t p tag 0x0D03 .ok [0, 0, 0, 0, 0, 0]))) ∧
  (∀ block, Passes s p tag 0x0D04 → block ≤ 14 → s.mayFerr p block = true →
    Answers (.hltFerrClear p tag block) s (fun t => Posted t p tag 0x0D04 .ok [] ∧ Tbl.find t.evt.ferr block = none ∧
      (∀ b, b ≠ block → Tbl.find t.evt.ferr b = Tbl.find s.evt.ferr b) ∧
      t = { s with host.fn := t.host.fn, evt.ferr := t.evt.ferr })) ∧
  (Passes s p tag 0x0D04 → Answers (.hltFerrClear p tag 0xFF) s (fun t => Posted t p tag 0x0D04 .ok [] ∧
    t.evt.ferr = s.evt.ferr.filter (fun x => !s.mayErr p x.2) ∧ t = { s with host.fn := t.host.fn, evt.ferr := t.evt.ferr })) ∧
  (∀ u, Passes s p tag 0x0D05 → s.rightConfig p = true → u ≠ .badKind → u ≠ .badElement →
    (∀ l : Lane, u = .lane l → s.pmuOn (l.val / 33) = none) → (∀ x ∈ s.cal.unfence, x.1 ≠ u) →
    (∀ st ws, s.unfenceNow u = some (st, ws) → Answers (.hltUnfence p tag u) s (fun t =>
      Posted t p tag 0x0D05 st ws ∧ SameButHost s t)) ∧
    (s.unfenceNow u = none → Answers (.hltUnfence p tag u) s (fun t => Posted t p tag 0x0D05 .accepted [] ∧
      t.cal.unfence = s.cal.unfence ++ [(u, p, tag)] ∧ t = { s with host.fn := t.host.fn, cal.unfence := t.cal.unfence }))) ∧
  (∀ u, s.cal.unfence.find? (fun x => x.1 == u) = some (u, p, tag) →
    let v : State := { s with cal.unfence := s.cal.unfence.filter (fun x => x.1 != u) }
    Answers (.unfenceSelftestDone u false) s (fun t => Posted t p tag 0x0D05 .fenced [] ∧ SameButHost v t) ∧
    ((v.unfenceUnit u).unitFenced u = false → exec (.unfenceSelftestDone u true) s = .next
      (((v.unfenceUnit u).event 0x057 [unitRes u]).complete p tag 0x0D05 .ok [])) ∧
    ((v.unfenceUnit u).unitFenced u = true → Answers (.unfenceSelftestDone u true) s (fun t =>
      Posted t p tag 0x0D05 .fenced [] ∧ SameButHost (v.unfenceUnit u) t)))

/-- A command whose partition is disabled is refused with DENIED_PARTITION and changes nothing but the host's function:
the completion and the first-error record (14 R389, R384). Its tag is free. -/
def Obligations.DisabledPartitionDeniesEveryCommand : Prop := ∀ (c : Instr) (p : Part) (tag : Nat) (op : BitVec 16) (s : State),
  issuedBy c = some (p, tag, op) → s.tagBusy p tag op = false → (s.part p).enable = false →
    Answers c s (fun t => Posted t p tag op .deniedPartition [] ∧ SameButHost s t)

/-- A command whose tag another command of the partition still uses is refused with BAD_PARAM; nothing else changes but
the host's function, and the tag stays in use (14 R381, R389). -/
def Obligations.TagInUseRefusesEveryCommand : Prop := ∀ (c : Instr) (p : Part) (tag : Nat) (op : BitVec 16) (s : State),
  issuedBy c = some (p, tag, op) → s.tagBusy p tag op = true →
    Answers c s (fun t => Posted t p tag op .badParam [] ∧ SameButHost s t ∧ (t.fnAt p).tags = (s.fnAt p).tags)

/-- Commands that need the system partition are refused with DENIED_PARTITION in any other, and change nothing but the
host's function (14 R393). -/
def Obligations.SystemCommandsDeniedElsewhere : Prop := ∀ (c : Instr) (p : Part) (tag : Nat) (op : BitVec 16) (s : State),
  issuedBy c = some (p, tag, op) →
  op ∈ ([0x0A04, 0x0B01, 0x0B04, 0x0B06, 0x0B07, 0x0B08, 0x0C01, 0x0C03, 0x0C04, 0x0D01, 0x0D02, 0x0D06, 0x0E02] :
    List (BitVec 16)) →
  s.tagBusy p tag op = false → s.isSystem p = false →
    Answers c s (fun t => Posted t p tag op .deniedPartition [] ∧ SameButHost s t)

/-- A DMA error while a command that has passed the checks of its world and right reads host memory completes it with
INTERNAL, records kind 7 with the host address when no first error is held, and changes nothing else (14 R380, R389). -/
def Obligations.DmaErrorOfCommand : Prop := ∀ (p : Part) (tag : Nat) (image : Image) (a : Nat) (s : State),
  s.tagBusy p tag 0x0101 = false → (s.part p).enable = true → (s.fnAt p).dmaOf tag 0x0101 = some a →
  (s.fnAt p).ferr = none →
    Answers (.veImageLoad p tag image) s (fun t => Posted t p tag 0x0101 .internal [] ∧ SameButHost s t ∧
      (t.fnAt p).ferr.map (fun e => (e.kind, e.lo, e.hi)) = some (7, a % 2 ^ 32, a / 2 ^ 32 % 2 ^ 32))

/-- VEC, RPT and WAIT issue their positions when their engine executes them: a VEC the vectors from VP in order, a RPT the
vector at VP each time, a WAIT hold positions, with NS enough of them to cover its nanoseconds at the period in force. VP
passes what a VEC or a RPT has read. The instructions that act with the next position queue a descriptor that names it,
WTRG arms a wait there, HALT ends the instruction stream. Execution goes on after the instruction, and nothing else
changes (02 R47, R48, R52, R59, R62, R64). -/
def Obligations.IssuingInstructions : Prop := ∀ (e : Eng) (s : State) (b : Burst) (m : ImgSt),
  let period := max 1 (s.vecPeriod b m.img b.tsoNext (b.lastIssued.getD (b.firstVec m.img)))
  let queued (c : Ctl) : State → Prop := BurstBecomes s e m b.ip { b with
    ctls := b.ctls ++ [{ pos := b.vix, ctl := c }], ip := (m.img.after b.ip b.vp).1, vp := (m.img.after b.ip b.vp).2 }
  ((∀ d ∈ b.runs, d.done < d.n) →
    (∀ n, 0 < n → Fetches s e (.vec e n) b m → Answers (.vec e n) s (Issues s e b
      ((List.range n).map (fun k => some (b.vp + k))) (m.img.after b.ip (b.vp + n)))) ∧
    (∀ n, 0 < n → Fetches s e (.rpt e n) b m → Answers (.rpt e n) s (Issues s e b
      (List.replicate n (some b.vp)) (m.img.after b.ip (b.vp + 1)))) ∧
    (∀ n, 0 < n → Fetches s e (.wait e false n) b m → Answers (.wait e false n) s (Issues s e b
      (List.replicate n none) (m.img.after b.ip b.vp))) ∧
    (∀ n, 0 < n → Fetches s e (.wait e true n) b m →
      ∃ k, 0 < k ∧ 4000 * n ≤ k * period ∧ (k - 1) * period < 4000 * n ∧
        Answers (.wait e true n) s (Issues s e b (List.replicate k none) (m.img.after b.ip b.vp)))) ∧
  (∀ o a, Fetches s e (.mark e o a) b m → Answers (.mark e o a) s (queued (.mark o a))) ∧
  (∀ k, Fetches s e (.signal e k) b m → Answers (.signal e k) s (queued (.signal k))) ∧
  (∀ ts g o, Fetches s e (.tset e ts g o) b m → Answers (.tset e ts g o) s (queued (.tset ts g o))) ∧
  (∀ v n a, Fetches s e (.stream e v n a) b m → Answers (.stream e v n a) s (queued (.stream v n a))) ∧
  (∀ u, Fetches s e (.capon e u) b m → Answers (.capon e u) s (queued (.capon u))) ∧
  (∀ u, Fetches s e (.capoff e u) b m → Answers (.capoff e u) s (queued (.capoff u))) ∧
  (∀ n d, Fetches s e (.stamp e n d) b m → Answers (.stamp e n d) s (queued (.stamp n d))) ∧
  (∀ g c, Fetches s e (.inj e g c) b m → Answers (.inj e g c) s (queued (.inj g c))) ∧
  (∀ x, Fetches s e (.failstop e x) b m → Answers (.failstop e x) s (queued (.failstop x))) ∧
  (∀ sel timeout latch toFail, Fetches s e (.wtrg e sel timeout latch toFail) b m →
    Answers (.wtrg e sel timeout latch toFail) s (BurstBecomes s e m b.ip { b with
      trigTo := false, waits := b.waits ++ [{ selector := sel, pos := b.vix, timeout, toFail, latch }]
      ip := (m.img.after b.ip b.vp).1, vp := (m.img.after b.ip b.vp).2 })) ∧
  (Fetches s e (.halt e) b m → Answers (.halt e) s (BurstBecomes s e m b.ip { b with halted := true }))

/-- In the cycle of the position that a descriptor names it takes effect: a MARK drives its output, a SIGNAL issues a USER
token, a TSET replaces the sets of its groups, a STREAM record is pushed, a capture starts or stops at every site of the
burst, a measurement set is armed at the start of the cycle, a conversion is requested 40 ns after it, fail-stop begins
or ends (02 R62, R63; 06 R197, R210; 07 R223; 08 R247). -/
def Obligations.DescriptorsAct : Prop := ∀ (r : Runner) (s : State) (b : Burst) (m : ImgSt) (c : Column) (cs : List Column)
    (d : CtlDesc),
  s.burstAt r.val = some b → s.imgOf b = some m → b.ended = false → b.canEmit = true → b.cols = c :: cs →
  b.ctls = [d] → d.pos ≤ b.emitted →
  let u := s.putBurst r.val { b with ctls := [] }
  let q := b.nextStart
  let len := s.cycleLen b (s.posPeriod { b with tso := b.tsoNext } m.img c.vec)
  (∀ out act, d.ctl = .mark out act → exec (.controlDescriptorAct r) s = .next
    (u.updMark out.val (MarkSt.act act.val q (q + len)))) ∧
  (∀ k, d.ctl = .signal k → exec (.controlDescriptorAct r) s = .next
    (u.issueTok { scope := b.home, kind := 0, key := k, result := 0 })) ∧
  (∀ ts g off, d.ctl = .tset ts g off → exec (.controlDescriptorAct r) s = .next
    (s.putBurst r.val { b with ctls := [], tso := tsoSet b.tso ts.val g off })) ∧
  (∀ v n act, d.ctl = .stream v n act → exec (.controlDescriptorAct r) s = .next
    (u.streamAct b.home.val act.val v n d.pos (nsOf q))) ∧
  (∀ x, d.ctl = .capon x → exec (.controlDescriptorAct r) s = .next
    (b.sites.foldl (fun s k => s.capOn k.val x d.pos (nsOf q)) u)) ∧
  (∀ x, d.ctl = .capoff x → exec (.controlDescriptorAct r) s = .next
    (b.sites.foldl (fun s k => s.capOff k.val x d.pos) u)) ∧
  (∀ n k, d.ctl = .stamp n false → k ∈ b.sites → s.msPar n 0x00B = 0 → s.msPar n 0x001 = k.val →
    exec (.controlDescriptorAct r) s = .next (u.armSet n (q * 16) false)) ∧
  (∀ n k, d.ctl = .stamp n true → k ∈ b.sites → s.msPar n 0x00B = 0 → s.msPar n 0x001 = k.val →
    exec (.controlDescriptorAct r) s = .next (u.disarmSet n false false)) ∧
  (∀ g x, d.ctl = .inj g x → exec (.controlDescriptorAct r) s = .next
    (u.injRequest r.val g.val x d.pos (ceilDiv q 4000 + 40))) ∧
  (∀ en, d.ctl = .failstop en → exec (.controlDescriptorAct r) s = .next
    (s.putBurst r.val { b with ctls := [], fsEn := en }))

/-- LOOP, ENDL, CALL and RET: a LOOP pushes its count with the next instruction, ENDL goes back to it or past it, CALL
pushes the return point, RET resumes the caller; a ninth level, or an empty stack, is a machine check (02 R49 to R52). -/
def Obligations.NestingInstructions : Prop := ∀ (e : Eng) (s : State) (b : Burst) (m : ImgSt),
  let fails (n : Nat) : State := movedOn ((noted s e b.ip).machineCheck e.val n) e m b.ip
  let next := m.img.after b.ip b.vp
  (∀ n, Fetches s e (.loop e n) b m →
    (b.loops.length < 8 → Answers (.loop e n) s (BurstBecomes s e m b.ip
      { b with loops := { count := n, ip := next.1, vp := next.2 } :: b.loops, ip := next.1, vp := next.2 })) ∧
    (8 ≤ b.loops.length → exec (.loop e n) s = .next (fails 2))) ∧
  (Fetches s e (.endl e) b m →
    (∀ l r, b.loops = l :: r → 1 < l.count → Answers (.endl e) s (BurstBecomes s e m b.ip
      { b with loops := { l with count := l.count - 1 } :: r, ip := l.ip, vp := l.vp })) ∧
    (∀ l r, b.loops = l :: r → l.count ≤ 1 → Answers (.endl e) s (BurstBecomes s e m b.ip
      { b with loops := r, ip := next.1, vp := next.2 })) ∧
    (b.loops = [] → exec (.endl e) s = .next (fails 2))) ∧
  (∀ seg, Fetches s e (.call e seg) b m →
    (∀ i v, b.rets.length < 8 → m.img.enter seg = some (i, v) → Answers (.call e seg) s (BurstBecomes s e m b.ip
      { b with rets := { ip := next.1, vp := next.2 } :: b.rets, ip := i, vp := v })) ∧
    (8 ≤ b.rets.length → exec (.call e seg) s = .next (fails 2)) ∧
    (b.rets.length < 8 → m.img.enter seg = none → exec (.call e seg) s = .next (fails 1))) ∧
  (Fetches s e (.ret e) b m →
    (∀ x r, b.rets = x :: r →
      Answers (.ret e) s (BurstBecomes s e m b.ip { b with rets := r, ip := x.ip, vp := x.vp })) ∧
    (b.rets = [] → exec (.ret e) s = .next (fails 2)))

/-- JMP pops LPOP loops and transfers; JF and JNF wait until the results up to v − 224 are final, then test the JF flag up
to there and transfer or go on, clearing it when CLR asks for it (02 R51, R53, R54). -/
def Obligations.JumpInstructions : Prop := ∀ (e : Eng) (s : State) (b : Burst) (m : ImgSt) (seg lpop : Nat),
  let fails (n : Nat) : State := movedOn ((noted s e b.ip).machineCheck e.val n) e m b.ip
  (Fetches s e (.jmp e seg lpop) b m →
    (∀ i v, lpop ≤ b.loops.length → m.img.enter seg = some (i, v) → Answers (.jmp e seg lpop) s
      (BurstBecomes s e m b.ip { b with ip := i, vp := v, loops := b.loops.drop lpop })) ∧
    (b.loops.length < lpop → exec (.jmp e seg lpop) s = .next (fails 2)) ∧
    (lpop ≤ b.loops.length → m.img.enter seg = none → exec (.jmp e seg lpop) s = .next (fails 1))) ∧
  (∀ clr, Fetches s e (.jf e seg lpop clr) b m → let b' := if clr then b.jfClear b.horizon else b
    (b.finalTo b.horizon = false → Answers (.jf e seg lpop clr) s (BurstBecomes s e m b.ip b)) ∧
    (b.finalTo b.horizon = true → b.jfTest b.horizon = false →
      Answers (.jf e seg lpop clr) s (BurstBecomes s e m b.ip (b'.step m.img))) ∧
    (∀ i v, b.finalTo b.horizon = true → b.jfTest b.horizon = true → lpop ≤ b.loops.length →
      m.img.enter seg = some (i, v) → Answers (.jf e seg lpop clr) s
        (BurstBecomes s e m b.ip { b' with ip := i, vp := v, loops := b.loops.drop lpop }))) ∧
  (∀ clr, Fetches s e (.jnf e seg lpop clr) b m → let b' := if clr then b.jfClear b.horizon else b
    (b.finalTo b.horizon = false → Answers (.jnf e seg lpop clr) s (BurstBecomes s e m b.ip b)) ∧
    (b.finalTo b.horizon = true → b.jfTest b.horizon = true →
      Answers (.jnf e seg lpop clr) s (BurstBecomes s e m b.ip (b'.step m.img))) ∧
    (∀ i v, b.finalTo b.horizon = true → b.jfTest b.horizon = false → lpop ≤ b.loops.length →
      m.img.enter seg = some (i, v) → Answers (.jnf e seg lpop clr) s
        (BurstBecomes s e m b.ip { b' with ip := i, vp := v, loops := b.loops.drop lpop })))

/-- MATCH issues the iterations up to the decision of the first; the match unit decides them in order, issues the next, and
skips the instruction after MATCH when one matches, or times out with event +6 (02 R56 to R58). The time-out of a trigger
wait resumes the burst with event +7, a fired trigger before it releases it (02 R59, R61). -/
def Obligations.MatchAndTriggerInstructions : Prop := ∀ (e : Eng) (s : State) (b : Burst) (m : ImgSt),
  (∀ seg maxIter sense toFail l, Fetches s e (.matchLoop e seg maxIter sense toFail) b m →
    l = bodyLen m.img seg → 0 < l → (∀ d ∈ b.runs, d.done < d.n) →
    Answers (.matchLoop e seg maxIter sense toFail) s (fun t => Issues s e b
      ((List.range ((matchLag l + 1) * l)).map (fun k => some (m.img.vecBase seg + k % l))) (b.ip, b.vp) t ∧
      (t.burstAt e.val).map (·.unit) = some (some
        { body := seg, len := l, maxIter, sense, toFail, first := b.vix, decided := 1, failing := [] }))) ∧
  (∀ u : MatchSt, s.burstAt e.val = some b → b.unit = some u → s.imgOf b = some m → 0 < u.len → u.micro = false →
    (s.engAt e.val).mode ≠ .fenced → b.finalTo ((u.first + u.decided * u.len : Nat) - 1 : Int) = true →
    (u.failing.contains u.decided = u.sense → Answers (.matchDecide e) s (fun t =>
      t.burstAt e.val = some (b.matched m.img u.decided) ∧ t = { s with ve.bursts := t.ve.bursts })) ∧
    (u.failing.contains u.decided ≠ u.sense → u.maxIter ≤ u.decided → exec (.matchDecide e) s = .next
      (s.matchTimeout e m.img b u)) ∧
    (u.failing.contains u.decided ≠ u.sense → u.decided < u.maxIter → (∀ d ∈ b.runs, d.done < d.n) →
      Answers (.matchDecide e) s (fun t => Issues s e b
        ((List.range u.len).map (fun k => some (m.img.vecBase u.body + k % u.len))) (b.ip, b.vp) t ∧
        (t.burstAt e.val).map (·.unit) = some (some { u with decided := u.decided + 1 })))) ∧
  (∀ (w : WtrgSt) rest, s.tryRelease e.val = s → s.burstAt e.val = some b → b.waits = w :: rest →
    b.waiting = true → 0 < w.timeout → b.before (max b.cycle (b.waitFrom + w.timeout + 1)) = true →
    let next := max b.cycle (b.waitFrom + w.timeout + 1)
    let u := (s.holdCycles e.val b next (Burst.waitOver w rest)).moveTo (nsOf (s.holdTo b next).nextStart)
    exec (.wtrgTo e) s = .next ((u.flushOwed e.val).event (0x107 + 8 * e.val)))

/-- An engine whose control store holds microwords runs the routine of the instruction from its dispatch entry, or goes on
after the commit point reached, up to the next one; a reserved opcode runs TRAP, a machine check; a microword with a
parity error fences its engine, and a scrub without one changes nothing (02 R70, R73, R75, R76, R82). After the last
position the descriptors that no position follows act (02 R62). -/
def Obligations.SequencerUnits : Prop := ∀ (e : Eng) (s : State),
  (∀ i b m ir w, ownEngine i = some e → Interprets s e i b m ir w →
    exec i s = .next (movedOn (s.microRun e m b ir w) e m ir)) ∧
  (∀ b m ir w at_, (s.engAt e.val).micro.pc = none → MRun.run e m w (s.engAt e.val).ucode.words 25 (w.toNat / 2 ^ 58)
      { b, m := { (s.engAt e.val).micro with ir, lastIp := ir }, ip := ir + 1, moved := false } = (at_, .stall) →
    s.microRun e m b ir w = s) ∧
  (∀ b m ir w at_ off, (s.engAt e.val).micro.pc = none → MRun.run e m w (s.engAt e.val).ucode.words 25 (w.toNat / 2 ^ 58)
      { b, m := { (s.engAt e.val).micro with ir, lastIp := ir }, ip := ir + 1, moved := false } = (at_, .check off) →
    s.microRun e m b ir w = s.machineCheck e.val off (some (at_, 0x10 + e.val, if off = 0 then 3 else 2))) ∧
  (∀ op x, s.fetch e = some x → reservedOpcode op = true → (s.engAt e.val).ucode.words = [] →
    exec (.illegalOpcodeTrap e op) s = .next (s.machineCheck e.val 1 (some (op, 0x10 + e.val, 2)))) ∧
  (∀ op b m, s.fetch e = some (b, m) → reservedOpcode op = true → (s.engAt e.val).ucode.words ≠ [] →
    exec (.illegalOpcodeTrap e op) s = .next (s.microRun e m b b.ip (patWord op 0 0))) ∧
  (∀ a, (s.engAt e.val).mode ≠ .fenced → exec (.controlStoreScrub e true a) s = .next
    (s.machineCheck e.val 0 (some (a, 0x10 + e.val, 3)))) ∧
  (∀ a, exec (.controlStoreScrub e false a) s = .next s) ∧
  (∀ (r : Runner) b, s.burstAt r.val = some b → b.ended = true → b.phase = .running →
    exec (.controlDescriptorAct r) s = .next
      ((b.ctls.foldl (fun s d => s.actCtl r.val b b.nextStart (b.nextStart + b.period) d) s).updBurst r.val
        (fun b => { b with ctls := [] })))

/-- A ready task is tried for dispatch: it goes to its runner when every check of 10 R284 passes and it is next, it ends
SKIPPED when a check refuses it, and it waits unchanged otherwise (10 R284; 14 R387). -/
def Obligations.TaskDispatchFollowsItsVerdict : Prop := ∀ (i : TaskIx) (t : TaskSt) (s : State),
  s.taskAt i.val = some t → s.eligible t = true → (s.fnAt t.part.val).cplHeld.length < 512 →
  (∀ r d e, s.verdict i.val t = .go r d e → s.isNext i.val t = true →
    exec (.taskDispatch i) s = .next (s.dispatch i.val t r d e) ∧
    Answers (.taskDispatch i) s (fun u => (u.burstAt r).isSome = true ∧ u.taskAt i.val = none)) ∧
  (∀ st ws, s.verdict i.val t = .refuse st ws → exec (.taskDispatch i) s = .next (s.endTask i.val t st ws skippedRes)) ∧
  (s.verdict i.val t = .stale → exec (.taskDispatch i) s = .next
    (s.endTask i.val t .ok (notRun t.raster (invalidRes rCAL)) skippedRes)) ∧
  (s.verdict i.val t = .wait → exec (.taskDispatch i) s = .next s)

/-- Before a burst starts: its engine's loop store is filled, its islands are filled one by one and the start tick chosen
with the last, cycle 0 begins on that tick (03 R99; 04 R121, R122; 11 R312). -/
def Obligations.BurstPreparation : Prop := ∀ (s : State) (b : Burst),
  (∀ (e : Eng) x, s.burstAt e.val = some b → b.phase = .filling → Answers (.loopStoreFillDone e .good x) s (fun t =>
    t.burstAt e.val = some { b with phase := .prefill } ∧
    (t.engAt e.val).ls = { part := b.part.val, handle := b.handle, bytes := ((s.imgOf b).map (·.size)).getD 0 } ::
      (s.engAt e.val).ls)) ∧
  (∀ (e : Eng) (x : Pc), s.burstAt e.val = some b → b.phase = .filling →
    exec (.loopStoreFillDone e .uncorrectable x) s = .next (s.fillUe e.val b x.val)) ∧
  (∀ (r : Runner) (g : Grp), s.burstAt r.val = some b → b.phase = .prefill → b.fillReady = true →
    (b.groups.contains g = true ∨ b.groups = []) →
    let b' := if b.filled.contains g then b else { b with filled := b.filled ++ [g] }
    (b.groups.all (fun x => b'.filled.contains x) = true → exec (.islandFilled r g) s = .next (s.allFilled r.val b')) ∧
    (b.groups.all (fun x => b'.filled.contains x) = false → Answers (.islandFilled r g) s (fun t =>
      t.burstAt r.val = some b' ∧ t = { s with ve.bursts := t.ve.bursts }))) ∧
  (∀ (r : Runner) tick, s.burstAt r.val = some b → b.phase = .started → b.startTick = some tick →
    (∀ x ∈ s.ve.drain, ∀ k ∈ x.2.sites, k ∉ b.sites) →
    exec (.burstStartTick r) s = .next (s.startBurst r.val b tick) ∧
    Answers (.burstStartTick r) s (fun t => (t.burstAt r.val).map (·.phase) = some .running))

/-- While a burst runs: the granule it awaits arrives and the pump goes on, an uncorrectable one ends it at the position
that needs it; positions reach the pins; a missing position pauses the burst or ends it; a pause ends 48 cycles after the
islands are full again; a stretch limit ends the burst; compare results become final (02 R42, R43, R83; 03 R102, R103, R108
to R112, R115; 04 R120; 06 R187; 09 R259; 11 R312). -/
def Obligations.BurstEmission : Prop := ∀ (s : State) (b : Burst) (m : ImgSt),
  (∀ (e : Eng) (x : Pc) gran, s.burstAt e.val = some b → s.imgOf b = some m →
    b.strm.awaits (fun g => m.pcOf g == x.val) = true → (s.mcAt (x.val / 2)).mode ≠ 3 →
    (b.strm.out.find? (fun r => m.pcOf r.gran == x.val)).map (·.gran) = some gran →
    Answers (.granuleDelivered e .good x gran) s (fun t => t.burstAt e.val =
      some ({ b with strm := (b.strm.deliver (fun g => m.pcOf g == x.val)).request } : Burst).pump ∧
      t = { s with ve.bursts := t.ve.bursts }) ∧
    exec (.granuleDelivered e .corrected x gran) s = .next
      ((s.drawFree.eccCorr x.val s.freeAddr).delivered e.val (fun g => m.pcOf g == x.val)) ∧
    exec (.granuleDelivered e .uncorrectable x gran) s = .next (s.streamUe e.val b x.val
      ((b.strm.out.find? (fun r => m.pcOf r.gran == x.val)).map (fun r => b.needs r.sq)))) ∧
  (∀ (r : Runner) c rest, s.tryRelease r.val = s → s.burstAt r.val = some b → s.imgOf b = some m → b.raster = false →
    b.canEmit = true → b.cols = c :: rest → b.ctls = [] →
    exec (.positionEmitted r .good) s = .next
      ((s.putBurst r.val { b with ctls := [] }).emitVec r.val m.img { b with ctls := [] } c rest)) ∧
  (∀ r : Runner, s.tryRelease r.val = s → s.burstAt r.val = some b → b.raster = true → b.halted = false →
    b.canEmit = true → exec (.positionEmitted r .good) s = .next (s.emitRaster r.val b)) ∧
  (∀ r : Runner, r.val < 32 → s.burstAt r.val = some b → b.canEmit = true →
    exec (.positionEmitted r .corrected) s = .next
      ((((s.updEng r.val (fun x => { x with lsCorr := satAdd x.lsCorr 1 0xFFFFFFFF })).event (0x103 + 8 * r.val)).tryRelease
        r.val).emit r.val) ∧
    exec (.positionEmitted r .uncorrectable) s = .next
      (s.drawFree.machineCheck r.val 4 (some (s.freeVal % 2 ^ 20, 0x10 + r.val, 3)))) ∧
  (∀ (r : Runner) c l (mc : Option Mc), s.burstAt r.val = some b → s.imgOf b = some m → b.lacks m = some l →
    l.mc m = mc.map (·.val) → s.causeFits m c l = true →
    b.raster = false → b.phase = .running → b.waiting = false → b.paused = none → b.before b.cycle = true →
    b.spent = false → b.cols = [] →
    let u := s.moveTo (nsOf b.nextStart)
    let w := b.shortWords r.val m c l
    let p : Pause := { cause := c, gran := l.gran, mc := l.mc m, words := w }
    (b.pausable = true → c ≠ .fence → b.stretched = true → exec (.positionMissing r c mc) s = .next
      (u.putBurst r.val { b with paused := some p, stretched := true })) ∧
    (b.pausable = true → c ≠ .fence → b.stretched = false → exec (.positionMissing r c mc) s = .next
      ((u.putBurst r.val { b with paused := some p, stretched := true }).event 0x5D1 w
        (b.sites.map (fun k => .site k.val)))) ∧
    ((b.pausable = false ∨ c = .fence) → exec (.positionMissing r c mc) s = .next
      (State.underrun raiseTop u r.val b w))) ∧
  (∀ (r : Runner) c, s.burstAt r.val = some b → b.paused = some c → b.refilled = true → b.spent = false →
    let at_ := max b.cycle (b.cycleAt (4000 * s.now))
    b.before (at_ + 48) = true → s.stretchMax b = none →
    exec (.pauseResume r) s = .next (s.holdCycles r.val b (at_ + 48)
      (fun x => { x with paused := none, holds := x.holds + (at_ + 48 - b.cycle) }))) ∧
  (∀ (r : Runner) c k, s.burstAt r.val = some b → b.paused = some c → s.stretchMax b = some k →
    b.before (b.cycle + (k - b.holds)) = true →
    let b' := { s.holdTo b (b.cycle + (k - b.holds)) with holds := b.holds + (k - b.holds) }
    exec (.stretchLimitReached r) s = .next (State.underrun raiseTop (s.moveTo (nsOf b'.nextStart)) r.val b' c.words)) ∧
  (∀ (r : Runner) seen x l ended, s.oldest r.val = some (ended, b) → b.flight = x :: l →
    (ended = true ∨ b.dueFinal x = true) →
    let y := x.cut b.maskFrom
    let u := (s.moveTo (nsOf (y.start + 32 * b.period))).judge r.val ended b y (y.fails seen)
    exec (.compareResultFinal r seen) s = .next (((u.capture b y seen).owedRecs { b with flight := l }).updOldest r.val
      ended (fun c => Burst.owedKept { c with flight := l })))

/-- How a burst ends: an early end acts at its cycle, the run limit adds one, the burst ends after its last position and
leaves its runner, its final result completes the task (02 R64 to R67; 06 R187; 14 R399). -/
def Obligations.BurstEnds : Prop := ∀ (s : State) (b : Burst) (r : Runner),
  (∀ u, s.burstAt r.val = some b → b.firstAct = some u → b.goesOn = true →
    (u.act ≤ b.cycle ∨ b.waiting = true ∨ b.paused.isSome = true) →
    let n := if b.paused.isSome then u.act - b.cycle else 0
    let end_ := (s.holdTo b u.act).nextStart
    let v := (s.holdCycles r.val b u.act (fun x => Burst.stopNow { x with holds := x.holds + n })).moveTo (nsOf end_)
    (b.terms.any (fun x => x.way == .safe && decide (x.act ≤ u.act)) = true → u.way ≠ .keep →
      exec (.asyncEventAct r) s = .next ((b.sites.foldl (fun s k =>
        ((s.safeSite k.val).dischargeSite k.val).updSite k.val (fun x => { x with safe := true })) v).earlySets b)) ∧
    (b.terms.any (fun x => x.way == .safe && decide (x.act ≤ u.act)) = false → u.way ≠ .keep →
      exec (.asyncEventAct r) s = .next ((b.sites.foldl (fun s k => s.stopSiteAt end_ k.val) v).earlySets b)) ∧
    (b.terms.any (fun x => x.way == .safe && decide (x.act ≤ u.act)) = false → u.way = .keep →
      exec (.asyncEventAct r) s = .next ((v.lanesMode b .hold).earlySets b))) ∧
  (∀ t0, s.burstAt r.val = some b → b.startTick = some t0 → 0 < b.runLimit → b.live = true →
    (∀ x ∈ b.terms, x.result ≠ invalidRes rOVERTIME) →
    Answers (.runLimitExpiry r) s (fun t => (t.burstAt r.val).map (fun c => c.terms.map (·.result)) =
      some (b.terms.map (·.result) ++ [invalidRes rOVERTIME]) ∧ t.now = max s.now (t0 + 1000 * b.runLimit))) ∧
  (s.burstAt r.val = some b → b.phase = .draining → b.isStarted = true → b.raster = false →
    let u := b.sites.foldl (fun s k => s.updSite k.val (fun t => { t with ebMin := b.minFill k.val }))
      ((s.tcApply b).earlySets b)
    exec (.burstEnd r) s = .next
      (({ u.delBurst r.val with ve.drain := u.ve.drain ++ [(r.val, b)] } : State).applyPend)) ∧
  (∀ c, s.burstAt r.val = some b → b.ended = true → b.phase = .running →
    let v := (((s.actRest r.val b).lanesMode b .hold).moveTo (nsOf b.nextStart)).tcApply b
    v.burstAt r.val = some c → c.raster = false →
    let d : Burst := { c with ctls := [], terms := c.terms.filter (fun t => t.way == .atEnd) }
    let u : State := d.sites.foldl (fun (s : State) k => s.updSite k.val (fun t => if d.isStarted then { t with ebMin := d.minFill k.val } else t))
      ((v.stampSets d).foldl (fun (s : State) m => s.updMs m (fun x => { x with upto := some (d.lastSeen * 16) })) v)
    exec (.burstEnd r) s = .next
      (({ u.delBurst r.val with ve.drain := u.ve.drain ++ [(r.val, d)] } : State).applyPend)) ∧
  (s.burstAt r.val = some b → b.ended = false → exec (.burstEnd r) s = .next s) ∧
  (∀ k, s.ve.drain.find? (fun x => x.1 == r.val) = some (k, b) → b.flight = [] → s.allChecked r.val b = true →
    b.isStarted = false →
    let u : State := { s with ve.drain := s.ve.drain.eraseP (fun x => x.1 == r.val) }
    exec (.burstResultFinal r) s = .next
      ((u.reportTask b (b.words r.val b.result.code) b.result.code).applyPend)) ∧
  (∀ k, s.ve.drain.find? (fun x => x.1 == r.val) = some (k, b) → b.flight = [] → s.allChecked r.val b = true →
    b.isStarted = true →
    let u : State := { s with ve.drain := s.ve.drain.eraseP (fun x => x.1 == r.val) }
    let v := b.sites.foldl (fun s k => s.siteResult b (b.resultOf k) k.val)
      ((u.endingSets b).foldl (fun s m => s.disarmSet m false false) u)
    exec (.burstResultFinal r) s = .next ((v.reportTask b (b.words r.val b.result.code) b.result.code).applyPend))

/-- The rows of the scheduler: tokens arrive and drain, waits and patience run out, members of a linked site are lost, the
budget is computed again, a stall is told (01 R22; 10 R281, R286, R288, R290, R295, R296, R298, R299). -/
def Obligations.SchedulerRows : Prop := ∀ s : State,
  (∀ scope (kind : Fin 7) key (result : BitVec 16), exec (.tokenArrival scope kind key result) s = .next
    (s.issueTok { scope, kind := kind.val, key, result := result.toNat })) ∧
  (exec .tokenOverflowDrain s = .next (s.drainTok 64).drainHeld.wake) ∧
  (∀ (i : TaskIx) t, s.taskAt i.val = some t → 0 < t.desc.waitTimeout →
    let u := s.moveTo (t.at_ + 1000 * t.desc.waitTimeout)
    (u.goesNow i.val t = false → exec (.waitTimeoutExpiry i) s = .next
      ((u.endTask i.val t .timeout [] skippedRes).event 0x5C0 [t.desc.queue.val, i.val] [.site (homeOf t.desc)])) ∧
    (u.goesNow i.val t = true → exec (.waitTimeoutExpiry i) s = .next (u.tryDispatch i.val t))) ∧
  (∀ h u, s.headTask = some (h, u) → s.sch.gov.closed = false → exec .admitPatienceExpiry s = .next
    (({ s.moveTo ((u.failedAdmit.getD 0) + 1000000 * s.parN 9 0 0x015) with
        sch.gov := { s.sch.gov with head := some h, closed := true } } : State).event 0x5C1 [h, u.e]
          [.site (homeOf u.desc)])) ∧
  (∀ (i : TaskIx) t t0, s.taskAt i.val = some t → t.patience = some t0 → exec (.affPatienceExpiry i) s = .next
    ((s.moveTo (t0 + 1000 * s.parN 9 (homeOf t.desc) 0x004)).tryDispatch i.val t)) ∧
  (∀ (r : Runner) b, s.burstAt r.val = some b → b.phase = .waitTrig → exec (.linkTimeoutExpiry r) s = .next
    (((s.moveTo (b.filledAt + 1000000 * s.parN 9 b.home.val 0x006)).giveUp r.val (invalidRes rLATE)).event 0x5C7
      [((s.siteAt b.home.val).defn.map (·.linkId)).getD 0] [.site b.home.val])) ∧
  (∀ (site : Site) node d t, (s.siteAt site.val).defn = some d → (s.linkAt d.linkId).endedAt = some t → d.linked = true →
    d.home = s.node → (s.linkAt d.linkId).results.any (fun x => x.1 == node) = false →
    exec (.linkMemberLost site node) s = .next
      (((s.moveTo (t + 10000000)).event 0x5C8 [d.linkId, node] [.site site.val]).linkResult d.linkId node
        (invalidRes rFENCE).code (t + 10000000))) ∧
  (exec .budgetRecompute s = .next s.recompute) ∧
  (∀ (port : Port) x t, (s.portAt port.val).held = some (x, t) → (s.portAt port.val).stalled = false →
    exec (.c1Stall port) s = .next
      (((s.moveTo (t + 1000000)).updPort port.val (fun x => { x with stalled := true })).event 0x5C6 [port.val])) ∧
  (∀ (i : TaskIx) t, s.taskAt i.val = some t → exec (.msParity i) s = .next
    ((s.endTask i.val t .internal [] skippedRes).event 0x5C9 [i.val] [.part t.part.val]))

/-- The steps of a power sequence complete: admission, seed sweep, ramp, settling, wait, time-out, off level, slow
discharge; the last step of a power-up completes its command with the SETTLED token (05 R163, R171, R173 to R175, R178). -/
def Obligations.PowerSequenceRows : Prop := ∀ s : State,
  (∀ (site : Site) r x, s.curStep site.val = some (r, x) → r.up = true → r.phase = .waitAdmit →
    s.admitStep (dpsDemand x.channel x.vout (s.parN 4 x.channel 0x003)) = true → s.dpsInCal x.channel = false →
    (s.dpsAt x.channel).mode = .off → Answers (.dpsStepAdmitted site) s (fun t =>
      (t.dpsAt x.channel).mode = .sweep ∧ (t.dpsAt x.channel).due = s.now + 10000 ∧
      (t.siteAt site.val).seqRun = some { r with phase := .sweep, due := s.now + 10000 } ∧
      t = { s with
        host.params := Tbl.put s.host.params (pid 4 x.channel 0x002) x.vout
        pf.dps := t.pf.dps
        pf.site := t.pf.site })) ∧
  (∀ (d : Dps) hi lo cur, (s.dpsAt d.val).mode = .sweep →
    let u := s.moveTo (s.dpsAt d.val).due
    Answers (.dpsSeedSweepEnd d hi lo cur) s (fun t =>
      t.dpsAt d.val = { u.dpsAt d.val with
        mode := .ramping, hi, lo, cur, known := true
        due := u.now + rampNs d.val 0 (s.parN 4 d.val 0x002) (s.parN 4 d.val 0x006)
        vout := s.parN 4 d.val 0x002 } ∧
      t = { u with pf.dps := t.pf.dps, pf.site := t.pf.site })) ∧
  (∀ d : Dps, (s.dpsAt d.val).mode = .ramping →
    let u := (s.moveTo (s.dpsAt d.val).due).updDps d.val (fun y => { y with
      mode := .settling, blanked := false, outSince := if y.out then some (max s.now y.due) else none
      inSince := if y.out then none else some (max s.now y.due) })
    (∀ k r x, s.stepOf d.val = some (k, r, x) → r.up = true → x.waitSettle = true → exec (.dpsRampEnd d) s = .next
      (u.seqPhase k .settle (u.now + 1000000 * s.parN 4 d.val 0x00B))) ∧
    (∀ k r x, s.stepOf d.val = some (k, r, x) → r.up = true → x.waitSettle = false → exec (.dpsRampEnd d) s = .next
      ((u.updDps d.val (fun y => { y with mode := .on })).stepDone k r x)) ∧
    (s.stepOf d.val = none → exec (.dpsRampEnd d) s = .next u)) ∧
  (∀ (d : Dps) t0, (s.dpsAt d.val).mode = .settling → (s.dpsAt d.val).inSince = some t0 →
    let u := (s.moveTo (t0 + 1000 * s.parN 4 d.val 0x00A)).updDps d.val (fun y => { y with mode := .on, settled := true })
    (∀ k r x, s.stepOf d.val = some (k, r, x) → r.phase = .settle → exec (.dpsSettled d) s = .next (u.stepDone k r x)) ∧
    (s.stepOf d.val = none → exec (.dpsSettled d) s = .next u)) ∧
  (∀ k r x q, (s.siteAt k).seq = some q →
    (r.step + 1 < q.steps.length → s.stepDone k r x = s.seqPhase k .delay (s.now + 1000 * x.delay)) ∧
    (q.steps.length ≤ r.step + 1 → s.stepDone k r x =
      ((s.updSite k (fun t => { t with seqRun := none, safe := false, shed := false })).settledTok k 0).complete
        r.part.val r.tag 0x0402 .ok [])) ∧
  (∀ (site : Site) r, (s.siteAt site.val).seqRun = some r → r.phase = .delay →
    (r.up = true → exec (.seqDelayExpiry site) s = .next
      ((s.moveTo r.due).updSite site.val (fun t =>
        { t with seqRun := some { r with step := r.step + 1, phase := .waitAdmit } }))) ∧
    (r.up = false → r.step = 0 → exec (.seqDelayExpiry site) s = .next ((s.moveTo r.due).downDone site.val r)) ∧
    (r.up = false → 0 < r.step →
      exec (.seqDelayExpiry site) s = .next ((s.moveTo r.due).downStep site.val (r.step - 1)))) ∧
  (∀ (site : Site) r x, s.curStep site.val = some (r, x) → r.up = true → r.phase = .settle →
    let u := ((s.moveTo r.due).updSite site.val (fun t => { t with seqRun := none })).event 0x534 [site.val, x.channel]
      [.site site.val, .dps x.channel]
    exec (.seqTimeout site) s = .next
      ((u.settledTok site.val (invalidRes rSUPPLY).code).complete r.part.val r.tag 0x0402 .timeout [])) ∧
  (∀ (d : Dps) k r x, s.stepOf d.val = some (k, r, x) → r.up = false → r.phase = .ramp →
    exec (.dpsOffLevelReached d) s = .next (s.downOff k d.val x) ∧
    exec (.dischSlow d) s = .next (((s.moveTo r.due).downOff k d.val x).event 0x535 [d.val, k] [.dps d.val, .site k])) ∧
  (∀ (d : Dps) t0, s.stepOf d.val = none → (s.dpsAt d.val).mode = .discharging →
    exec (.dpsOffLevelReached d) s = .next (s.updDps d.val DpsSt.turnOff) ∧
    ((s.dpsAt d.val).dischAt = some t0 → (s.dpsAt d.val).slow = false → exec (.dischSlow d) s = .next
      (((s.moveTo (t0 + 100000000)).updDps d.val (fun y => { y with slow := true })).event 0x535
        [d.val, (s.dpsSite d.val).getD 0xFFFF] [.dps d.val])))

/-- The monitors of a DPS channel and its stage: a window fault is raised WIN_DWELL after the break began, open sense
falls back to local sense, a stage trip is told, a change of state is noted while the states are known (05 R168 to
R172). -/
def Obligations.SupplyMonitorRows : Prop := ∀ (s : State) (d : Dps),
  (∀ t0, (s.dpsAt d.val).outSince = some t0 → (s.dpsAt d.val).on = true → (s.dpsAt d.val).known = true →
    (s.dpsAt d.val).blanked = false →
    let x := s.dpsAt d.val
    exec (.windowFault d) s = .next
      (((s.moveTo (t0 + 1000 * s.parN 4 d.val 0x014)).updDps d.val (fun y => { y with outSince := none })).event
        (0x510 + 2 * d.val) [b2n x.hi + 2 * b2n x.lo + 4 * b2n x.cur] ((s.dpsSite d.val).toList.map Elem.site))) ∧
  (s.parN 4 d.val 0x018 = 1 → (s.dpsAt d.val).on = true → (s.dpsAt d.val).localSense = false →
    exec (.senseOpen d) s = .next
      ((s.updDps d.val (fun y => { y with localSense := true })).event (0x511 + 2 * d.val) [3])) ∧
  (∀ loopFault, (s.dpsAt d.val).mode ≠ .fenced →
    exec (.dpsStageTrip d loopFault) s = .next (s.event (0x511 + 2 * d.val) [if loopFault then 2 else 1])) ∧
  (∀ hi lo cur t0, (s.dpsAt d.val).known = true → Answers (.winStateChange d hi lo cur t0) s (fun t =>
    let x := s.dpsAt d.val
    let now := max s.now t0
    t.dpsAt d.val = { x with
      hi, lo, cur
      outSince := if x.blanked || !(hi || lo || cur) then none else if x.out then x.outSince else some now
      inSince := if x.blanked || (hi || lo || cur) then none else if x.out then some now else x.inSince } ∧
    t = { s with now, pf.dps := t.pf.dps })) ∧
  (∀ hi lo cur t0, (s.dpsAt d.val).known = false → exec (.winStateChange d hi lo cur t0) s = .next s)

/-- The pin electronics: a lane in current limit or driven from outside raises its event, a sweep ends in the idle state
of the lane or in its fence, a connection change completes, the PMU settles, a limit is entered or left (05 R151, R154,
R156, R160 to R163, R166). -/
def Obligations.PinElectronicsRows : Prop := ∀ s : State,
  (∀ l : Lane, (s.laneAt l.val).limit = true → exec (.laneOvercurrent l) s = .next (s.event (0x300 + l.val) [1])) ∧
  (∀ l : Lane, (s.laneAt l.val).mode ≠ .opened → exec (.laneOvervoltage l) s = .next (s.event (0x300 + l.val) [4])) ∧
  (∀ l : Lane, (s.laneAt l.val).sweep = true →
    let u := s.updLane l.val (fun x => { x with sweep := false })
    exec (.laneSeedSweepEnd l false) s = .next (u.event (0x300 + l.val) [3]) ∧
    (∀ c, s.chanOf l.val = some c → (s.laneAt l.val).mode = .opened → s.parN 3 c 0x00A = 1 →
      (s.laneAt l.val).fenced = false → exec (.laneSeedSweepEnd l true) s = .next (u.idleLane c)) ∧
    ((s.laneAt l.val).mode ≠ .opened → exec (.laneSeedSweepEnd l true) s = .next u)) ∧
  (∀ ch : Chan, (s.laneAt (s.laneOf ch.val)).changing = true → (s.laneAt (s.laneOf ch.val)).fenced = false →
    let k := s.laneOf ch.val
    let u := s.updLane k (fun l => { l with changing := false })
    exec (.connChangeComplete ⟨ch, false⟩) s = .next (u.event (0x300 + k) [2]) ∧
    (s.parN 3 ch.val 0x00A = 0 → exec (.connChangeComplete ⟨ch, true⟩) s = .next u) ∧
    (s.parN 3 ch.val 0x00A = 1 → exec (.connChangeComplete ⟨ch, true⟩) s = .next
      ((u.updLane k (fun l => { l with mode := .hiz, sweep := true })).idleLane ch.val)) ∧
    (s.parN 3 ch.val 0x00A = 2 → s.pwr.safe = false → s.chanSafe ch.val = false →
      exec (.connChangeComplete ⟨ch, true⟩) s = .next
        (((u.updLane k (fun l => { l with mode := .pmu })).updGrp (ch.val / 32) (fun x =>
          { x with pmuConn := some ch.val })).pmuChange (ch.val / 32)))) ∧
  (∀ g : Grp, (s.pmuOn g.val).isSome = true → (s.grpAt g.val).pmuSettled = false →
    exec (.pmuSettled g) s = .next ((s.moveTo (s.grpAt g.val).pmuAt).updGrp g.val (fun x => { x with pmuSettled := true }))) ∧
  (∀ (d : Dps) enters, (s.dpsAt d.val).on = true →
    exec (.currentLimit (.stage d) enters) s = .next (s.updDps d.val (fun y => { y with limited := enters }))) ∧
  (∀ (l : Lane) enters, (s.laneAt l.val).mode ≠ .opened →
    exec (.currentLimit (.driver l) enters) s = .next (s.updLane l.val (fun x => { x with limit := enters }))) ∧
  (∀ (g : Grp) enters, (s.pmuOn g.val).isSome = true →
    exec (.currentLimit (.clamp g) enters) s = .next ((s.updGrp g.val (fun x => { x with pmuClamp := enters })).updPadc
      g.val (fun c => { c with running := c.running.map (fun r => { r with clamped := r.clamped || enters }) })))

/-- Capture: an external edge acts 48 ns later, a capture ends when its ring is done, the counts of a host stream are
exchanged, EPOCH records are written every 500 ms, a DMA error puts a stream in ERROR (06 R197, R198, R201, R206, R209,
R212; 14 R380). -/
def Obligations.CaptureRows : Prop := ∀ s : State,
  (∀ (i : Fin 2) falling t0, 128 ≤ s.parN 5 i.val 0x0A2 →
    exec (.xtrigEdge i falling t0) s = .next (s.moveTo (t0 + 48))) ∧
  (∀ (i : Fin 2) falling t0 r b, s.parN 5 i.val 0x0A2 < 128 →
    let k := s.parN 5 i.val 0x0A2
    let q := 4000 * (t0 + 48)
    let u := (s.moveTo (t0 + 48)).occurAt k q
      ((s.moveTo (t0 + 48)).trgsOf k 6 (fun a => a == i.val + 256 * b2n falling)) none false
    u.siteRunner k = some r → u.burstAt r = some b → b.isStarted = true → b.phase ≠ .draining →
    exec (.xtrigEdge i falling t0) s = .next (u.sample r (0x100 * (1 + i.val) + b2n falling) (b.cycleAt q))) ∧
  (∀ (u : Cu) t0, (s.cuAt u.val).mode = 1 → s.parN 5 u.val 0x045 = 1 → (s.cuAt u.val).trig = some t0 →
    (s.parN 5 u.val 0x046 = 0 → t0 + s.parN 5 u.val 0x04A < (s.cuAt u.val).first + (s.cuAt u.val).taken →
      exec (.captureRingEnd u) s = .next (s.endCapture u.val false)) ∧
    (s.parN 5 u.val 0x046 ≠ 0 → s.parN 5 u.val 0x04A < (s.cuAt u.val).post →
      exec (.captureRingEnd u) s = .next (s.endCapture u.val false))) ∧
  (∀ h : Hs, (s.hsAt h.val).running = true → s.streamDown h.val = false →
    let told (u : State) : State := (u.streamWrite h.val u.now).updHs h.val (fun x => { x with prodOut := x.prod })
    ((s.hsAt h.val).wait = [] → exec (.streamProdUpdate h) s = .next (told s)) ∧
    (∀ x l, (s.hsAt h.val).wait = x :: l → (s.hsAt h.val).prod ≠ (s.hsAt h.val).prodOut →
      exec (.streamProdUpdate h) s = .next (told s)) ∧
    (∀ x l, (s.hsAt h.val).wait = x :: l → (s.hsAt h.val).prod = (s.hsAt h.val).prodOut →
      exec (.streamProdUpdate h) s = .next (told (s.moveTo (x.time + capDelay))))) ∧
  (∀ (h : Hs) cons, (s.hsAt h.val).running = true →
    ((s.hsAt h.val).cons ≤ cons → cons ≤ (s.hsAt h.val).prod →
      exec (.streamConsRead h cons) s = .next ((s.updHs h.val (fun x => { x with cons })).streamRecover h.val)) ∧
    ((cons < (s.hsAt h.val).cons ∨ (s.hsAt h.val).prod < cons) → exec (.streamConsRead h cons) s = .next s)) ∧
  (let u := s.moveTo s.ngl.tm.nextEpoch
   exec .epochDue s = .next
    ({ u with ngl.tm := { u.ngl.tm with nextEpoch := u.ngl.tm.nextEpoch + 500000000 } } : State).epochs) ∧
  (∀ (h : Hs) addr, (s.hsAt h.val).running = true →
    let u := s.updHs h.val (fun x => { x with mode := .error })
    (∀ p, u.ownerBy (fun r => r.streams.getLsbD h.val) = some p → exec (.streamError h addr) s = .next
      ((u.fnErr p 5 h.val (addr % 2 ^ 32) (addr / 2 ^ 32 % 2 ^ 32)).event 0x543 [h.val] [.stream h.val])) ∧
    (u.ownerBy (fun r => r.streams.getLsbD h.val) = none →
      exec (.streamError h addr) s = .next (u.event 0x543 [h.val] [.stream h.val])))

/-- The time measurement unit and the time base: edges are stamped or missed, records close, sets time out, gates close,
the oscillator is compensated, aged, warm or faulty (07 R218 to R220, R224 to R226, R233, R235, R236, R239). -/
def Obligations.TimeMeasurementRows : Prop := ∀ s : State,
  (∀ m : MSet, (s.msAt m.val).raw ≠ [] →
    exec (.rawRecordClose m) s = .next ((s.moveTo ((s.msAt m.val).rawAt + 1000)).closeRaw m.val)) ∧
  (∀ (l : Lane) vcl rising raw c, s.chanOf l.val = some c → s.stamps l.val c = true →
    let stamp := s.stampOf c raw
    let u := s.moveTo (stampNs stamp)
    (∀ t0, (s.laneAt l.val).lastStamp = some t0 → t0 ≤ stamp → stamp < t0 + deadStamps →
      exec (.stampEdge l vcl rising raw) s = .next
        ((u.toSets c stamp vcl rising true).statStamp l.val c rising stamp)) ∧
    (((s.laneAt l.val).lastStamp = none ∨ ∃ t0, (s.laneAt l.val).lastStamp = some t0 ∧ t0 + deadStamps ≤ stamp) →
      (s.selected c vcl rising = true → exec (.stampEdge l vcl rising raw) s = .next
        (((u.updLane l.val (fun x => { x with lastStamp := some stamp })).toSets c stamp vcl rising false).statStamp
          l.val c rising stamp)) ∧
      (s.selected c vcl rising = false → exec (.stampEdge l vcl rising raw) s = .next
        ((u.toSets c stamp vcl rising false).statStamp l.val c rising stamp)))) ∧
  (∀ m : MSet, (s.msAt m.val).gates = [] → (s.msAt m.val).armed = true → (s.msAt m.val).fenced = false →
    0 < s.msPar m.val 0x00A → exec (.msTimeout m) s = .next
      (((s.moveTo ((s.msAt m.val).lastVal + 1000 * s.msPar m.val 0x00A)).publishSet m.val true true false false).event
        0x560 [m.val] [.set m.val])) ∧
  (∀ (m : MSet) edges dt e1 l, (s.msAt m.val).gates = (edges, dt, e1) :: l → (s.msAt m.val).armed = true →
    exec (.freqGateClose m e1 edges) s = .next
      ((s.updMs m.val (fun x => { x with gates := l })).addValue m.val (gateValue edges dt : Nat) false e1)) ∧
  (∀ temp, let v := clampInt 100000 (oscInterp temp)
    let u := s.moveTo (s.acq.osc.tcompAt + 100000000)
    let w : State := { u with acq.osc := { s.acq.osc with temp, tcomp := v, tcompAt := u.now } }
    v ≤ 100000 ∧ -100000 ≤ v ∧
    ((v.natAbs < 100000 ∨ s.acq.osc.tcomp.natAbs = 100000) → exec (.oscTcompUpdate temp) s = .next w) ∧
    (v.natAbs = 100000 → s.acq.osc.tcomp.natAbs ≠ 100000 → exec (.oscTcompUpdate temp) s = .next (w.event 0x564))) ∧
  (let goal := s.par (pid 7 0 0x101)
   let a := s.acq.osc.ageing
   let v := a + (if 100 < goal - a then 100 else if goal - a < -100 then -100 else goal - a)
   let u := s.moveTo (s.acq.osc.ageAt + 10000000)
   let w : State := { u with acq.osc := { s.acq.osc with ageing := v, ageAt := u.now } }
   (a = goal → exec .oscAgeingStep s = .next s) ∧
   (a ≠ goal → v.natAbs ≠ 1000000 → exec .oscAgeingStep s = .next w) ∧
   (a ≠ goal → v.natAbs = 1000000 → exec .oscAgeingStep s = .next (w.event 0x564))) ∧
  (s.acq.osc.state = 0 → exec .oscWarm s = .next
    (({ s with acq.osc := { s.acq.osc with state := s.oscFollow } } : State).event 0x563)) ∧
  (s.acq.osc.state ≠ 0 → s.acq.osc.state ≠ 4 → exec .oscFault s = .next
    (({ s with acq.osc := { s.acq.osc with state := 4 } } : State).event 0x564)) ∧
  (∀ l : Lane, exec (.tmuFault (some l) none) s = .next ((s.event 0x562 [l.val] [.lane l.val]).publishFenced)) ∧
  (∀ m : MSet, exec (.tmuFault none (some m)) s = .next ((s.event 0x562 [m.val] [.set m.val]).publishFenced))

/-- The converters: regular conversions start or are skipped, an injected request starts, a conversion publishes its
result, a self-calibration starts and ends, the reference warms, a housekeeping slot ends, a fault fences (08 R245 to
R255). -/
def Obligations.ConverterRows : Prop := ∀ (s : State) (c : Conv),
  (c.val < 16 → s.parN 8 c.val 0x010 = 2 → (s.padcAt c.val).fenced = false →
    let x := s.padcAt c.val
    let u := s.moveTo x.nextDue
    Answers (.regIntervalDue c) s (fun t =>
      (t.padcAt c.val).nextDue = x.nextDue + 1000 * s.parN 8 c.val 0x012 ∧
      (x.busy = true → t.padcAt c.val = { x with
        skipped := satAdd x.skipped 1 0xFFFFFFFF
        nextDue := x.nextDue + 1000 * s.parN 8 c.val 0x012 }) ∧
      (x.busy = false → (t.padcAt c.val).running = some
        { injected := false, setting := s.parN 8 c.val 0x011, pos := noPos, start := gridUp u.now
          settled := (s.pmuOn c.val).isSome && (s.grpAt c.val).pmuSettled
          clamped := (s.pmuOn c.val).isSome && (s.grpAt c.val).pmuClamp }) ∧
      t = { u with acq.padc := t.acq.padc })) ∧
  (∀ setting pos t0, (s.padcAt c.val).pending = some (setting, pos, t0) → (s.padcAt c.val).fenced = false →
    (s.padcAt c.val).running = none → Answers (.injConversionStart c) s (fun t =>
      t.padcAt c.val = { s.padcAt c.val with
        pending := none
        running := some
          { injected := true, setting, pos, start := t0
            settled := (s.pmuOn c.val).isSome && (s.grpAt c.val).pmuSettled
            clamped := (s.pmuOn c.val).isSome && (s.grpAt c.val).pmuClamp } } ∧
      t = { s.moveTo t0 with acq.padc := t.acq.padc })) ∧
  (∀ r outputs, (s.padcAt c.val).running = some r → s.convSite c.val = none →
    outputs.length = s.csPar c.val r.setting 0x023 →
    let u := s.moveTo (r.start + s.convNs c.val r.setting)
    let x := s.padcAt c.val
    let v := roundAway ((outputs.map (fun y => x.correct (clampCode y))).sum) (s.csPar c.val r.setting 0x023)
    let ovr := outputs.any (fun y => decide (y < -8388608) || decide (8388607 < y))
    let words := x.words c.val r v ovr
    exec (.conversionEnd c outputs r.clamped ovr) s = .next ((u.updPadc c.val (fun y =>
      { y with running := none, seq := y.seq + 1, result := words })).startSingle c.val)) ∧
  (∀ r outputs k, (s.padcAt c.val).running = some r → s.convSite c.val = some k →
    outputs.length = s.csPar c.val r.setting 0x023 →
    let u := s.moveTo (r.start + s.convNs c.val r.setting)
    let x := s.padcAt c.val
    let v := roundAway ((outputs.map (fun y => x.correct (clampCode y))).sum) (s.csPar c.val r.setting 0x023)
    let ovr := outputs.any (fun y => decide (y < -8388608) || decide (8388607 < y))
    let words := x.words c.val r v ovr
    exec (.conversionEnd c outputs r.clamped ovr) s = .next
      ((((u.updPadc c.val (fun y => { y with running := none, seq := y.seq + 1, result := words })).sitePush k
        (s.csPar c.val r.setting 0x025) { type := tPADC, source := 0xFF, rflags := 0, time := r.start, len := 1, words }).issueTok
          { scope := toFin 128 k (by decide), kind := 3, key := c.val, result := 0 }).startSingle c.val)) ∧
  ((s.padcAt c.val).fenced = false → (s.padcAt c.val).calRun = false → (s.padcAt c.val).warmed = true →
    c.val < 16 → (s.padcAt c.val).running = none → (s.padcAt c.val).calWait = true →
    ((s.padcAt c.val).calAuto = false ∨ ∀ k, s.convSite c.val = some k → s.siteBusy k = false) →
    exec (.selfcalStart c) s = .next
      (s.updPadc c.val (fun x => { x with calWait := false, calRun := true, calAt := s.now }))) ∧
  ((s.padcAt c.val).fenced = false → (s.padcAt c.val).calRun = false → (s.padcAt c.val).warmed = true →
    c.val < 16 → (s.padcAt c.val).running = none → (s.padcAt c.val).calWait = false → s.parN 8 c.val 0x006 = 1 →
    (∀ k, s.convSite c.val = some k → s.siteBusy k = false) →
    500 < ((s.grpAt c.val).tIsl - (s.padcAt c.val).calTemp).natAbs →
    Answers (.selfcalStart c) s (fun t =>
      (t.padcAt c.val).calRun = true ∧ (t.padcAt c.val).calAt = s.now ∧ (t.padcAt c.val).pending = none ∧
      ((s.padcAt c.val).pending.isSome = true →
        (t.padcAt c.val).dropCal = satAdd (s.padcAt c.val).dropCal 1 0xFFFFFFFF))) ∧
  (∀ zero ref, (s.padcAt c.val).calRun = true → c.val < 16 →
    let gain := gainOf ((s.padcAt c.val).ref.getD (Config.padcRef c.val)) zero ref
    let u := s.moveTo ((s.padcAt c.val).calAt + 110000000)
    (factorsOk zero gain = true → (s.padcAt c.val).calCmd = none → exec (.selfcalEnd c zero ref) s = .next
      (((u.updPadc c.val (fun x => { x with
        calRun := false, calCmd := none, ofs := zero, gain, accepted := true, calTemp := (s.grpAt c.val).tIsl
        calCount := satAdd x.calCount 1 0xFFFFFFFF })).event 0x571 [c.val] [.conv c.val]).startSingle c.val)) ∧
    (factorsOk zero gain = false → (s.padcAt c.val).calCmd = none → exec (.selfcalEnd c zero ref) s = .next
      (((u.updPadc c.val (fun x => { x with calRun := false, calCmd := none })).event 0x572 [c.val]
        [.conv c.val]).startSingle c.val)) ∧
    (∀ p tag, factorsOk zero gain = false → (s.padcAt c.val).calCmd = some (p, tag) →
      exec (.selfcalEnd c zero ref) s = .next
        ((((u.updPadc c.val (fun x => { x with calRun := false, calCmd := none })).complete p.val tag 0x0802 .internal
          []).event 0x572 [c.val] [.conv c.val]).startSingle c.val))) ∧
  ((s.padcAt c.val).warmed = false → (s.padcAt c.val).fenced = false → s.pwr.sup.released = true →
    exec (.padcPowerupWarm c) s = .next ((s.moveTo s.acq.warmAt).updPadc c.val (fun x =>
      { x with warmed := true, calRun := true, calWait := false, calAt := s.acq.warmAt }))) ∧
  (∀ v, ((s.padcAt 16).fenced = true ∨ (s.padcAt 16).calRun = true ∨ (s.padcAt 16).warmed = false) →
    exec (.hkSlotEnd v) s = .next s) ∧
  (∀ v, (s.padcAt 16).fenced = false → (s.padcAt 16).calRun = false → (s.padcAt 16).warmed = true →
    let d := s.acq.hkSlot / 2
    let u := s.moveTo (s.acq.hkAt + 400000)
    ((s.padcAt 16).calWait = false → Answers (.hkSlotEnd v) s (fun t =>
      (s.acq.hkSlot % 2 = 0 → t.dpsAt d = { s.dpsAt d with hkV := v, hkVAt := s.acq.hkAt }) ∧
      (s.acq.hkSlot % 2 = 1 → t.dpsAt d = { s.dpsAt d with hkI := v, hkIAt := s.acq.hkAt }) ∧
      t.acq = { s.acq with hkSlot := (s.acq.hkSlot + 1) % 36, hkAt := u.now } ∧
      t = { u with acq := t.acq, pf.dps := t.pf.dps })) ∧
    ((s.padcAt 16).calWait = true → (s.padcAt 16).calAuto = false → (s.padcAt 16).running = none →
      Answers (.hkSlotEnd v) s (fun t =>
        (t.padcAt 16).calRun = true ∧ (t.padcAt 16).calAt = u.now ∧ t.acq.hkStale = true))) ∧
  ((s.padcAt c.val).calCmd = none → c.val < 16 → exec (.padcFault c) s = .next
    ((s.updPadc c.val (fun x => { x with calCmd := none, calRun := false, calWait := false, singles := 0 })).event 0x573
      [c.val] [.conv c.val]))

/-- The raster: vertical blanking applies staged values, a checked frame is judged and written, missing pixels end the
burst, the latency tolerance is reported, faults of the engine and of a compare slice are told (06 R216; 09 R266 to
R272). -/
def Obligations.RasterRows : Prop := ∀ (s : State) (n : Rse),
  (∀ b, s.burstAt (32 + n.val) = some b → b.isStarted = true →
    let m := s.rseMode n.val
    let q := s.rseClock n.val b
    let e := s.rseAt n.val
    m.va ≤ m.lineOf q → e.blanks ≤ q / m.frameClocks →
    let f := q / m.frameClocks
    let next := fun (u : State) => u.updRse n.val (fun e => { e with
      blanks := f + 1, stage1 := e.stage2, stage2 := [], late1 := e.late2, late2 := false
      lateRec := if e.late1 then e.lateRec ++ [f + 1] else e.lateRec })
    (e.stage1 = [] → exec (.rseVblank n) s = .next (next s)) ∧
    (∀ v, e.stage1 = [v] → exec (.rseVblank n) s = .next (next ((s.keepChk n.val f).applyVal v.1 v.2)))) ∧
  (∀ x crcs invalid sync, s.ve.drain = [] → s.burstAt (32 + n.val) = some x → x.isStarted = true →
    (s.rseAt n.val).chks = [] → s.parN 6 n.val 0x00B + (s.rseAt n.val).checked < x.entry →
    (∃ c ∈ s.rseChans n.val, bit (s.parN 6 c 0x030) 2 = 1) →
    let f := s.parN 6 n.val 0x00B + (s.rseAt n.val).checked
    let bad := fun r => r < 16 ∧ s.parN 6 (16 * n.val + r) 0x021 ≠ 0 ∧
      (BitVec.getLsbD invalid r = true ∨ (crcs : List Nat)[r]?.getD 0 % 2 ^ 32 ≠ s.parN 6 (16 * n.val + r) 0x022)
    ((¬ ∃ r, bad r) → Answers (.rseFrameChecked n crcs invalid sync) s (fun t =>
      (t.rseAt n.val).checked = (s.rseAt n.val).checked + 1 ∧ (t.rseAt n.val).mismatch = (s.rseAt n.val).mismatch ∧
      t.ve = s.ve)) ∧
    ((∃ r, bad r) → Tbl.get (s.rseAt n.val).pix 0 f = 0 → (s.rseAt n.val).mismatch = true →
      Answers (.rseFrameChecked n crcs invalid sync) s (fun t =>
        (t.rseAt n.val).checked = (s.rseAt n.val).checked + 1 ∧
        t.burstAt (32 + n.val) = some { x with failFlag := true, failSites := x.sites }))) ∧
  (∀ b layer count, s.burstAt (32 + n.val) = some b → b.live = true → 0 < count →
    s.parN 6 (2 * n.val + b2n layer) 0x010 = 1 → (s.rseAt n.val).pix ≠ [] →
    let f := s.rseClock n.val b / (s.rseMode n.val).frameClocks
    (s.parN 6 n.val 0x007 = 0 → exec (.rsePixelUnderrun n layer count) s = .next (s.updRse n.val (fun e =>
      { e with
        miss0 := if layer then e.miss0 else e.miss0 + count, miss1 := if layer then e.miss1 + count else e.miss1
        underPix := satAdd e.underPix count 0xFFFFFFFF, pix := Tbl.upd e.pix 0 f (· + count) }))) ∧
    (s.parN 6 n.val 0x007 ≠ 0 → exec (.rsePixelUnderrun n layer count) s = .next (s.updRse n.val (fun e =>
      { e with off0 := e.off0 || !layer, off1 := e.off1 || layer, pix := Tbl.upd e.pix 0 f id })))) ∧
  (∀ b layer count, s.burstAt (32 + n.val) = some b → b.live = true → 0 < count →
    s.parN 6 (2 * n.val + b2n layer) 0x010 = 1 → (s.rseAt n.val).pix = [] →
    let f := s.rseClock n.val b / (s.rseMode n.val).frameClocks
    let t : Term := { src := 0x550 + 4 * n.val, time := s.now, act := 0, way := .atEnd, result := invalidRes rUNDERRUN }
    s.parN 6 n.val 0x007 = 0 → exec (.rsePixelUnderrun n layer count) s = .next
      (((s.updRse n.val (fun e => { e with
        miss0 := if layer then e.miss0 else e.miss0 + count, miss1 := if layer then e.miss1 + count else e.miss1
        underPix := satAdd e.underPix count 0xFFFFFFFF, pix := Tbl.upd e.pix 0 f (· + count) })).raise
          { src := 0x550 + 4 * n.val, cond := some (32 + n.val, t) }).updBurst (32 + n.val) (fun b =>
            { b with terms := b.terms ++ [t] }))) ∧
  (∀ tol, (s.burstAt (32 + n.val)).isSome = true →
    exec (.latTolReport n tol) s = .next ((s.updRse n.val (fun e => { e with latTol := tol })).leaveLow)) ∧
  exec (.rseFault n) s = .next (s.event (0x553 + 4 * n.val)) ∧
  (∀ g : Grp, exec (.cmpFault g) s = .next (s.event 0x545 [g.val] [.grp g.val]))

/-- The memory: refresh and its doubling, training and its deferral, parity alerts, low-power states, requests served
(11 R309 to R319). -/
def Obligations.MemoryRows : Prop := ∀ s : State,
  (∀ x : Pc, (s.pcAt x.val).power ≠ 2 → (s.mcAt (x.val / 2)).mode ≠ 3 → (s.pcAt x.val).catchAt = none →
    let p := s.pcAt x.val
    let u := s.moveTo (p.lastRef + (p.owed + 1) * s.tRefi (stackOf x.val))
    (s.streamHeld = 0 → exec (.refreshDue x) s = .next (u.updPc x.val (fun p => { p with owed := 0, lastRef := u.now }))) ∧
    (s.streamHeld ≠ 0 → p.owed < 7 → exec (.refreshDue x) s = .next
      (u.updPc x.val (fun p => { p with owed := p.owed + 1 }))) ∧
    (s.streamHeld ≠ 0 → p.owed = 7 → exec (.refreshDue x) s = .next
      ((u.updPc x.val (fun p => { p with owed := 8, catchAt := some u.now })).event (0x580 + 2 * (x.val / 2))
        [3 + x.val * 2 ^ 4, 0]))) ∧
  (∀ (k : Stack) t0, 8500 < t0 → exec (.stackTempRead k (some t0)) s = .next
    ((s.updStack k.val (fun x => { x with temp := t0, missing := false, lastRead := s.now })).setDoubled k.val true)) ∧
  (∀ (k : Stack) t0, t0 ≤ 8300 → exec (.stackTempRead k (some t0)) s = .next
    ((s.updStack k.val (fun x => { x with temp := t0, missing := false, lastRead := s.now })).setDoubled k.val false)) ∧
  (∀ (k : Stack) t0, 8300 < t0 → t0 ≤ 8500 → exec (.stackTempRead k (some t0)) s = .next
    (s.updStack k.val (fun x => { x with temp := t0, missing := false, lastRead := s.now }))) ∧
  (∀ k : Stack, (s.stackAt k.val).lastRead + 10000000 ≤ s.now → exec (.stackTempRead k none) s = .next
    ((s.updStack k.val (fun x => { x with missing := true })).setDoubled k.val true)) ∧
  (∀ m : Mc, (s.mcAt m.val).mode = 1 → (s.mcAt m.val).urgent = false → s.tempMoved m.val = true →
    (s.defersTraining = false → s.mayTrain m.val = true → exec (.retrainDue m) s = .next
      (s.updMc m.val (fun c => { c with mode := 2, deferred := none, urgent := false }))) ∧
    (s.defersTraining = true → exec (.retrainDue m) s = .next (s.updMc m.val (fun c =>
      { c with deferred := if c.deferred.isSome then c.deferred else some s.now })))) ∧
  (∀ (m : Mc) t0, (s.mcAt m.val).deferred = some t0 → s.mayTrain m.val = true →
    exec (.retrainDeferExpiry m) s = .next
      (((s.moveTo (t0 + 1000000 * s.parN 10 0 0x00B)).updMc m.val
        (fun c => { c with mode := 2, deferred := none, urgent := false })).channelEvent (0x580 + 2 * m.val) m.val 4)) ∧
  (∀ m : Mc, (s.mcAt m.val).mode = 2 →
    exec (.retrainDone m true) s = .next ((s.updMc m.val (fun c =>
      { c with mode := 1, lastTrain := s.now, trainTemp := (s.stackAt (m.val / 16)).temp })).channelEvent
        (0x580 + 2 * m.val) m.val 5) ∧
    exec (.retrainDone m false) s = .next
      ((s.updMc m.val (fun c => { c with trainFlag := true })).channelEvent (0x581 + 2 * m.val) m.val 2)) ∧
  (∀ (x : Pc) third, (s.mcAt (x.val / 2)).mode ≠ 3 →
    let m := x.val / 2
    let u := (s.updMc m (fun c => { c with
      replay := satAdd c.replay 1 0xFFFFFFFF
      alerts := c.alerts.filter (fun t => decide (s.now < t + 1000000000)) ++ [s.now] })).event (0x580 + 2 * m)
        [2 + x.val * 2 ^ 4, 0]
    (third = false → (u.mcAt m).alerts.length ≤ 64 → exec (.parityAlert x third) s = .next u) ∧
    ((third = true ∨ 64 < (u.mcAt m).alerts.length) →
      let v := (u.updMc m (fun c => { c with alerts := [], urgent := true })).event (0x581 + 2 * m) [3 + x.val * 2 ^ 4, 0]
      exec (.parityAlert x third) s = .next (if v.mayTrain m
        then v.updMc m (fun c => { c with mode := 2, deferred := none, urgent := false }) else v))) ∧
  (∀ x : Pc, (s.mcAt (x.val / 2)).mode = 1 → s.parN 10 0 0x011 = 1 → s.stopRefresh (stackOf x.val) = false →
    (s.tolerates 1000 = true → (s.pcAt x.val).power = 0 → exec (.lpEntry x false) s = .next
      ((s.moveTo ((s.pcAt x.val).idleAt + 1000)).updPc x.val (fun p => { p with power := 1 }))) ∧
    (s.tolerates 20000 = true → (s.pcAt x.val).power ≠ 2 → exec (.lpEntry x true) s = .next
      ((s.moveTo ((s.pcAt x.val).idleAt + 100000)).updPc x.val (fun p => { p with power := 2, owed := 0, catchAt := none })))) ∧
  (∀ x : Pc, (s.pcAt x.val).power ≠ 0 → s.stopRefresh (stackOf x.val) = false → Answers (.lpExit x) s (fun t =>
    (t.pcAt x.val).power = 0 ∧ (t.pcAt x.val).idleAt = s.now ∧ t = { s with mem.pc := t.mem.pc })) ∧
  (∀ (x : Pc) cls p addr, (s.mcAt (x.val / 2)).mode = 1 → s.stopRefresh (stackOf x.val) = false →
    (s.pcAt x.val).catchAt = none → addr < 4096 * s.pagesOf p.val →
    let exit := if (s.pcAt x.val).power = 0 then 0 else if (s.pcAt x.val).power = 1 then 100 else 1000
    let v := s.moveTo (s.now + exit)
    let u := v.updPc x.val (fun q => { q with
      power := 0, idleAt := v.now, lastRef := if q.power = 2 then v.now else q.lastRef, served := q.served + 1 })
    let block := hbmKey p.val addr / 64
    (∀ ecc, exec (.memRequestServed x cls true p addr ecc) s = .next { u with mem.bad := u.mem.bad.filter (· != block) }) ∧
    (∀ ecc, ecc = .uncorrectable ∨ s.mem.bad.contains block = true →
      exec (.memRequestServed x cls false p addr ecc) s = .next ((u.spoil block).eccUe x.val addr)) ∧
    (s.mem.bad.contains block = false → exec (.memRequestServed x cls false p addr .good) s = .next u ∧
      exec (.memRequestServed x cls false p addr .corrected) s = .next (u.eccCorr x.val addr)))

/-- Time of the module: ticks are sent and measured, a tick of a new master counts to three, loss of ticks leaves a domain,
lock is reached after 10 ms, the preferred domain returns (12 R331, R341 to R345). -/
def Obligations.TimeTickRows : Prop := ∀ s : State,
  (s.sends 0 = false → s.sends 1 = false → exec .tickSend s = .next s) ∧
  (s.sends 0 = true → s.sends 1 = false →
    let us := s.domTime 0 / 1000 + 1
    let at_ := (s.nextTick 0).2
    let u := s.moveTo at_
    (s.isMaster 0 = true → at_ = 1000 * us) ∧
    exec .tickSend s = .next (((List.range 6).filter (u.treePort 0)).foldl (fun v p =>
      v.queueC0 p (.tick 0 (v.masterOf 0) (us % 2 ^ 20) at_)) u)) ∧
  (∀ (port : Port) (dom : Dom) master usLo depart crc arrival, s.portUp port.val = true →
    crc ≠ crc8 (tickBits dom.val master usLo depart) →
    exec (.tickReceive ⟨port, crc⟩ dom master usLo depart arrival) s =
      .next ((s.moveTo (arrival / 65536)).blockErrors port.val 1)) ∧
  (∀ (port : Port) (dom : Dom) master usLo depart crc arrival, s.portUp port.val = true →
    crc = crc8 (tickBits dom.val master usLo depart) → s.domPort dom.val = port.val → s.isMaster dom.val = false →
    let u := s.moveTo (arrival / 65536)
    let x := s.domAt dom.val
    let us := nearest (2 ^ 20) (u.toDomain dom.val u.now / 1000) usLo
    let v : Int := ((us * 65536000 + depart * 128 : Nat) : Int) + (s.portAt port.val).delay - (arrival : Int)
    let ds := (v :: x.ds).take 16
    let w := u.updDom dom.val (fun y => { y with
      ds, d := roundAway ds.sum ds.length, tracked := true, master, lastTick := u.now, foreign := 0
      since := if x.tracked then x.since else u.now })
    let other := u.updDom dom.val (fun y => { y with lastTick := u.now, foreign := x.foreign + 1, foreignMaster := master })
    (x.tracked = true → x.master = master → s.ngl.tm.sel ≠ 2 → s.ngl.tm.sel ≠ dom.val →
      (dom = 1 ∨ s.isMaster 1 = false ∨ s.parN 11 0 0x006 ≠ 1) →
      exec (.tickReceive ⟨port, crc⟩ dom master usLo depart arrival) s = .next w) ∧
    (x.tracked = true → x.master = master → s.ngl.tm.sel ≠ 2 → s.ngl.tm.sel ≠ dom.val →
      dom = 0 → s.isMaster 1 = true → s.parN 11 0 0x006 = 1 →
      exec (.tickReceive ⟨port, crc⟩ dom master usLo depart arrival) s = .next w.steerFree) ∧
    (x.tracked = false → s.ngl.tm.sel = 2 → exec (.tickReceive ⟨port, crc⟩ dom master usLo depart arrival) s = .next
      (((({ w with ngl.tm := { w.ngl.tm with sel := dom.val, c := v, inLockSince := some u.now } } : State).setOsc 2).event
        0x0F0 ([2, dom.val] ++ words64 v)).epochs)) ∧
    (x.tracked = true → x.master = master → s.ngl.tm.sel = dom.val → s.ngl.tm.joined = true →
      let c := slewed s.ngl.tm.c s.ngl.tm.slewRem (u.now - x.lastTick) (s.parN 11 0 0x023)
      let err := (roundAway ds.sum ds.length - c.1).natAbs
      let since := if err ≤ 1310 then some (s.ngl.tm.inLockSince.getD u.now) else none
      let n := (({ w with ngl.tm := { w.ngl.tm with c := c.1, slewRem := c.2, inLockSince := since } } : State).setOsc
        2).steerFree
      exec (.tickReceive ⟨port, crc⟩ dom master usLo depart arrival) s =
        .next (if 13107 < err then n.setLock false else n)) ∧
    (x.tracked = true → x.master ≠ master → x.foreignMaster = master → x.foreign + 1 < 3 →
      exec (.tickReceive ⟨port, crc⟩ dom master usLo depart arrival) s = .next other) ∧
    (x.tracked = true → x.master ≠ master → x.foreignMaster = master → 3 ≤ x.foreign + 1 →
      let n := other.updDom dom.val (fun y => { y with master, ds := [v], d := v, foreign := 0, since := u.now })
      (s.ngl.tm.sel ≠ dom.val → exec (.tickReceive ⟨port, crc⟩ dom master usLo depart arrival) s = .next n) ∧
      (s.ngl.tm.sel = dom.val → (s.domAt (otherDom dom.val)).tracked = false →
        exec (.tickReceive ⟨port, crc⟩ dom master usLo depart arrival) s = .next
          (({ n with ngl.tm := { n.ngl.tm with c := v } } : State).event 0x0F1 [dom.val, master])))) ∧
  (∀ dom : Dom, (s.domAt dom.val).tracked = true →
    let u := (s.moveTo ((s.domAt dom.val).lastTick + 3000)).updDom dom.val (fun x =>
      { x with tracked := false, foreign := 0, ds := [] })
    (s.ngl.tm.sel ≠ dom.val → exec (.tickLoss dom) s = .next u) ∧
    (s.ngl.tm.sel = dom.val → (s.domAt (otherDom dom.val)).tracked = true →
      exec (.tickLoss dom) s = .next (u.selectDomain (otherDom dom.val))) ∧
    (s.ngl.tm.sel = dom.val → (s.domAt (otherDom dom.val)).tracked = false → exec (.tickLoss dom) s = .next
      (((({ u with ngl.tm := { u.ngl.tm with sel := 2, inLockSince := none } } : State).setOsc 3).setLock false).event
        0x0F2 [dom.val]))) ∧
  (∀ t0, s.ngl.tm.inLockSince = some t0 → s.ngl.tm.joined = true → s.ngl.tm.lock = false →
    let u := s.moveTo (t0 + 10000000)
    exec .timeLock s = .next
      (({ u with ngl.tm := { u.ngl.tm with lock := true, lockedOnce := true } } : State).event 0x0F3)) ∧
  (s.parN 11 0 0x022 = 1 → s.ngl.tm.sel ≠ s.parN 11 0 0x021 → (s.domAt (s.parN 11 0 0x021)).tracked = true →
    exec .domainRevert s = .next
      ((s.moveTo ((s.domAt (s.parN 11 0 0x021)).since + 1000000000)).selectDomain (s.parN 11 0 0x021)))

/-- What arrives on a port that is up: triggers and stops, echoes, flow control, tokens, results of a linked burst,
announcements, times, labels, alarms and logs (10 R294, R296, R298; 12 R327, R330, R335, R336, R339, R340, R343, R348,
R351, R352; 16 R438). -/
def Obligations.LinkReceiveRows : Prop := ∀ (s : State) (port : Port), s.portUp port.val = true →
  (∀ (dom : Dom) number tShort crcs t0,
    let u := s.moveTo t0
    let good := fun c => crc8 (trigBits dom.val number.val tShort c)
    let acts := fun (w : State) =>
      let full := nearest (2 ^ 32) (w.domTime dom.val) tShort
      let v := w.broadcast (some port.val) (fun s p => s.queueC0 p (.trig dom number full))
      v.receiveTrig number (if v.isMaster dom.val then full else v.toModule dom.val full) v.now
    (crcs.1 = good 0 → crcs.2 = good 1 → exec (.c0TriggerReceive ⟨port, crcs⟩ dom number tShort t0) s = .next (acts u)) ∧
    (crcs.1 = good 0 → crcs.2 ≠ good 1 →
      exec (.c0TriggerReceive ⟨port, crcs⟩ dom number tShort t0) s = .next (acts (u.blockErrors port.val 1))) ∧
    (crcs.1 ≠ good 0 → crcs.2 = good 1 →
      exec (.c0TriggerReceive ⟨port, crcs⟩ dom number tShort t0) s = .next (acts (u.blockErrors port.val 1))) ∧
    (crcs.1 ≠ good 0 → crcs.2 ≠ good 1 →
      exec (.c0TriggerReceive ⟨port, crcs⟩ dom number tShort t0) s = .next (u.blockErrors port.val 2))) ∧
  (∀ all linkId result reason node crcs,
    let good := fun c => crc8 (stopBits all linkId result reason node c)
    (crcs.1 = good 0 → crcs.2 = good 1 → exec (.c0StopReceive ⟨port, crcs⟩ all linkId ⟨result, reason⟩ node) s = .next
      ((s.broadcast (some port.val) (fun s p => s.queueC0 p (.stop all linkId result reason node))).stopAct all linkId
        (stopResult result reason))) ∧
    (crcs.1 ≠ good 0 → crcs.2 ≠ good 1 →
      exec (.c0StopReceive ⟨port, crcs⟩ all linkId ⟨result, reason⟩ node) s = .next (s.blockErrors port.val 2))) ∧
  (let u := s.moveTo (s.portAt port.val).echoDue
   exec (.echoSend port) s = .next
     ((u.updPort port.val (fun x => { x with echoDue := u.now + 100000 })).queueC0 port.val (.echoReq u.now))) ∧
  (∀ sent crc t0, crc = crc8 (echoBits false sent) →
    exec (.echoRequestReceive ⟨port, crc⟩ sent t0) s = .next ((s.moveTo t0).queueC0 port.val (.echoReply t0))) ∧
  (∀ (t1 t4 turn : Nat) crc, crc = crc8 (echoBits true turn) →
    (s.portAt port.val).delayValid = false → (s.portAt port.val).echoes.length < 63 →
    let one : Int := (((t4 : Int) - t1 - turn) * 128 + s.par (pid 11 port.val 0x012)) / 2
    Answers (.echoReplyReceive ⟨port, crc⟩ t1 t4 turn) s (fun t =>
      (t.portAt port.val).echoes = one :: (s.portAt port.val).echoes ∧ (t.portAt port.val).delayValid = false ∧
      (t.portAt port.val).delay = meanDelay (one :: (s.portAt port.val).echoes) ∧
      t = { s with ngl.port := t.ngl.port })) ∧
  (∀ xoff credits ack nak crc done left, crc = crc8 (flowBits xoff credits ack nak) →
    (xoff = false ∨ (s.portAt port.val).xoffIn = true) → ackFrames ack (s.portAt port.val).replay = (done, left) →
    (∀ f ∈ done, f.2.isAlarm = false) → (nak = false ∨ left = []) →
    let x := s.portAt port.val
    Answers (.flowReceive ⟨port, crc⟩ xoff credits ack nak) s (fun t =>
      t.portAt port.val = { x with
        xoffIn := xoff, credits := min 16 (x.credits + credits), replay := left
        ackDue := if done = [] then x.ackDue else s.now + 10000 } ∧
      t = { s with ngl.port := t.ngl.port })) ∧
  (∀ xoff credits ack crc, crc = crc8 (flowBits xoff credits ack true) →
    (xoff = false ∨ (s.portAt port.val).xoffIn = true) → (∀ f ∈ (s.portAt port.val).replay, f.1 ≠ ack) →
    (s.portAt port.val).replay ≠ [] →
    let x := s.portAt port.val
    Answers (.flowReceive ⟨port, crc⟩ xoff credits ack true) s (fun t =>
      t.portAt port.val = { x with
        xoffIn := xoff, credits := min 16 (x.credits + credits), sent := x.sent ++ x.replay, ackDue := s.now + 10000 } ∧
      t = { s with ngl.port := t.ngl.port })) ∧
  ((s.portAt port.val).replay ≠ [] →
    let u := s.moveTo (s.portAt port.val).ackDue
    exec (.c1ReplayTimeout port) s = .next
      (u.updPort port.val (fun x => { x with sent := x.sent ++ x.replay, ackDue := u.now + 10000 }))) ∧
  (∀ h linkId,
    let f : Frame := .linkReady h.dst h.src linkId
    let x := s.portAt port.val
    (frameGood h f = false → exec (.linkReadyFrame port h.toFrameEnds h.toFrameSeal linkId) s = .next ((s.blockErrors port.val 1).sendNak
      port.val)) ∧
    (frameGood h f = true → h.seq ≠ x.rxSeq → (x.rxSeq + 4096 - h.seq) % 4096 ≤ 32 →
      exec (.linkReadyFrame port h.toFrameEnds h.toFrameSeal linkId) s = .next (s.sendFlow port.val 0)) ∧
    (frameGood h f = true → h.seq ≠ x.rxSeq → 32 < (x.rxSeq + 4096 - h.seq) % 4096 →
      exec (.linkReadyFrame port h.toFrameEnds h.toFrameSeal linkId) s = .next (s.sendNak port.val))) ∧
  (let got1 := s.updPort port.val (fun x => { x with rxSeq := (x.rxSeq + 1) % 4096, lastRx := x.rxSeq })
   let got2 := s.updPort port.val (fun x => { x with rxSeq2 := (x.rxSeq2 + 1) % 4096, lastRx := x.rxSeq2 })
   let seq1 := (s.portAt port.val).rxSeq
   (∀ h scope (kind : Fin 7) key (result : BitVec 16), (s.portAt port.val).held = none →
     let tok : TokIn := { scope, kind := kind.val, key, result := result.toNat }
     frameGood h (.token h.dst h.src tok) = true → h.seq = seq1 →
     (h.dst ≠ s.node →
       exec (.tokenFrame port h scope kind key result) s = .next (got1.passC1 port.val h.dst (.token h.dst h.src tok))) ∧
     (h.dst = s.node → kind.val ≠ 6 → got1.tokFits tok = true →
       exec (.tokenFrame port h scope kind key result) s = .next ((got1.placeTok tok).wake.returnCredit port.val)) ∧
     (h.dst = s.node → kind.val ≠ 6 → got1.tokFits tok = false → exec (.tokenFrame port h scope kind key result) s =
       .next (got1.updPort port.val (fun x => { x with held := some (tok, s.now) }))) ∧
     (h.dst = s.node → kind.val = 6 → got1.linkSite key = none →
       exec (.tokenFrame port h scope kind key result) s = .next (got1.returnCredit port.val))) ∧
   (∀ h linkId, frameGood h (.linkReady h.dst h.src linkId) = true → h.seq = seq1 →
     (h.dst = s.node →
       exec (.linkReadyFrame port h.toFrameEnds h.toFrameSeal linkId) s = .next ((got1.linkReady linkId h.src).returnCredit port.val)) ∧
     (h.dst ≠ s.node → exec (.linkReadyFrame port h.toFrameEnds h.toFrameSeal linkId) s = .next
       (got1.passC1 port.val h.dst (.linkReady h.dst h.src linkId)))) ∧
   (∀ h linkId (result : BitVec 16), frameGood h (.linkResult h.dst h.src linkId result.toNat) = true → h.seq = seq1 →
     (h.dst = s.node → exec (.linkResultFrame port h.toFrameEnds h.toFrameSeal linkId result) s = .next
       ((got1.linkResult linkId h.src result.toNat s.now).returnCredit port.val)) ∧
     (h.dst ≠ s.node → exec (.linkResultFrame port h.toFrameEnds h.toFrameSeal linkId result) s = .next
       (got1.passC1 port.val h.dst (.linkResult h.dst h.src linkId result.toNat)))) ∧
   (∀ h addr withdraw, 2 ≤ port.val → frameGood h (.announce h.dst h.src addr withdraw) = true → h.seq = seq1 →
     let u := got1.returnCredit port.val
     (withdraw = false → Tbl.find u.ngl.route addr = none → addr ≠ s.node →
       exec (.announce ⟨port, h⟩ addr withdraw) s = .next
         (({ u with ngl.route := Tbl.put u.ngl.route addr port.val } : State).toParent addr false)) ∧
     (∀ q, withdraw = false → Tbl.find u.ngl.route addr = some q → q ≠ port.val →
       exec (.announce ⟨port, h⟩ addr withdraw) s = .next (u.event (0x0C5 + 8 * port.val))) ∧
     (withdraw = true → Tbl.find u.ngl.route addr = some port.val → exec (.announce ⟨port, h⟩ addr withdraw) s = .next
       (({ u with ngl.route := Tbl.del u.ngl.route addr } : State).toParent addr true))) ∧
   (∀ h (dom : Dom) master hops time, s.domPort dom.val = port.val →
     frameGood h (.timeSet h.dst h.src dom master hops time) = true → h.seq = seq1 →
     let u := got1.returnCredit port.val
     (u.nglMode = 1 → u.parN 11 0 0x003 < 2 * hops →
       exec (.timeSet ⟨port, h⟩ dom master hops time) s = .next ((u.event 0x0F8).c0Cond port.val 2)) ∧
     (u.nglMode ≠ 1 →
       let v := u.updDom dom.val (fun x => { x with master, hops })
       (v.ngl.tm.joined = true → exec (.timeSet ⟨port, h⟩ dom master hops time) s = .next v) ∧
       (v.ngl.tm.joined = false → (v.portAt port.val).delayValid = true → exec (.timeSet ⟨port, h⟩ dom master hops time) s =
         .next (v.joinTime dom.val time)))) ∧
   (∀ h (dom : Dom) seconds t0, frameGood h (.timeLabel h.src dom seconds t0) = true → h.seq = seq1 →
     let u := (got1.returnCredit port.val).broadcast (some port.val) (fun s p =>
       s.queueC1 p (.timeLabel h.src dom seconds t0))
     exec (.timeLabel ⟨port, h⟩ dom seconds t0) s = .next (({ u with
       ngl.tm := { u.ngl.tm with todSec := seconds, todMt := u.toModule dom.val t0 } } : State).event 0x0F7)) ∧
   (∀ h (event : Src) count time, frameGood h (.alarm h.dst h.src event count time) = true →
     h.seq = (s.portAt port.val).rxSeq2 → h.dst = s.node →
     exec (.alarmFrame port h.toFrameEnds h.toFrameSeal event count time) s = .next ((got2.sendFlow port.val 0).deliver s.host.sysPart.val
       { source := event.val, react := 2, coalesced := true, remote := true, count, time, node := h.src
         firstShort := shortTime time })) ∧
   (∀ h (rec : WireRec), frameGood h (.log h.dst h.src rec) = true → h.dst = s.node →
     exec (.logFrame port h.toFrameEnds h.toFrameSeal rec) s = .next (s.deliver s.host.sysPart.val
       { source := rec.source, react := rec.reaction, conseq := rec.conseq, forced := rec.forced
         coalesced := rec.coalesced, lost := rec.lost, remote := true, count := rec.count, time := rec.time
         node := h.src, primary := rec.primary, firstShort := rec.first, payload := rec.payload })) ∧
   (∀ h count, frameGood h (.logDrop h.dst h.src count) = true → h.dst = s.node →
     exec (.logDrop port h.toFrameEnds h.toFrameSeal count) s = .next (s.deliver s.host.sysPart.val
       { source := 0x7FF, react := 0, lost := true, remote := true, count, time := s.now, node := h.src
         firstShort := shortTime s.now })))

/-- What a port sends next and what falls due on the links: a trigger that acts, the periodic time set, a chime edge, a
block, an alarm (12 R333 to R338, R343, R349, R353). -/
def Obligations.LinkSendRows : Prop := ∀ s : State,
  (∀ (number : NTrg) x, firstTrig s.ngl.pendTrig number = some x → 128 ≤ s.parN 11 number.val 0x031 →
    exec (.ngulosTriggerAct number) s = .next
      { s.moveTo x.t with ngl.pendTrig := s.ngl.pendTrig.erase x }) ∧
  (∀ (number : NTrg) x, firstTrig s.ngl.pendTrig number = some x → s.parN 11 number.val 0x031 < 128 →
    let k := s.parN 11 number.val 0x031
    let u : State := { s.moveTo x.t with ngl.pendTrig := s.ngl.pendTrig.erase x }
    let v := u.occurAt k (4000 * x.t) (u.trgsOf k 7 (fun a => a == number.val)) (some x.t) x.late
    v.siteRunner k = none → exec (.ngulosTriggerAct number) s = .next
      (v.issueTok { scope := toFin 128 k (by decide), kind := 5, key := number.val, result := 0 })) ∧
  (s.ngl.tm.valid = false → exec .timeSetPeriodic s = .next s) ∧
  (s.sends 0 = true → s.sends 1 = false → s.ngl.tm.valid = true →
    let master := s.masterOf 0
    let hops := if s.isMaster 0 then 1 else (s.domAt 0).hops + 1
    let time := (s.domTime 0 / 1000 + 1) * 1000
    exec .timeSetPeriodic s = .next (((List.range 6).filter (fun p => s.treePort 0 p && p != s.domPort 0 &&
      (s.nglMode == 2 || Tbl.find s.ngl.route (s.portAt p).farAddr == some p))).foldl
        (fun v p => v.queueC1 p (.timeSet (v.portAt p).farAddr v.node 0 master hops time)) s)) ∧
  (∀ (c : ChimeOut) r, (s.chimeAt c.val).cfg = some r → Answers (.chimeEdge c) s (fun t =>
    let x := s.chimeAt c.val
    (x.level = r.invert → t.chimeAt c.val = { x with level := !x.level, state := 2, next := x.next + r.width }) ∧
    (x.level ≠ r.invert → x.queued = none → (r.period = 0 ∨ (0 < r.count ∧ r.count ≤ x.done + 1)) →
      t.chimeAt c.val = { level := r.invert }) ∧
    (x.level ≠ r.invert → x.queued = none → ¬ (r.period = 0 ∨ (0 < r.count ∧ r.count ≤ x.done + 1)) →
      t.chimeAt c.val = { x with level := r.invert, done := x.done + 1, next := r.t0 + (x.done + 1) * r.period }) ∧
    t = { s.moveTo (s.chimeAt c.val).next with ngl.chime := t.ngl.chime })) ∧
  (∀ port : Port, s.portUp port.val = true → s.fillDue port.val = true → Answers (.blockSend port) s (fun t =>
    (t.portAt port.val).sent = (s.portAt port.val).sent ++ [(0, .filler)] ∧ (t.portAt port.val).sinceFill = 0 ∧
    t = { s with ngl.port := t.ngl.port })) ∧
  (∀ port : Port, s.portUp port.val = true → s.fillDue port.val = false →
    let x := s.portAt port.val
    (x.pick = .nothing → exec (.blockSend port) s = .next s) ∧
    (∀ i, x.pick = .c0 i → exec (.blockSend port) s = .next (s.sendC0 port.val i)) ∧
    (∀ f r, x.pick = .c1 → x.c1 = f :: r → Answers (.blockSend port) s (fun t =>
      (t.portAt port.val).sent = x.sent ++ [(x.seq, f)] ∧ (t.portAt port.val).c1 = r ∧
      (t.portAt port.val).credits = x.credits - 1 ∧ (t.portAt port.val).replay = x.replay ++ [(x.seq, f)] ∧
      (t.portAt port.val).seq = (x.seq + 1) % 4096 ∧
      (t.portAt port.val).ackDue = (if x.replay = [] then s.now + 10000 else x.ackDue) ∧
      t = { s with ngl.port := t.ngl.port })) ∧
    (∀ f r, x.pick = .c2 → x.c2 = f :: r → Answers (.blockSend port) s (fun t =>
      (t.portAt port.val).sent = x.sent ++ [(x.seq2, f)] ∧ (t.portAt port.val).c2 = r ∧
      (t.portAt port.val).credits = x.credits ∧ (t.portAt port.val).replay = x.replay ++ [(x.seq2, f)] ∧
      (t.portAt port.val).seq2 = (x.seq2 + 1) % 4096 ∧ t = { s with ngl.port := t.ngl.port })) ∧
    (∀ f r, x.pick = .c3 → x.c3 = f :: r → x.c3Since = 0 → Answers (.blockSend port) s (fun t =>
      (t.portAt port.val).sent = x.sent ++ [(0, f)] ∧ (t.portAt port.val).c3 = r ∧
      (t.portAt port.val).replay = x.replay ∧ t = { s with ngl.port := t.ngl.port }))) ∧
  (∀ (event : Src) n t0 p, Tbl.get s.evt.sticky (0, 0, false) event.val = (n, t0, false) → 0 < n →
    bit (s.parN 11 0 0x041) 15 = 1 →
    let dst := bits (s.parN 11 0 0x041) 13 0
    dst ≠ s.node → s.portTo dst = some p → exec (.alarmSend event) s = .next
      (({ s with evt.sticky := Tbl.put s.evt.sticky event.val (0, t0, true) } : State).queueC2 p
        (.alarm dst s.node event n t0)))

/-- Training of a port: TRAIN blocks, the end of training, its time-out, loss and gain of block lock, elastic overflow,
idle and its exits, the standby port and retries (13 R362 to R369). -/
def Obligations.LinkTrainingRows : Prop := ∀ (s : State) (port : Port),
  let p := port.val
  let x := s.portAt p
  (∀ phase standby ref farPort node preset locked crc,
    crc ≠ crc8 (trainBits phase standby ref farPort node preset locked) →
    exec (.trainBlockReceive ⟨port, crc⟩ phase standby ref farPort node ⟨preset, locked⟩) s = .next s) ∧
  (∀ phase standby ref farPort node preset locked crc,
    crc = crc8 (trainBits phase standby ref farPort node preset locked) → x.mode = .training →
    let u := (s.updPort p (fun x => { x with
      far := farPort, farAddr := node, farStandby := standby, farLock := locked
      phase := nextPhase x.phase phase (x.lock && locked) })).updSlane p (fun y => { y with far := true })
    (ref = (s.parN 11 p 0x081 == 1) →
      exec (.trainBlockReceive ⟨port, crc⟩ phase standby ref farPort node ⟨preset, locked⟩) s = .next u) ∧
    (ref ≠ (s.parN 11 p 0x081 == 1) →
      exec (.trainBlockReceive ⟨port, crc⟩ phase standby ref farPort node ⟨preset, locked⟩) s = .next (u.attemptFails p 3))) ∧
  (∀ standby ref farPort node preset locked crc, crc = crc8 (trainBits .exit standby ref farPort node preset locked) →
    x.mode = .standby → exec (.trainBlockReceive ⟨port, crc⟩ .exit standby ref farPort node ⟨preset, locked⟩) s = .next
      (s.updPort p (fun x => { x with exiting := true }))) ∧
  (∀ standby ref farPort node preset locked crc,
    crc = crc8 (trainBits .enterIdle standby ref farPort node preset locked) → x.mode = .active →
    s.standbyRole p = true → exec (.trainBlockReceive ⟨port, crc⟩ .enterIdle standby ref farPort node ⟨preset, locked⟩) s =
      .next (s.updPort p (fun x => { x with mode := .standby, phase := none, exiting := false }))) ∧
  (∀ ppm, x.mode = .training → x.phase = some .confirm → x.lock = true → x.farLock = true → x.retrain = false →
    s.parN 11 p 0x081 ≠ 1 → s.standbyRole p = false →
    let u := (s.updPort p (fun x => { x with ppm, retrain := false, retry := false })).updPort p (fun x =>
      { x with
        credits := 16, seq := 0, seq2 := 0, rxSeq := 0, rxSeq2 := 0, lastRx := 0xFFF, held := none, stalled := false })
    let v := u.goActive p
    exec (.trainingComplete port ppm) s = .next
      ((if (v.portAt p).replay.isEmpty then v else v.replay p).retrainDoneCmd p .ok)) ∧
  (x.mode = .training →
    exec (.trainTimeoutExpiry port) s = .next ((s.moveTo x.trainDue).attemptFails p 2)) ∧
  (x.mode = .active →
    let u := (s.updPort p (fun x =>
      { x with lock := false, crcErr := satAdd x.crcErr 16 0xFFFFFFFF, errAt := some s.now })).event (0x0C3 + 8 * p)
    exec (.blockLockLoss port) s = .next (((u.event (0x0C7 + 8 * p) [1]).retrainPort p).wakeB p)) ∧
  (s.portUp p = true → s.parN 11 p 0x081 = 1 →
    exec (.elasticOverflow port) s = .next ((s.event (0x0C7 + 8 * p) [4]).retrainPort p)) ∧
  (x.mode = .standby → exec (.activityDetect port) s = .next (s.updPort p (fun x => { x with exiting := true }))) ∧
  (x.mode = .standby → x.exiting = true →
    exec (.fastExitFail port) s = .next ((s.event (0x0C6 + 8 * p) [2]).attempt p 0 false false)) ∧
  (x.mode = .training → exec (.blockLockGain port) s = .next (s.updPort p (fun x => { x with lock := true }))) ∧
  (x.mode = .standby → x.exiting = true → exec (.blockLockGain port) s = .next (s.goActive p)) ∧
  exec (.standbyCheckDue port true) s = .next s ∧
  (p = 1 → x.mode = .standby →
    exec (.standbyCheckDue port false) s = .next ((s.event (0x0C7 + 8 * p) [5]).goDown p true)) ∧
  (s.nglMode = 1 → s.portUp 0 = true → s.portUp 1 = true → s.standbyRole 1 = true →
    exec .standbyReturn s = .next ((s.moveTo ((s.portAt 0).activeAt + 1000000000)).goIdle 1)) ∧
  (x.mode = .down → (s.slaneAt p).prbs = none →
    exec (.retryIntervalExpiry port) s = .next ((s.moveTo x.trainDue).attempt p 0 false true))

/-- Scans and tests of serial lanes, their line code, and the host links: a finished scan writes its counts and completes, a
checker locks, a host link goes down and comes up; a block that is scrambled and descrambled is itself, and two descramblers
agree after 58 bits (13 R358 to R361, R371, R372; 14 R387, R388). -/
def Obligations.LaneTestRows : Prop := ∀ s : State,
  (∀ (l : SLane) p tag d start counts, (s.slaneAt l.val).scan = some (p, tag, d, start) →
    (counts : List Nat).length = scanNp d * scanNv d → exec (.laneScanDone l counts false) s = .next
      (((s.moveTo (start + counts.length * scanPoint d)).updSlane l.val (fun x => { x with scan := none })).complete p.val tag 0x0B06 .ok []
        (scanResult d start counts false))) ∧
  (∀ (l : SLane) p tag d start counts, (s.slaneAt l.val).scan = some (p, tag, d, start) →
    (counts : List Nat).length ≤ scanNp d * scanNv d → exec (.laneScanDone l counts true) s = .next
      (((s.moveTo (start + counts.length * scanPoint d)).updSlane l.val (fun x => { x with scan := none })).complete p.val tag 0x0B06 .ok []
        (scanResult d start counts true))) ∧
  (∀ (l : SLane) pat mode inj, (s.slaneAt l.val).prbs = some (pat, mode, inj) → bit mode 1 = 1 →
    exec (.prbsCheckerLock l false) s = .next (s.updSlane l.val (fun x => { x with prbsLock := true })) ∧
    ((s.slaneAt l.val).prbsLock = true → exec (.prbsCheckerLock l true) s = .next
      (s.updSlane l.val (fun x => { x with prbsRelock := satAdd x.prbsRelock 1 0xFFFFFFFF })))) ∧
  (∀ h : HPort, (s.hlinkAt h.val).up = true →
    let u := (portParts h.val).foldl (fun s p => s.updFn p (fun f => { f with linkLost := true }))
      (s.updHlink h.val (fun x => { x with up := false }))
    let v := (u.event (0x0B1 + 2 * h.val) [1]).applyAt .detect h.val
    let mode := v.parN 11 h.val 0x082
    (∀ ref, mode ≠ 1 → exec (.hostLinkDown h ref) s = .next
      (v.updHlink h.val (fun x => { x with common := mode == 0 && ref }))) ∧
    (mode = 1 → exec (.hostLinkDown h true) s = .next (v.updHlink h.val (fun x => { x with common := true }))) ∧
    (mode = 1 → exec (.hostLinkDown h false) s = .next
      ((v.updHlink h.val (fun x => { x with common := true })).event (0x0B1 + 2 * h.val) [2]))) ∧
  (∀ (h : HPort) rate width, (s.hlinkAt h.val).up = false → 5 ≤ rate → 8 ≤ width → exec (.hostLinkUp h rate width) s = .next
    ((portParts h.val).foldl (fun s p => (s.flushCpl p).drainEvts p)
      (s.updHlink h.val (fun x => { x with up := true, rate, width })))) ∧
  (∀ (h : HPort) rate width, (s.hlinkAt h.val).up = false → (rate < 5 ∨ width < 8) → exec (.hostLinkUp h rate width) s = .next
    ((portParts h.val).foldl (fun s p => (s.flushCpl p).drainEvts p)
      ((s.updHlink h.val (fun x => { x with up := true, rate, width })).event (0x0B0 + 2 * h.val) [1]))) ∧
  (∀ (h : HPort) rate width, (s.hlinkAt h.val).up = true → 5 ≤ rate → 8 ≤ width → exec (.hostLinkUp h rate width) s =
    .next ((portParts h.val).foldl (fun s p => (s.flushCpl p).drainEvts p)
      ((s.event (0x0B0 + 2 * h.val) [2]).updHlink h.val (fun x => { x with up := true, rate, width })))) ∧
  (∀ (h : Scrambler) control payload,
    receiveBlock h (sendBlock h control payload).1 = (some (control, payload), (sendBlock h control payload).2)) ∧
  (∀ (h h' : Scrambler) line, 58 ≤ (line : List Bool).length → (descramble h line).2 = (descramble h' line).2)

/-- The rows of an island: its PLL locks, unlocks and relocks, its memories fail, its temperature is read, the temperature
correction and the statistical deskew move one step (03 R118, R119; 04 R124, R138 to R141, R146). -/
def Obligations.TimingIslandRows : Prop := ∀ (s : State) (g : Grp),
  ((s.grpAt g.val).pll = .locking → (s.grpAt g.val).dead = false →
    exec (.pllLock g) s = .next (s.updGrp g.val (fun x => { x with pll := .locked }))) ∧
  ((s.grpAt g.val).pll = .locked → exec (.pllUnlock g) s = .next (s.event (0x200 + 16 * g.val))) ∧
  ((s.grpAt g.val).pll = .fenced → (s.grpAt g.val).dead = false →
    exec (.pllRelock g true) s = .next
      ((s.updGrp g.val (fun x => { x with pll := .locked, relockFails := 0 })).event (0x200 + 16 * g.val + 6)) ∧
    Answers (.pllRelock g false) s (fun t =>
      (t.grpAt g.val).relockFails = (s.grpAt g.val).relockFails + 1 ∧ (t.grpAt g.val).pll = .fenced ∧
      ((t.grpAt g.val).dead = true ↔ 2 ≤ (s.grpAt g.val).relockFails) ∧
      t = { s with pf.grp := t.pf.grp })) ∧
  exec (.ebFault g) s = .next (s.event (0x200 + 16 * g.val + 1)) ∧
  exec (.tsParity g) s = .next (s.event (0x200 + 16 * g.val + 2)) ∧
  (∀ temp, exec (.islandTempRead g temp) s = .next
    ((s.updGrp g.val (fun x => { x with tIsl := temp })).retarget g.val)) ∧
  (∀ l : Lane,
    ((s.laneAt l.val).tc = (s.laneAt l.val).tcTarget → exec (.tcStep l) s = .next s) ∧
    ((s.laneAt l.val).tc ≠ (s.laneAt l.val).tcTarget → (s.laneAt l.val).tcPend = false →
      Answers (.tcStep l) s (fun t =>
        let x := s.laneAt l.val
        t.now = max s.now (x.tcAt + 100000) ∧
        (s.laneBetween l.val = true → t.laneAt l.val = { x with tc := stepTo x.tc x.tcTarget, tcAt := t.now }) ∧
        (s.laneBetween l.val = false → t.laneAt l.val = { x with tcPend := true, tcAt := t.now }) ∧
        (stepTo x.tc x.tcTarget - x.tc).natAbs = 1 ∧ t = { s with now := t.now, pf.lane := t.pf.lane }))) ∧
  (∀ (l : Lane) drive, s.laneBetween l.val = true →
    ((s.laneAt l.val).statD ≠ (s.laneAt l.val).targetD ∨ drive = false) →
    ((s.laneAt l.val).statC ≠ (s.laneAt l.val).targetC ∨ drive = true) →
    Answers (.statDeskewStep l drive) s (fun t =>
      let x := s.laneAt l.val
      t.now = max s.now (x.statAt + 10000000) ∧
      (drive = true → t.laneAt l.val = { x with statD := stepTo x.statD x.targetD, statAt := t.now }) ∧
      (drive = false → t.laneAt l.val = { x with statC := stepTo x.statC x.targetC, statAt := t.now }) ∧
      (t.grpAt (l.val / 33)).statCount = satAdd (s.grpAt (l.val / 33)).statCount 1 0xFFFFFFFF ∧
      t = { s with now := t.now, pf.lane := t.pf.lane, pf.grp := t.pf.grp }))

/-- Input supply and removal: precharge, release, warnings, over-voltage, resets of the supply, presence and eject
(15 R406 to R409, R413 to R419, R425, R427, R428); the SMBus slave answers reads from its register map (18 R482). -/
def Obligations.SupplyRows : Prop := ∀ s : State,
  (∀ v, vinMax < v → exec (.vinWarn v) s = .fault .beyondRating ∧ exec (.vinOv v) s = .fault .beyondRating ∧
    exec (.vinMate v) s = .fault .beyondRating) ∧
  (∀ v, v ≤ vinMax →
    let w := s.parN 13 0 0x002
    let below := if s.pwr.sup.below then decide (v ≤ w + 100) else decide (v < w)
    let u : State := { s with pwr.sup := { s.pwr.sup with vinFilt := v, below } }
    (below = s.pwr.sup.below → exec (.vinWarn v) s = .next u) ∧
    (below ≠ s.pwr.sup.below → exec (.vinWarn v) s = .next ((u.event 0x000 [b2n below, v]).recompute))) ∧
  (s.pwr.sup.high = false →
    exec .vinHigh s = .next (({ s with pwr.sup := { s.pwr.sup with high := true } } : State).event 0x005)) ∧
  exec .vinHighClear s = .next { s with pwr.sup := { s.pwr.sup with high := false } } ∧
  (∀ v, v ≤ 6200 → exec (.vinOv v) s = .next s) ∧
  (∀ v, 6200 < v → v ≤ vinMax → s.pwr.sup.released = true →
    exec (.vinOv v) s = .next (({ s with pwr.sup := { s.pwr.sup with vin := v } } : State).event 0x001)) ∧
  (∀ stayed, s.pwr.sup.released = true → exec (.supplyReset stayed) s = .next
    (s.supplyResetBy stayed (if s.pwr.sup.ovAt.isSome then 2 else 1))) ∧
  (∀ stayed, s.pwr.sup.released = false → exec (.supplyReset stayed) s = .next s) ∧
  (s.pwr.sup.ovAt.isSome = true → s.pwr.sup.released = false → exec .ovRecovery s = .next
    { s with pwr.sup := { s.pwr.sup with ovAt := none, vin := min s.pwr.sup.vin 6000, precharged := false } }) ∧
  exec .inputLimit s = .next (s.event 0x004) ∧
  (∀ v, v ≤ vinMax → s.pwr.sup.released = false → exec (.vinMate v) s = .next
    { s with pwr.sup := { s.pwr.sup with vin := v, vinFilt := v, precharged := false, switchOn := false } }) ∧
  (s.pwr.sup.released = false → s.pwr.sup.ovAt = none → 0 < s.pwr.sup.vin → exec .prechargeComplete s = .next
    { s with pwr.sup := { s.pwr.sup with
        precharged := true, switchOn := true, condSince := s.now, smbFrom := s.now + 20000000 } }) ∧
  (∀ ga, s.pwr.sup.released = false → s.mayRelease = true → Answers (.resetRelease ga) s (fun t =>
    t.now = 0 ∧ t.evt.tabor = true ∧ t.pwr.therm.inTrip = false ∧ t.pwr.sup.released = true ∧ t.pwr.sup.ga = ga ∧
    t = { s with now := 0, evt.tabor := true, pwr := t.pwr })) ∧
  (s.pwr.sup.released = true →
    exec .prsntNLoss s = .next (({ s with pwr.sup := { s.pwr.sup with prsnt := false } } : State).event 0x008)) ∧
  (s.pwr.sup.prsnt = false → exec .prsntNAssert s = .next
    { s with pwr.sup := { s.pwr.sup with prsnt := true, condSince := s.now } }) ∧
  (s.pwr.sup.eject = false → s.pwr.sup.released = true → s.pwr.sup.hp = 1 →
    let u : State := { s with pwr.sup := { s.pwr.sup with eject := true, hp := 2, ejectAt := s.now, ejected := false } }
    exec .ejectNAssert s = .next
      ((((u.event 0x5C3 [1, 0x009]).event 0x009 [1]).calAbandon (fun _ => true) true).startStore)) ∧
  (s.pwr.sup.eject = true → s.pwr.sup.released = true → s.pwr.sup.hp = 2 → s.pwr.sup.ejected = false →
    let u : State := { s with pwr.sup := { s.pwr.sup with eject := false, hp := 1 } }
    exec .ejectNRelease s = .next
      ((if s.pwr.therm.stop.isNone then u.event 0x5C3 [0, 0x009] else u).event 0x009 [0])) ∧
  (s.pwr.sup.hp = 2 → s.pwr.sup.ejected = false →
    let u : State := s.moveTo (s.pwr.sup.ejectAt + 200000000)
    exec .ejectGraceExpiry s = .next
      (((({ u with pwr.sup := { u.pwr.sup with ejected := true } } : State).safeState rSUPPLY
        0x7FF).fenceTasks.fenceLong).portsOff)) ∧
  (s.pwr.sup.hp = 2 → s.pwr.sup.ejected = true → (∀ d, d < 18 → (s.dpsAt d).on = false) →
    exec .ejectSafe s = .next (({ s with pwr.sup := { s.pwr.sup with hp := 3 } } : State).event 0x00A)) ∧
  (∀ power, s.ve.bursts = [] → (∀ d, d < 18 → (s.dpsAt d).on = false) → s.cal.run.running = none →
    exec (.pIdleMeasure power) s = .next { s with pwr.sup := { s.pwr.sup with pIdle := power } }) ∧
  (Answers .referenceCompUpdate s (fun t => t = { s with pwr.refCorr := t.pwr.refCorr } ∧ ∀ u, u < 67 →
    (∀ temp, s.validTemp (refSensor u) = some temp →
      let v := Tbl.get s.pwr.refCorr 0 u
      let target := Config.refTarget u temp
      (v < target → Tbl.get t.pwr.refCorr 0 u = v + 1) ∧ (target < v → Tbl.get t.pwr.refCorr 0 u = v - 1) ∧
      (v = target → Tbl.get t.pwr.refCorr 0 u = v)) ∧
    (s.validTemp (refSensor u) = none → Tbl.get t.pwr.refCorr 0 u = Tbl.get s.pwr.refCorr 0 u))) ∧
  (∀ command n,
    (s.pwr.sup.precharged = true → s.pwr.sup.smbFrom ≤ s.now → 9 < command →
      s.smbRead command n = (some (List.replicate n 0xFF), s)) ∧
    (s.pwr.sup.precharged = true → s.pwr.sup.smbFrom ≤ s.now →
      s.smbRead 0x04 n = (some [if s.pwr.sup.released then s.pwr.sup.hp else 0], s)) ∧
    ((s.pwr.sup.precharged = false ∨ s.now < s.pwr.sup.smbFrom) → s.smbRead command n = (none, s)))

/-- Sensors and thermal stages: readings, breaks and restores of a sensor, the throttle dwell, the trip, the shut-down of
the input converter, the end of the stop's grace (10 R292; 15 R420 to R427). -/
def Obligations.ThermalRows : Prop := ∀ s : State,
  (∀ n : Sensor, (s.snsAt n.val).lastRead + 10000000 < s.now →
    exec (.sensorRead n none none) s = .next (s.breakSensor n.val 2)) ∧
  (∀ n : Sensor, s.now ≤ (s.snsAt n.val).lastRead + 10000000 → exec (.sensorRead n none none) s = .next s) ∧
  (∀ (n : Sensor) v second,
    let u := s.updSns n.val (fun x => { x with raw := some v, lastRead := s.now })
    ((v < -4000 ∨ 15000 < v) → exec (.sensorRead n (some v) second) s = .next (u.breakSensor n.val 1).cooled) ∧
    (-4000 ≤ v → v ≤ 15000 → neighbour n.val = none → second = none →
      exec (.sensorRead n (some v) second) s = .next (u.goodReading n.val).cooled) ∧
    (∀ w, -4000 ≤ v → v ≤ 15000 → neighbour n.val = none → second = some w → (v - w).natAbs ≤ 1500 →
      exec (.sensorRead n (some v) second) s = .next (u.goodReading n.val).cooled)) ∧
  (∀ (n : Sensor) t0, (s.snsAt n.val).goodSince = some t0 → (s.snsAt n.val).broken ≠ 0 →
    (s.snsAt n.val).latched = false →
    let u := (s.moveTo (t0 + 1000000000)).updSns n.val (fun x =>
      { x with broken := 0, fencing := x.fencing && decide (20 ≤ n.val) && decide (n.val < 28), goodSince := none })
    let v := (u.liftSensor n.val).event (0x010 + n.val) [4]
    exec (.sensorRestore n) s = .next (((v.stages n.val).followStop (0x010 + n.val))).recompute) ∧
  (∀ t0 temp, s.pwr.therm.dieDwell = some t0 → s.hotValid (List.range 24) = some temp →
    let u := s.moveTo (t0 + 49000000)
    exec (.throttleDwellComplete none) s = .next
      ((({ u with pwr.therm := { u.pwr.therm with dieThrottle := true, dieDwell := none } } : State).event 0x040
        [word32 temp]).recompute)) ∧
  (∀ (k : Stack) t0, Tbl.find s.pwr.therm.hbmDwell k.val = some t0 →
    let u := s.moveTo (t0 + 49000000)
    let v : State := { u with pwr.therm := { u.pwr.therm with hbmDwell := Tbl.del s.pwr.therm.hbmDwell k.val } }
    exec (.throttleDwellComplete (some k)) s = .next
      ((v.updStack k.val (fun x => { x with throttle := true })).event 0x043 [k.val])) ∧
  (∀ n : Sensor, (s.snsAt n.val).broken = 0 → (s.snsAt n.val).latched = false →
    (n.val < 24 → exec (.thermalTrip n) s = .next (s.event 0x042 [n.val])) ∧
    (n.val = 46 → exec (.thermalTrip n) s = .next (s.event 0x046))) ∧
  (s.pwr.therm.inTrip = true → s.pwr.sup.released = true →
    let u := (s.moveTo (s.pwr.therm.tripAt + 2000000)).supplyResetBy true 3
    exec .inconvShutdown s = .next
      (({ u with pwr.therm := { u.pwr.therm with inTrip := true } } : State).updSns 46 (fun x =>
        { x with raw := (s.snsAt 46).raw }))) ∧
  (∀ t0, s.pwr.therm.stop = some t0 →
    let u := s.moveTo (t0 + 1000000 * s.parN 9 0 0x016)
    exec .stopGraceExpiry s = .next
      ((u.runnersBy (fun b => b.live)).foldl (fun s r => s.endBurst r .stop (invalidRes rTHERMAL)) u)) ∧
  (s.pwr.therm.stop = none → exec .stopGraceExpiry s = .next s)

/-- The supervisor and its firmware: consequence windows close, the watchdog and the self-checks raise their events, the
firmware boots or falls back, the service lock returns (16 R434, R441, R445, R447, R450, R453, R456). -/
def Obligations.SupervisorRows : Prop := ∀ s : State,
  (s.evt.wins = [] → exec .consequenceWindowClose s = .next s) ∧
  (∀ w rest, s.evt.wins = w :: rest → w.counted = [] → Answers .consequenceWindowClose s (fun t =>
    t.evt = { s.evt with wins := rest } ∧ t.now = max s.now w.close ∧ t = { s with now := t.now, evt := t.evt })) ∧
  exec .gongReadback s = .next (s.event 0x055) ∧
  ((s.fw.state = 1 ∨ s.fw.state = 2) → s.fw.hand ≠ 2 →
    exec .fwWatchdog s = .next (({ s with fw := { s.fw with state := 3, hand := 0 } } : State).event 0x050)) ∧
  (s.fw.hand = 2 → exec .fwWatchdog s = .next s) ∧
  exec .fabricParity s = .next (s.event 0x056) ∧
  exec .sramUe s = .next (s.event 0x059) ∧
  exec .sramCorr s = .next (s.event 0x058) ∧
  (∀ failed, s.fw.state = 0 → s.pwr.sup.released = true →
    exec (.firmwareBoot true false failed) s = .next (s.boot failed) ∧
    (let b := !s.fw.bank
     let u : State := { s with fw := { s.fw with bank := b, fellBack := true } }
     exec (.firmwareBoot false true failed) s = .next ((u.boot failed).event 0x051 [1, b2n b])) ∧
    exec (.firmwareBoot false false failed) s = .next { s with fw := { s.fw with state := 3 } }) ∧
  (s.fw.state = 0 → s.pwr.sup.released = true →
    (s.fw.bootRetry = true → exec .bootTimeout s = .next { s with fw := { s.fw with state := 3 } }) ∧
    (s.fw.bootRetry = false →
      let b := !s.fw.bank
      exec .bootTimeout s = .next
        (({ s with fw := { s.fw with bank := b, fellBack := true, bootRetry := true } } : State).event 0x051 [2, b2n b]))) ∧
  (∀ t0, s.fw.svcUntil = some t0 →
    let u := s.moveTo t0
    exec .serviceLockExpiry s = .next
      (({ u with fw := { u.fw with svcUntil := none } } : State).event 0x052 [s.fw.svcBy.val, 0]))

/-- The rings of a partition: entries join the command ring, are taken in order, rings stop and resume, the host consumes
completions and events, DMA errors stop a ring (14 R379, R381 to R389; 16 R439, R440). -/
def Obligations.HostRingRows : Prop := ∀ (s : State) (p : Part),
  let f := s.fnAt p.val
  (∀ count written,
    let ahead := (count % 65536 + 65536 - f.head) % 65536
    let old := (f.tail + 65536 - f.head) % 65536
    (ahead ≤ 256 → old ≤ ahead → Answers (.cmdTail p count written) s (fun t =>
      t.fnAt p.val = { f with tail := count % 65536, ring := f.ring ++ written.take (ahead - old) } ∧
      t = { s with host.fn := t.host.fn })) ∧
    ((256 < ahead ∨ ahead < old) → exec (.cmdTail p count written) s = .next (s.fnErr p.val 2 0x020 0 0))) ∧
  (∀ e r, f.holdFull = false → s.intake p.val = true → f.ring = e :: r → (e.ordered = false ∨ f.tags = []) →
    s.nextTurn = some p.val →
    let u := (s.countTurn p.val).updFn p.val (fun f => { f with ring := r, head := (f.head + 1) % 65536 })
    ((opcodeLen e.opcode false).isNone = true →
      exec (.cmdTake p) s = .next (u.refuseCmd p.val e.tag e.opcode .badOpcode [])) ∧
    ((opcodeLen e.opcode false).isSome = true → f.tags.any (fun t => t.tag == e.tag) = false → cmdFormed e = false →
      exec (.cmdTake p) s = .next (u.refuseCmd p.val e.tag e.opcode .badParam [])) ∧
    ((opcodeLen e.opcode false).isSome = true → f.tags.any (fun t => t.tag == e.tag) = false → cmdFormed e = true →
      Answers (.cmdTake p) s (fun t => t.fnAt p.val = { f with
        ring := r
        head := (f.head + 1) % 65536
        tags := f.tags ++ [{ tag := e.tag, opcode := e.opcode, taken := true, dma := e.dma }] } ∧
        t.host.turn = (if p.val = s.host.turn.1 ∧ s.host.turn.2 < 4 then (s.host.turn.1, s.host.turn.2 + 1) else (p.val, 1)) ∧
        t = { s with host.fn := t.host.fn, host.turn := t.host.turn }))) ∧
  (f.holdFull = false → (s.intake p.val = false ∨ f.ring = [] ∨ s.nextTurn ≠ some p.val) →
    exec (.cmdTake p) s = .next s) ∧
  (exec (.cmdEnable p false) s = .next (s.updFn p.val (fun f => { f with enable := false }))) ∧
  (exec (.cmdEnable p true) s = .next
    (((s.updFn p.val (fun f => { f with enable := true })).flushCpl p.val).drainEvts p.val)) ∧
  (let u := (s.updFn p.val (fun f => { f with stop := true })).abortPart p
   (f.stop = true → exec (.ringStop p) s = .next u) ∧
   (f.stop = false → exec (.ringStop p) s = .next (u.event (0x080 + p.val) [4] [.part p.val]))) ∧
  exec (.ringResume p) s = .next (s.updFn p.val (fun f => { f with stop := false })) ∧
  (bits f.cplMsix 31 16 ≠ 0 → ringFill f.cplProd f.cplTold ≠ 0 → Answers (.msixCoalTimeout p false) s (fun t =>
    t.fnAt p.val = { f with cplTold := f.cplProd, msixSent := f.msixSent + 1 } ∧ t = { s with host.fn := t.host.fn })) ∧
  (bits f.evtMsix 31 16 ≠ 0 → ringFill f.evtProd f.evtTold ≠ 0 → Answers (.msixCoalTimeout p true) s (fun t =>
    t.fnAt p.val = { f with evtTold := f.evtProd, msixSent := f.msixSent + 1 } ∧ t = { s with host.fn := t.host.fn })) ∧
  (∀ addr, exec (.cplDmaError p addr) s = .next
    (((s.updFn p.val (fun f => { f with cplErr := true })).fnErr p.val 3 0 (addr % 2 ^ 32) (hi32 addr)).event
      (0x080 + p.val) [6] [.part p.val])) ∧
  (∀ addr, exec (.evtDmaError p addr) s = .next
    (((s.updFn p.val (fun f => { f with evtErr := true })).fnErr p.val 4 0 (addr % 2 ^ 32) (hi32 addr)).event
      (0x080 + p.val) [7] [.part p.val])) ∧
  (∀ count, exec (.cplCons p count) s = .next ((s.updFn p.val (fun f => { f with
    cplCons := count % 2 ^ 32, cpls := f.cpls.drop (ringFill count f.cplCons) })).flushCpl p.val)) ∧
  (∀ count, exec (.evtCons p count) s = .next ((s.updFn p.val (fun f => { f with
    evtCons := count % 2 ^ 32, evts := f.evts.drop (ringFill count f.evtCons) })).drainEvts p.val))

/-- Registers and resets of a partition: clears, latches and writes of registers, requests and steps of a reset, the key
of a module reset (14 R379, R380, R382, R388, R394 to R396; 01 R5, R6; 15 R418). -/
def Obligations.HostRegisterRows : Prop := ∀ (s : State) (p : Part),
  let f := s.fnAt p.val
  (Answers (.ferrClear p) s (fun t => t.fnAt p.val = { f with ferr := none } ∧ t = { s with host.fn := t.host.fn })) ∧
  (Answers (.linkLostClear p) s (fun t =>
    t.fnAt p.val = { f with linkLost := false } ∧ t = { s with host.fn := t.host.fn })) ∧
  (∀ reg ws, s.rlWords p.val reg = some ws → exec (.rlLowRead p reg) s = .next (s.updFn p.val (FnSt.setLatch reg ws))) ∧
  (∀ reg, s.rlWords p.val reg = none → exec (.rlLowRead p reg) s = .next s) ∧
  (∀ offset (value : Word) g, f.setRing offset value.toNat = some g →
    (g.enable = false → Answers (.registerWrite p offset value) s (fun t =>
      t.fnAt p.val = g ∧ t = { s with host.fn := t.host.fn })) ∧
    (g.enable = true → exec (.registerWrite p offset value) s = .next (s.fnErr p.val 2 offset 0 0))) ∧
  (∀ k (value : Word), k < 4 → Answers (.registerWrite p (0x0B0 + 4 * k) value) s (fun t =>
    t.fnAt p.val = { f with scratch := Tbl.put f.scratch k value.toNat } ∧ t = { s with host.fn := t.host.fn })) ∧
  (∀ key : Word, key.toNat ≠ 0x50525354 → exec (.partReset p key) s = .next (s.fnErr p.val 2 0x0A0 0 0)) ∧
  (∀ key : Word, key.toNat = 0x50525354 → exec (.partReset p key) s = exec (.functionLevelReset p) s) ∧
  (f.reset ≠ 1 → f.reset ≠ 2 → Answers (.functionLevelReset p) s (fun t =>
    t.fnAt p.val = { f with reset := 1, resetAt := s.now } ∧ t = { s with host.fn := t.host.fn })) ∧
  (f.reset = 1 → s.fw.hand = 0 → s.fw.state = 1 → exec (.partResetAck p) s = .next
    (((((s.dropBursts p).forgetCmds p).safePart p.val).clearPart p.val).clearFn p)) ∧
  (f.reset = 2 → (∀ d, (s.dpsAt d).on = false) →
    let u : State := { s.rewrite (fun b => 64 * b / 2 ^ 36 == p.val) with
      mem.hbm := Memory.clear s.mem.hbm (fun k => k / 2 ^ 36 == p.val) }
    let v := u.updFn p.val (fun f => { f with reset := 3, resetBy := [] })
    exec (.partResetComplete p) s = .next ((f.resetBy.foldl (fun s x => s.complete x.1.val x.2 0x0006 .ok []) v).event
      (0x080 + p.val) [1] [.part p.val])) ∧
  (f.reset = 1 → s.fw.hand = 0 → s.parN 0 0 0x001 = 1 → exec (.resetAckTimeout p) s = .next
    (({ s.moveTo (f.resetAt + 50000000) with fw := { s.fw with escPart := some p } } : State).moduleReset 3)) ∧
  (f.reset = 1 → s.fw.hand = 0 → s.parN 0 0 0x001 ≠ 1 →
    let v := (s.moveTo (f.resetAt + 50000000)).updFn p.val (fun f => { f with reset := 4, resetBy := [] })
    exec (.resetAckTimeout p) s = .next
      ((f.resetBy.foldl (fun s x => s.complete x.1.val x.2 0x0006 .timeout []) v).event (0x080 + p.val) [3]
        [.part p.val])) ∧
  (∀ key : Word, key.toNat ≠ 0x4D525354 → exec (.modReset p key) s = .next (s.fnErr p.val 2 0x0A4 0 0)) ∧
  (∀ key : Word, key.toNat = 0x4D525354 → s.rightModReset p.val = true → s.pwr.sup.eject = false →
    s.pwr.therm.dieTrip = false → exec (.modReset p key) s = .next (s.moduleReset 2))

/-- Calibration: a queued unit starts, an attempt ends, a store starts and goes step by step (17 R464 to R468, R471 to
R474). -/
def Obligations.CalibrationRows : Prop := ∀ s : State,
  (∀ u own rest, s.cal.run.running = none → s.cal.run.queue = (u, own) :: rest →
    (s.calFenced u = true → exec .calUnitStart s = .next
      (({ s with cal.run := { s.cal.run with queue := rest } } : State).calDone u .abandoned own)) ∧
    (s.calFenced u = false → s.calFree u = true → exec .calUnitStart s = .next
      (({ s with cal.run := { s.cal.run with
          queue := rest, running := some (u, 1), runOwn := own, startedAt := s.now
          startTemp := s.calTempOf u } } : State).calBegin u)) ∧
    (s.calFenced u = false → s.calFree u = false → exec .calUnitStart s = .next s)) ∧
  (∀ u n, s.cal.run.running = some (u, n) →
    let v := s.moveTo (s.cal.run.startedAt + calNs u)
    let again := fun (w : State) => ({ w with cal.run := { w.cal.run with
      running := some (u, n + 1), startedAt := w.now, startTemp := w.calTempOf u } } : State)
    let moved := (v.calTempOf u - s.cal.run.startTemp).natAbs
    (moved ≤ 100 → exec (.calAttemptEnd u .pass) s = .next ((v.calAccept u n).calFinish u .accepted)) ∧
    (100 < moved → n < 3 → exec (.calAttemptEnd u .pass) s = .next (again v.drawFree)) ∧
    (∀ which, exec (.calAttemptEnd u (.refAbsent which)) s = .next ((s.calFinish u .abandoned).event 0x5E5 [which])) ∧
    (∀ q lane, 3 ≤ n → exec (.calAttemptEnd u (.fail q lane)) s = .next ((v.calReject u q lane).calFinish u .rejected)) ∧
    (∀ q lane, n < 3 → exec (.calAttemptEnd u (.fail q lane)) s = .next (again v))) ∧
  (s.cal.store.pending = true → s.cal.store.step = 0 →
    (∀ t0, s.cal.store.lastAt = some t0 → exec .storeIntervalExpiry s = .next
      ((s.moveTo (t0 + 1000000000 * s.parN 14 0 0x003)).startStore)) ∧
    (s.cal.store.lastAt = none → exec .storeIntervalExpiry s = .next s.startStore)) ∧
  (s.cal.store.step ≠ 0 →
    exec (.storeStepVerified false) s = .next
      (({ s with cal.store := { s.cal.store with step := 0, pending := true } } : State).event 0x5E3
        [b2n (!s.cal.store.active), s.cal.store.step]) ∧
    (let st := s.cal.store
     let old := st.slot (!st.active)
     (st.step = 1 → exec (.storeStepVerified true) s = .next { s with cal.store := { st with step := 2 } }) ∧
     (st.step = 2 → Answers (.storeStepVerified true) s (fun t =>
       let new := t.cal.store.slot (!st.active)
       new = { st.snap with
         gen := 0xFFFFFFFF, crc := 0xFFFFFFFF, magic := 0x53444331, format := 1, length := new.length, sum := new.sum } ∧
       new.length ≤ 262112 ∧ t.cal.store.slot st.active = st.slot st.active ∧ t.cal.store.step = 3 ∧
       t = { s with free := t.free, cal.store := t.cal.store })) ∧
     (st.step = 3 → Answers (.storeStepVerified true) s (fun t =>
       t.cal.store.slot (!st.active) = { old with crc := old.sum } ∧
       t.cal.store.slot st.active = st.slot st.active ∧ t.cal.store.step = 4 ∧ t = { s with cal.store := t.cal.store })) ∧
     (4 ≤ st.step → st.cmds = [] → Answers (.storeStepVerified true) s (fun t =>
       let gen := (st.slot st.active).gen
       t.cal.store.active = (!st.active) ∧ t.cal.store.step = 0 ∧
       t.cal.store.slot (!st.active) = { old with gen := if gen = 0xFFFFFFFF then 1 else gen + 1 } ∧
       t.cal.store.slot st.active = st.slot st.active ∧ t = { s with cal.store := t.cal.store }))))

/-- The Rudiment serial console prints, and pokes, selects a bank or resets only while the service lock is open
(16 R452 to R454; 15 R418). -/
def Obligations.RudimentRows : Prop := ∀ s : State,
  exec .help s = .next (s.print .help) ∧
  exec .faults s = .next
    (s.print (.faults (s.evt.sticky.map (fun x => (x.1, x.2.1, x.2.2.1))) s.evt.ferr s.fencedUnits s.fatalState)) ∧
  exec .temps s = .next (s.print (.temps ((List.range 48).map (fun n => (s.snsTemp n, s.snsState n))) s.tDie (s.tHbm 0)
    (s.tHbm 1) s.thermState)) ∧
  exec .time s = .next (s.print (.time s.now s.ngl.tm.sel s.timeState s.acq.osc.state s.ngl.tm.todSec)) ∧
  exec .lanes s = .next (s.print (.lanes ((List.range 38).map s.laneLink) ((List.range 528).filter (fun l =>
    (s.laneAt l).fenced || (s.laneAt l).vacated || (l % 33 == 32 && (s.grpAt (l / 33)).l32.isSome))))) ∧
  exec .fw s = .next (s.print (.fw s.fw.state s.fw.bankWord s.fw.verA s.fw.verB)) ∧
  (∀ id, s.readCheck s.host.sysPart.val id = none → s.fwRuns = true →
    exec (.peek id) s = .next ((s.peekVal id).2.print (.value (s.peekVal id).1.1 (s.peekVal id).1.2))) ∧
  (∀ id value, s.unlocked = false → exec (.poke id value) s = .next (s.print (.err .denied))) ∧
  (∀ id value, s.unlocked = true → s.fwRuns = true → (s.pokeVal id value).1 = .ok → exec (.poke id value) s = .next
    (((s.pokeVal id value).2.event 0x053 [id, word32 value]).print .done)) ∧
  (∀ b, s.unlocked = false → exec (.fwSelect b) s = .next (s.print (.err .denied))) ∧
  (∀ b, s.unlocked = true → (if b then s.fw.validB else s.fw.validA) = true →
    exec (.fwSelect b) s = .next (({ s with fw := { s.fw with next := b } } : State).print .done)) ∧
  (s.unlocked = false → s.fw.state ≠ 3 → exec .rudimentReset s = .next (s.print (.err .denied))) ∧
  ((s.unlocked = true ∨ s.fw.state = 3) → s.pwr.sup.eject = false → s.pwr.therm.dieTrip = false →
    exec .rudimentReset s = .next (s.moduleReset 4))
end

