-- ==== Sys2Proof/Laws/Tbl.lean ====
section
/-!
SUPPORT. Sparse tables: what is read after a change.
-/

namespace Sys2Proof.Machine

@[simp] theorem Tbl.get_put_same {α : Type} (t : Tbl α) (d : α) (k : Nat) (v : α) :
    Tbl.get (Tbl.put t k v) d k = v := by
  induction t with
  | nil => simp [Tbl.put, Tbl.get]
  | cons c r ih =>
    obtain ⟨j, w⟩ := c
    simp only [Tbl.put]
    split_ifs with h1 h2
    · simp [Tbl.get]
    · simp [Tbl.get]
    · simp only [Tbl.get, if_neg h2, ih]

theorem Tbl.get_put_other {α : Type} (t : Tbl α) (d : α) (k i : Nat) (v : α) (h : i ≠ k) :
    Tbl.get (Tbl.put t k v) d i = Tbl.get t d i := by
  have h' : k ≠ i := h.symm
  induction t with
  | nil => simp [Tbl.put, Tbl.get, h']
  | cons c r ih =>
    obtain ⟨j, w⟩ := c
    simp only [Tbl.put]
    split_ifs with h1 h2
    · simp [Tbl.get, h']
    · subst h2
      simp [Tbl.get, h']
    · simp only [Tbl.get, ih]

@[simp] theorem Tbl.find_put_same {α : Type} (t : Tbl α) (k : Nat) (v : α) : Tbl.find (Tbl.put t k v) k = some v := by
  induction t with
  | nil => simp [Tbl.put, Tbl.find]
  | cons c r ih =>
    obtain ⟨j, w⟩ := c
    simp only [Tbl.put]
    split_ifs with h1 h2
    · simp [Tbl.find]
    · simp [Tbl.find]
    · simp only [Tbl.find, if_neg h2, ih]

@[simp] theorem Tbl.put_put {α : Type} (t : Tbl α) (k : Nat) (v w : α) : Tbl.put (Tbl.put t k v) k w = Tbl.put t k w := by
  induction t with
  | nil => simp [Tbl.put]
  | cons c r ih =>
    obtain ⟨j, x⟩ := c
    simp only [Tbl.put]
    split_ifs with h1 h2
    · simp [Tbl.put]
    · simp [Tbl.put]
    · simp only [Tbl.put, if_neg h1, if_neg h2, ih]

theorem Tbl.find_put_other {α : Type} (t : Tbl α) (k i : Nat) (v : α) (h : i ≠ k) :
    Tbl.find (Tbl.put t k v) i = Tbl.find t i := by
  have h' : k ≠ i := h.symm
  induction t with
  | nil => simp [Tbl.put, Tbl.find, h']
  | cons c r ih =>
    obtain ⟨j, w⟩ := c
    simp only [Tbl.put]
    split_ifs with h1 h2
    · simp [Tbl.find, h']
    · subst h2
      simp [Tbl.find, h']
    · simp only [Tbl.find, ih]

@[simp] theorem Tbl.find_del_same {α : Type} (t : Tbl α) (k : Nat) : Tbl.find (Tbl.del t k) k = none := by
  induction t with
  | nil => rfl
  | cons c r ih =>
    obtain ⟨j, w⟩ := c
    simp only [Tbl.del]
    split_ifs with h
    · exact ih
    · simp only [Tbl.find, if_neg h, ih]

theorem Tbl.find_del_other {α : Type} (t : Tbl α) (k i : Nat) (h : i ≠ k) : Tbl.find (Tbl.del t k) i = Tbl.find t i := by
  induction t with
  | nil => rfl
  | cons c r ih =>
    obtain ⟨j, w⟩ := c
    simp only [Tbl.del]
    split_ifs with h1
    · subst h1
      simp [Tbl.find, h.symm, ih]
    · simp only [Tbl.find, ih]

@[simp] theorem Tbl.get_upd_same {α : Type} (t : Tbl α) (d : α) (k : Nat) (f : α → α) :
    Tbl.get (Tbl.upd t d k f) d k = f (Tbl.get t d k) := Tbl.get_put_same _ _ _ _

theorem Tbl.get_upd_other {α : Type} (t : Tbl α) (d : α) (k i : Nat) (f : α → α) (h : i ≠ k) :
    Tbl.get (Tbl.upd t d k f) d i = Tbl.get t d i := Tbl.get_put_other _ _ _ _ _ h

end Sys2Proof.Machine
end

