-- ==== Sys2Proof/Laws/State.lean ====
section
/-!
SUPPORT. What each update of the state changes and what it leaves: one lemma per field of `State` per update.
-/

namespace Sys2Proof.Machine

/-! `State.updEng` changes `ve` alone. -/

@[simp] theorem State.updEng_pending (s : State) (k : Nat) (f : EngSt → EngSt) : (State.updEng s k f).pending = s.pending := rfl
@[simp] theorem State.updEng_now (s : State) (k : Nat) (f : EngSt → EngSt) : (State.updEng s k f).now = s.now := rfl
@[simp] theorem State.updEng_free (s : State) (k : Nat) (f : EngSt → EngSt) : (State.updEng s k f).free = s.free := rfl
@[simp] theorem State.updEng_host (s : State) (k : Nat) (f : EngSt → EngSt) : (State.updEng s k f).host = s.host := rfl
@[simp] theorem State.updEng_evt (s : State) (k : Nat) (f : EngSt → EngSt) : (State.updEng s k f).evt = s.evt := rfl
@[simp] theorem State.updEng_fw (s : State) (k : Nat) (f : EngSt → EngSt) : (State.updEng s k f).fw = s.fw := rfl
@[simp] theorem State.updEng_uart (s : State) (k : Nat) (f : EngSt → EngSt) : (State.updEng s k f).uart = s.uart := rfl
@[simp] theorem State.updEng_pf (s : State) (k : Nat) (f : EngSt → EngSt) : (State.updEng s k f).pf = s.pf := rfl
@[simp] theorem State.updEng_acq (s : State) (k : Nat) (f : EngSt → EngSt) : (State.updEng s k f).acq = s.acq := rfl
@[simp] theorem State.updEng_rse (s : State) (k : Nat) (f : EngSt → EngSt) : (State.updEng s k f).rse = s.rse := rfl
@[simp] theorem State.updEng_sch (s : State) (k : Nat) (f : EngSt → EngSt) : (State.updEng s k f).sch = s.sch := rfl
@[simp] theorem State.updEng_mem (s : State) (k : Nat) (f : EngSt → EngSt) : (State.updEng s k f).mem = s.mem := rfl
@[simp] theorem State.updEng_ngl (s : State) (k : Nat) (f : EngSt → EngSt) : (State.updEng s k f).ngl = s.ngl := rfl
@[simp] theorem State.updEng_pwr (s : State) (k : Nat) (f : EngSt → EngSt) : (State.updEng s k f).pwr = s.pwr := rfl
@[simp] theorem State.updEng_cal (s : State) (k : Nat) (f : EngSt → EngSt) : (State.updEng s k f).cal = s.cal := rfl

@[simp] theorem State.updEng_same (s : State) (k : Nat) (f : EngSt → EngSt) : State.engAt (State.updEng s k f) k = f (State.engAt s k) :=
  Tbl.get_upd_same _ _ _ _

theorem State.updEng_other (s : State) (k i : Nat) (f : EngSt → EngSt) (h : i ≠ k) : State.engAt (State.updEng s k f) i = State.engAt s i :=
  Tbl.get_upd_other _ _ _ _ _ h

/-! `State.updMark` changes `ve` alone. -/

@[simp] theorem State.updMark_pending (s : State) (k : Nat) (f : MarkSt → MarkSt) : (State.updMark s k f).pending = s.pending := rfl
@[simp] theorem State.updMark_now (s : State) (k : Nat) (f : MarkSt → MarkSt) : (State.updMark s k f).now = s.now := rfl
@[simp] theorem State.updMark_free (s : State) (k : Nat) (f : MarkSt → MarkSt) : (State.updMark s k f).free = s.free := rfl
@[simp] theorem State.updMark_host (s : State) (k : Nat) (f : MarkSt → MarkSt) : (State.updMark s k f).host = s.host := rfl
@[simp] theorem State.updMark_evt (s : State) (k : Nat) (f : MarkSt → MarkSt) : (State.updMark s k f).evt = s.evt := rfl
@[simp] theorem State.updMark_fw (s : State) (k : Nat) (f : MarkSt → MarkSt) : (State.updMark s k f).fw = s.fw := rfl
@[simp] theorem State.updMark_uart (s : State) (k : Nat) (f : MarkSt → MarkSt) : (State.updMark s k f).uart = s.uart := rfl
@[simp] theorem State.updMark_pf (s : State) (k : Nat) (f : MarkSt → MarkSt) : (State.updMark s k f).pf = s.pf := rfl
@[simp] theorem State.updMark_acq (s : State) (k : Nat) (f : MarkSt → MarkSt) : (State.updMark s k f).acq = s.acq := rfl
@[simp] theorem State.updMark_rse (s : State) (k : Nat) (f : MarkSt → MarkSt) : (State.updMark s k f).rse = s.rse := rfl
@[simp] theorem State.updMark_sch (s : State) (k : Nat) (f : MarkSt → MarkSt) : (State.updMark s k f).sch = s.sch := rfl
@[simp] theorem State.updMark_mem (s : State) (k : Nat) (f : MarkSt → MarkSt) : (State.updMark s k f).mem = s.mem := rfl
@[simp] theorem State.updMark_ngl (s : State) (k : Nat) (f : MarkSt → MarkSt) : (State.updMark s k f).ngl = s.ngl := rfl
@[simp] theorem State.updMark_pwr (s : State) (k : Nat) (f : MarkSt → MarkSt) : (State.updMark s k f).pwr = s.pwr := rfl
@[simp] theorem State.updMark_cal (s : State) (k : Nat) (f : MarkSt → MarkSt) : (State.updMark s k f).cal = s.cal := rfl

@[simp] theorem State.updMark_same (s : State) (k : Nat) (f : MarkSt → MarkSt) : State.markAt (State.updMark s k f) k = f (State.markAt s k) :=
  Tbl.get_upd_same _ _ _ _

theorem State.updMark_other (s : State) (k i : Nat) (f : MarkSt → MarkSt) (h : i ≠ k) : State.markAt (State.updMark s k f) i = State.markAt s i :=
  Tbl.get_upd_other _ _ _ _ _ h

/-! `State.updSite` changes `pf` alone. -/

@[simp] theorem State.updSite_pending (s : State) (k : Nat) (f : SiteSt → SiteSt) : (State.updSite s k f).pending = s.pending := rfl
@[simp] theorem State.updSite_now (s : State) (k : Nat) (f : SiteSt → SiteSt) : (State.updSite s k f).now = s.now := rfl
@[simp] theorem State.updSite_free (s : State) (k : Nat) (f : SiteSt → SiteSt) : (State.updSite s k f).free = s.free := rfl
@[simp] theorem State.updSite_host (s : State) (k : Nat) (f : SiteSt → SiteSt) : (State.updSite s k f).host = s.host := rfl
@[simp] theorem State.updSite_evt (s : State) (k : Nat) (f : SiteSt → SiteSt) : (State.updSite s k f).evt = s.evt := rfl
@[simp] theorem State.updSite_fw (s : State) (k : Nat) (f : SiteSt → SiteSt) : (State.updSite s k f).fw = s.fw := rfl
@[simp] theorem State.updSite_uart (s : State) (k : Nat) (f : SiteSt → SiteSt) : (State.updSite s k f).uart = s.uart := rfl
@[simp] theorem State.updSite_ve (s : State) (k : Nat) (f : SiteSt → SiteSt) : (State.updSite s k f).ve = s.ve := rfl
@[simp] theorem State.updSite_acq (s : State) (k : Nat) (f : SiteSt → SiteSt) : (State.updSite s k f).acq = s.acq := rfl
@[simp] theorem State.updSite_rse (s : State) (k : Nat) (f : SiteSt → SiteSt) : (State.updSite s k f).rse = s.rse := rfl
@[simp] theorem State.updSite_sch (s : State) (k : Nat) (f : SiteSt → SiteSt) : (State.updSite s k f).sch = s.sch := rfl
@[simp] theorem State.updSite_mem (s : State) (k : Nat) (f : SiteSt → SiteSt) : (State.updSite s k f).mem = s.mem := rfl
@[simp] theorem State.updSite_ngl (s : State) (k : Nat) (f : SiteSt → SiteSt) : (State.updSite s k f).ngl = s.ngl := rfl
@[simp] theorem State.updSite_pwr (s : State) (k : Nat) (f : SiteSt → SiteSt) : (State.updSite s k f).pwr = s.pwr := rfl
@[simp] theorem State.updSite_cal (s : State) (k : Nat) (f : SiteSt → SiteSt) : (State.updSite s k f).cal = s.cal := rfl

@[simp] theorem State.updSite_same (s : State) (k : Nat) (f : SiteSt → SiteSt) : State.siteAt (State.updSite s k f) k = f (State.siteAt s k) :=
  Tbl.get_upd_same _ _ _ _

theorem State.updSite_other (s : State) (k i : Nat) (f : SiteSt → SiteSt) (h : i ≠ k) : State.siteAt (State.updSite s k f) i = State.siteAt s i :=
  Tbl.get_upd_other _ _ _ _ _ h

/-! `State.updLane` changes `pf` alone. -/

@[simp] theorem State.updLane_pending (s : State) (k : Nat) (f : LaneSt → LaneSt) : (State.updLane s k f).pending = s.pending := rfl
@[simp] theorem State.updLane_now (s : State) (k : Nat) (f : LaneSt → LaneSt) : (State.updLane s k f).now = s.now := rfl
@[simp] theorem State.updLane_free (s : State) (k : Nat) (f : LaneSt → LaneSt) : (State.updLane s k f).free = s.free := rfl
@[simp] theorem State.updLane_host (s : State) (k : Nat) (f : LaneSt → LaneSt) : (State.updLane s k f).host = s.host := rfl
@[simp] theorem State.updLane_evt (s : State) (k : Nat) (f : LaneSt → LaneSt) : (State.updLane s k f).evt = s.evt := rfl
@[simp] theorem State.updLane_fw (s : State) (k : Nat) (f : LaneSt → LaneSt) : (State.updLane s k f).fw = s.fw := rfl
@[simp] theorem State.updLane_uart (s : State) (k : Nat) (f : LaneSt → LaneSt) : (State.updLane s k f).uart = s.uart := rfl
@[simp] theorem State.updLane_ve (s : State) (k : Nat) (f : LaneSt → LaneSt) : (State.updLane s k f).ve = s.ve := rfl
@[simp] theorem State.updLane_acq (s : State) (k : Nat) (f : LaneSt → LaneSt) : (State.updLane s k f).acq = s.acq := rfl
@[simp] theorem State.updLane_rse (s : State) (k : Nat) (f : LaneSt → LaneSt) : (State.updLane s k f).rse = s.rse := rfl
@[simp] theorem State.updLane_sch (s : State) (k : Nat) (f : LaneSt → LaneSt) : (State.updLane s k f).sch = s.sch := rfl
@[simp] theorem State.updLane_mem (s : State) (k : Nat) (f : LaneSt → LaneSt) : (State.updLane s k f).mem = s.mem := rfl
@[simp] theorem State.updLane_ngl (s : State) (k : Nat) (f : LaneSt → LaneSt) : (State.updLane s k f).ngl = s.ngl := rfl
@[simp] theorem State.updLane_pwr (s : State) (k : Nat) (f : LaneSt → LaneSt) : (State.updLane s k f).pwr = s.pwr := rfl
@[simp] theorem State.updLane_cal (s : State) (k : Nat) (f : LaneSt → LaneSt) : (State.updLane s k f).cal = s.cal := rfl

@[simp] theorem State.updLane_same (s : State) (k : Nat) (f : LaneSt → LaneSt) : State.laneAt (State.updLane s k f) k = f (State.laneAt s k) :=
  Tbl.get_upd_same _ _ _ _

theorem State.updLane_other (s : State) (k i : Nat) (f : LaneSt → LaneSt) (h : i ≠ k) : State.laneAt (State.updLane s k f) i = State.laneAt s i :=
  Tbl.get_upd_other _ _ _ _ _ h

/-! `State.updGrp` changes `pf` alone. -/

@[simp] theorem State.updGrp_pending (s : State) (k : Nat) (f : GrpSt → GrpSt) : (State.updGrp s k f).pending = s.pending := rfl
@[simp] theorem State.updGrp_now (s : State) (k : Nat) (f : GrpSt → GrpSt) : (State.updGrp s k f).now = s.now := rfl
@[simp] theorem State.updGrp_free (s : State) (k : Nat) (f : GrpSt → GrpSt) : (State.updGrp s k f).free = s.free := rfl
@[simp] theorem State.updGrp_host (s : State) (k : Nat) (f : GrpSt → GrpSt) : (State.updGrp s k f).host = s.host := rfl
@[simp] theorem State.updGrp_evt (s : State) (k : Nat) (f : GrpSt → GrpSt) : (State.updGrp s k f).evt = s.evt := rfl
@[simp] theorem State.updGrp_fw (s : State) (k : Nat) (f : GrpSt → GrpSt) : (State.updGrp s k f).fw = s.fw := rfl
@[simp] theorem State.updGrp_uart (s : State) (k : Nat) (f : GrpSt → GrpSt) : (State.updGrp s k f).uart = s.uart := rfl
@[simp] theorem State.updGrp_ve (s : State) (k : Nat) (f : GrpSt → GrpSt) : (State.updGrp s k f).ve = s.ve := rfl
@[simp] theorem State.updGrp_acq (s : State) (k : Nat) (f : GrpSt → GrpSt) : (State.updGrp s k f).acq = s.acq := rfl
@[simp] theorem State.updGrp_rse (s : State) (k : Nat) (f : GrpSt → GrpSt) : (State.updGrp s k f).rse = s.rse := rfl
@[simp] theorem State.updGrp_sch (s : State) (k : Nat) (f : GrpSt → GrpSt) : (State.updGrp s k f).sch = s.sch := rfl
@[simp] theorem State.updGrp_mem (s : State) (k : Nat) (f : GrpSt → GrpSt) : (State.updGrp s k f).mem = s.mem := rfl
@[simp] theorem State.updGrp_ngl (s : State) (k : Nat) (f : GrpSt → GrpSt) : (State.updGrp s k f).ngl = s.ngl := rfl
@[simp] theorem State.updGrp_pwr (s : State) (k : Nat) (f : GrpSt → GrpSt) : (State.updGrp s k f).pwr = s.pwr := rfl
@[simp] theorem State.updGrp_cal (s : State) (k : Nat) (f : GrpSt → GrpSt) : (State.updGrp s k f).cal = s.cal := rfl

@[simp] theorem State.updGrp_same (s : State) (k : Nat) (f : GrpSt → GrpSt) : State.grpAt (State.updGrp s k f) k = f (State.grpAt s k) :=
  Tbl.get_upd_same _ _ _ _

theorem State.updGrp_other (s : State) (k i : Nat) (f : GrpSt → GrpSt) (h : i ≠ k) : State.grpAt (State.updGrp s k f) i = State.grpAt s i :=
  Tbl.get_upd_other _ _ _ _ _ h

/-! `State.updDps` changes `pf` alone. -/

@[simp] theorem State.updDps_pending (s : State) (k : Nat) (f : DpsSt → DpsSt) : (State.updDps s k f).pending = s.pending := rfl
@[simp] theorem State.updDps_now (s : State) (k : Nat) (f : DpsSt → DpsSt) : (State.updDps s k f).now = s.now := rfl
@[simp] theorem State.updDps_free (s : State) (k : Nat) (f : DpsSt → DpsSt) : (State.updDps s k f).free = s.free := rfl
@[simp] theorem State.updDps_host (s : State) (k : Nat) (f : DpsSt → DpsSt) : (State.updDps s k f).host = s.host := rfl
@[simp] theorem State.updDps_evt (s : State) (k : Nat) (f : DpsSt → DpsSt) : (State.updDps s k f).evt = s.evt := rfl
@[simp] theorem State.updDps_fw (s : State) (k : Nat) (f : DpsSt → DpsSt) : (State.updDps s k f).fw = s.fw := rfl
@[simp] theorem State.updDps_uart (s : State) (k : Nat) (f : DpsSt → DpsSt) : (State.updDps s k f).uart = s.uart := rfl
@[simp] theorem State.updDps_ve (s : State) (k : Nat) (f : DpsSt → DpsSt) : (State.updDps s k f).ve = s.ve := rfl
@[simp] theorem State.updDps_acq (s : State) (k : Nat) (f : DpsSt → DpsSt) : (State.updDps s k f).acq = s.acq := rfl
@[simp] theorem State.updDps_rse (s : State) (k : Nat) (f : DpsSt → DpsSt) : (State.updDps s k f).rse = s.rse := rfl
@[simp] theorem State.updDps_sch (s : State) (k : Nat) (f : DpsSt → DpsSt) : (State.updDps s k f).sch = s.sch := rfl
@[simp] theorem State.updDps_mem (s : State) (k : Nat) (f : DpsSt → DpsSt) : (State.updDps s k f).mem = s.mem := rfl
@[simp] theorem State.updDps_ngl (s : State) (k : Nat) (f : DpsSt → DpsSt) : (State.updDps s k f).ngl = s.ngl := rfl
@[simp] theorem State.updDps_pwr (s : State) (k : Nat) (f : DpsSt → DpsSt) : (State.updDps s k f).pwr = s.pwr := rfl
@[simp] theorem State.updDps_cal (s : State) (k : Nat) (f : DpsSt → DpsSt) : (State.updDps s k f).cal = s.cal := rfl

@[simp] theorem State.updDps_same (s : State) (k : Nat) (f : DpsSt → DpsSt) : State.dpsAt (State.updDps s k f) k = f (State.dpsAt s k) :=
  Tbl.get_upd_same _ _ _ _

theorem State.updDps_other (s : State) (k i : Nat) (f : DpsSt → DpsSt) (h : i ≠ k) : State.dpsAt (State.updDps s k f) i = State.dpsAt s i :=
  Tbl.get_upd_other _ _ _ _ _ h

/-! `State.updChFail` changes `acq` alone. -/

@[simp] theorem State.updChFail_pending (s : State) (k : Nat) (f : Nat → Nat) : (State.updChFail s k f).pending = s.pending := rfl
@[simp] theorem State.updChFail_now (s : State) (k : Nat) (f : Nat → Nat) : (State.updChFail s k f).now = s.now := rfl
@[simp] theorem State.updChFail_free (s : State) (k : Nat) (f : Nat → Nat) : (State.updChFail s k f).free = s.free := rfl
@[simp] theorem State.updChFail_host (s : State) (k : Nat) (f : Nat → Nat) : (State.updChFail s k f).host = s.host := rfl
@[simp] theorem State.updChFail_evt (s : State) (k : Nat) (f : Nat → Nat) : (State.updChFail s k f).evt = s.evt := rfl
@[simp] theorem State.updChFail_fw (s : State) (k : Nat) (f : Nat → Nat) : (State.updChFail s k f).fw = s.fw := rfl
@[simp] theorem State.updChFail_uart (s : State) (k : Nat) (f : Nat → Nat) : (State.updChFail s k f).uart = s.uart := rfl
@[simp] theorem State.updChFail_ve (s : State) (k : Nat) (f : Nat → Nat) : (State.updChFail s k f).ve = s.ve := rfl
@[simp] theorem State.updChFail_pf (s : State) (k : Nat) (f : Nat → Nat) : (State.updChFail s k f).pf = s.pf := rfl
@[simp] theorem State.updChFail_rse (s : State) (k : Nat) (f : Nat → Nat) : (State.updChFail s k f).rse = s.rse := rfl
@[simp] theorem State.updChFail_sch (s : State) (k : Nat) (f : Nat → Nat) : (State.updChFail s k f).sch = s.sch := rfl
@[simp] theorem State.updChFail_mem (s : State) (k : Nat) (f : Nat → Nat) : (State.updChFail s k f).mem = s.mem := rfl
@[simp] theorem State.updChFail_ngl (s : State) (k : Nat) (f : Nat → Nat) : (State.updChFail s k f).ngl = s.ngl := rfl
@[simp] theorem State.updChFail_pwr (s : State) (k : Nat) (f : Nat → Nat) : (State.updChFail s k f).pwr = s.pwr := rfl
@[simp] theorem State.updChFail_cal (s : State) (k : Nat) (f : Nat → Nat) : (State.updChFail s k f).cal = s.cal := rfl

@[simp] theorem State.updChFail_same (s : State) (k : Nat) (f : Nat → Nat) : State.chFailAt (State.updChFail s k f) k = f (State.chFailAt s k) :=
  Tbl.get_upd_same _ _ _ _

theorem State.updChFail_other (s : State) (k i : Nat) (f : Nat → Nat) (h : i ≠ k) : State.chFailAt (State.updChFail s k f) i = State.chFailAt s i :=
  Tbl.get_upd_other _ _ _ _ _ h

/-! `State.updCu` changes `acq` alone. -/

@[simp] theorem State.updCu_pending (s : State) (k : Nat) (f : CuSt → CuSt) : (State.updCu s k f).pending = s.pending := rfl
@[simp] theorem State.updCu_now (s : State) (k : Nat) (f : CuSt → CuSt) : (State.updCu s k f).now = s.now := rfl
@[simp] theorem State.updCu_free (s : State) (k : Nat) (f : CuSt → CuSt) : (State.updCu s k f).free = s.free := rfl
@[simp] theorem State.updCu_host (s : State) (k : Nat) (f : CuSt → CuSt) : (State.updCu s k f).host = s.host := rfl
@[simp] theorem State.updCu_evt (s : State) (k : Nat) (f : CuSt → CuSt) : (State.updCu s k f).evt = s.evt := rfl
@[simp] theorem State.updCu_fw (s : State) (k : Nat) (f : CuSt → CuSt) : (State.updCu s k f).fw = s.fw := rfl
@[simp] theorem State.updCu_uart (s : State) (k : Nat) (f : CuSt → CuSt) : (State.updCu s k f).uart = s.uart := rfl
@[simp] theorem State.updCu_ve (s : State) (k : Nat) (f : CuSt → CuSt) : (State.updCu s k f).ve = s.ve := rfl
@[simp] theorem State.updCu_pf (s : State) (k : Nat) (f : CuSt → CuSt) : (State.updCu s k f).pf = s.pf := rfl
@[simp] theorem State.updCu_rse (s : State) (k : Nat) (f : CuSt → CuSt) : (State.updCu s k f).rse = s.rse := rfl
@[simp] theorem State.updCu_sch (s : State) (k : Nat) (f : CuSt → CuSt) : (State.updCu s k f).sch = s.sch := rfl
@[simp] theorem State.updCu_mem (s : State) (k : Nat) (f : CuSt → CuSt) : (State.updCu s k f).mem = s.mem := rfl
@[simp] theorem State.updCu_ngl (s : State) (k : Nat) (f : CuSt → CuSt) : (State.updCu s k f).ngl = s.ngl := rfl
@[simp] theorem State.updCu_pwr (s : State) (k : Nat) (f : CuSt → CuSt) : (State.updCu s k f).pwr = s.pwr := rfl
@[simp] theorem State.updCu_cal (s : State) (k : Nat) (f : CuSt → CuSt) : (State.updCu s k f).cal = s.cal := rfl

@[simp] theorem State.updCu_same (s : State) (k : Nat) (f : CuSt → CuSt) : State.cuAt (State.updCu s k f) k = f (State.cuAt s k) :=
  Tbl.get_upd_same _ _ _ _

theorem State.updCu_other (s : State) (k i : Nat) (f : CuSt → CuSt) (h : i ≠ k) : State.cuAt (State.updCu s k f) i = State.cuAt s i :=
  Tbl.get_upd_other _ _ _ _ _ h

/-! `State.updTrg` changes `acq` alone. -/

@[simp] theorem State.updTrg_pending (s : State) (k : Nat) (f : TrgSt → TrgSt) : (State.updTrg s k f).pending = s.pending := rfl
@[simp] theorem State.updTrg_now (s : State) (k : Nat) (f : TrgSt → TrgSt) : (State.updTrg s k f).now = s.now := rfl
@[simp] theorem State.updTrg_free (s : State) (k : Nat) (f : TrgSt → TrgSt) : (State.updTrg s k f).free = s.free := rfl
@[simp] theorem State.updTrg_host (s : State) (k : Nat) (f : TrgSt → TrgSt) : (State.updTrg s k f).host = s.host := rfl
@[simp] theorem State.updTrg_evt (s : State) (k : Nat) (f : TrgSt → TrgSt) : (State.updTrg s k f).evt = s.evt := rfl
@[simp] theorem State.updTrg_fw (s : State) (k : Nat) (f : TrgSt → TrgSt) : (State.updTrg s k f).fw = s.fw := rfl
@[simp] theorem State.updTrg_uart (s : State) (k : Nat) (f : TrgSt → TrgSt) : (State.updTrg s k f).uart = s.uart := rfl
@[simp] theorem State.updTrg_ve (s : State) (k : Nat) (f : TrgSt → TrgSt) : (State.updTrg s k f).ve = s.ve := rfl
@[simp] theorem State.updTrg_pf (s : State) (k : Nat) (f : TrgSt → TrgSt) : (State.updTrg s k f).pf = s.pf := rfl
@[simp] theorem State.updTrg_rse (s : State) (k : Nat) (f : TrgSt → TrgSt) : (State.updTrg s k f).rse = s.rse := rfl
@[simp] theorem State.updTrg_sch (s : State) (k : Nat) (f : TrgSt → TrgSt) : (State.updTrg s k f).sch = s.sch := rfl
@[simp] theorem State.updTrg_mem (s : State) (k : Nat) (f : TrgSt → TrgSt) : (State.updTrg s k f).mem = s.mem := rfl
@[simp] theorem State.updTrg_ngl (s : State) (k : Nat) (f : TrgSt → TrgSt) : (State.updTrg s k f).ngl = s.ngl := rfl
@[simp] theorem State.updTrg_pwr (s : State) (k : Nat) (f : TrgSt → TrgSt) : (State.updTrg s k f).pwr = s.pwr := rfl
@[simp] theorem State.updTrg_cal (s : State) (k : Nat) (f : TrgSt → TrgSt) : (State.updTrg s k f).cal = s.cal := rfl

@[simp] theorem State.updTrg_same (s : State) (k : Nat) (f : TrgSt → TrgSt) : State.trgAt (State.updTrg s k f) k = f (State.trgAt s k) :=
  Tbl.get_upd_same _ _ _ _

theorem State.updTrg_other (s : State) (k i : Nat) (f : TrgSt → TrgSt) (h : i ≠ k) : State.trgAt (State.updTrg s k f) i = State.trgAt s i :=
  Tbl.get_upd_other _ _ _ _ _ h

/-! `State.updHs` changes `acq` alone. -/

@[simp] theorem State.updHs_pending (s : State) (k : Nat) (f : HsSt → HsSt) : (State.updHs s k f).pending = s.pending := rfl
@[simp] theorem State.updHs_now (s : State) (k : Nat) (f : HsSt → HsSt) : (State.updHs s k f).now = s.now := rfl
@[simp] theorem State.updHs_free (s : State) (k : Nat) (f : HsSt → HsSt) : (State.updHs s k f).free = s.free := rfl
@[simp] theorem State.updHs_host (s : State) (k : Nat) (f : HsSt → HsSt) : (State.updHs s k f).host = s.host := rfl
@[simp] theorem State.updHs_evt (s : State) (k : Nat) (f : HsSt → HsSt) : (State.updHs s k f).evt = s.evt := rfl
@[simp] theorem State.updHs_fw (s : State) (k : Nat) (f : HsSt → HsSt) : (State.updHs s k f).fw = s.fw := rfl
@[simp] theorem State.updHs_uart (s : State) (k : Nat) (f : HsSt → HsSt) : (State.updHs s k f).uart = s.uart := rfl
@[simp] theorem State.updHs_ve (s : State) (k : Nat) (f : HsSt → HsSt) : (State.updHs s k f).ve = s.ve := rfl
@[simp] theorem State.updHs_pf (s : State) (k : Nat) (f : HsSt → HsSt) : (State.updHs s k f).pf = s.pf := rfl
@[simp] theorem State.updHs_rse (s : State) (k : Nat) (f : HsSt → HsSt) : (State.updHs s k f).rse = s.rse := rfl
@[simp] theorem State.updHs_sch (s : State) (k : Nat) (f : HsSt → HsSt) : (State.updHs s k f).sch = s.sch := rfl
@[simp] theorem State.updHs_mem (s : State) (k : Nat) (f : HsSt → HsSt) : (State.updHs s k f).mem = s.mem := rfl
@[simp] theorem State.updHs_ngl (s : State) (k : Nat) (f : HsSt → HsSt) : (State.updHs s k f).ngl = s.ngl := rfl
@[simp] theorem State.updHs_pwr (s : State) (k : Nat) (f : HsSt → HsSt) : (State.updHs s k f).pwr = s.pwr := rfl
@[simp] theorem State.updHs_cal (s : State) (k : Nat) (f : HsSt → HsSt) : (State.updHs s k f).cal = s.cal := rfl

@[simp] theorem State.updHs_same (s : State) (k : Nat) (f : HsSt → HsSt) : State.hsAt (State.updHs s k f) k = f (State.hsAt s k) :=
  Tbl.get_upd_same _ _ _ _

theorem State.updHs_other (s : State) (k i : Nat) (f : HsSt → HsSt) (h : i ≠ k) : State.hsAt (State.updHs s k f) i = State.hsAt s i :=
  Tbl.get_upd_other _ _ _ _ _ h

/-! `State.updMs` changes `acq` alone. -/

@[simp] theorem State.updMs_pending (s : State) (k : Nat) (f : MsSt → MsSt) : (State.updMs s k f).pending = s.pending := rfl
@[simp] theorem State.updMs_now (s : State) (k : Nat) (f : MsSt → MsSt) : (State.updMs s k f).now = s.now := rfl
@[simp] theorem State.updMs_free (s : State) (k : Nat) (f : MsSt → MsSt) : (State.updMs s k f).free = s.free := rfl
@[simp] theorem State.updMs_host (s : State) (k : Nat) (f : MsSt → MsSt) : (State.updMs s k f).host = s.host := rfl
@[simp] theorem State.updMs_evt (s : State) (k : Nat) (f : MsSt → MsSt) : (State.updMs s k f).evt = s.evt := rfl
@[simp] theorem State.updMs_fw (s : State) (k : Nat) (f : MsSt → MsSt) : (State.updMs s k f).fw = s.fw := rfl
@[simp] theorem State.updMs_uart (s : State) (k : Nat) (f : MsSt → MsSt) : (State.updMs s k f).uart = s.uart := rfl
@[simp] theorem State.updMs_ve (s : State) (k : Nat) (f : MsSt → MsSt) : (State.updMs s k f).ve = s.ve := rfl
@[simp] theorem State.updMs_pf (s : State) (k : Nat) (f : MsSt → MsSt) : (State.updMs s k f).pf = s.pf := rfl
@[simp] theorem State.updMs_rse (s : State) (k : Nat) (f : MsSt → MsSt) : (State.updMs s k f).rse = s.rse := rfl
@[simp] theorem State.updMs_sch (s : State) (k : Nat) (f : MsSt → MsSt) : (State.updMs s k f).sch = s.sch := rfl
@[simp] theorem State.updMs_mem (s : State) (k : Nat) (f : MsSt → MsSt) : (State.updMs s k f).mem = s.mem := rfl
@[simp] theorem State.updMs_ngl (s : State) (k : Nat) (f : MsSt → MsSt) : (State.updMs s k f).ngl = s.ngl := rfl
@[simp] theorem State.updMs_pwr (s : State) (k : Nat) (f : MsSt → MsSt) : (State.updMs s k f).pwr = s.pwr := rfl
@[simp] theorem State.updMs_cal (s : State) (k : Nat) (f : MsSt → MsSt) : (State.updMs s k f).cal = s.cal := rfl

@[simp] theorem State.updMs_same (s : State) (k : Nat) (f : MsSt → MsSt) : State.msAt (State.updMs s k f) k = f (State.msAt s k) :=
  Tbl.get_upd_same _ _ _ _

theorem State.updMs_other (s : State) (k i : Nat) (f : MsSt → MsSt) (h : i ≠ k) : State.msAt (State.updMs s k f) i = State.msAt s i :=
  Tbl.get_upd_other _ _ _ _ _ h

/-! `State.updPadc` changes `acq` alone. -/

@[simp] theorem State.updPadc_pending (s : State) (k : Nat) (f : PadcSt → PadcSt) : (State.updPadc s k f).pending = s.pending := rfl
@[simp] theorem State.updPadc_now (s : State) (k : Nat) (f : PadcSt → PadcSt) : (State.updPadc s k f).now = s.now := rfl
@[simp] theorem State.updPadc_free (s : State) (k : Nat) (f : PadcSt → PadcSt) : (State.updPadc s k f).free = s.free := rfl
@[simp] theorem State.updPadc_host (s : State) (k : Nat) (f : PadcSt → PadcSt) : (State.updPadc s k f).host = s.host := rfl
@[simp] theorem State.updPadc_evt (s : State) (k : Nat) (f : PadcSt → PadcSt) : (State.updPadc s k f).evt = s.evt := rfl
@[simp] theorem State.updPadc_fw (s : State) (k : Nat) (f : PadcSt → PadcSt) : (State.updPadc s k f).fw = s.fw := rfl
@[simp] theorem State.updPadc_uart (s : State) (k : Nat) (f : PadcSt → PadcSt) : (State.updPadc s k f).uart = s.uart := rfl
@[simp] theorem State.updPadc_ve (s : State) (k : Nat) (f : PadcSt → PadcSt) : (State.updPadc s k f).ve = s.ve := rfl
@[simp] theorem State.updPadc_pf (s : State) (k : Nat) (f : PadcSt → PadcSt) : (State.updPadc s k f).pf = s.pf := rfl
@[simp] theorem State.updPadc_rse (s : State) (k : Nat) (f : PadcSt → PadcSt) : (State.updPadc s k f).rse = s.rse := rfl
@[simp] theorem State.updPadc_sch (s : State) (k : Nat) (f : PadcSt → PadcSt) : (State.updPadc s k f).sch = s.sch := rfl
@[simp] theorem State.updPadc_mem (s : State) (k : Nat) (f : PadcSt → PadcSt) : (State.updPadc s k f).mem = s.mem := rfl
@[simp] theorem State.updPadc_ngl (s : State) (k : Nat) (f : PadcSt → PadcSt) : (State.updPadc s k f).ngl = s.ngl := rfl
@[simp] theorem State.updPadc_pwr (s : State) (k : Nat) (f : PadcSt → PadcSt) : (State.updPadc s k f).pwr = s.pwr := rfl
@[simp] theorem State.updPadc_cal (s : State) (k : Nat) (f : PadcSt → PadcSt) : (State.updPadc s k f).cal = s.cal := rfl

@[simp] theorem State.updPadc_same (s : State) (k : Nat) (f : PadcSt → PadcSt) : State.padcAt (State.updPadc s k f) k = f (State.padcAt s k) :=
  Tbl.get_upd_same _ _ _ _

theorem State.updPadc_other (s : State) (k i : Nat) (f : PadcSt → PadcSt) (h : i ≠ k) : State.padcAt (State.updPadc s k f) i = State.padcAt s i :=
  Tbl.get_upd_other _ _ _ _ _ h

/-! `State.updRse` changes `rse` alone. -/

@[simp] theorem State.updRse_pending (s : State) (k : Nat) (f : RseSt → RseSt) : (State.updRse s k f).pending = s.pending := rfl
@[simp] theorem State.updRse_now (s : State) (k : Nat) (f : RseSt → RseSt) : (State.updRse s k f).now = s.now := rfl
@[simp] theorem State.updRse_free (s : State) (k : Nat) (f : RseSt → RseSt) : (State.updRse s k f).free = s.free := rfl
@[simp] theorem State.updRse_host (s : State) (k : Nat) (f : RseSt → RseSt) : (State.updRse s k f).host = s.host := rfl
@[simp] theorem State.updRse_evt (s : State) (k : Nat) (f : RseSt → RseSt) : (State.updRse s k f).evt = s.evt := rfl
@[simp] theorem State.updRse_fw (s : State) (k : Nat) (f : RseSt → RseSt) : (State.updRse s k f).fw = s.fw := rfl
@[simp] theorem State.updRse_uart (s : State) (k : Nat) (f : RseSt → RseSt) : (State.updRse s k f).uart = s.uart := rfl
@[simp] theorem State.updRse_ve (s : State) (k : Nat) (f : RseSt → RseSt) : (State.updRse s k f).ve = s.ve := rfl
@[simp] theorem State.updRse_pf (s : State) (k : Nat) (f : RseSt → RseSt) : (State.updRse s k f).pf = s.pf := rfl
@[simp] theorem State.updRse_acq (s : State) (k : Nat) (f : RseSt → RseSt) : (State.updRse s k f).acq = s.acq := rfl
@[simp] theorem State.updRse_sch (s : State) (k : Nat) (f : RseSt → RseSt) : (State.updRse s k f).sch = s.sch := rfl
@[simp] theorem State.updRse_mem (s : State) (k : Nat) (f : RseSt → RseSt) : (State.updRse s k f).mem = s.mem := rfl
@[simp] theorem State.updRse_ngl (s : State) (k : Nat) (f : RseSt → RseSt) : (State.updRse s k f).ngl = s.ngl := rfl
@[simp] theorem State.updRse_pwr (s : State) (k : Nat) (f : RseSt → RseSt) : (State.updRse s k f).pwr = s.pwr := rfl
@[simp] theorem State.updRse_cal (s : State) (k : Nat) (f : RseSt → RseSt) : (State.updRse s k f).cal = s.cal := rfl

@[simp] theorem State.updRse_same (s : State) (k : Nat) (f : RseSt → RseSt) : State.rseAt (State.updRse s k f) k = f (State.rseAt s k) :=
  Tbl.get_upd_same _ _ _ _

theorem State.updRse_other (s : State) (k i : Nat) (f : RseSt → RseSt) (h : i ≠ k) : State.rseAt (State.updRse s k f) i = State.rseAt s i :=
  Tbl.get_upd_other _ _ _ _ _ h

/-! `State.updLink` changes `sch` alone. -/

@[simp] theorem State.updLink_pending (s : State) (k : Nat) (f : LinkSt → LinkSt) : (State.updLink s k f).pending = s.pending := rfl
@[simp] theorem State.updLink_now (s : State) (k : Nat) (f : LinkSt → LinkSt) : (State.updLink s k f).now = s.now := rfl
@[simp] theorem State.updLink_free (s : State) (k : Nat) (f : LinkSt → LinkSt) : (State.updLink s k f).free = s.free := rfl
@[simp] theorem State.updLink_host (s : State) (k : Nat) (f : LinkSt → LinkSt) : (State.updLink s k f).host = s.host := rfl
@[simp] theorem State.updLink_evt (s : State) (k : Nat) (f : LinkSt → LinkSt) : (State.updLink s k f).evt = s.evt := rfl
@[simp] theorem State.updLink_fw (s : State) (k : Nat) (f : LinkSt → LinkSt) : (State.updLink s k f).fw = s.fw := rfl
@[simp] theorem State.updLink_uart (s : State) (k : Nat) (f : LinkSt → LinkSt) : (State.updLink s k f).uart = s.uart := rfl
@[simp] theorem State.updLink_ve (s : State) (k : Nat) (f : LinkSt → LinkSt) : (State.updLink s k f).ve = s.ve := rfl
@[simp] theorem State.updLink_pf (s : State) (k : Nat) (f : LinkSt → LinkSt) : (State.updLink s k f).pf = s.pf := rfl
@[simp] theorem State.updLink_acq (s : State) (k : Nat) (f : LinkSt → LinkSt) : (State.updLink s k f).acq = s.acq := rfl
@[simp] theorem State.updLink_rse (s : State) (k : Nat) (f : LinkSt → LinkSt) : (State.updLink s k f).rse = s.rse := rfl
@[simp] theorem State.updLink_mem (s : State) (k : Nat) (f : LinkSt → LinkSt) : (State.updLink s k f).mem = s.mem := rfl
@[simp] theorem State.updLink_ngl (s : State) (k : Nat) (f : LinkSt → LinkSt) : (State.updLink s k f).ngl = s.ngl := rfl
@[simp] theorem State.updLink_pwr (s : State) (k : Nat) (f : LinkSt → LinkSt) : (State.updLink s k f).pwr = s.pwr := rfl
@[simp] theorem State.updLink_cal (s : State) (k : Nat) (f : LinkSt → LinkSt) : (State.updLink s k f).cal = s.cal := rfl

@[simp] theorem State.updLink_same (s : State) (k : Nat) (f : LinkSt → LinkSt) : State.linkAt (State.updLink s k f) k = f (State.linkAt s k) :=
  Tbl.get_upd_same _ _ _ _

theorem State.updLink_other (s : State) (k i : Nat) (f : LinkSt → LinkSt) (h : i ≠ k) : State.linkAt (State.updLink s k f) i = State.linkAt s i :=
  Tbl.get_upd_other _ _ _ _ _ h

/-! `State.updMc` changes `mem` alone. -/

@[simp] theorem State.updMc_pending (s : State) (k : Nat) (f : McSt → McSt) : (State.updMc s k f).pending = s.pending := rfl
@[simp] theorem State.updMc_now (s : State) (k : Nat) (f : McSt → McSt) : (State.updMc s k f).now = s.now := rfl
@[simp] theorem State.updMc_free (s : State) (k : Nat) (f : McSt → McSt) : (State.updMc s k f).free = s.free := rfl
@[simp] theorem State.updMc_host (s : State) (k : Nat) (f : McSt → McSt) : (State.updMc s k f).host = s.host := rfl
@[simp] theorem State.updMc_evt (s : State) (k : Nat) (f : McSt → McSt) : (State.updMc s k f).evt = s.evt := rfl
@[simp] theorem State.updMc_fw (s : State) (k : Nat) (f : McSt → McSt) : (State.updMc s k f).fw = s.fw := rfl
@[simp] theorem State.updMc_uart (s : State) (k : Nat) (f : McSt → McSt) : (State.updMc s k f).uart = s.uart := rfl
@[simp] theorem State.updMc_ve (s : State) (k : Nat) (f : McSt → McSt) : (State.updMc s k f).ve = s.ve := rfl
@[simp] theorem State.updMc_pf (s : State) (k : Nat) (f : McSt → McSt) : (State.updMc s k f).pf = s.pf := rfl
@[simp] theorem State.updMc_acq (s : State) (k : Nat) (f : McSt → McSt) : (State.updMc s k f).acq = s.acq := rfl
@[simp] theorem State.updMc_rse (s : State) (k : Nat) (f : McSt → McSt) : (State.updMc s k f).rse = s.rse := rfl
@[simp] theorem State.updMc_sch (s : State) (k : Nat) (f : McSt → McSt) : (State.updMc s k f).sch = s.sch := rfl
@[simp] theorem State.updMc_ngl (s : State) (k : Nat) (f : McSt → McSt) : (State.updMc s k f).ngl = s.ngl := rfl
@[simp] theorem State.updMc_pwr (s : State) (k : Nat) (f : McSt → McSt) : (State.updMc s k f).pwr = s.pwr := rfl
@[simp] theorem State.updMc_cal (s : State) (k : Nat) (f : McSt → McSt) : (State.updMc s k f).cal = s.cal := rfl

@[simp] theorem State.updMc_same (s : State) (k : Nat) (f : McSt → McSt) : State.mcAt (State.updMc s k f) k = f (State.mcAt s k) :=
  Tbl.get_upd_same _ _ _ _

theorem State.updMc_other (s : State) (k i : Nat) (f : McSt → McSt) (h : i ≠ k) : State.mcAt (State.updMc s k f) i = State.mcAt s i :=
  Tbl.get_upd_other _ _ _ _ _ h

/-! `State.updPc` changes `mem` alone. -/

@[simp] theorem State.updPc_pending (s : State) (k : Nat) (f : PcSt → PcSt) : (State.updPc s k f).pending = s.pending := rfl
@[simp] theorem State.updPc_now (s : State) (k : Nat) (f : PcSt → PcSt) : (State.updPc s k f).now = s.now := rfl
@[simp] theorem State.updPc_free (s : State) (k : Nat) (f : PcSt → PcSt) : (State.updPc s k f).free = s.free := rfl
@[simp] theorem State.updPc_host (s : State) (k : Nat) (f : PcSt → PcSt) : (State.updPc s k f).host = s.host := rfl
@[simp] theorem State.updPc_evt (s : State) (k : Nat) (f : PcSt → PcSt) : (State.updPc s k f).evt = s.evt := rfl
@[simp] theorem State.updPc_fw (s : State) (k : Nat) (f : PcSt → PcSt) : (State.updPc s k f).fw = s.fw := rfl
@[simp] theorem State.updPc_uart (s : State) (k : Nat) (f : PcSt → PcSt) : (State.updPc s k f).uart = s.uart := rfl
@[simp] theorem State.updPc_ve (s : State) (k : Nat) (f : PcSt → PcSt) : (State.updPc s k f).ve = s.ve := rfl
@[simp] theorem State.updPc_pf (s : State) (k : Nat) (f : PcSt → PcSt) : (State.updPc s k f).pf = s.pf := rfl
@[simp] theorem State.updPc_acq (s : State) (k : Nat) (f : PcSt → PcSt) : (State.updPc s k f).acq = s.acq := rfl
@[simp] theorem State.updPc_rse (s : State) (k : Nat) (f : PcSt → PcSt) : (State.updPc s k f).rse = s.rse := rfl
@[simp] theorem State.updPc_sch (s : State) (k : Nat) (f : PcSt → PcSt) : (State.updPc s k f).sch = s.sch := rfl
@[simp] theorem State.updPc_ngl (s : State) (k : Nat) (f : PcSt → PcSt) : (State.updPc s k f).ngl = s.ngl := rfl
@[simp] theorem State.updPc_pwr (s : State) (k : Nat) (f : PcSt → PcSt) : (State.updPc s k f).pwr = s.pwr := rfl
@[simp] theorem State.updPc_cal (s : State) (k : Nat) (f : PcSt → PcSt) : (State.updPc s k f).cal = s.cal := rfl

@[simp] theorem State.updPc_same (s : State) (k : Nat) (f : PcSt → PcSt) : State.pcAt (State.updPc s k f) k = f (State.pcAt s k) :=
  Tbl.get_upd_same _ _ _ _

theorem State.updPc_other (s : State) (k i : Nat) (f : PcSt → PcSt) (h : i ≠ k) : State.pcAt (State.updPc s k f) i = State.pcAt s i :=
  Tbl.get_upd_other _ _ _ _ _ h

/-! `State.updStack` changes `mem` alone. -/

@[simp] theorem State.updStack_pending (s : State) (k : Nat) (f : StackSt → StackSt) : (State.updStack s k f).pending = s.pending := rfl
@[simp] theorem State.updStack_now (s : State) (k : Nat) (f : StackSt → StackSt) : (State.updStack s k f).now = s.now := rfl
@[simp] theorem State.updStack_free (s : State) (k : Nat) (f : StackSt → StackSt) : (State.updStack s k f).free = s.free := rfl
@[simp] theorem State.updStack_host (s : State) (k : Nat) (f : StackSt → StackSt) : (State.updStack s k f).host = s.host := rfl
@[simp] theorem State.updStack_evt (s : State) (k : Nat) (f : StackSt → StackSt) : (State.updStack s k f).evt = s.evt := rfl
@[simp] theorem State.updStack_fw (s : State) (k : Nat) (f : StackSt → StackSt) : (State.updStack s k f).fw = s.fw := rfl
@[simp] theorem State.updStack_uart (s : State) (k : Nat) (f : StackSt → StackSt) : (State.updStack s k f).uart = s.uart := rfl
@[simp] theorem State.updStack_ve (s : State) (k : Nat) (f : StackSt → StackSt) : (State.updStack s k f).ve = s.ve := rfl
@[simp] theorem State.updStack_pf (s : State) (k : Nat) (f : StackSt → StackSt) : (State.updStack s k f).pf = s.pf := rfl
@[simp] theorem State.updStack_acq (s : State) (k : Nat) (f : StackSt → StackSt) : (State.updStack s k f).acq = s.acq := rfl
@[simp] theorem State.updStack_rse (s : State) (k : Nat) (f : StackSt → StackSt) : (State.updStack s k f).rse = s.rse := rfl
@[simp] theorem State.updStack_sch (s : State) (k : Nat) (f : StackSt → StackSt) : (State.updStack s k f).sch = s.sch := rfl
@[simp] theorem State.updStack_ngl (s : State) (k : Nat) (f : StackSt → StackSt) : (State.updStack s k f).ngl = s.ngl := rfl
@[simp] theorem State.updStack_pwr (s : State) (k : Nat) (f : StackSt → StackSt) : (State.updStack s k f).pwr = s.pwr := rfl
@[simp] theorem State.updStack_cal (s : State) (k : Nat) (f : StackSt → StackSt) : (State.updStack s k f).cal = s.cal := rfl

@[simp] theorem State.updStack_same (s : State) (k : Nat) (f : StackSt → StackSt) : State.stackAt (State.updStack s k f) k = f (State.stackAt s k) :=
  Tbl.get_upd_same _ _ _ _

theorem State.updStack_other (s : State) (k i : Nat) (f : StackSt → StackSt) (h : i ≠ k) : State.stackAt (State.updStack s k f) i = State.stackAt s i :=
  Tbl.get_upd_other _ _ _ _ _ h

/-! `State.updPort` changes `ngl` alone. -/

@[simp] theorem State.updPort_pending (s : State) (k : Nat) (f : PortSt → PortSt) : (State.updPort s k f).pending = s.pending := rfl
@[simp] theorem State.updPort_now (s : State) (k : Nat) (f : PortSt → PortSt) : (State.updPort s k f).now = s.now := rfl
@[simp] theorem State.updPort_free (s : State) (k : Nat) (f : PortSt → PortSt) : (State.updPort s k f).free = s.free := rfl
@[simp] theorem State.updPort_host (s : State) (k : Nat) (f : PortSt → PortSt) : (State.updPort s k f).host = s.host := rfl
@[simp] theorem State.updPort_evt (s : State) (k : Nat) (f : PortSt → PortSt) : (State.updPort s k f).evt = s.evt := rfl
@[simp] theorem State.updPort_fw (s : State) (k : Nat) (f : PortSt → PortSt) : (State.updPort s k f).fw = s.fw := rfl
@[simp] theorem State.updPort_uart (s : State) (k : Nat) (f : PortSt → PortSt) : (State.updPort s k f).uart = s.uart := rfl
@[simp] theorem State.updPort_ve (s : State) (k : Nat) (f : PortSt → PortSt) : (State.updPort s k f).ve = s.ve := rfl
@[simp] theorem State.updPort_pf (s : State) (k : Nat) (f : PortSt → PortSt) : (State.updPort s k f).pf = s.pf := rfl
@[simp] theorem State.updPort_acq (s : State) (k : Nat) (f : PortSt → PortSt) : (State.updPort s k f).acq = s.acq := rfl
@[simp] theorem State.updPort_rse (s : State) (k : Nat) (f : PortSt → PortSt) : (State.updPort s k f).rse = s.rse := rfl
@[simp] theorem State.updPort_sch (s : State) (k : Nat) (f : PortSt → PortSt) : (State.updPort s k f).sch = s.sch := rfl
@[simp] theorem State.updPort_mem (s : State) (k : Nat) (f : PortSt → PortSt) : (State.updPort s k f).mem = s.mem := rfl
@[simp] theorem State.updPort_pwr (s : State) (k : Nat) (f : PortSt → PortSt) : (State.updPort s k f).pwr = s.pwr := rfl
@[simp] theorem State.updPort_cal (s : State) (k : Nat) (f : PortSt → PortSt) : (State.updPort s k f).cal = s.cal := rfl

@[simp] theorem State.updPort_same (s : State) (k : Nat) (f : PortSt → PortSt) : State.portAt (State.updPort s k f) k = f (State.portAt s k) :=
  Tbl.get_upd_same _ _ _ _

theorem State.updPort_other (s : State) (k i : Nat) (f : PortSt → PortSt) (h : i ≠ k) : State.portAt (State.updPort s k f) i = State.portAt s i :=
  Tbl.get_upd_other _ _ _ _ _ h

/-! `State.updDom` changes `ngl` alone. -/

@[simp] theorem State.updDom_pending (s : State) (k : Nat) (f : DomSt → DomSt) : (State.updDom s k f).pending = s.pending := rfl
@[simp] theorem State.updDom_now (s : State) (k : Nat) (f : DomSt → DomSt) : (State.updDom s k f).now = s.now := rfl
@[simp] theorem State.updDom_free (s : State) (k : Nat) (f : DomSt → DomSt) : (State.updDom s k f).free = s.free := rfl
@[simp] theorem State.updDom_host (s : State) (k : Nat) (f : DomSt → DomSt) : (State.updDom s k f).host = s.host := rfl
@[simp] theorem State.updDom_evt (s : State) (k : Nat) (f : DomSt → DomSt) : (State.updDom s k f).evt = s.evt := rfl
@[simp] theorem State.updDom_fw (s : State) (k : Nat) (f : DomSt → DomSt) : (State.updDom s k f).fw = s.fw := rfl
@[simp] theorem State.updDom_uart (s : State) (k : Nat) (f : DomSt → DomSt) : (State.updDom s k f).uart = s.uart := rfl
@[simp] theorem State.updDom_ve (s : State) (k : Nat) (f : DomSt → DomSt) : (State.updDom s k f).ve = s.ve := rfl
@[simp] theorem State.updDom_pf (s : State) (k : Nat) (f : DomSt → DomSt) : (State.updDom s k f).pf = s.pf := rfl
@[simp] theorem State.updDom_acq (s : State) (k : Nat) (f : DomSt → DomSt) : (State.updDom s k f).acq = s.acq := rfl
@[simp] theorem State.updDom_rse (s : State) (k : Nat) (f : DomSt → DomSt) : (State.updDom s k f).rse = s.rse := rfl
@[simp] theorem State.updDom_sch (s : State) (k : Nat) (f : DomSt → DomSt) : (State.updDom s k f).sch = s.sch := rfl
@[simp] theorem State.updDom_mem (s : State) (k : Nat) (f : DomSt → DomSt) : (State.updDom s k f).mem = s.mem := rfl
@[simp] theorem State.updDom_pwr (s : State) (k : Nat) (f : DomSt → DomSt) : (State.updDom s k f).pwr = s.pwr := rfl
@[simp] theorem State.updDom_cal (s : State) (k : Nat) (f : DomSt → DomSt) : (State.updDom s k f).cal = s.cal := rfl

@[simp] theorem State.updDom_same (s : State) (k : Nat) (f : DomSt → DomSt) : State.domAt (State.updDom s k f) k = f (State.domAt s k) :=
  Tbl.get_upd_same _ _ _ _

theorem State.updDom_other (s : State) (k i : Nat) (f : DomSt → DomSt) (h : i ≠ k) : State.domAt (State.updDom s k f) i = State.domAt s i :=
  Tbl.get_upd_other _ _ _ _ _ h

/-! `State.updNtrg` changes `ngl` alone. -/

@[simp] theorem State.updNtrg_pending (s : State) (k : Nat) (f : NtrgSt → NtrgSt) : (State.updNtrg s k f).pending = s.pending := rfl
@[simp] theorem State.updNtrg_now (s : State) (k : Nat) (f : NtrgSt → NtrgSt) : (State.updNtrg s k f).now = s.now := rfl
@[simp] theorem State.updNtrg_free (s : State) (k : Nat) (f : NtrgSt → NtrgSt) : (State.updNtrg s k f).free = s.free := rfl
@[simp] theorem State.updNtrg_host (s : State) (k : Nat) (f : NtrgSt → NtrgSt) : (State.updNtrg s k f).host = s.host := rfl
@[simp] theorem State.updNtrg_evt (s : State) (k : Nat) (f : NtrgSt → NtrgSt) : (State.updNtrg s k f).evt = s.evt := rfl
@[simp] theorem State.updNtrg_fw (s : State) (k : Nat) (f : NtrgSt → NtrgSt) : (State.updNtrg s k f).fw = s.fw := rfl
@[simp] theorem State.updNtrg_uart (s : State) (k : Nat) (f : NtrgSt → NtrgSt) : (State.updNtrg s k f).uart = s.uart := rfl
@[simp] theorem State.updNtrg_ve (s : State) (k : Nat) (f : NtrgSt → NtrgSt) : (State.updNtrg s k f).ve = s.ve := rfl
@[simp] theorem State.updNtrg_pf (s : State) (k : Nat) (f : NtrgSt → NtrgSt) : (State.updNtrg s k f).pf = s.pf := rfl
@[simp] theorem State.updNtrg_acq (s : State) (k : Nat) (f : NtrgSt → NtrgSt) : (State.updNtrg s k f).acq = s.acq := rfl
@[simp] theorem State.updNtrg_rse (s : State) (k : Nat) (f : NtrgSt → NtrgSt) : (State.updNtrg s k f).rse = s.rse := rfl
@[simp] theorem State.updNtrg_sch (s : State) (k : Nat) (f : NtrgSt → NtrgSt) : (State.updNtrg s k f).sch = s.sch := rfl
@[simp] theorem State.updNtrg_mem (s : State) (k : Nat) (f : NtrgSt → NtrgSt) : (State.updNtrg s k f).mem = s.mem := rfl
@[simp] theorem State.updNtrg_pwr (s : State) (k : Nat) (f : NtrgSt → NtrgSt) : (State.updNtrg s k f).pwr = s.pwr := rfl
@[simp] theorem State.updNtrg_cal (s : State) (k : Nat) (f : NtrgSt → NtrgSt) : (State.updNtrg s k f).cal = s.cal := rfl

@[simp] theorem State.updNtrg_same (s : State) (k : Nat) (f : NtrgSt → NtrgSt) : State.ntrgAt (State.updNtrg s k f) k = f (State.ntrgAt s k) :=
  Tbl.get_upd_same _ _ _ _

theorem State.updNtrg_other (s : State) (k i : Nat) (f : NtrgSt → NtrgSt) (h : i ≠ k) : State.ntrgAt (State.updNtrg s k f) i = State.ntrgAt s i :=
  Tbl.get_upd_other _ _ _ _ _ h

/-! `State.updChime` changes `ngl` alone. -/

@[simp] theorem State.updChime_pending (s : State) (k : Nat) (f : ChimeSt → ChimeSt) : (State.updChime s k f).pending = s.pending := rfl
@[simp] theorem State.updChime_now (s : State) (k : Nat) (f : ChimeSt → ChimeSt) : (State.updChime s k f).now = s.now := rfl
@[simp] theorem State.updChime_free (s : State) (k : Nat) (f : ChimeSt → ChimeSt) : (State.updChime s k f).free = s.free := rfl
@[simp] theorem State.updChime_host (s : State) (k : Nat) (f : ChimeSt → ChimeSt) : (State.updChime s k f).host = s.host := rfl
@[simp] theorem State.updChime_evt (s : State) (k : Nat) (f : ChimeSt → ChimeSt) : (State.updChime s k f).evt = s.evt := rfl
@[simp] theorem State.updChime_fw (s : State) (k : Nat) (f : ChimeSt → ChimeSt) : (State.updChime s k f).fw = s.fw := rfl
@[simp] theorem State.updChime_uart (s : State) (k : Nat) (f : ChimeSt → ChimeSt) : (State.updChime s k f).uart = s.uart := rfl
@[simp] theorem State.updChime_ve (s : State) (k : Nat) (f : ChimeSt → ChimeSt) : (State.updChime s k f).ve = s.ve := rfl
@[simp] theorem State.updChime_pf (s : State) (k : Nat) (f : ChimeSt → ChimeSt) : (State.updChime s k f).pf = s.pf := rfl
@[simp] theorem State.updChime_acq (s : State) (k : Nat) (f : ChimeSt → ChimeSt) : (State.updChime s k f).acq = s.acq := rfl
@[simp] theorem State.updChime_rse (s : State) (k : Nat) (f : ChimeSt → ChimeSt) : (State.updChime s k f).rse = s.rse := rfl
@[simp] theorem State.updChime_sch (s : State) (k : Nat) (f : ChimeSt → ChimeSt) : (State.updChime s k f).sch = s.sch := rfl
@[simp] theorem State.updChime_mem (s : State) (k : Nat) (f : ChimeSt → ChimeSt) : (State.updChime s k f).mem = s.mem := rfl
@[simp] theorem State.updChime_pwr (s : State) (k : Nat) (f : ChimeSt → ChimeSt) : (State.updChime s k f).pwr = s.pwr := rfl
@[simp] theorem State.updChime_cal (s : State) (k : Nat) (f : ChimeSt → ChimeSt) : (State.updChime s k f).cal = s.cal := rfl

@[simp] theorem State.updChime_same (s : State) (k : Nat) (f : ChimeSt → ChimeSt) : State.chimeAt (State.updChime s k f) k = f (State.chimeAt s k) :=
  Tbl.get_upd_same _ _ _ _

theorem State.updChime_other (s : State) (k i : Nat) (f : ChimeSt → ChimeSt) (h : i ≠ k) : State.chimeAt (State.updChime s k f) i = State.chimeAt s i :=
  Tbl.get_upd_other _ _ _ _ _ h

/-! `State.updSlane` changes `ngl` alone. -/

@[simp] theorem State.updSlane_pending (s : State) (k : Nat) (f : SLaneSt → SLaneSt) : (State.updSlane s k f).pending = s.pending := rfl
@[simp] theorem State.updSlane_now (s : State) (k : Nat) (f : SLaneSt → SLaneSt) : (State.updSlane s k f).now = s.now := rfl
@[simp] theorem State.updSlane_free (s : State) (k : Nat) (f : SLaneSt → SLaneSt) : (State.updSlane s k f).free = s.free := rfl
@[simp] theorem State.updSlane_host (s : State) (k : Nat) (f : SLaneSt → SLaneSt) : (State.updSlane s k f).host = s.host := rfl
@[simp] theorem State.updSlane_evt (s : State) (k : Nat) (f : SLaneSt → SLaneSt) : (State.updSlane s k f).evt = s.evt := rfl
@[simp] theorem State.updSlane_fw (s : State) (k : Nat) (f : SLaneSt → SLaneSt) : (State.updSlane s k f).fw = s.fw := rfl
@[simp] theorem State.updSlane_uart (s : State) (k : Nat) (f : SLaneSt → SLaneSt) : (State.updSlane s k f).uart = s.uart := rfl
@[simp] theorem State.updSlane_ve (s : State) (k : Nat) (f : SLaneSt → SLaneSt) : (State.updSlane s k f).ve = s.ve := rfl
@[simp] theorem State.updSlane_pf (s : State) (k : Nat) (f : SLaneSt → SLaneSt) : (State.updSlane s k f).pf = s.pf := rfl
@[simp] theorem State.updSlane_acq (s : State) (k : Nat) (f : SLaneSt → SLaneSt) : (State.updSlane s k f).acq = s.acq := rfl
@[simp] theorem State.updSlane_rse (s : State) (k : Nat) (f : SLaneSt → SLaneSt) : (State.updSlane s k f).rse = s.rse := rfl
@[simp] theorem State.updSlane_sch (s : State) (k : Nat) (f : SLaneSt → SLaneSt) : (State.updSlane s k f).sch = s.sch := rfl
@[simp] theorem State.updSlane_mem (s : State) (k : Nat) (f : SLaneSt → SLaneSt) : (State.updSlane s k f).mem = s.mem := rfl
@[simp] theorem State.updSlane_pwr (s : State) (k : Nat) (f : SLaneSt → SLaneSt) : (State.updSlane s k f).pwr = s.pwr := rfl
@[simp] theorem State.updSlane_cal (s : State) (k : Nat) (f : SLaneSt → SLaneSt) : (State.updSlane s k f).cal = s.cal := rfl

@[simp] theorem State.updSlane_same (s : State) (k : Nat) (f : SLaneSt → SLaneSt) : State.slaneAt (State.updSlane s k f) k = f (State.slaneAt s k) :=
  Tbl.get_upd_same _ _ _ _

theorem State.updSlane_other (s : State) (k i : Nat) (f : SLaneSt → SLaneSt) (h : i ≠ k) : State.slaneAt (State.updSlane s k f) i = State.slaneAt s i :=
  Tbl.get_upd_other _ _ _ _ _ h

/-! `State.updHlink` changes `ngl` alone. -/

@[simp] theorem State.updHlink_pending (s : State) (k : Nat) (f : HostLink → HostLink) : (State.updHlink s k f).pending = s.pending := rfl
@[simp] theorem State.updHlink_now (s : State) (k : Nat) (f : HostLink → HostLink) : (State.updHlink s k f).now = s.now := rfl
@[simp] theorem State.updHlink_free (s : State) (k : Nat) (f : HostLink → HostLink) : (State.updHlink s k f).free = s.free := rfl
@[simp] theorem State.updHlink_host (s : State) (k : Nat) (f : HostLink → HostLink) : (State.updHlink s k f).host = s.host := rfl
@[simp] theorem State.updHlink_evt (s : State) (k : Nat) (f : HostLink → HostLink) : (State.updHlink s k f).evt = s.evt := rfl
@[simp] theorem State.updHlink_fw (s : State) (k : Nat) (f : HostLink → HostLink) : (State.updHlink s k f).fw = s.fw := rfl
@[simp] theorem State.updHlink_uart (s : State) (k : Nat) (f : HostLink → HostLink) : (State.updHlink s k f).uart = s.uart := rfl
@[simp] theorem State.updHlink_ve (s : State) (k : Nat) (f : HostLink → HostLink) : (State.updHlink s k f).ve = s.ve := rfl
@[simp] theorem State.updHlink_pf (s : State) (k : Nat) (f : HostLink → HostLink) : (State.updHlink s k f).pf = s.pf := rfl
@[simp] theorem State.updHlink_acq (s : State) (k : Nat) (f : HostLink → HostLink) : (State.updHlink s k f).acq = s.acq := rfl
@[simp] theorem State.updHlink_rse (s : State) (k : Nat) (f : HostLink → HostLink) : (State.updHlink s k f).rse = s.rse := rfl
@[simp] theorem State.updHlink_sch (s : State) (k : Nat) (f : HostLink → HostLink) : (State.updHlink s k f).sch = s.sch := rfl
@[simp] theorem State.updHlink_mem (s : State) (k : Nat) (f : HostLink → HostLink) : (State.updHlink s k f).mem = s.mem := rfl
@[simp] theorem State.updHlink_pwr (s : State) (k : Nat) (f : HostLink → HostLink) : (State.updHlink s k f).pwr = s.pwr := rfl
@[simp] theorem State.updHlink_cal (s : State) (k : Nat) (f : HostLink → HostLink) : (State.updHlink s k f).cal = s.cal := rfl

@[simp] theorem State.updHlink_same (s : State) (k : Nat) (f : HostLink → HostLink) : State.hlinkAt (State.updHlink s k f) k = f (State.hlinkAt s k) :=
  Tbl.get_upd_same _ _ _ _

theorem State.updHlink_other (s : State) (k i : Nat) (f : HostLink → HostLink) (h : i ≠ k) : State.hlinkAt (State.updHlink s k f) i = State.hlinkAt s i :=
  Tbl.get_upd_other _ _ _ _ _ h

/-! `State.updSns` changes `pwr` alone. -/

@[simp] theorem State.updSns_pending (s : State) (k : Nat) (f : SnsSt → SnsSt) : (State.updSns s k f).pending = s.pending := rfl
@[simp] theorem State.updSns_now (s : State) (k : Nat) (f : SnsSt → SnsSt) : (State.updSns s k f).now = s.now := rfl
@[simp] theorem State.updSns_free (s : State) (k : Nat) (f : SnsSt → SnsSt) : (State.updSns s k f).free = s.free := rfl
@[simp] theorem State.updSns_host (s : State) (k : Nat) (f : SnsSt → SnsSt) : (State.updSns s k f).host = s.host := rfl
@[simp] theorem State.updSns_evt (s : State) (k : Nat) (f : SnsSt → SnsSt) : (State.updSns s k f).evt = s.evt := rfl
@[simp] theorem State.updSns_fw (s : State) (k : Nat) (f : SnsSt → SnsSt) : (State.updSns s k f).fw = s.fw := rfl
@[simp] theorem State.updSns_uart (s : State) (k : Nat) (f : SnsSt → SnsSt) : (State.updSns s k f).uart = s.uart := rfl
@[simp] theorem State.updSns_ve (s : State) (k : Nat) (f : SnsSt → SnsSt) : (State.updSns s k f).ve = s.ve := rfl
@[simp] theorem State.updSns_pf (s : State) (k : Nat) (f : SnsSt → SnsSt) : (State.updSns s k f).pf = s.pf := rfl
@[simp] theorem State.updSns_acq (s : State) (k : Nat) (f : SnsSt → SnsSt) : (State.updSns s k f).acq = s.acq := rfl
@[simp] theorem State.updSns_rse (s : State) (k : Nat) (f : SnsSt → SnsSt) : (State.updSns s k f).rse = s.rse := rfl
@[simp] theorem State.updSns_sch (s : State) (k : Nat) (f : SnsSt → SnsSt) : (State.updSns s k f).sch = s.sch := rfl
@[simp] theorem State.updSns_mem (s : State) (k : Nat) (f : SnsSt → SnsSt) : (State.updSns s k f).mem = s.mem := rfl
@[simp] theorem State.updSns_ngl (s : State) (k : Nat) (f : SnsSt → SnsSt) : (State.updSns s k f).ngl = s.ngl := rfl
@[simp] theorem State.updSns_cal (s : State) (k : Nat) (f : SnsSt → SnsSt) : (State.updSns s k f).cal = s.cal := rfl

@[simp] theorem State.updSns_same (s : State) (k : Nat) (f : SnsSt → SnsSt) : State.snsAt (State.updSns s k f) k = f (State.snsAt s k) :=
  Tbl.get_upd_same _ _ _ _

theorem State.updSns_other (s : State) (k i : Nat) (f : SnsSt → SnsSt) (h : i ≠ k) : State.snsAt (State.updSns s k f) i = State.snsAt s i :=
  Tbl.get_upd_other _ _ _ _ _ h

/-! `State.updFn` changes `host` alone. -/

@[simp] theorem State.updFn_pending (s : State) (k : Nat) (f : FnSt → FnSt) : (State.updFn s k f).pending = s.pending := rfl
@[simp] theorem State.updFn_now (s : State) (k : Nat) (f : FnSt → FnSt) : (State.updFn s k f).now = s.now := rfl
@[simp] theorem State.updFn_free (s : State) (k : Nat) (f : FnSt → FnSt) : (State.updFn s k f).free = s.free := rfl
@[simp] theorem State.updFn_evt (s : State) (k : Nat) (f : FnSt → FnSt) : (State.updFn s k f).evt = s.evt := rfl
@[simp] theorem State.updFn_fw (s : State) (k : Nat) (f : FnSt → FnSt) : (State.updFn s k f).fw = s.fw := rfl
@[simp] theorem State.updFn_uart (s : State) (k : Nat) (f : FnSt → FnSt) : (State.updFn s k f).uart = s.uart := rfl
@[simp] theorem State.updFn_ve (s : State) (k : Nat) (f : FnSt → FnSt) : (State.updFn s k f).ve = s.ve := rfl
@[simp] theorem State.updFn_pf (s : State) (k : Nat) (f : FnSt → FnSt) : (State.updFn s k f).pf = s.pf := rfl
@[simp] theorem State.updFn_acq (s : State) (k : Nat) (f : FnSt → FnSt) : (State.updFn s k f).acq = s.acq := rfl
@[simp] theorem State.updFn_rse (s : State) (k : Nat) (f : FnSt → FnSt) : (State.updFn s k f).rse = s.rse := rfl
@[simp] theorem State.updFn_sch (s : State) (k : Nat) (f : FnSt → FnSt) : (State.updFn s k f).sch = s.sch := rfl
@[simp] theorem State.updFn_mem (s : State) (k : Nat) (f : FnSt → FnSt) : (State.updFn s k f).mem = s.mem := rfl
@[simp] theorem State.updFn_ngl (s : State) (k : Nat) (f : FnSt → FnSt) : (State.updFn s k f).ngl = s.ngl := rfl
@[simp] theorem State.updFn_pwr (s : State) (k : Nat) (f : FnSt → FnSt) : (State.updFn s k f).pwr = s.pwr := rfl
@[simp] theorem State.updFn_cal (s : State) (k : Nat) (f : FnSt → FnSt) : (State.updFn s k f).cal = s.cal := rfl

@[simp] theorem State.updFn_same (s : State) (k : Nat) (f : FnSt → FnSt) : State.fnAt (State.updFn s k f) k = f (State.fnAt s k) :=
  Tbl.get_upd_same _ _ _ _

theorem State.updFn_other (s : State) (k i : Nat) (f : FnSt → FnSt) (h : i ≠ k) : State.fnAt (State.updFn s k f) i = State.fnAt s i :=
  Tbl.get_upd_other _ _ _ _ _ h

/-! `State.putBurst` changes `ve` alone. -/

@[simp] theorem State.putBurst_pending (s : State) (k : Nat) (v : Burst) : (State.putBurst s k v).pending = s.pending := rfl
@[simp] theorem State.putBurst_now (s : State) (k : Nat) (v : Burst) : (State.putBurst s k v).now = s.now := rfl
@[simp] theorem State.putBurst_free (s : State) (k : Nat) (v : Burst) : (State.putBurst s k v).free = s.free := rfl
@[simp] theorem State.putBurst_host (s : State) (k : Nat) (v : Burst) : (State.putBurst s k v).host = s.host := rfl
@[simp] theorem State.putBurst_evt (s : State) (k : Nat) (v : Burst) : (State.putBurst s k v).evt = s.evt := rfl
@[simp] theorem State.putBurst_fw (s : State) (k : Nat) (v : Burst) : (State.putBurst s k v).fw = s.fw := rfl
@[simp] theorem State.putBurst_uart (s : State) (k : Nat) (v : Burst) : (State.putBurst s k v).uart = s.uart := rfl
@[simp] theorem State.putBurst_pf (s : State) (k : Nat) (v : Burst) : (State.putBurst s k v).pf = s.pf := rfl
@[simp] theorem State.putBurst_acq (s : State) (k : Nat) (v : Burst) : (State.putBurst s k v).acq = s.acq := rfl
@[simp] theorem State.putBurst_rse (s : State) (k : Nat) (v : Burst) : (State.putBurst s k v).rse = s.rse := rfl
@[simp] theorem State.putBurst_sch (s : State) (k : Nat) (v : Burst) : (State.putBurst s k v).sch = s.sch := rfl
@[simp] theorem State.putBurst_mem (s : State) (k : Nat) (v : Burst) : (State.putBurst s k v).mem = s.mem := rfl
@[simp] theorem State.putBurst_ngl (s : State) (k : Nat) (v : Burst) : (State.putBurst s k v).ngl = s.ngl := rfl
@[simp] theorem State.putBurst_pwr (s : State) (k : Nat) (v : Burst) : (State.putBurst s k v).pwr = s.pwr := rfl
@[simp] theorem State.putBurst_cal (s : State) (k : Nat) (v : Burst) : (State.putBurst s k v).cal = s.cal := rfl

@[simp] theorem State.putBurst_same (s : State) (k : Nat) (v : Burst) : (s.putBurst k v).burstAt k = some v :=
  Tbl.find_put_same _ _ _

theorem State.putBurst_other (s : State) (k i : Nat) (v : Burst) (h : i ≠ k) : (s.putBurst k v).burstAt i = s.burstAt i :=
  Tbl.find_put_other _ _ _ _ h

/-! `State.delBurst` changes `ve` alone. -/

@[simp] theorem State.delBurst_pending (s : State) (k : Nat) : (State.delBurst s k).pending = s.pending := rfl
@[simp] theorem State.delBurst_now (s : State) (k : Nat) : (State.delBurst s k).now = s.now := rfl
@[simp] theorem State.delBurst_free (s : State) (k : Nat) : (State.delBurst s k).free = s.free := rfl
@[simp] theorem State.delBurst_host (s : State) (k : Nat) : (State.delBurst s k).host = s.host := rfl
@[simp] theorem State.delBurst_evt (s : State) (k : Nat) : (State.delBurst s k).evt = s.evt := rfl
@[simp] theorem State.delBurst_fw (s : State) (k : Nat) : (State.delBurst s k).fw = s.fw := rfl
@[simp] theorem State.delBurst_uart (s : State) (k : Nat) : (State.delBurst s k).uart = s.uart := rfl
@[simp] theorem State.delBurst_pf (s : State) (k : Nat) : (State.delBurst s k).pf = s.pf := rfl
@[simp] theorem State.delBurst_acq (s : State) (k : Nat) : (State.delBurst s k).acq = s.acq := rfl
@[simp] theorem State.delBurst_rse (s : State) (k : Nat) : (State.delBurst s k).rse = s.rse := rfl
@[simp] theorem State.delBurst_sch (s : State) (k : Nat) : (State.delBurst s k).sch = s.sch := rfl
@[simp] theorem State.delBurst_mem (s : State) (k : Nat) : (State.delBurst s k).mem = s.mem := rfl
@[simp] theorem State.delBurst_ngl (s : State) (k : Nat) : (State.delBurst s k).ngl = s.ngl := rfl
@[simp] theorem State.delBurst_pwr (s : State) (k : Nat) : (State.delBurst s k).pwr = s.pwr := rfl
@[simp] theorem State.delBurst_cal (s : State) (k : Nat) : (State.delBurst s k).cal = s.cal := rfl

@[simp] theorem State.delBurst_same (s : State) (k : Nat) : (s.delBurst k).burstAt k = none := Tbl.find_del_same _ _

theorem State.delBurst_other (s : State) (k i : Nat) (h : i ≠ k) : (s.delBurst k).burstAt i = s.burstAt i :=
  Tbl.find_del_other _ _ _ h

/-! `State.putImage` changes `ve` alone. -/

@[simp] theorem State.putImage_pending (s : State) (k : Nat) (v : ImgSt) : (State.putImage s k v).pending = s.pending := rfl
@[simp] theorem State.putImage_now (s : State) (k : Nat) (v : ImgSt) : (State.putImage s k v).now = s.now := rfl
@[simp] theorem State.putImage_free (s : State) (k : Nat) (v : ImgSt) : (State.putImage s k v).free = s.free := rfl
@[simp] theorem State.putImage_host (s : State) (k : Nat) (v : ImgSt) : (State.putImage s k v).host = s.host := rfl
@[simp] theorem State.putImage_evt (s : State) (k : Nat) (v : ImgSt) : (State.putImage s k v).evt = s.evt := rfl
@[simp] theorem State.putImage_fw (s : State) (k : Nat) (v : ImgSt) : (State.putImage s k v).fw = s.fw := rfl
@[simp] theorem State.putImage_uart (s : State) (k : Nat) (v : ImgSt) : (State.putImage s k v).uart = s.uart := rfl
@[simp] theorem State.putImage_pf (s : State) (k : Nat) (v : ImgSt) : (State.putImage s k v).pf = s.pf := rfl
@[simp] theorem State.putImage_acq (s : State) (k : Nat) (v : ImgSt) : (State.putImage s k v).acq = s.acq := rfl
@[simp] theorem State.putImage_rse (s : State) (k : Nat) (v : ImgSt) : (State.putImage s k v).rse = s.rse := rfl
@[simp] theorem State.putImage_sch (s : State) (k : Nat) (v : ImgSt) : (State.putImage s k v).sch = s.sch := rfl
@[simp] theorem State.putImage_mem (s : State) (k : Nat) (v : ImgSt) : (State.putImage s k v).mem = s.mem := rfl
@[simp] theorem State.putImage_ngl (s : State) (k : Nat) (v : ImgSt) : (State.putImage s k v).ngl = s.ngl := rfl
@[simp] theorem State.putImage_pwr (s : State) (k : Nat) (v : ImgSt) : (State.putImage s k v).pwr = s.pwr := rfl
@[simp] theorem State.putImage_cal (s : State) (k : Nat) (v : ImgSt) : (State.putImage s k v).cal = s.cal := rfl

@[simp] theorem State.putImage_same (s : State) (k : Nat) (v : ImgSt) : (s.putImage k v).imageAt k = some v :=
  Tbl.find_put_same _ _ _

theorem State.putImage_other (s : State) (k i : Nat) (v : ImgSt) (h : i ≠ k) : (s.putImage k v).imageAt i = s.imageAt i :=
  Tbl.find_put_other _ _ _ _ h

/-! `State.delImage` changes `ve` alone. -/

@[simp] theorem State.delImage_pending (s : State) (k : Nat) : (State.delImage s k).pending = s.pending := rfl
@[simp] theorem State.delImage_now (s : State) (k : Nat) : (State.delImage s k).now = s.now := rfl
@[simp] theorem State.delImage_free (s : State) (k : Nat) : (State.delImage s k).free = s.free := rfl
@[simp] theorem State.delImage_host (s : State) (k : Nat) : (State.delImage s k).host = s.host := rfl
@[simp] theorem State.delImage_evt (s : State) (k : Nat) : (State.delImage s k).evt = s.evt := rfl
@[simp] theorem State.delImage_fw (s : State) (k : Nat) : (State.delImage s k).fw = s.fw := rfl
@[simp] theorem State.delImage_uart (s : State) (k : Nat) : (State.delImage s k).uart = s.uart := rfl
@[simp] theorem State.delImage_pf (s : State) (k : Nat) : (State.delImage s k).pf = s.pf := rfl
@[simp] theorem State.delImage_acq (s : State) (k : Nat) : (State.delImage s k).acq = s.acq := rfl
@[simp] theorem State.delImage_rse (s : State) (k : Nat) : (State.delImage s k).rse = s.rse := rfl
@[simp] theorem State.delImage_sch (s : State) (k : Nat) : (State.delImage s k).sch = s.sch := rfl
@[simp] theorem State.delImage_mem (s : State) (k : Nat) : (State.delImage s k).mem = s.mem := rfl
@[simp] theorem State.delImage_ngl (s : State) (k : Nat) : (State.delImage s k).ngl = s.ngl := rfl
@[simp] theorem State.delImage_pwr (s : State) (k : Nat) : (State.delImage s k).pwr = s.pwr := rfl
@[simp] theorem State.delImage_cal (s : State) (k : Nat) : (State.delImage s k).cal = s.cal := rfl

@[simp] theorem State.delImage_same (s : State) (k : Nat) : (s.delImage k).imageAt k = none := Tbl.find_del_same _ _

theorem State.delImage_other (s : State) (k i : Nat) (h : i ≠ k) : (s.delImage k).imageAt i = s.imageAt i :=
  Tbl.find_del_other _ _ _ h

/-! `State.putTask` changes `sch` alone. -/

@[simp] theorem State.putTask_pending (s : State) (k : Nat) (v : TaskSt) : (State.putTask s k v).pending = s.pending := rfl
@[simp] theorem State.putTask_now (s : State) (k : Nat) (v : TaskSt) : (State.putTask s k v).now = s.now := rfl
@[simp] theorem State.putTask_free (s : State) (k : Nat) (v : TaskSt) : (State.putTask s k v).free = s.free := rfl
@[simp] theorem State.putTask_host (s : State) (k : Nat) (v : TaskSt) : (State.putTask s k v).host = s.host := rfl
@[simp] theorem State.putTask_evt (s : State) (k : Nat) (v : TaskSt) : (State.putTask s k v).evt = s.evt := rfl
@[simp] theorem State.putTask_fw (s : State) (k : Nat) (v : TaskSt) : (State.putTask s k v).fw = s.fw := rfl
@[simp] theorem State.putTask_uart (s : State) (k : Nat) (v : TaskSt) : (State.putTask s k v).uart = s.uart := rfl
@[simp] theorem State.putTask_ve (s : State) (k : Nat) (v : TaskSt) : (State.putTask s k v).ve = s.ve := rfl
@[simp] theorem State.putTask_pf (s : State) (k : Nat) (v : TaskSt) : (State.putTask s k v).pf = s.pf := rfl
@[simp] theorem State.putTask_acq (s : State) (k : Nat) (v : TaskSt) : (State.putTask s k v).acq = s.acq := rfl
@[simp] theorem State.putTask_rse (s : State) (k : Nat) (v : TaskSt) : (State.putTask s k v).rse = s.rse := rfl
@[simp] theorem State.putTask_mem (s : State) (k : Nat) (v : TaskSt) : (State.putTask s k v).mem = s.mem := rfl
@[simp] theorem State.putTask_ngl (s : State) (k : Nat) (v : TaskSt) : (State.putTask s k v).ngl = s.ngl := rfl
@[simp] theorem State.putTask_pwr (s : State) (k : Nat) (v : TaskSt) : (State.putTask s k v).pwr = s.pwr := rfl
@[simp] theorem State.putTask_cal (s : State) (k : Nat) (v : TaskSt) : (State.putTask s k v).cal = s.cal := rfl

@[simp] theorem State.putTask_same (s : State) (k : Nat) (v : TaskSt) : (s.putTask k v).taskAt k = some v :=
  Tbl.find_put_same _ _ _

theorem State.putTask_other (s : State) (k i : Nat) (v : TaskSt) (h : i ≠ k) : (s.putTask k v).taskAt i = s.taskAt i :=
  Tbl.find_put_other _ _ _ _ h

/-! `State.delTask` changes `sch` alone. -/

@[simp] theorem State.delTask_pending (s : State) (k : Nat) : (State.delTask s k).pending = s.pending := rfl
@[simp] theorem State.delTask_now (s : State) (k : Nat) : (State.delTask s k).now = s.now := rfl
@[simp] theorem State.delTask_free (s : State) (k : Nat) : (State.delTask s k).free = s.free := rfl
@[simp] theorem State.delTask_host (s : State) (k : Nat) : (State.delTask s k).host = s.host := rfl
@[simp] theorem State.delTask_evt (s : State) (k : Nat) : (State.delTask s k).evt = s.evt := rfl
@[simp] theorem State.delTask_fw (s : State) (k : Nat) : (State.delTask s k).fw = s.fw := rfl
@[simp] theorem State.delTask_uart (s : State) (k : Nat) : (State.delTask s k).uart = s.uart := rfl
@[simp] theorem State.delTask_ve (s : State) (k : Nat) : (State.delTask s k).ve = s.ve := rfl
@[simp] theorem State.delTask_pf (s : State) (k : Nat) : (State.delTask s k).pf = s.pf := rfl
@[simp] theorem State.delTask_acq (s : State) (k : Nat) : (State.delTask s k).acq = s.acq := rfl
@[simp] theorem State.delTask_rse (s : State) (k : Nat) : (State.delTask s k).rse = s.rse := rfl
@[simp] theorem State.delTask_mem (s : State) (k : Nat) : (State.delTask s k).mem = s.mem := rfl
@[simp] theorem State.delTask_ngl (s : State) (k : Nat) : (State.delTask s k).ngl = s.ngl := rfl
@[simp] theorem State.delTask_pwr (s : State) (k : Nat) : (State.delTask s k).pwr = s.pwr := rfl
@[simp] theorem State.delTask_cal (s : State) (k : Nat) : (State.delTask s k).cal = s.cal := rfl

@[simp] theorem State.delTask_same (s : State) (k : Nat) : (s.delTask k).taskAt k = none := Tbl.find_del_same _ _

theorem State.delTask_other (s : State) (k i : Nat) (h : i ≠ k) : (s.delTask k).taskAt i = s.taskAt i :=
  Tbl.find_del_other _ _ _ h

/-! `State.moveTo` changes `now` alone. -/

@[simp] theorem State.moveTo_pending (s : State) (t : Nat) : (State.moveTo s t).pending = s.pending := rfl
@[simp] theorem State.moveTo_free (s : State) (t : Nat) : (State.moveTo s t).free = s.free := rfl
@[simp] theorem State.moveTo_host (s : State) (t : Nat) : (State.moveTo s t).host = s.host := rfl
@[simp] theorem State.moveTo_evt (s : State) (t : Nat) : (State.moveTo s t).evt = s.evt := rfl
@[simp] theorem State.moveTo_fw (s : State) (t : Nat) : (State.moveTo s t).fw = s.fw := rfl
@[simp] theorem State.moveTo_uart (s : State) (t : Nat) : (State.moveTo s t).uart = s.uart := rfl
@[simp] theorem State.moveTo_ve (s : State) (t : Nat) : (State.moveTo s t).ve = s.ve := rfl
@[simp] theorem State.moveTo_pf (s : State) (t : Nat) : (State.moveTo s t).pf = s.pf := rfl
@[simp] theorem State.moveTo_acq (s : State) (t : Nat) : (State.moveTo s t).acq = s.acq := rfl
@[simp] theorem State.moveTo_rse (s : State) (t : Nat) : (State.moveTo s t).rse = s.rse := rfl
@[simp] theorem State.moveTo_sch (s : State) (t : Nat) : (State.moveTo s t).sch = s.sch := rfl
@[simp] theorem State.moveTo_mem (s : State) (t : Nat) : (State.moveTo s t).mem = s.mem := rfl
@[simp] theorem State.moveTo_ngl (s : State) (t : Nat) : (State.moveTo s t).ngl = s.ngl := rfl
@[simp] theorem State.moveTo_pwr (s : State) (t : Nat) : (State.moveTo s t).pwr = s.pwr := rfl
@[simp] theorem State.moveTo_cal (s : State) (t : Nat) : (State.moveTo s t).cal = s.cal := rfl

/-! `State.drawFree` changes `free` alone. -/

@[simp] theorem State.drawFree_pending (s : State) : (State.drawFree s).pending = s.pending := rfl
@[simp] theorem State.drawFree_now (s : State) : (State.drawFree s).now = s.now := rfl
@[simp] theorem State.drawFree_host (s : State) : (State.drawFree s).host = s.host := rfl
@[simp] theorem State.drawFree_evt (s : State) : (State.drawFree s).evt = s.evt := rfl
@[simp] theorem State.drawFree_fw (s : State) : (State.drawFree s).fw = s.fw := rfl
@[simp] theorem State.drawFree_uart (s : State) : (State.drawFree s).uart = s.uart := rfl
@[simp] theorem State.drawFree_ve (s : State) : (State.drawFree s).ve = s.ve := rfl
@[simp] theorem State.drawFree_pf (s : State) : (State.drawFree s).pf = s.pf := rfl
@[simp] theorem State.drawFree_acq (s : State) : (State.drawFree s).acq = s.acq := rfl
@[simp] theorem State.drawFree_rse (s : State) : (State.drawFree s).rse = s.rse := rfl
@[simp] theorem State.drawFree_sch (s : State) : (State.drawFree s).sch = s.sch := rfl
@[simp] theorem State.drawFree_mem (s : State) : (State.drawFree s).mem = s.mem := rfl
@[simp] theorem State.drawFree_ngl (s : State) : (State.drawFree s).ngl = s.ngl := rfl
@[simp] theorem State.drawFree_pwr (s : State) : (State.drawFree s).pwr = s.pwr := rfl
@[simp] theorem State.drawFree_cal (s : State) : (State.drawFree s).cal = s.cal := rfl

end Sys2Proof.Machine
end

