-- ==== Sys2Proof/Laws/Command.lean ====
section
/-!
SUPPORT. What a command does with its completion: `SameButHost`, `Posted`, and the state in which its effect begins.
-/

namespace Sys2Proof

open Sys2Proof.Machine

theorem SameButHost.refl (s : State) : SameButHost s s := rfl

theorem SameButHost.trans {s t u : State} (h : SameButHost s t) (k : SameButHost t u) : SameButHost s u := by
  unfold SameButHost at *
  rw [k, h]

theorem updFn_same (s : State) (p : Nat) (f : FnSt → FnSt) : SameButHost s (s.updFn p f) := rfl

theorem taken_same (s : State) (p : Part) (tag : Nat) (op : BitVec 16) : SameButHost s (taken s p tag op) := rfl

theorem post_same (s : State) (p : Nat) (c : Cpl) : SameButHost s (s.post p c) := by
  unfold State.post
  dsimp only
  split <;> split <;> rfl

theorem complete_same (s : State) (p tag : Nat) (op : BitVec 16) (st : Status) (r : List Nat) (d : List Int) :
    SameButHost s (s.complete p tag op st r d) := post_same _ _ _

theorem refuseCmd_same (s : State) (p tag : Nat) (op : BitVec 16) (st : Status) (r : List Nat) :
    SameButHost s (s.refuseCmd p tag op st r) := by
  unfold State.refuseCmd
  dsimp only
  split
  · exact (complete_same s p tag op st r []).trans (updFn_same _ _ _)
  · exact complete_same s p tag op st r []

/-- A tolerance that falls wakes pseudo-channels and changes nothing else. -/
theorem leaveLow_same (s : State) : s.leaveLow = { s with mem := { s.mem with pc := s.leaveLow.mem.pc } } := by
  unfold State.leaveLow
  generalize List.range 64 = l
  induction l generalizing s with
  | nil => rfl
  | cons x r ih =>
    rw [List.foldl_cons, ih]
    split <;> rfl

theorem leaveLow_ve (s : State) : s.leaveLow.ve = s.ve := by rw [leaveLow_same]

theorem lastCpl_of_fn {s t : State} (h : t.host.fn = s.host.fn) (p : Nat) : lastCpl t p = lastCpl s p := by
  unfold lastCpl State.fnAt
  rw [h]

theorem writeCpl_last (f : FnSt) (c : Cpl) (h : f.cplHeld = []) :
    ((f.writeCpl c).cpls ++ (f.writeCpl c).cplHeld).getLast? = some c := by
  simp [FnSt.writeCpl, h]

theorem holdCpl_last (f : FnSt) (c : Cpl) : ((f.holdCpl c).cpls ++ (f.holdCpl c).cplHeld).getLast? = some c := by
  simp [FnSt.holdCpl, List.getLast?_append]

/-- A function's staged set, ring counts of the host and registers are no part of a completion. -/
theorem post_staged (s : State) (p : Nat) (c : Cpl) :
    ((s.post p c).fnAt p).staged = (s.fnAt p).staged ∧ ((s.post p c).fnAt p).stagedTs = (s.fnAt p).stagedTs ∧
      ((s.post p c).fnAt p).stagedRate = (s.fnAt p).stagedRate ∧ ((s.post p c).fnAt p).listCmd = (s.fnAt p).listCmd := by
  unfold State.post
  dsimp only
  split <;> split <;> simp [FnSt.writeCpl, FnSt.holdCpl]

/-- A completion changes the function of its partition alone. -/
theorem post_other (s : State) (p q : Nat) (c : Cpl) (h : q ≠ p) : (s.post p c).fnAt q = s.fnAt q := by
  unfold State.post
  dsimp only
  split <;> split <;> simp [State.updFn_other, h]

/-- A posted completion is the newest of its partition. -/
theorem post_last (s : State) (p : Nat) (c : Cpl) : lastCpl (s.post p c) p = some c := by
  unfold State.post lastCpl
  dsimp only
  split_ifs with h1 h2 h2
  · rw [State.updFn_same]
    exact writeCpl_last _ _ (by simpa using (Bool.and_eq_true_iff.1 h2).2)
  · rw [State.updFn_same]
    exact holdCpl_last _ _
  · rw [State.updFn_same]
    exact writeCpl_last _ _ (by simpa using (Bool.and_eq_true_iff.1 h2).2)
  · rw [State.updFn_same]
    exact holdCpl_last _ _

theorem complete_posted (s : State) (p tag : Nat) (op : BitVec 16) (st : Status) (r : List Nat) (d : List Int) :
    Posted (s.complete p tag op st r d) p tag op st r := ⟨d, post_last _ _ _⟩

/-- A transfer starts: ACCEPTED is posted, the transfer joins those in progress, pseudo-channels wake; nothing else. -/
theorem startXfer_does (s : State) (p : Part) (tag : Nat) (op : BitVec 16) (a : Nat) (d : List Int)
    (w : Option (Nat × List (BitVec 8))) (r : List (Nat × Nat)) :
    let t := s.startXfer p tag op a d w r
    Posted t p.val tag op .accepted [] ∧ t.host.xfers = s.host.xfers ++ [⟨p, tag, op, d, w, a, r⟩] ∧
      t = { s with host.fn := t.host.fn, host.xfers := t.host.xfers, mem.pc := t.mem.pc } := by
  have e := complete_same s p.val tag op .accepted [] []
  unfold SameButHost at e
  unfold State.startXfer
  dsimp only
  rw [leaveLow_same]
  refine ⟨⟨[], ?_⟩, ?_, ?_⟩
  · exact (lastCpl_of_fn rfl _).trans (post_last s p.val
      { tag, status := .accepted, opcode := op, final := false, result := [], data := [] })
  · rw [e]
  · rw [e]

theorem refuseCmd_posted (s : State) (p tag : Nat) (op : BitVec 16) (st : Status) (r : List Nat) :
    Posted (s.refuseCmd p tag op st r) p tag op st r := by
  unfold State.refuseCmd
  dsimp only
  split
  · have h := post_last s p { tag, status := st, opcode := op, final := st != .accepted, result := r, data := [] }
    refine ⟨[], ?_⟩
    rw [← h]
    unfold lastCpl State.fnErr
    rw [State.updFn_same]
    unfold FnSt.noteErr State.complete
    split <;> rfl
  · exact complete_posted s p tag op st r []

theorem dmaFail_same (s : State) (p tag : Nat) (op : BitVec 16) (a : Nat) : SameButHost s (s.dmaFail p tag op a) :=
  (complete_same s p tag op .internal [] []).trans (updFn_same _ _ _)

theorem dmaFail_posted (s : State) (p tag : Nat) (op : BitVec 16) (a : Nat) :
    Posted (s.dmaFail p tag op a) p tag op .internal [] := by
  have h := post_last s p { tag, status := .internal, opcode := op, final := true, result := [], data := [] }
  refine ⟨[], Eq.trans ?_ h⟩
  unfold lastCpl State.dmaFail State.fnErr
  rw [State.updFn_same]
  unfold FnSt.noteErr State.complete
  split <;> rfl

/-- A command that passes every check has its effect. -/
theorem command_acts (s : State) (p : Part) (tag : Nat) (op : BitVec 16) {right : Bool}
    (checks : List (Bool × Status × List Nat)) (f : State → State) (h : Passes s p tag op) (hr : right = true)
    (hc : checks.find? (·.1) = none) : s.command p tag op false right checks f = f (taken s p tag op) := by
  subst hr
  obtain ⟨h1, h2, h3⟩ := h
  have h2' : ((s.updFn p (fun f => f.useTag tag op)).part p).enable = true := h2
  unfold State.command
  simp [h1, h2', h3, hc, taken]

/-- The same, of the command itself. -/
theorem next_of_command {c : Instr} {s : State} {p : Part} {tag : Nat} {op : BitVec 16} {right : Bool}
    {checks : List (Bool × Status × List Nat)} {f : State → State}
    (he : exec c s = .next (s.command p tag op false right checks f)) (h : Passes s p tag op) (hr : right = true)
    (hc : checks.find? (·.1) = none) : exec c s = .next (f (taken s p tag op)) :=
  he.trans (congrArg _ (command_acts s p tag op checks f h hr hc))

/-- A command that passes every check answers the state of its effect. -/
theorem answers_of_command {c : Instr} {s : State} {P : State → Prop} {p : Part} {tag : Nat} {op : BitVec 16}
    {right : Bool} {checks : List (Bool × Status × List Nat)} {f : State → State}
    (he : exec c s = .next (s.command p tag op false right checks f)) (h : Passes s p tag op) (hr : right = true)
    (hc : checks.find? (·.1) = none) (hP : P (f (taken s p tag op))) : Answers c s P :=
  ⟨_, he.trans (congrArg _ (command_acts s p tag op checks f h hr hc)), hP⟩

/-- What a command refused by a check of its own answers. -/
theorem command_refused (s : State) (p : Part) (tag : Nat) (op : BitVec 16) {right : Bool}
    (checks : List (Bool × Status × List Nat)) (f : State → State) (h : Passes s p tag op) (hr : right = true) {b : Bool}
    {st : Status} {r : List Nat} (hc : checks.find? (·.1) = some (b, st, r)) :
    s.command p tag op false right checks f = (taken s p tag op).refuseCmd p tag op st r := by
  subst hr
  obtain ⟨h1, h2, h3⟩ := h
  have h2' : ((s.updFn p (fun f => f.useTag tag op)).part p).enable = true := h2
  unfold State.command
  simp [h1, h2', h3, hc, taken]

end Sys2Proof
end

