-- ==== Sys2Proof/Laws/Memory.lean ====
section
/-!
SUPPORT. Memory: a read after a write, and the canonical form, which every memory operation keeps.
-/

namespace Sys2Proof.Machine

/-- What keeps a list of cells below a new head: every key of the list lies above `k`. -/
theorem Memory.wf_cons (k : Nat) (v : BitVec 8) (m : List Host.Cell) :
    Memory.wf ((k, v) :: m) = true ↔
      v ≠ 0 ∧ (∀ c ∈ m.head?, k < c.1) ∧ Memory.wf m = true := by
  cases m with
  | nil => simp [Memory.wf]
  | cons c r => obtain ⟨j, w⟩ := c; simp [Memory.wf]; tauto

theorem Memory.write_head (m : List Host.Cell) (k : Nat) (v : BitVec 8) (i : Nat) (hi : i < k)
    (h : ∀ c ∈ m.head?, i < c.1) (hm : Memory.wf m = true) : ∀ c ∈ (Memory.write m k v).head?, i < c.1 := by
  cases m with
  | nil =>
    simp only [Memory.write]
    split <;> simp [hi]
  | cons c r =>
    obtain ⟨j, w⟩ := c
    have hj : i < j := h (j, w) rfl
    have hr := ((Memory.wf_cons j w r).1 hm).2.1
    simp only [Memory.write]
    split
    · split <;> simp [hi, hj]
    · split
      · split
        · intro c hc; exact Nat.lt_trans hj (hr c hc)
        · simp [hi]
      · simp [hj]

/-- A write keeps the canonical form. -/
theorem Memory.write_wf (m : List Host.Cell) (h : Memory.wf m = true) (k : Nat) (v : BitVec 8) :
    Memory.wf (Memory.write m k v) = true := by
  induction m with
  | nil =>
    simp only [Memory.write]
    split <;> simp_all [Memory.wf]
  | cons c r ih =>
    obtain ⟨j, w⟩ := c
    have hr := (Memory.wf_cons j w r).1 h
    simp only [Memory.write]
    split
    · split
      · exact h
      · exact (Memory.wf_cons _ _ _).2 ⟨‹_›, by simpa using ‹k < j›, h⟩
    · split
      · split
        · exact hr.2.2
        · exact (Memory.wf_cons _ _ _).2 ⟨‹_›, by subst ‹j = k›; exact hr.2.1, hr.2.2⟩
      · exact (Memory.wf_cons _ _ _).2 ⟨hr.1, Memory.write_head r k v j (by omega) hr.2.1 hr.2.2, ih hr.2.2⟩

/-- Writing bytes keeps the canonical form. -/
theorem Memory.writeList_wf (m : List Host.Cell) (h : Memory.wf m = true) (k : Nat) (bs : List (BitVec 8)) :
    Memory.wf (Memory.writeList m k bs) = true := by
  induction bs generalizing m k with
  | nil => exact h
  | cons v r ih => exact ih _ (Memory.write_wf m h k v) (k + 1)

theorem Memory.clear_head (m : List Host.Cell) (f : Nat → Bool) (i : Nat) (h : ∀ c ∈ m.head?, i < c.1)
    (hm : Memory.wf m = true) : ∀ c ∈ (Memory.clear m f).head?, i < c.1 := by
  induction m with
  | nil => simp [Memory.clear]
  | cons c r ih =>
    obtain ⟨j, w⟩ := c
    have hw := (Memory.wf_cons j w r).1 hm
    have hj : i < j := h (j, w) rfl
    by_cases hf : f j = true
    · have e : Memory.clear ((j, w) :: r) f = Memory.clear r f := by simp [Memory.clear, hf]
      rw [e]
      exact ih (fun c hc => Nat.lt_trans hj (hw.2.1 c hc)) hw.2.2
    · simp [Memory.clear, hf, hj]

/-- Clearing bytes keeps the canonical form. -/
theorem Memory.clear_wf (m : List Host.Cell) (h : Memory.wf m = true) (f : Nat → Bool) :
    Memory.wf (Memory.clear m f) = true := by
  induction m with
  | nil => rfl
  | cons c r ih =>
    obtain ⟨j, w⟩ := c
    have hw := (Memory.wf_cons j w r).1 h
    by_cases hf : f j = true
    · have e : Memory.clear ((j, w) :: r) f = Memory.clear r f := by simp [Memory.clear, hf]
      rw [e]
      exact ih hw.2.2
    · have e : Memory.clear ((j, w) :: r) f = (j, w) :: Memory.clear r f := by simp [Memory.clear, hf]
      rw [e]
      exact (Memory.wf_cons _ _ _).2 ⟨hw.1, Memory.clear_head r f j hw.2.1 hw.2.2, ih hw.2.2⟩

/-- A key below every listed one reads as an unlisted byte. -/
theorem Memory.read_below (m : List Host.Cell) (k : Nat) (h : ∀ c ∈ m.head?, k < c.1) (hm : Memory.wf m = true) :
    Memory.read m k = 0 := by
  induction m with
  | nil => rfl
  | cons c r ih =>
    obtain ⟨j, w⟩ := c
    have hw := (Memory.wf_cons j w r).1 hm
    have hj : k < j := h (j, w) rfl
    simp only [Memory.read, if_neg (Nat.ne_of_gt hj)]
    exact ih (fun c hc => Nat.lt_trans hj (hw.2.1 c hc)) hw.2.2

/-- A byte just written reads as it was written. -/
theorem Memory.read_write_same (m : List Host.Cell) (k : Nat) (v : BitVec 8) (hm : Memory.wf m = true) :
    Memory.read (Memory.write m k v) k = v := by
  induction m with
  | nil =>
    simp only [Memory.write]
    split_ifs with hv
    · exact hv.symm
    · simp [Memory.read]
  | cons c r ih =>
    obtain ⟨j, w⟩ := c
    have hw := (Memory.wf_cons j w r).1 hm
    simp only [Memory.write]
    split_ifs with h1 hv h2 hv
    · exact (Memory.read_below _ k (fun c hc => by simp at hc; rw [← hc]; exact h1) hm).trans hv.symm
    · simp [Memory.read]
    · subst h2
      exact (Memory.read_below r j hw.2.1 hw.2.2).trans hv.symm
    · simp [Memory.read]
    · simp only [Memory.read, if_neg h2]
      exact ih hw.2.2

/-- A write leaves every other byte alone. -/
theorem Memory.read_write_other (m : List Host.Cell) (k a : Nat) (v : BitVec 8) (h : a ≠ k) :
    Memory.read (Memory.write m k v) a = Memory.read m a := by
  have h' : k ≠ a := h.symm
  induction m with
  | nil =>
    simp only [Memory.write]
    split_ifs with hv
    · rfl
    · simp [Memory.read, h']
  | cons c r ih =>
    obtain ⟨j, w⟩ := c
    simp only [Memory.write]
    split_ifs with h1 hv h2 hv
    · rfl
    · simp [Memory.read, h']
    · subst h2
      simp [Memory.read, h']
    · subst h2
      simp [Memory.read, h']
    · simp only [Memory.read, ih]

end Sys2Proof.Machine
end

