-- ==== Sys2Proof/Laws/Keeps.lean ====
section
/-!
SUPPORT. What no operation of the model does to a state: `Keeps a s`. Every operation from states to states has one
lemma that it keeps this, under Laws/KeepsOps.lean, KeepsUnits.lean, KeepsRows.lean and KeepsCommands.lean; every meaning
has one that its outcome does.
-/

namespace Sys2Proof.Machine

/-- What no command does to a state `a` on the way to `s`: the queue stays, the memory keeps its canonical form, a drawn
free value is never drawn again. -/
structure Keeps (a s : State) : Prop where
  pending : s.pending = a.pending
  wf : Memory.wf a.mem.hbm = true → Memory.wf s.mem.hbm = true
  free : a.free ≤ s.free

theorem Keeps.refl (a : State) : Keeps a a := ⟨rfl, id, Nat.le_refl _⟩

/-- A change outside the queue, the memory and the counter of free values. -/
theorem Keeps.of_eq {a s t : State} (h : Keeps a s) (hp : t.pending = s.pending) (hm : t.mem.hbm = s.mem.hbm)
    (hf : t.free = s.free) : Keeps a t :=
  ⟨hp.trans h.pending, fun w => hm ▸ h.wf w, hf ▸ h.free⟩

/-- The same, for a state written field by field. -/
theorem Keeps.of_mk {a s : State} {pending now free host evt fw uart ve pf acq rse sch mem ngl pwr cal}
    (h : Keeps a s) (hp : pending = s.pending) (hm : MemSt.hbm mem = s.mem.hbm) (hf : free = s.free) :
    Keeps a (State.mk pending now free host evt fw uart ve pf acq rse sch mem ngl pwr cal) :=
  h.of_eq hp hm hf

theorem Keeps.foldl {α : Type} {a s : State} (g : State → α → State) (l : List α)
    (hg : ∀ t x, Keeps a t → Keeps a (g t x)) (h : Keeps a s) : Keeps a (l.foldl g s) := by
  induction l generalizing s with
  | nil => exact h
  | cons x r ih => exact ih (hg s x h)

theorem Keeps.foldl_fst {α β : Type} {a : State} (g : State × β → α → State × β) (l : List α) (p : State × β)
    (hg : ∀ t x, Keeps a t.1 → Keeps a (g t x).1) (h : Keeps a p.1) : Keeps a (l.foldl g p).1 := by
  induction l generalizing p with
  | nil => exact h
  | cons x r ih => exact ih _ (hg p x h)

/-- A change that clears bytes of memory. -/
theorem Keeps.of_clear {a s t : State} (f : Nat → Bool) (h : Keeps a s) (hp : t.pending = s.pending)
    (hm : t.mem.hbm = Memory.clear s.mem.hbm f) (hf : t.free = s.free) : Keeps a t :=
  ⟨hp.trans h.pending, fun w => hm ▸ Memory.clear_wf _ (h.wf w) f, hf ▸ h.free⟩

/-- The same, for a state written field by field. -/
theorem Keeps.clear_mk {a s : State} {f : Nat → Bool} {pending now free host evt fw uart ve pf acq rse sch mem ngl pwr cal}
    (h : Keeps a s) (hp : pending = s.pending) (hm : MemSt.hbm mem = Memory.clear s.mem.hbm f) (hf : free = s.free) :
    Keeps a (State.mk pending now free host evt fw uart ve pf acq rse sch mem ngl pwr cal) :=
  h.of_clear f hp hm hf

/-- Every next state of an outcome keeps what a command must keep. -/
structure KeepsOut (a : State) (o : Out) : Prop where
  keeps : ∀ t, o = .next t → Keeps a t

theorem KeepsOut.next {a s : State} (h : Keeps a s) : KeepsOut a (.next s) := ⟨fun _ e => by cases e; exact h⟩

theorem KeepsOut.fault {a : State} (f : Fault) : KeepsOut a (.fault f) := ⟨fun _ e => by cases e⟩

end Sys2Proof.Machine
end

