-- ==== Sys2Proof/Laws/KeepsOps.lean ====
section
/-!
SUPPORT. What the operations of Ops.lean, Params.lean, Rings.lean, Lanes.lean and Fabric.lean keep (`Keeps`, Laws/Keeps.lean).
-/

set_option linter.unusedTactic false
set_option linter.unreachableTactic false

namespace Sys2Proof.Machine

/-! ## Ops -/

theorem foldS_keeps {z : State} {α : Type} (l : List α) (f : α → State → State) (s : State)
    (hf : ∀ x t, Keeps z t → Keeps z (f x t)) (h : Keeps z s) : Keeps z (foldS l f s) :=
  Keeps.foldl _ l (fun t x ht => hf x t ht) h

theorem State.updEng_keeps {z : State} (s : State) (k : Nat) (f : EngSt → EngSt) (hk : Keeps z s) :
    Keeps z (State.updEng s k f) := by
  unfold State.updEng
  try dsimp only
  repeat' first | split | (intro _; try dsimp only) | with_reducible first | assumption | refine Keeps.of_mk ?_ rfl rfl rfl

theorem State.updMark_keeps {z : State} (s : State) (k : Nat) (f : MarkSt → MarkSt) (hk : Keeps z s) :
    Keeps z (State.updMark s k f) := by
  unfold State.updMark
  try dsimp only
  repeat' first | split | (intro _; try dsimp only) | with_reducible first | assumption | refine Keeps.of_mk ?_ rfl rfl rfl

theorem State.updSite_keeps {z : State} (s : State) (k : Nat) (f : SiteSt → SiteSt) (hk : Keeps z s) :
    Keeps z (State.updSite s k f) := by
  unfold State.updSite
  try dsimp only
  repeat' first | split | (intro _; try dsimp only) | with_reducible first | assumption | refine Keeps.of_mk ?_ rfl rfl rfl

theorem State.updLane_keeps {z : State} (s : State) (k : Nat) (f : LaneSt → LaneSt) (hk : Keeps z s) :
    Keeps z (State.updLane s k f) := by
  unfold State.updLane
  try dsimp only
  repeat' first | split | (intro _; try dsimp only) | with_reducible first | assumption | refine Keeps.of_mk ?_ rfl rfl rfl

theorem State.updGrp_keeps {z : State} (s : State) (k : Nat) (f : GrpSt → GrpSt) (hk : Keeps z s) :
    Keeps z (State.updGrp s k f) := by
  unfold State.updGrp
  try dsimp only
  repeat' first | split | (intro _; try dsimp only) | with_reducible first | assumption | refine Keeps.of_mk ?_ rfl rfl rfl

theorem State.updDps_keeps {z : State} (s : State) (k : Nat) (f : DpsSt → DpsSt) (hk : Keeps z s) :
    Keeps z (State.updDps s k f) := by
  unfold State.updDps
  try dsimp only
  repeat' first | split | (intro _; try dsimp only) | with_reducible first | assumption | refine Keeps.of_mk ?_ rfl rfl rfl

theorem State.updChFail_keeps {z : State} (s : State) (k : Nat) (f : Nat → Nat) (hk : Keeps z s) :
    Keeps z (State.updChFail s k f) := by
  unfold State.updChFail
  try dsimp only
  repeat' first | split | (intro _; try dsimp only) | with_reducible first | assumption | refine Keeps.of_mk ?_ rfl rfl rfl

theorem State.updCu_keeps {z : State} (s : State) (k : Nat) (f : CuSt → CuSt) (hk : Keeps z s) :
    Keeps z (State.updCu s k f) := by
  unfold State.updCu
  try dsimp only
  repeat' first | split | (intro _; try dsimp only) | with_reducible first | assumption | refine Keeps.of_mk ?_ rfl rfl rfl

theorem State.updTrg_keeps {z : State} (s : State) (k : Nat) (f : TrgSt → TrgSt) (hk : Keeps z s) :
    Keeps z (State.updTrg s k f) := by
  unfold State.updTrg
  try dsimp only
  repeat' first | split | (intro _; try dsimp only) | with_reducible first | assumption | refine Keeps.of_mk ?_ rfl rfl rfl

theorem State.updHs_keeps {z : State} (s : State) (k : Nat) (f : HsSt → HsSt) (hk : Keeps z s) :
    Keeps z (State.updHs s k f) := by
  unfold State.updHs
  try dsimp only
  repeat' first | split | (intro _; try dsimp only) | with_reducible first | assumption | refine Keeps.of_mk ?_ rfl rfl rfl

theorem State.updMs_keeps {z : State} (s : State) (k : Nat) (f : MsSt → MsSt) (hk : Keeps z s) :
    Keeps z (State.updMs s k f) := by
  unfold State.updMs
  try dsimp only
  repeat' first | split | (intro _; try dsimp only) | with_reducible first | assumption | refine Keeps.of_mk ?_ rfl rfl rfl

theorem State.updPadc_keeps {z : State} (s : State) (k : Nat) (f : PadcSt → PadcSt) (hk : Keeps z s) :
    Keeps z (State.updPadc s k f) := by
  unfold State.updPadc
  try dsimp only
  repeat' first | split | (intro _; try dsimp only) | with_reducible first | assumption | refine Keeps.of_mk ?_ rfl rfl rfl

theorem State.updRse_keeps {z : State} (s : State) (k : Nat) (f : RseSt → RseSt) (hk : Keeps z s) :
    Keeps z (State.updRse s k f) := by
  unfold State.updRse
  try dsimp only
  repeat' first | split | (intro _; try dsimp only) | with_reducible first | assumption | refine Keeps.of_mk ?_ rfl rfl rfl

theorem State.updLink_keeps {z : State} (s : State) (k : Nat) (f : LinkSt → LinkSt) (hk : Keeps z s) :
    Keeps z (State.updLink s k f) := by
  unfold State.updLink
  try dsimp only
  repeat' first | split | (intro _; try dsimp only) | with_reducible first | assumption | refine Keeps.of_mk ?_ rfl rfl rfl

theorem State.updMc_keeps {z : State} (s : State) (k : Nat) (f : McSt → McSt) (hk : Keeps z s) :
    Keeps z (State.updMc s k f) := by
  unfold State.updMc
  try dsimp only
  repeat' first | split | (intro _; try dsimp only) | with_reducible first | assumption | refine Keeps.of_mk ?_ rfl rfl rfl

theorem State.updPc_keeps {z : State} (s : State) (k : Nat) (f : PcSt → PcSt) (hk : Keeps z s) :
    Keeps z (State.updPc s k f) := by
  unfold State.updPc
  try dsimp only
  repeat' first | split | (intro _; try dsimp only) | with_reducible first | assumption | refine Keeps.of_mk ?_ rfl rfl rfl

theorem State.updStack_keeps {z : State} (s : State) (k : Nat) (f : StackSt → StackSt) (hk : Keeps z s) :
    Keeps z (State.updStack s k f) := by
  unfold State.updStack
  try dsimp only
  repeat' first | split | (intro _; try dsimp only) | with_reducible first | assumption | refine Keeps.of_mk ?_ rfl rfl rfl

theorem State.updPort_keeps {z : State} (s : State) (k : Nat) (f : PortSt → PortSt) (hk : Keeps z s) :
    Keeps z (State.updPort s k f) := by
  unfold State.updPort
  try dsimp only
  repeat' first | split | (intro _; try dsimp only) | with_reducible first | assumption | refine Keeps.of_mk ?_ rfl rfl rfl

theorem State.updDom_keeps {z : State} (s : State) (k : Nat) (f : DomSt → DomSt) (hk : Keeps z s) :
    Keeps z (State.updDom s k f) := by
  unfold State.updDom
  try dsimp only
  repeat' first | split | (intro _; try dsimp only) | with_reducible first | assumption | refine Keeps.of_mk ?_ rfl rfl rfl

theorem State.updNtrg_keeps {z : State} (s : State) (k : Nat) (f : NtrgSt → NtrgSt) (hk : Keeps z s) :
    Keeps z (State.updNtrg s k f) := by
  unfold State.updNtrg
  try dsimp only
  repeat' first | split | (intro _; try dsimp only) | with_reducible first | assumption | refine Keeps.of_mk ?_ rfl rfl rfl

theorem State.updChime_keeps {z : State} (s : State) (k : Nat) (f : ChimeSt → ChimeSt) (hk : Keeps z s) :
    Keeps z (State.updChime s k f) := by
  unfold State.updChime
  try dsimp only
  repeat' first | split | (intro _; try dsimp only) | with_reducible first | assumption | refine Keeps.of_mk ?_ rfl rfl rfl

theorem State.updSlane_keeps {z : State} (s : State) (k : Nat) (f : SLaneSt → SLaneSt) (hk : Keeps z s) :
    Keeps z (State.updSlane s k f) := by
  unfold State.updSlane
  try dsimp only
  repeat' first | split | (intro _; try dsimp only) | with_reducible first | assumption | refine Keeps.of_mk ?_ rfl rfl rfl

theorem State.updHlink_keeps {z : State} (s : State) (k : Nat) (f : HostLink → HostLink) (hk : Keeps z s) :
    Keeps z (State.updHlink s k f) := by
  unfold State.updHlink
  try dsimp only
  repeat' first | split | (intro _; try dsimp only) | with_reducible first | assumption | refine Keeps.of_mk ?_ rfl rfl rfl

theorem State.updSns_keeps {z : State} (s : State) (k : Nat) (f : SnsSt → SnsSt) (hk : Keeps z s) :
    Keeps z (State.updSns s k f) := by
  unfold State.updSns
  try dsimp only
  repeat' first | split | (intro _; try dsimp only) | with_reducible first | assumption | refine Keeps.of_mk ?_ rfl rfl rfl

theorem State.updFn_keeps {z : State} (s : State) (k : Nat) (f : FnSt → FnSt) (hk : Keeps z s) :
    Keeps z (State.updFn s k f) := by
  unfold State.updFn
  try dsimp only
  repeat' first | split | (intro _; try dsimp only) | with_reducible first | assumption | refine Keeps.of_mk ?_ rfl rfl rfl

theorem State.putBurst_keeps {z : State} (s : State) (k : Nat) (v : Burst) (hk : Keeps z s) :
    Keeps z (State.putBurst s k v) := by
  unfold State.putBurst
  try dsimp only
  repeat' first | split | (intro _; try dsimp only) | with_reducible first | assumption | refine Keeps.of_mk ?_ rfl rfl rfl

theorem State.delBurst_keeps {z : State} (s : State) (k : Nat) (hk : Keeps z s) :
    Keeps z (State.delBurst s k) := by
  unfold State.delBurst
  try dsimp only
  repeat' first | split | (intro _; try dsimp only) | with_reducible first | assumption | refine Keeps.of_mk ?_ rfl rfl rfl

theorem State.updBurst_keeps {z : State} (s : State) (k : Nat) (f : Burst → Burst) (hk : Keeps z s) :
    Keeps z (State.updBurst s k f) := by
  unfold State.updBurst
  try dsimp only
  repeat' first | split | (intro _; try dsimp only) | with_reducible first | assumption | apply State.putBurst_keeps | refine Keeps.of_mk ?_ rfl rfl rfl

theorem State.putImage_keeps {z : State} (s : State) (k : Nat) (v : ImgSt) (hk : Keeps z s) :
    Keeps z (State.putImage s k v) := by
  unfold State.putImage
  try dsimp only
  repeat' first | split | (intro _; try dsimp only) | with_reducible first | assumption | refine Keeps.of_mk ?_ rfl rfl rfl

theorem State.delImage_keeps {z : State} (s : State) (k : Nat) (hk : Keeps z s) :
    Keeps z (State.delImage s k) := by
  unfold State.delImage
  try dsimp only
  repeat' first | split | (intro _; try dsimp only) | with_reducible first | assumption | refine Keeps.of_mk ?_ rfl rfl rfl

theorem State.updImage_keeps {z : State} (s : State) (k : Nat) (f : ImgSt → ImgSt) (hk : Keeps z s) :
    Keeps z (State.updImage s k f) := by
  unfold State.updImage
  try dsimp only
  repeat' first | split | (intro _; try dsimp only) | with_reducible first | assumption | apply State.putImage_keeps | refine Keeps.of_mk ?_ rfl rfl rfl

theorem State.putTask_keeps {z : State} (s : State) (k : Nat) (v : TaskSt) (hk : Keeps z s) :
    Keeps z (State.putTask s k v) := by
  unfold State.putTask
  try dsimp only
  repeat' first | split | (intro _; try dsimp only) | with_reducible first | assumption | refine Keeps.of_mk ?_ rfl rfl rfl

theorem State.delTask_keeps {z : State} (s : State) (k : Nat) (hk : Keeps z s) :
    Keeps z (State.delTask s k) := by
  unfold State.delTask
  try dsimp only
  repeat' first | split | (intro _; try dsimp only) | with_reducible first | assumption | refine Keeps.of_mk ?_ rfl rfl rfl

theorem State.updTask_keeps {z : State} (s : State) (k : Nat) (f : TaskSt → TaskSt) (hk : Keeps z s) :
    Keeps z (State.updTask s k f) := by
  unfold State.updTask
  try dsimp only
  repeat' first | split | (intro _; try dsimp only) | with_reducible first | assumption | apply State.putTask_keeps | refine Keeps.of_mk ?_ rfl rfl rfl

theorem State.moveTo_keeps {z : State} (s : State) (t : Nat) (hk : Keeps z s) :
    Keeps z (State.moveTo s t) := by
  unfold State.moveTo
  try dsimp only
  repeat' first | split | (intro _; try dsimp only) | with_reducible first | assumption | refine Keeps.of_mk ?_ rfl rfl rfl

theorem State.drawFree_keeps {z : State} (s : State) (h : Keeps z s) : Keeps z (State.drawFree s) :=
  ⟨h.pending, h.wf, Nat.le_succ_of_le h.free⟩

theorem State.rewrite_keeps {z : State} (s : State) (f : Nat → Bool) (hk : Keeps z s) :
    Keeps z (State.rewrite s f) := by
  unfold State.rewrite
  try dsimp only
  repeat' first | split | (intro _; try dsimp only) | with_reducible first | assumption | refine Keeps.of_mk ?_ rfl rfl rfl

theorem State.spoil_keeps {z : State} (s : State) (k : Nat) (hk : Keeps z s) :
    Keeps z (State.spoil s k) := by
  unfold State.spoil
  try dsimp only
  repeat' first | split | (intro _; try dsimp only) | with_reducible first | assumption | refine Keeps.of_mk ?_ rfl rfl rfl

theorem State.writeHbm_keeps {z : State} (s : State) (p a : Nat) (bs : List (BitVec 8)) (h : Keeps z s) :
    Keeps z (State.writeHbm s p a bs) := by
  unfold State.writeHbm
  split
  · exact h
  · exact ⟨h.pending, fun w => Memory.writeList_wf _ (h.wf w) _ _, h.free⟩

/-! ## Params -/

theorem State.setPar_keeps {z : State} (s : State) (id : Nat) (v : Int) (hk : Keeps z s) :
    Keeps z (State.setPar s id v) := by
  unfold State.setPar
  try dsimp only
  repeat' first | split | (intro _; try dsimp only) | with_reducible first | assumption | refine Keeps.of_mk ?_ rfl rfl rfl

/-! ## Rings -/

theorem State.fnErr_keeps {z : State} (s : State) (p kind detail lo hi : Nat) (hk : Keeps z s) :
    Keeps z (State.fnErr s p kind detail lo hi) := by
  unfold State.fnErr
  try dsimp only
  repeat' first | split | (intro _; try dsimp only) | with_reducible first | assumption | apply State.updFn_keeps | refine Keeps.of_mk ?_ rfl rfl rfl

theorem State.post_keeps {z : State} (s : State) (p : Nat) (c : Cpl) (hk : Keeps z s) :
    Keeps z (State.post s p c) := by
  unfold State.post
  try dsimp only
  repeat' first | split | (intro _; try dsimp only) | with_reducible first | assumption | apply State.updFn_keeps | refine Keeps.of_mk ?_ rfl rfl rfl

theorem State.flushCpl_keeps {z : State} (s : State) (p : Nat) (hk : Keeps z s) :
    Keeps z (State.flushCpl s p) := by
  unfold State.flushCpl
  try dsimp only
  repeat' first | split | (intro _; try dsimp only) | with_reducible first | assumption | apply State.updFn_keeps | refine Keeps.of_mk ?_ rfl rfl rfl

theorem State.complete_keeps {z : State} (s : State) (p tag : Nat) (op : BitVec 16) (st : Status) (result : List Nat) (data : List Int) (hk : Keeps z s) :
    Keeps z (State.complete s p tag op st result data) := by
  unfold State.complete
  try dsimp only
  repeat' first | split | (intro _; try dsimp only) | with_reducible first | assumption | apply State.post_keeps | refine Keeps.of_mk ?_ rfl rfl rfl

theorem State.refuseCmd_keeps {z : State} (s : State) (p tag : Nat) (op : BitVec 16) (st : Status) (result : List Nat) (hk : Keeps z s) :
    Keeps z (State.refuseCmd s p tag op st result) := by
  unfold State.refuseCmd
  try dsimp only
  repeat' first | split | (intro _; try dsimp only) | with_reducible first | assumption | apply State.complete_keeps | apply State.fnErr_keeps | refine Keeps.of_mk ?_ rfl rfl rfl

theorem State.deliver_keeps {z : State} (s : State) (p : Nat) (r : EvRec) (hk : Keeps z s) :
    Keeps z (State.deliver s p r) := by
  unfold State.deliver
  try dsimp only
  repeat' first | split | (intro _; try dsimp only) | with_reducible first | assumption | apply State.updFn_keeps | refine Keeps.of_mk ?_ rfl rfl rfl

theorem State.deliverAll_keeps {z : State} (s : State) (ps : List Nat) (r : EvRec) (hk : Keeps z s) :
    Keeps z (State.deliverAll s ps r) := by
  unfold State.deliverAll
  try dsimp only
  repeat' first | split | (intro _; try dsimp only) | with_reducible first | assumption | apply State.deliver_keeps | apply Keeps.foldl | apply Keeps.foldl_fst | refine Keeps.of_mk ?_ rfl rfl rfl

theorem State.drainEvts_keeps {z : State} (s : State) (p : Nat) (hk : Keeps z s) :
    Keeps z (State.drainEvts s p) := by
  unfold State.drainEvts
  try dsimp only
  repeat' first | split | (intro _; try dsimp only) | with_reducible first | assumption | apply State.react_keeps | apply State.updFn_keeps | apply Keeps.foldl | apply Keeps.foldl_fst | refine Keeps.of_mk ?_ rfl rfl rfl

theorem State.dmaFail_keeps {z : State} (s : State) (p tag : Nat) (op : BitVec 16) (addr : Nat) (hk : Keeps z s) :
    Keeps z (State.dmaFail s p tag op addr) := by
  unfold State.dmaFail
  try dsimp only
  repeat' first | split | (intro _; try dsimp only) | with_reducible first | assumption | apply State.complete_keeps | apply State.fnErr_keeps | refine Keeps.of_mk ?_ rfl rfl rfl

theorem State.command_keeps {z : State} (s : State) (p : Part) (tag : Nat) (op : BitVec 16) (rsvd right : Bool)
    (checks : List (Bool × Status × List Nat)) (effect : State → State)
    (he : ∀ t, Keeps z t → Keeps z (effect t)) (h : Keeps z s) :
    Keeps z (State.command s p tag op rsvd right checks effect) := by
  unfold State.command
  try dsimp only
  repeat' first | assumption | apply he | with_reducible apply State.updFn_keeps | with_reducible apply State.refuseCmd_keeps | with_reducible apply State.dmaFail_keeps | split

/-! ## Lanes -/

theorem State.stopChan_keeps {z : State} (s : State) (q c : Nat) (hk : Keeps z s) :
    Keeps z (State.stopChan s q c) := by
  unfold State.stopChan
  try dsimp only
  repeat' first | split | (intro _; try dsimp only) | with_reducible first | assumption | apply State.updLane_keeps | refine Keeps.of_mk ?_ rfl rfl rfl

theorem State.safeChan_keeps {z : State} (s : State) (c : Nat) (hk : Keeps z s) :
    Keeps z (State.safeChan s c) := by
  unfold State.safeChan
  try dsimp only
  repeat' first | split | (intro _; try dsimp only) | with_reducible first | assumption | apply State.updLane_keeps | refine Keeps.of_mk ?_ rfl rfl rfl

theorem State.stopSiteAt_keeps {z : State} (s : State) (q k : Nat) (hk : Keeps z s) :
    Keeps z (State.stopSiteAt s q k) := by
  unfold State.stopSiteAt
  try dsimp only
  repeat' first | split | (intro _; try dsimp only) | with_reducible first | assumption | apply State.stopChan_keeps | apply Keeps.foldl | apply Keeps.foldl_fst | refine Keeps.of_mk ?_ rfl rfl rfl

theorem State.stopSite_keeps {z : State} (s : State) (k : Nat) (hk : Keeps z s) :
    Keeps z (State.stopSite s k) := by
  unfold State.stopSite
  try dsimp only
  repeat' first | split | (intro _; try dsimp only) | with_reducible first | assumption | apply State.stopSiteAt_keeps | refine Keeps.of_mk ?_ rfl rfl rfl

theorem State.safeSite_keeps {z : State} (s : State) (k : Nat) (hk : Keeps z s) :
    Keeps z (State.safeSite s k) := by
  unfold State.safeSite
  try dsimp only
  repeat' first | split | (intro _; try dsimp only) | with_reducible first | assumption | apply State.safeChan_keeps | apply Keeps.foldl | apply Keeps.foldl_fst | refine Keeps.of_mk ?_ rfl rfl rfl

theorem State.safeAllLanes_keeps {z : State} (s : State) (hk : Keeps z s) :
    Keeps z (State.safeAllLanes s) := by
  unfold State.safeAllLanes
  try dsimp only
  repeat' first | split | (intro _; try dsimp only) | with_reducible first | assumption | apply State.safeChan_keeps | apply Keeps.foldl | apply Keeps.foldl_fst | refine Keeps.of_mk ?_ rfl rfl rfl

theorem State.dischargeDps_keeps {z : State} (s : State) (d : Nat) (hk : Keeps z s) :
    Keeps z (State.dischargeDps s d) := by
  unfold State.dischargeDps
  try dsimp only
  repeat' first | split | (intro _; try dsimp only) | with_reducible first | assumption | apply State.updDps_keeps | refine Keeps.of_mk ?_ rfl rfl rfl

theorem State.dropSeq_keeps {z : State} (s : State) (k : Nat) (hk : Keeps z s) :
    Keeps z (State.dropSeq s k) := by
  unfold State.dropSeq
  try dsimp only
  repeat' first | split | (intro _; try dsimp only) | with_reducible first | assumption | apply State.complete_keeps | apply State.updSite_keeps | refine Keeps.of_mk ?_ rfl rfl rfl

theorem State.dischargeSite_keeps {z : State} (s : State) (k : Nat) (hk : Keeps z s) :
    Keeps z (State.dischargeSite s k) := by
  unfold State.dischargeSite
  try dsimp only
  repeat' first | split | (intro _; try dsimp only) | with_reducible first | assumption | apply State.dischargeDps_keeps | apply State.dropSeq_keeps | apply Keeps.foldl | apply Keeps.foldl_fst | refine Keeps.of_mk ?_ rfl rfl rfl

theorem State.dischargeAll_keeps {z : State} (s : State) (hk : Keeps z s) :
    Keeps z (State.dischargeAll s) := by
  unfold State.dischargeAll
  try dsimp only
  repeat' first | split | (intro _; try dsimp only) | with_reducible first | assumption | apply State.dischargeDps_keeps | apply Keeps.foldl | apply Keeps.foldl_fst | refine Keeps.of_mk ?_ rfl rfl rfl

theorem State.calDone_keeps {z : State} (s : State) (u : CalUnit) (how : CalHow) (own : Option (Part × Nat)) (hk : Keeps z s) :
    Keeps z (State.calDone s u how own) := by
  unfold State.calDone
  try dsimp only
  repeat' first | split | (intro _; try dsimp only) | with_reducible first | assumption | apply State.complete_keeps | apply Keeps.foldl | apply Keeps.foldl_fst | refine Keeps.of_mk ?_ rfl rfl rfl

theorem State.calLane_keeps {z : State} (s : State) (l : Nat) (hk : Keeps z s) :
    Keeps z (State.calLane s l) := by
  unfold State.calLane
  try dsimp only
  repeat' first | split | (intro _; try dsimp only) | with_reducible first | assumption | apply State.updLane_keeps | refine Keeps.of_mk ?_ rfl rfl rfl

theorem State.calRelease_keeps {z : State} (s : State) (u : CalUnit) (hk : Keeps z s) :
    Keeps z (State.calRelease s u) := by
  unfold State.calRelease
  try dsimp only
  repeat' first | split | (intro _; try dsimp only) | with_reducible first | assumption | apply State.calLane_keeps | apply State.updGrp_keeps | apply Keeps.foldl | apply Keeps.foldl_fst | refine Keeps.of_mk ?_ rfl rfl rfl

theorem calDropAll_keeps {z : State} (l : List (CalUnit × Option (Part × Nat))) (s : State) (h : Keeps z s) :
    Keeps z (calDropAll l s) := by
  induction l generalizing s with
  | nil => exact h
  | cons x r ih => exact ih _ (State.calDone_keeps _ _ _ _ (h.of_eq rfl rfl rfl))

theorem State.calAbandon_keeps {z : State} (s : State) (f : CalUnit → Bool) (all : Bool) (h : Keeps z s) :
    Keeps z (State.calAbandon s f all) := by
  unfold State.calAbandon
  split
  · exact h
  · split
    · exact h
    · dsimp only
      have h2 := State.calDone_keeps _ (by assumption) .abandoned s.cal.run.runOwn (State.calRelease_keeps _ (by assumption)
        (h.of_eq (t := { s with cal.run := { s.cal.run with running := none, runOwn := none } }) rfl rfl rfl))
      split
      · exact calDropAll_keeps _ _ h2
      · exact h2

/-! ## Fabric -/

theorem State.interrupt_keeps {z : State} (s : State) (r : Nat) (way : EndWay) (hk : Keeps z s) :
    Keeps z (State.interrupt s r way) := by
  unfold State.interrupt
  try dsimp only
  repeat' first | split | (intro _; try dsimp only) | with_reducible first | assumption | apply State.updEng_keeps | refine Keeps.of_mk ?_ rfl rfl rfl

theorem State.endBurst_keeps {z : State} (s : State) (r : Nat) (way : EndWay) (result : SiteResult) (src : Nat) (hk : Keeps z s) :
    Keeps z (State.endBurst s r way result src) := by
  unfold State.endBurst
  try dsimp only
  repeat' first | split | (intro _; try dsimp only) | with_reducible first | assumption | apply State.interrupt_keeps | apply State.updBurst_keeps | refine Keeps.of_mk ?_ rfl rfl rfl

theorem State.cutBurst_keeps {z : State} (s : State) (r : Nat) (result : SiteResult) (src : Nat) (hk : Keeps z s) :
    Keeps z (State.cutBurst s r result src) := by
  unfold State.cutBurst
  try dsimp only
  repeat' first | split | (intro _; try dsimp only) | with_reducible first | assumption | apply State.interrupt_keeps | apply State.updBurst_keeps | refine Keeps.of_mk ?_ rfl rfl rfl

theorem State.fenceState_keeps {z : State} (s : State) (u : FUnit) (hk : Keeps z s) :
    Keeps z (State.fenceState s u) := by
  unfold State.fenceState
  try dsimp only
  repeat' first | split | (intro _; try dsimp only) | with_reducible first | assumption | apply State.updDps_keeps | apply State.updEng_keeps | apply State.updGrp_keeps | apply State.updLane_keeps | apply State.updMc_keeps | apply State.updMs_keeps | apply State.updPadc_keeps | apply State.updRse_keeps | refine Keeps.of_mk ?_ rfl rfl rfl

theorem State.openWindow_keeps {z : State} (s : State) (primary : Nat) (u : FUnit) (hk : Keeps z s) :
    Keeps z (State.openWindow s primary u) := by
  unfold State.openWindow
  try dsimp only
  repeat' first | split | (intro _; try dsimp only) | with_reducible first | assumption | refine Keeps.of_mk ?_ rfl rfl rfl

theorem State.damageImages_keeps {z : State} (rz : Occ → State → State) (m : Nat) (s : State) (hrz : ∀ x0 t, Keeps z t → Keeps z (rz x0 t)) (hk : Keeps z s) :
    Keeps z (State.damageImages rz m s) := by
  unfold State.damageImages
  try dsimp only
  repeat' first | split | (intro _; try dsimp only) | with_reducible first | assumption | apply State.complete_keeps | apply State.delImage_keeps | apply State.putImage_keeps | apply hrz | apply Keeps.foldl | apply Keeps.foldl_fst | refine Keeps.of_mk ?_ rfl rfl rfl

theorem State.lanesMode_keeps {z : State} (s : State) (b : Burst) (m : LaneMode) (hk : Keeps z s) :
    Keeps z (State.lanesMode s b m) := by
  unfold State.lanesMode
  try dsimp only
  repeat' first | split | (intro _; try dsimp only) | with_reducible first | assumption | apply State.updLane_keeps | apply Keeps.foldl | apply Keeps.foldl_fst | refine Keeps.of_mk ?_ rfl rfl rfl

theorem State.underrun_keeps {z : State} (rz : Occ → State → State) (s : State) (r : Nat) (b : Burst) (words : List Nat) (hrz : ∀ x0 t, Keeps z t → Keeps z (rz x0 t)) (hk : Keeps z s) :
    Keeps z (State.underrun rz s r b words) := by
  unfold State.underrun
  try dsimp only
  repeat' first | split | (intro _; try dsimp only) | with_reducible first | assumption | apply State.interrupt_keeps | apply State.lanesMode_keeps | apply State.putBurst_keeps | apply State.updBurst_keeps | apply hrz | refine Keeps.of_mk ?_ rfl rfl rfl

theorem State.fencePauses_keeps {z : State} (rz : Occ → State → State) (m : Nat) (s : State) (hrz : ∀ x0 t, Keeps z t → Keeps z (rz x0 t)) (hk : Keeps z s) :
    Keeps z (State.fencePauses rz m s) := by
  unfold State.fencePauses
  try dsimp only
  repeat' first | split | (intro _; try dsimp only) | with_reducible first | assumption | apply State.underrun_keeps | apply hrz | apply Keeps.foldl | apply Keeps.foldl_fst | refine Keeps.of_mk ?_ rfl rfl rfl

theorem State.poolEvent_keeps {z : State} (rz : Occ → State → State) (before : List (Nat × Nat)) (s : State) (hrz : ∀ x0 t, Keeps z t → Keeps z (rz x0 t)) (hk : Keeps z s) :
    Keeps z (State.poolEvent rz before s) := by
  unfold State.poolEvent
  try dsimp only
  repeat' first | split | (intro _; try dsimp only) | with_reducible first | assumption | apply hrz | refine Keeps.of_mk ?_ rfl rfl rfl

theorem State.fence_keeps {z : State} (rz : Occ → State → State) (src primary : Nat) (u : FUnit) (s : State) (hrz : ∀ x0 t, Keeps z t → Keeps z (rz x0 t)) (hk : Keeps z s) :
    Keeps z (State.fence rz src primary u s) := by
  unfold State.fence
  try dsimp only
  repeat' first | split | (intro _; try dsimp only) | with_reducible first | assumption | apply State.calAbandon_keeps | apply State.damageImages_keeps | apply State.dropSeq_keeps | apply State.endBurst_keeps | apply State.fencePauses_keeps | apply State.fenceState_keeps | apply State.openWindow_keeps | apply State.poolEvent_keeps | apply hrz | apply Keeps.foldl | apply Keeps.foldl_fst | refine Keeps.of_mk ?_ rfl rfl rfl

theorem State.safeState_keeps {z : State} (s : State) (reason src : Nat) (hk : Keeps z s) :
    Keeps z (State.safeState s reason src) := by
  unfold State.safeState
  try dsimp only
  repeat' first | split | (intro _; try dsimp only) | with_reducible first | assumption | apply State.calAbandon_keeps | apply State.cutBurst_keeps | apply State.dischargeAll_keeps | apply State.dropSeq_keeps | apply State.safeAllLanes_keeps | apply Keeps.foldl | apply Keeps.foldl_fst | refine Keeps.of_mk ?_ rfl rfl rfl

theorem State.enterFatal_keeps {z : State} (s : State) (src : Nat) (hk : Keeps z s) :
    Keeps z (State.enterFatal s src) := by
  unfold State.enterFatal
  try dsimp only
  repeat' first | split | (intro _; try dsimp only) | with_reducible first | assumption | refine Keeps.of_mk ?_ rfl rfl rfl

theorem State.settledInvalid_keeps {z : State} (s : State) (k : Nat) (hk : Keeps z s) :
    Keeps z (State.settledInvalid s k) := by
  unfold State.settledInvalid
  try dsimp only
  repeat' first | split | (intro _; try dsimp only) | with_reducible first | assumption | refine Keeps.of_mk ?_ rfl rfl rfl

theorem State.windowAction_keeps {z : State} (s : State) (d src : Nat) (eff : Nat) (hk : Keeps z s) :
    Keeps z (State.windowAction s d src eff) := by
  unfold State.windowAction
  try dsimp only
  repeat' first | split | (intro _; try dsimp only) | with_reducible first | assumption | apply State.dischargeSite_keeps | apply State.endBurst_keeps | apply State.safeSite_keeps | apply State.settledInvalid_keeps | apply State.stopSite_keeps | apply State.updSite_keeps | refine Keeps.of_mk ?_ rfl rfl rfl

theorem State.alarm_keeps {z : State} (s : State) (o : Occ) (hk : Keeps z s) :
    Keeps z (State.alarm s o) := by
  unfold State.alarm
  try dsimp only
  repeat' first | split | (intro _; try dsimp only) | with_reducible first | assumption | refine Keeps.of_mk ?_ rfl rfl rfl

theorem State.queueC3_keeps {z : State} (rz : Occ → State → State) (dst : Nat) (f : Frame) (s : State) (hrz : ∀ x0 t, Keeps z t → Keeps z (rz x0 t)) (hk : Keeps z s) :
    Keeps z (State.queueC3 rz dst f s) := by
  unfold State.queueC3
  try dsimp only
  repeat' first | split | (intro _; try dsimp only) | with_reducible first | assumption | apply State.noRoute_keeps | apply State.updPort_keeps | apply hrz | refine Keeps.of_mk ?_ rfl rfl rfl

theorem State.sendLog_keeps {z : State} (rz : Occ → State → State) (r : EvRec) (s : State) (hrz : ∀ x0 t, Keeps z t → Keeps z (rz x0 t)) (hk : Keeps z s) :
    Keeps z (State.sendLog rz r s) := by
  unfold State.sendLog
  try dsimp only
  repeat' first | split | (intro _; try dsimp only) | with_reducible first | assumption | apply State.queueC3_keeps | apply State.react_keeps | apply State.remote_keeps | apply hrz | refine Keeps.of_mk ?_ rfl rfl rfl

theorem State.writeRecord_keeps {z : State} (rz : Occ → State → State) (ps : List Nat) (r : EvRec) (s : State) (hrz : ∀ x0 t, Keeps z t → Keeps z (rz x0 t)) (hk : Keeps z s) :
    Keeps z (State.writeRecord rz ps r s) := by
  unfold State.writeRecord
  try dsimp only
  repeat' first | split | (intro _; try dsimp only) | with_reducible first | assumption | apply State.deliverAll_keeps | apply State.deliver_keeps | apply State.sendLog_keeps | apply hrz | apply Keeps.foldl | apply Keeps.foldl_fst | refine Keeps.of_mk ?_ rfl rfl rfl

theorem State.openSwitch_keeps {z : State} (s : State) (hk : Keeps z s) :
    Keeps z (State.openSwitch s) := by
  unfold State.openSwitch
  try dsimp only
  repeat' first | split | (intro _; try dsimp only) | with_reducible first | assumption | refine Keeps.of_mk ?_ rfl rfl rfl

theorem State.hardware_keeps {z : State} (s : State) (o : Occ) (hk : Keeps z s) :
    Keeps z (State.hardware s o) := by
  unfold State.hardware
  try dsimp only
  repeat' first | split | (intro _; try dsimp only) | with_reducible first | assumption | apply State.openSwitch_keeps | refine Keeps.of_mk ?_ rfl rfl rfl

theorem State.react_keeps {z : State} (rz : Occ → State → State) (o : Occ) (eff primary : Nat) (s : State) (hrz : ∀ x0 t, Keeps z t → Keeps z (rz x0 t)) (hk : Keeps z s) :
    Keeps z (State.react rz o eff primary s) := by
  unfold State.react
  try dsimp only
  repeat' first | split | (intro _; try dsimp only) | with_reducible first | assumption | apply State.endBurst_keeps | apply State.enterFatal_keeps | apply State.fence_keeps | apply State.hardware_keeps | apply State.safeState_keeps | apply State.windowAction_keeps | apply hrz | apply Keeps.foldl | apply Keeps.foldl_fst | refine Keeps.of_mk ?_ rfl rfl rfl

theorem State.raiseWith_keeps {z : State} (rz : Occ → State → State) (o : Occ) (s : State)
    (hrz : ∀ o t, Keeps z t → Keeps z (rz o t)) (h : Keeps z s) : Keeps z (State.raiseWith rz o s) := by
  unfold State.raiseWith
  extract_lets cfg eff e s1 s2 after e2 s3
  have h1 : Keeps z s1 := h.of_eq rfl rfl rfl
  have h2 : Keeps z s2 := by
    dsimp only [s2]
    split
    · exact State.alarm_keeps _ _ h1
    · exact h1
  have h3 : Keeps z s3 := by
    dsimp only [s3]
    split
    · exact h2
    · exact State.writeRecord_keeps _ _ _ _ hrz h2
  split
  · exact State.react_keeps _ _ _ _ _ hrz (h2.of_eq rfl rfl rfl)
  · exact State.react_keeps _ _ _ _ _ hrz h3

theorem raiseN_keeps {z : State} (n : Nat) (o : Occ) (s : State) (h : Keeps z s) : Keeps z (raiseN n o s) := by
  induction n generalizing o s with
  | zero => exact h
  | succ n ih => exact State.raiseWith_keeps _ o s (fun o t ht => ih o t ht) h

theorem State.raise_keeps {z : State} (s : State) (o : Occ) (h : Keeps z s) : Keeps z (State.raise s o) :=
  raiseN_keeps 4 o s h

theorem raiseTop_keeps {z : State} (o : Occ) (s : State) (hk : Keeps z s) :
    Keeps z (raiseTop o s) := by
  unfold raiseTop
  try dsimp only
  repeat' first | split | (intro _; try dsimp only) | with_reducible first | assumption | apply State.raise_keeps | refine Keeps.of_mk ?_ rfl rfl rfl

theorem State.event_keeps {z : State} (s : State) (src : Nat) (payload : List Nat) (names : List Elem) (hk : Keeps z s) :
    Keeps z (State.event s src payload names) := by
  unfold State.event
  try dsimp only
  repeat' first | split | (intro _; try dsimp only) | with_reducible first | assumption | apply State.raise_keeps | refine Keeps.of_mk ?_ rfl rfl rfl

theorem State.precedence_keeps {z : State} (s : State) (kept broken p : Nat) (hk : Keeps z s) :
    Keeps z (State.precedence s kept broken p) := by
  unfold State.precedence
  try dsimp only
  repeat' first | split | (intro _; try dsimp only) | with_reducible first | assumption | apply State.raise_keeps | refine Keeps.of_mk ?_ rfl rfl rfl

theorem State.tagCheck_keeps {z : State} (s : State) (blk addr master access el : Nat) (hk : Keeps z s) :
    Keeps z (State.tagCheck s blk addr master access el) := by
  unfold State.tagCheck
  try dsimp only
  repeat' first | split | (intro _; try dsimp only) | with_reducible first | assumption | refine Keeps.of_mk ?_ rfl rfl rfl

end Sys2Proof.Machine
end

