-- ==== Sys2Proof/Laws/KeepsUnits.lean ====
section
/-!
SUPPORT. What the operations of the units keep (`Keeps`, Laws/Keeps.lean).
-/

set_option linter.unusedTactic false
set_option linter.unreachableTactic false

namespace Sys2Proof.Machine

/-! ## Streams -/

theorem State.streamMsix_keeps {z : State} (s : State) (h : Nat) (hk : Keeps z s) :
    Keeps z (State.streamMsix s h) := by
  unfold State.streamMsix
  try dsimp only
  repeat' first | split | (intro _; try dsimp only) | with_reducible first | assumption | apply State.updFn_keeps | refine Keeps.of_mk ?_ rfl rfl rfl

theorem State.drainStreams_keeps {z : State} (s : State) (hk : Keeps z s) :
    Keeps z (State.drainStreams s) := by
  unfold State.drainStreams
  try dsimp only
  repeat' first | split | (intro _; try dsimp only) | with_reducible first | assumption | apply Keeps.foldl | apply Keeps.foldl_fst | refine Keeps.of_mk ?_ rfl rfl rfl

theorem State.streamWrite_keeps {z : State} (s : State) (h t : Nat) (hk : Keeps z s) :
    Keeps z (State.streamWrite s h t) := by
  unfold State.streamWrite
  try dsimp only
  repeat' first | split | (intro _; try dsimp only) | with_reducible first | assumption | apply State.drainStreams_keeps | apply State.event_keeps | apply State.streamMsix_keeps | apply State.updHs_keeps | refine Keeps.of_mk ?_ rfl rfl rfl

theorem State.streamPush_keeps {z : State} (s : State) (h : Nat) (r : StrmRec) (hk : Keeps z s) :
    Keeps z (State.streamPush s h r) := by
  unfold State.streamPush
  try dsimp only
  repeat' first | split | (intro _; try dsimp only) | with_reducible first | assumption | apply State.streamWrite_keeps | apply State.updHs_keeps | refine Keeps.of_mk ?_ rfl rfl rfl

theorem State.streamRecover_keeps {z : State} (s : State) (h : Nat) (hk : Keeps z s) :
    Keeps z (State.streamRecover s h) := by
  unfold State.streamRecover
  try dsimp only
  repeat' first | split | (intro _; try dsimp only) | with_reducible first | assumption | apply State.streamPush_keeps | refine Keeps.of_mk ?_ rfl rfl rfl

theorem State.sitePush_keeps {z : State} (s : State) (site n : Nat) (r : StrmRec) (hk : Keeps z s) :
    Keeps z (State.sitePush s site n r) := by
  unfold State.sitePush
  try dsimp only
  repeat' first | split | (intro _; try dsimp only) | with_reducible first | assumption | apply State.streamPush_keeps | refine Keeps.of_mk ?_ rfl rfl rfl

theorem State.sitePushAll_keeps {z : State} (s : State) (site : Nat) (r : StrmRec) (hk : Keeps z s) :
    Keeps z (State.sitePushAll s site r) := by
  unfold State.sitePushAll
  try dsimp only
  repeat' first | split | (intro _; try dsimp only) | with_reducible first | assumption | apply State.sitePush_keeps | apply Keeps.foldl | apply Keeps.foldl_fst | refine Keeps.of_mk ?_ rfl rfl rfl

/-! ## Governor -/

theorem State.shed_keeps {z : State} (s : State) (k : Nat) (hk : Keeps z s) :
    Keeps z (State.shed s k) := by
  unfold State.shed
  try dsimp only
  repeat' first | split | (intro _; try dsimp only) | with_reducible first | assumption | apply State.dischargeSite_keeps | apply State.event_keeps | apply State.safeSite_keeps | apply State.settledInvalid_keeps | apply State.updSite_keeps | refine Keeps.of_mk ?_ rfl rfl rfl

theorem State.shedLoop_keeps {z : State} (n : Nat) (s : State) (hk : Keeps z s) : Keeps z (s.shedLoop n) := by
  induction n generalizing s with
  | zero => exact hk
  | succ n ih =>
    unfold State.shedLoop
    split
    · exact hk
    · split
      · exact ih _ (State.shed_keeps _ _ hk)
      · exact hk

theorem State.recompute_keeps {z : State} (s : State) (hk : Keeps z s) : Keeps z s.recompute := by
  unfold State.recompute
  extract_lets old b g0 g s0 s1 s2
  have h1 : Keeps z s1 := hk.of_eq rfl rfl rfl
  have h2 : Keeps z s2 := by
    dsimp only [s2]
    split
    · exact State.event_keeps _ _ _ _ h1
    · exact h1
  split
  · exact State.shedLoop_keeps _ _ h2
  · exact h2

theorem State.wakePc_keeps {z : State} (s : State) (x : Nat) (hk : Keeps z s) :
    Keeps z (State.wakePc s x) := by
  unfold State.wakePc
  try dsimp only
  repeat' first | split | (intro _; try dsimp only) | with_reducible first | assumption | apply State.updPc_keeps | refine Keeps.of_mk ?_ rfl rfl rfl

theorem State.leaveLow_keeps {z : State} (s : State) (hk : Keeps z s) :
    Keeps z (State.leaveLow s) := by
  unfold State.leaveLow
  try dsimp only
  repeat' first | split | (intro _; try dsimp only) | with_reducible first | assumption | apply State.wakePc_keeps | apply Keeps.foldl | apply Keeps.foldl_fst | refine Keeps.of_mk ?_ rfl rfl rfl

/-! ## Tokens -/

theorem State.placeTok_keeps {z : State} (s : State) (t : TokIn) (hk : Keeps z s) :
    Keeps z (State.placeTok s t) := by
  unfold State.placeTok
  try dsimp only
  repeat' first | split | (intro _; try dsimp only) | with_reducible first | assumption | refine Keeps.of_mk ?_ rfl rfl rfl

theorem State.arrive_keeps {z : State} (s : State) (t : TokIn) (hk : Keeps z s) :
    Keeps z (State.arrive s t) := by
  unfold State.arrive
  try dsimp only
  repeat' first | split | (intro _; try dsimp only) | with_reducible first | assumption | apply State.event_keeps | apply State.placeTok_keeps | refine Keeps.of_mk ?_ rfl rfl rfl

theorem State.freeTask_keeps {z : State} (s : State) (i : Nat) (hk : Keeps z s) :
    Keeps z (State.freeTask s i) := by
  unfold State.freeTask
  try dsimp only
  repeat' first | split | (intro _; try dsimp only) | with_reducible first | assumption | apply State.delTask_keeps | refine Keeps.of_mk ?_ rfl rfl rfl

theorem State.dropTask_keeps {z : State} (s : State) (i : Nat) (t : TaskSt) (st : Status) (words : List Nat) (done : SiteResult) (hk : Keeps z s) :
    Keeps z (State.dropTask s i t st words done) := by
  unfold State.dropTask
  try dsimp only
  repeat' first | split | (intro _; try dsimp only) | with_reducible first | assumption | apply State.arrive_keeps | apply State.complete_keeps | apply State.freeTask_keeps | refine Keeps.of_mk ?_ rfl rfl rfl

theorem State.wakeTask_keeps {z : State} (s : State) (x : Nat × TaskSt) (hk : Keeps z s) :
    ∀ t ∈ s.wakeTask x, Keeps z t := by
  unfold State.wakeTask
  intro t ht
  split at ht
  · simp at ht
  · dsimp only at ht
    split at ht <;> (simp only [Option.mem_def, Option.some.injEq] at ht; subst ht)
    · exact State.dropTask_keeps _ _ _ _ _ _ (hk.of_eq rfl rfl rfl)
    · exact State.updTask_keeps _ _ _ (hk.of_eq rfl rfl rfl)

theorem State.wakeOne_keeps {z : State} (l : List (Nat × TaskSt)) (s : State) (hk : Keeps z s) :
    ∀ t ∈ s.wakeOne l, Keeps z t := by
  induction l with
  | nil => simp [State.wakeOne]
  | cons x r ih =>
    intro t ht
    unfold State.wakeOne at ht
    split at ht
    · simp only [Option.mem_def, Option.some.injEq] at ht
      subst ht
      exact State.wakeTask_keeps s x hk _ ‹_›
    · exact ih t ht

theorem State.wakeAll_keeps {z : State} (n : Nat) (s : State) (hk : Keeps z s) : Keeps z (s.wakeAll n) := by
  induction n generalizing s with
  | zero => exact hk
  | succ n ih =>
    unfold State.wakeAll
    split
    · exact ih _ (State.wakeOne_keeps _ _ hk _ ‹_›)
    · exact hk

theorem State.wake_keeps {z : State} (s : State) (hk : Keeps z s) : Keeps z s.wake := State.wakeAll_keeps _ _ hk

theorem State.issueTok_keeps {z : State} (s : State) (t : TokIn) (hk : Keeps z s) :
    Keeps z (State.issueTok s t) := by
  unfold State.issueTok
  try dsimp only
  repeat' first | split | (intro _; try dsimp only) | with_reducible first | assumption | apply State.arrive_keeps | apply State.wake_keeps | refine Keeps.of_mk ?_ rfl rfl rfl

theorem State.endTask_keeps {z : State} (s : State) (i : Nat) (t : TaskSt) (st : Status) (words : List Nat) (done : SiteResult) (hk : Keeps z s) :
    Keeps z (State.endTask s i t st words done) := by
  unfold State.endTask
  try dsimp only
  repeat' first | split | (intro _; try dsimp only) | with_reducible first | assumption | apply State.dropTask_keeps | apply State.wake_keeps | refine Keeps.of_mk ?_ rfl rfl rfl

theorem State.drainTok_keeps {z : State} (n : Nat) (s : State) (hk : Keeps z s) : Keeps z (s.drainTok n) := by
  induction n generalizing s with
  | zero => exact hk
  | succ n ih =>
    unfold State.drainTok
    split
    · split
      · exact ih _ (State.placeTok_keeps _ _ (hk.of_eq rfl rfl rfl))
      · exact hk
    · exact hk

/-! ## NglOps -/

theorem State.sendFlow_keeps {z : State} (s : State) (p credits : Nat) (hk : Keeps z s) :
    Keeps z (State.sendFlow s p credits) := by
  unfold State.sendFlow
  try dsimp only
  repeat' first | split | (intro _; try dsimp only) | with_reducible first | assumption | apply State.updPort_keeps | refine Keeps.of_mk ?_ rfl rfl rfl

theorem State.flowOthers_keeps {z : State} (s : State) (p : Nat) (hk : Keeps z s) :
    Keeps z (State.flowOthers s p) := by
  unfold State.flowOthers
  try dsimp only
  repeat' first | split | (intro _; try dsimp only) | with_reducible first | assumption | apply State.sendFlow_keeps | apply Keeps.foldl | apply Keeps.foldl_fst | refine Keeps.of_mk ?_ rfl rfl rfl

theorem State.c0Cond_keeps {z : State} (s : State) (p cause : Nat) (hk : Keeps z s) :
    Keeps z (State.c0Cond s p cause) := by
  unfold State.c0Cond
  try dsimp only
  repeat' first | split | (intro _; try dsimp only) | with_reducible first | assumption | apply State.event_keeps | refine Keeps.of_mk ?_ rfl rfl rfl

theorem State.xoffEvent_keeps {z : State} (s : State) (p : Nat) (hk : Keeps z s) :
    Keeps z (State.xoffEvent s p) := by
  unfold State.xoffEvent
  try dsimp only
  repeat' first | split | (intro _; try dsimp only) | with_reducible first | assumption | apply State.c0Cond_keeps | apply State.event_keeps | apply State.updPort_keeps | refine Keeps.of_mk ?_ rfl rfl rfl

theorem State.queueC0_keeps {z : State} (s : State) (p : Nat) (f : Frame) (hk : Keeps z s) :
    Keeps z (State.queueC0 s p f) := by
  unfold State.queueC0
  try dsimp only
  repeat' first | split | (intro _; try dsimp only) | with_reducible first | assumption | apply State.flowOthers_keeps | apply State.updPort_keeps | apply State.xoffEvent_keeps | refine Keeps.of_mk ?_ rfl rfl rfl

theorem State.queueC1_keeps {z : State} (s : State) (p : Nat) (f : Frame) (hk : Keeps z s) :
    Keeps z (State.queueC1 s p f) := by
  unfold State.queueC1
  try dsimp only
  repeat' first | split | (intro _; try dsimp only) | with_reducible first | assumption | apply State.updPort_keeps | refine Keeps.of_mk ?_ rfl rfl rfl

theorem State.queueC2_keeps {z : State} (s : State) (p : Nat) (f : Frame) (hk : Keeps z s) :
    Keeps z (State.queueC2 s p f) := by
  unfold State.queueC2
  try dsimp only
  repeat' first | split | (intro _; try dsimp only) | with_reducible first | assumption | apply State.updPort_keeps | refine Keeps.of_mk ?_ rfl rfl rfl

theorem State.noRoute_keeps {z : State} (s : State) (hk : Keeps z s) :
    Keeps z (State.noRoute s) := by
  unfold State.noRoute
  try dsimp only
  repeat' first | split | (intro _; try dsimp only) | with_reducible first | assumption | refine Keeps.of_mk ?_ rfl rfl rfl

theorem State.sendC1_keeps {z : State} (s : State) (node : Nat) (f : Frame) (hk : Keeps z s) :
    Keeps z (State.sendC1 s node f) := by
  unfold State.sendC1
  try dsimp only
  repeat' first | split | (intro _; try dsimp only) | with_reducible first | assumption | apply State.noRoute_keeps | apply State.queueC1_keeps | refine Keeps.of_mk ?_ rfl rfl rfl

theorem State.broadcast_keeps {z : State} (s : State) (from_ : Option Nat) (q : State → Nat → State) (hq : ∀ t x1, Keeps z t → Keeps z (q t x1)) (hk : Keeps z s) :
    Keeps z (State.broadcast s from_ q) := by
  unfold State.broadcast
  try dsimp only
  repeat' first | split | (intro _; try dsimp only) | with_reducible first | assumption | apply hq | apply Keeps.foldl | apply Keeps.foldl_fst | refine Keeps.of_mk ?_ rfl rfl rfl

theorem State.forward_keeps {z : State} (s : State) (port dst : Nat) (q : State → Nat → State) (hq : ∀ t x1, Keeps z t → Keeps z (q t x1)) (hk : Keeps z s) :
    Keeps z (State.forward s port dst q) := by
  unfold State.forward
  try dsimp only
  repeat' first | split | (intro _; try dsimp only) | with_reducible first | assumption | apply State.event_keeps | apply State.noRoute_keeps | apply hq | refine Keeps.of_mk ?_ rfl rfl rfl

theorem State.returnCredit_keeps {z : State} (s : State) (p : Nat) (hk : Keeps z s) :
    Keeps z (State.returnCredit s p) := by
  unfold State.returnCredit
  try dsimp only
  repeat' first | split | (intro _; try dsimp only) | with_reducible first | assumption | apply State.sendFlow_keeps | refine Keeps.of_mk ?_ rfl rfl rfl

theorem State.drainHeld_keeps {z : State} (s : State) (hk : Keeps z s) :
    Keeps z (State.drainHeld s) := by
  unfold State.drainHeld
  try dsimp only
  repeat' first | split | (intro _; try dsimp only) | with_reducible first | assumption | apply State.placeTok_keeps | apply State.returnCredit_keeps | apply State.updPort_keeps | apply Keeps.foldl | apply Keeps.foldl_fst | refine Keeps.of_mk ?_ rfl rfl rfl

theorem State.receiveTrig_keeps {z : State} (s : State) (number : NTrg) (t rx : Nat) (hk : Keeps z s) :
    Keeps z (State.receiveTrig s number t rx) := by
  unfold State.receiveTrig
  try dsimp only
  repeat' first | split | (intro _; try dsimp only) | with_reducible first | assumption | apply State.drawFree_keeps | apply State.event_keeps | apply State.updNtrg_keeps | refine Keeps.of_mk ?_ rfl rfl rfl

theorem State.sendTrig_keeps {z : State} (s : State) (number : NTrg) (t : Nat) (hk : Keeps z s) :
    Keeps z (State.sendTrig s number t) := by
  unfold State.sendTrig
  try dsimp only
  repeat' first | split | (intro _; try dsimp only) | with_reducible first | assumption | apply State.broadcast_keeps | apply State.queueC0_keeps | apply State.receiveTrig_keeps | refine Keeps.of_mk ?_ rfl rfl rfl

/-! ## Operands -/

theorem State.machineCheck_keeps {z : State} (s : State) (e off : Nat) (err : Option (Nat × Nat × Nat)) (hk : Keeps z s) :
    Keeps z (State.machineCheck s e off err) := by
  unfold State.machineCheck
  try dsimp only
  repeat' first | split | (intro _; try dsimp only) | with_reducible first | assumption | apply State.raise_keeps | apply State.updEng_keeps | refine Keeps.of_mk ?_ rfl rfl rfl

theorem State.transfer_keeps {z : State} (s : State) (e : Eng) (img : Image) (b : Burst) (seg lpop : Nat) (hk : Keeps z s) :
    Keeps z (State.transfer s e img b seg lpop) := by
  unfold State.transfer
  try dsimp only
  repeat' first | split | (intro _; try dsimp only) | with_reducible first | assumption | apply State.machineCheck_keeps | apply State.putBurst_keeps | refine Keeps.of_mk ?_ rfl rfl rfl

/-! ## Measure -/

theorem State.closeRaw_keeps {z : State} (s : State) (m : Nat) (hk : Keeps z s) :
    Keeps z (State.closeRaw s m) := by
  unfold State.closeRaw
  try dsimp only
  repeat' first | split | (intro _; try dsimp only) | with_reducible first | assumption | apply State.sitePush_keeps | apply State.updMs_keeps | refine Keeps.of_mk ?_ rfl rfl rfl

theorem State.armSet_keeps {z : State} (s : State) (m ref : Nat) (late : Bool) (hk : Keeps z s) :
    Keeps z (State.armSet s m ref late) := by
  unfold State.armSet
  try dsimp only
  repeat' first | split | (intro _; try dsimp only) | with_reducible first | assumption | apply State.closeRaw_keeps | apply State.updMs_keeps | refine Keeps.of_mk ?_ rfl rfl rfl

theorem State.publishSet_keeps {z : State} (s : State) (m : Nat) (part timeout endEarly stays : Bool) (hk : Keeps z s) :
    Keeps z (State.publishSet s m part timeout endEarly stays) := by
  unfold State.publishSet
  try dsimp only
  repeat' first | split | (intro _; try dsimp only) | with_reducible first | assumption | apply State.closeRaw_keeps | apply State.issueTok_keeps | apply State.sitePush_keeps | apply State.updMs_keeps | refine Keeps.of_mk ?_ rfl rfl rfl

theorem State.drainRaw_keeps {z : State} (s : State) (hk : Keeps z s) :
    Keeps z (State.drainRaw s) := by
  unfold State.drainRaw
  try dsimp only
  repeat' first | split | (intro _; try dsimp only) | with_reducible first | assumption | apply Keeps.foldl | apply Keeps.foldl_fst | refine Keeps.of_mk ?_ rfl rfl rfl

theorem State.rawValue_keeps {z : State} (s : State) (m : Nat) (x : Int) (sub sat : Bool) (later : Nat) (hk : Keeps z s) :
    Keeps z (State.rawValue s m x sub sat later) := by
  unfold State.rawValue
  try dsimp only
  repeat' first | split | (intro _; try dsimp only) | with_reducible first | assumption | apply State.closeRaw_keeps | apply State.drainRaw_keeps | apply State.event_keeps | apply State.updMs_keeps | refine Keeps.of_mk ?_ rfl rfl rfl

theorem State.addValue_keeps {z : State} (s : State) (m : Nat) (v : Int) (sub : Bool) (later : Nat) (hk : Keeps z s) :
    Keeps z (State.addValue s m v sub later) := by
  unfold State.addValue
  try dsimp only
  repeat' first | split | (intro _; try dsimp only) | with_reducible first | assumption | apply State.publishSet_keeps | apply State.rawValue_keeps | apply State.updMs_keeps | refine Keeps.of_mk ?_ rfl rfl rfl

theorem State.closeGate_keeps {z : State} (s : State) (m : Nat) (hk : Keeps z s) :
    Keeps z (State.closeGate s m) := by
  unfold State.closeGate
  try dsimp only
  repeat' first | split | (intro _; try dsimp only) | with_reducible first | assumption | apply State.addValue_keeps | apply State.updMs_keeps | refine Keeps.of_mk ?_ rfl rfl rfl

theorem State.closeGates_keeps {z : State} (s : State) (m : Nat) (hk : Keeps z s) :
    Keeps z (State.closeGates s m) := by
  unfold State.closeGates
  try dsimp only
  repeat' first | split | (intro _; try dsimp only) | with_reducible first | assumption | apply State.closeGate_keeps | apply Keeps.foldl | apply Keeps.foldl_fst | refine Keeps.of_mk ?_ rfl rfl rfl

theorem State.disarmSet_keeps {z : State} (s : State) (m : Nat) (partial_ endEarly : Bool) (hk : Keeps z s) :
    Keeps z (State.disarmSet s m partial_ endEarly) := by
  unfold State.disarmSet
  try dsimp only
  repeat' first | split | (intro _; try dsimp only) | with_reducible first | assumption | apply State.closeGates_keeps | apply State.publishSet_keeps | refine Keeps.of_mk ?_ rfl rfl rfl

theorem State.freqEdge_keeps {z : State} (s : State) (m stamp : Nat) (stamped : Bool) (hk : Keeps z s) :
    Keeps z (State.freqEdge s m stamp stamped) := by
  unfold State.freqEdge
  try dsimp only
  repeat' first | split | (intro _; try dsimp only) | with_reducible first | assumption | apply State.drawFree_keeps | apply State.updMs_keeps | refine Keeps.of_mk ?_ rfl rfl rfl

theorem State.addInterval_keeps {z : State} (s : State) (m : Nat) (v : Int) (later : Nat) (hk : Keeps z s) :
    Keeps z (State.addInterval s m v later) := by
  unfold State.addInterval
  try dsimp only
  repeat' first | split | (intro _; try dsimp only) | with_reducible first | assumption | apply State.addValue_keeps | refine Keeps.of_mk ?_ rfl rfl rfl

theorem State.stopEdge_keeps {z : State} (s : State) (m stamp : Nat) (hk : Keeps z s) :
    Keeps z (State.stopEdge s m stamp) := by
  unfold State.stopEdge
  try dsimp only
  repeat' first | split | (intro _; try dsimp only) | with_reducible first | assumption | apply State.addInterval_keeps | apply State.updMs_keeps | refine Keeps.of_mk ?_ rfl rfl rfl

theorem State.startEdge_keeps {z : State} (s : State) (m stamp : Nat) (hk : Keeps z s) :
    Keeps z (State.startEdge s m stamp) := by
  unfold State.startEdge
  try dsimp only
  repeat' first | split | (intro _; try dsimp only) | with_reducible first | assumption | apply State.addInterval_keeps | apply State.updMs_keeps | refine Keeps.of_mk ?_ rfl rfl rfl

theorem State.setEdge_keeps {z : State} (s : State) (m stamp : Nat) (role : Bool × Bool) (hk : Keeps z s) :
    Keeps z (State.setEdge s m stamp role) := by
  unfold State.setEdge
  try dsimp only
  repeat' first | split | (intro _; try dsimp only) | with_reducible first | assumption | apply State.addInterval_keeps | apply State.addValue_keeps | apply State.freqEdge_keeps | apply State.startEdge_keeps | apply State.stopEdge_keeps | apply State.updMs_keeps | refine Keeps.of_mk ?_ rfl rfl rfl

theorem State.missedEdge_keeps {z : State} (s : State) (m stamp : Nat) (hk : Keeps z s) :
    Keeps z (State.missedEdge s m stamp) := by
  unfold State.missedEdge
  try dsimp only
  repeat' first | split | (intro _; try dsimp only) | with_reducible first | assumption | apply State.freqEdge_keeps | apply State.updMs_keeps | refine Keeps.of_mk ?_ rfl rfl rfl

theorem State.publishFenced_keeps {z : State} (s : State) (hk : Keeps z s) :
    Keeps z (State.publishFenced s) := by
  unfold State.publishFenced
  try dsimp only
  repeat' first | split | (intro _; try dsimp only) | with_reducible first | assumption | apply State.publishSet_keeps | apply Keeps.foldl | apply Keeps.foldl_fst | refine Keeps.of_mk ?_ rfl rfl rfl

theorem State.convDrop_keeps {z : State} (s : State) (c : Nat) (hk : Keeps z s) :
    Keeps z (State.convDrop s c) := by
  unfold State.convDrop
  try dsimp only
  repeat' first | split | (intro _; try dsimp only) | with_reducible first | assumption | apply State.complete_keeps | apply State.updPadc_keeps | refine Keeps.of_mk ?_ rfl rfl rfl

theorem State.force_keeps {z : State} (s : State) (src : Nat) (payload : List Nat) (hk : Keeps z s) :
    Keeps z (State.force s src payload) := by
  unfold State.force
  try dsimp only
  repeat' first | split | (intro _; try dsimp only) | with_reducible first | assumption | apply State.convDrop_keeps | apply State.publishFenced_keeps | apply State.raise_keeps | refine Keeps.of_mk ?_ rfl rfl rfl

theorem State.injDropEvent_keeps {z : State} (s : State) (r g reason : Nat) (hk : Keeps z s) :
    Keeps z (State.injDropEvent s r g reason) := by
  unfold State.injDropEvent
  try dsimp only
  repeat' first | split | (intro _; try dsimp only) | with_reducible first | assumption | apply State.event_keeps | apply State.putBurst_keeps | apply State.updPadc_keeps | apply Keeps.foldl | apply Keeps.foldl_fst | refine Keeps.of_mk ?_ rfl rfl rfl

theorem State.dropPending_keeps {z : State} (s : State) (c reason : Nat) (hk : Keeps z s) :
    Keeps z (State.dropPending s c reason) := by
  unfold State.dropPending
  try dsimp only
  repeat' first | split | (intro _; try dsimp only) | with_reducible first | assumption | apply State.event_keeps | apply State.injDropEvent_keeps | apply State.updPadc_keeps | refine Keeps.of_mk ?_ rfl rfl rfl

theorem State.injRequest_keeps {z : State} (s : State) (r g setting pos t : Nat) (hk : Keeps z s) :
    Keeps z (State.injRequest s r g setting pos t) := by
  unfold State.injRequest
  try dsimp only
  repeat' first | split | (intro _; try dsimp only) | with_reducible first | assumption | apply State.injDropEvent_keeps | apply State.updPadc_keeps | refine Keeps.of_mk ?_ rfl rfl rfl

/-! ## Drive -/

theorem State.drivePin_keeps {z : State} (s : State) (q : Nat) (c : Chan) (es : List PinEdge) (hk : Keeps z s) :
    Keeps z (State.drivePin s q c es) := by
  unfold State.drivePin
  try dsimp only
  repeat' first | split | (intro _; try dsimp only) | with_reducible first | assumption | apply State.updLane_keeps | refine Keeps.of_mk ?_ rfl rfl rfl

theorem State.tcApply_keeps {z : State} (s : State) (b : Burst) (hk : Keeps z s) :
    Keeps z (State.tcApply s b) := by
  unfold State.tcApply
  try dsimp only
  repeat' first | split | (intro _; try dsimp only) | with_reducible first | assumption | apply State.updLane_keeps | apply Keeps.foldl | apply Keeps.foldl_fst | refine Keeps.of_mk ?_ rfl rfl rfl

theorem State.repeatPins_keeps {z : State} (s : State) (b : Burst) (img : Image) (hk : Keeps z s) :
    Keeps z (State.repeatPins s b img) := by
  unfold State.repeatPins
  try dsimp only
  repeat' first | split | (intro _; try dsimp only) | with_reducible first | assumption | apply State.drivePin_keeps | apply Keeps.foldl | apply Keeps.foldl_fst | refine Keeps.of_mk ?_ rfl rfl rfl

theorem State.holdN_keeps {z : State} (img : Option Image) (k : Nat) (s : State) (b : Burst) (h : Keeps z s) :
    Keeps z (State.holdN s img k b).1 := by
  induction k generalizing s b with
  | zero => exact h
  | succ k ih =>
    refine ih _ _ ?_
    split
    · exact State.repeatPins_keeps _ _ _ (State.tcApply_keeps _ _ h)
    · exact State.tcApply_keeps _ _ h

theorem State.holdCycles_keeps {z : State} (s : State) (r : Nat) (b : Burst) (next : Nat) (f : Burst → Burst)
    (h : Keeps z s) : Keeps z (State.holdCycles s r b next f) :=
  State.putBurst_keeps _ _ _ (State.holdN_keeps _ _ _ _ h)

/-! ## CalOps -/

theorem State.statStamp_keeps {z : State} (s : State) (l c : Nat) (rising : Bool) (stamp : Nat) (hk : Keeps z s) :
    Keeps z (State.statStamp s l c rising stamp) := by
  unfold State.statStamp
  try dsimp only
  repeat' first | split | (intro _; try dsimp only) | with_reducible first | assumption | apply State.updLane_keeps | refine Keeps.of_mk ?_ rfl rfl rfl

theorem State.statMerge_keeps {z : State} (s : State) (k : Nat) (discard : Bool) (hk : Keeps z s) :
    Keeps z (State.statMerge s k discard) := by
  unfold State.statMerge
  try dsimp only
  repeat' first | split | (intro _; try dsimp only) | with_reducible first | assumption | apply State.updLane_keeps | apply Keeps.foldl | apply Keeps.foldl_fst | refine Keeps.of_mk ?_ rfl rfl rfl

theorem State.statTarget_keeps {z : State} (s : State) (l : Nat) (drive : Bool) (dev : Int) (hk : Keeps z s) :
    Keeps z (State.statTarget s l drive dev) := by
  unfold State.statTarget
  try dsimp only
  repeat' first | split | (intro _; try dsimp only) | with_reducible first | assumption | apply State.event_keeps | apply State.updLane_keeps | refine Keeps.of_mk ?_ rfl rfl rfl

theorem State.statEval_keeps {z : State} (s : State) (g : Nat) (drive : Bool) (hk : Keeps z s) :
    Keeps z (State.statEval s g drive) := by
  unfold State.statEval
  try dsimp only
  repeat' first | split | (intro _; try dsimp only) | with_reducible first | assumption | apply State.statTarget_keeps | apply State.updLane_keeps | apply Keeps.foldl | apply Keeps.foldl_fst | refine Keeps.of_mk ?_ rfl rfl rfl

theorem State.statEnd_keeps {z : State} (s : State) (k : Nat) (discard : Bool) (hk : Keeps z s) :
    Keeps z (State.statEnd s k discard) := by
  unfold State.statEnd
  try dsimp only
  repeat' first | split | (intro _; try dsimp only) | with_reducible first | assumption | apply State.statEval_keeps | apply State.statMerge_keeps | apply Keeps.foldl | apply Keeps.foldl_fst | refine Keeps.of_mk ?_ rfl rfl rfl

theorem State.statZero_keeps {z : State} (s : State) (g : Nat) (hk : Keeps z s) :
    Keeps z (State.statZero s g) := by
  unfold State.statZero
  try dsimp only
  repeat' first | split | (intro _; try dsimp only) | with_reducible first | assumption | apply State.updGrp_keeps | apply State.updLane_keeps | apply Keeps.foldl | apply Keeps.foldl_fst | refine Keeps.of_mk ?_ rfl rfl rfl

theorem State.statClears_keeps {z : State} (s : State) (hk : Keeps z s) :
    Keeps z (State.statClears s) := by
  unfold State.statClears
  try dsimp only
  repeat' first | split | (intro _; try dsimp only) | with_reducible first | assumption | apply State.statZero_keeps | apply Keeps.foldl | apply Keeps.foldl_fst | refine Keeps.of_mk ?_ rfl rfl rfl

/-! ## Acquire -/

theorem State.writeSlot_keeps {z : State} (s : State) (p k slot : Nat) (ws : List Nat) (hk : Keeps z s) :
    Keeps z (State.writeSlot s p k slot ws) := by
  unfold State.writeSlot
  try dsimp only
  repeat' first | split | (intro _; try dsimp only) | with_reducible first | assumption | apply State.writeHbm_keeps | refine Keeps.of_mk ?_ rfl rfl rfl

theorem State.logStart_keeps {z : State} (s : State) (p k engine handle entry start : Nat) (hk : Keeps z s) :
    Keeps z (State.logStart s p k engine handle entry start) := by
  unfold State.logStart
  try dsimp only
  repeat' first | split | (intro _; try dsimp only) | with_reducible first | assumption | apply State.updSite_keeps | apply State.writeSlot_keeps | refine Keeps.of_mk ?_ rfl rfl rfl

theorem State.logSummary_keeps {z : State} (s : State) (p k : Nat) (r : SiteResult) (hk : Keeps z s) :
    Keeps z (State.logSummary s p k r) := by
  unfold State.logSummary
  try dsimp only
  repeat' first | split | (intro _; try dsimp only) | with_reducible first | assumption | apply State.writeSlot_keeps | refine Keeps.of_mk ?_ rfl rfl rfl

theorem State.drainFifos_keeps {z : State} (s : State) (hk : Keeps z s) :
    Keeps z (State.drainFifos s) := by
  unfold State.drainFifos
  try dsimp only
  repeat' first | split | (intro _; try dsimp only) | with_reducible first | assumption | apply State.updGrp_keeps | apply Keeps.foldl | apply Keeps.foldl_fst | refine Keeps.of_mk ?_ rfl rfl rfl

theorem State.storeRec_keeps {z : State} (s : State) (p k : Nat) (r : FailRec) (hk : Keeps z s) :
    Keeps z (State.storeRec s p k r) := by
  unfold State.storeRec
  try dsimp only
  repeat' first | split | (intro _; try dsimp only) | with_reducible first | assumption | apply State.updSite_keeps | apply State.writeSlot_keeps | refine Keeps.of_mk ?_ rfl rfl rfl

theorem State.logRec_keeps {z : State} (s : State) (p k : Nat) (r : FailRec) (time : Nat) (hk : Keeps z s) :
    Keeps z (State.logRec s p k r time) := by
  unfold State.logRec
  try dsimp only
  repeat' first | split | (intro _; try dsimp only) | with_reducible first | assumption | apply State.drainFifos_keeps | apply State.sitePush_keeps | apply State.storeRec_keeps | apply State.updGrp_keeps | apply State.updSite_keeps | refine Keeps.of_mk ?_ rfl rfl rfl

theorem State.tryRelease_keeps {z : State} (s : State) (r : Nat) (hk : Keeps z s) :
    Keeps z (State.tryRelease s r) := by
  unfold State.tryRelease
  try dsimp only
  repeat' first | split | (intro _; try dsimp only) | with_reducible first | assumption | apply State.holdCycles_keeps | refine Keeps.of_mk ?_ rfl rfl rfl

theorem State.sample_keeps {z : State} (s : State) (r selector k : Nat) (hk : Keeps z s) :
    Keeps z (State.sample s r selector k) := by
  unfold State.sample
  try dsimp only
  repeat' first | split | (intro _; try dsimp only) | with_reducible first | assumption | apply State.tryRelease_keeps | apply State.updBurst_keeps | refine Keeps.of_mk ?_ rfl rfl rfl

theorem State.closeData_keeps {z : State} (s : State) (p u : Nat) (hk : Keeps z s) :
    Keeps z (State.closeData s p u) := by
  unfold State.closeData
  try dsimp only
  repeat' first | split | (intro _; try dsimp only) | with_reducible first | assumption | apply State.sitePush_keeps | apply State.updCu_keeps | refine Keeps.of_mk ?_ rfl rfl rfl

theorem State.capOn_keeps {z : State} (s : State) (k u pos time : Nat) (hk : Keeps z s) :
    Keeps z (State.capOn s k u pos time) := by
  unfold State.capOn
  try dsimp only
  repeat' first | split | (intro _; try dsimp only) | with_reducible first | assumption | apply State.updCu_keeps | refine Keeps.of_mk ?_ rfl rfl rfl

theorem State.capOff_keeps {z : State} (s : State) (k u pos : Nat) (hk : Keeps z s) :
    Keeps z (State.capOff s k u pos) := by
  unfold State.capOff
  try dsimp only
  repeat' first | split | (intro _; try dsimp only) | with_reducible first | assumption | apply State.closeData_keeps | apply State.updCu_keeps | refine Keeps.of_mk ?_ rfl rfl rfl

theorem State.takeSample_keeps {z : State} (s : State) (p : Nat) (x : Flight) (seen : List (Chan × List Cmp)) (u : Nat) (hk : Keeps z s) :
    Keeps z (State.takeSample s p x seen u) := by
  unfold State.takeSample
  try dsimp only
  repeat' first | split | (intro _; try dsimp only) | with_reducible first | assumption | apply State.closeData_keeps | apply State.post_keeps | apply State.updCu_keeps | apply State.writeHbm_keeps | refine Keeps.of_mk ?_ rfl rfl rfl

theorem State.capture_keeps {z : State} (s : State) (b : Burst) (x : Flight) (seen : List (Chan × List Cmp)) (hk : Keeps z s) :
    Keeps z (State.capture s b x seen) := by
  unfold State.capture
  try dsimp only
  repeat' first | split | (intro _; try dsimp only) | with_reducible first | assumption | apply State.closeData_keeps | apply State.takeSample_keeps | apply State.updCu_keeps | apply Keeps.foldl | apply Keeps.foldl_fst | refine Keeps.of_mk ?_ rfl rfl rfl

theorem State.endCapture_keeps {z : State} (s : State) (u : Nat) (early : Bool) (hk : Keeps z s) :
    Keeps z (State.endCapture s u early) := by
  unfold State.endCapture
  try dsimp only
  repeat' first | split | (intro _; try dsimp only) | with_reducible first | assumption | apply State.event_keeps | apply State.updCu_keeps | refine Keeps.of_mk ?_ rfl rfl rfl

theorem State.trigUnits_keeps {z : State} (s : State) (t pos time : Nat) (hk : Keeps z s) :
    Keeps z (State.trigUnits s t pos time) := by
  unfold State.trigUnits
  try dsimp only
  repeat' first | split | (intro _; try dsimp only) | with_reducible first | assumption | apply State.post_keeps | apply State.updCu_keeps | apply Keeps.foldl | apply Keeps.foldl_fst | refine Keeps.of_mk ?_ rfl rfl rfl

theorem State.fire_keeps {z : State} (s : State) (r k t : Nat) (o : TrigOcc) (hk : Keeps z s) :
    Keeps z (State.fire s r k t o) := by
  unfold State.fire
  try dsimp only
  repeat' first | split | (intro _; try dsimp only) | with_reducible first | assumption | apply State.event_keeps | apply State.sample_keeps | apply State.sendTrig_keeps | apply State.sitePush_keeps | apply State.trigUnits_keeps | apply State.updTrg_keeps | apply Keeps.foldl | apply Keeps.foldl_fst | refine Keeps.of_mk ?_ rfl rfl rfl

theorem State.occur_keeps {z : State} (s : State) (r k t : Nat) (o : TrigOcc) (hk : Keeps z s) :
    Keeps z (State.occur s r k t o) := by
  unfold State.occur
  try dsimp only
  repeat' first | split | (intro _; try dsimp only) | with_reducible first | assumption | apply State.fire_keeps | apply State.updTrg_keeps | refine Keeps.of_mk ?_ rfl rfl rfl

theorem State.occurAt_keeps {z : State} (s : State) (k q : Nat) (ts : List Nat) (actT : Option Nat) (late : Bool) (hk : Keeps z s) :
    Keeps z (State.occurAt s k q ts actT late) := by
  unfold State.occurAt
  try dsimp only
  repeat' first | split | (intro _; try dsimp only) | with_reducible first | assumption | apply State.occur_keeps | apply Keeps.foldl | apply Keeps.foldl_fst | refine Keeps.of_mk ?_ rfl rfl rfl

/-! ## Apply -/

theorem State.pmuChange_keeps {z : State} (s : State) (g : Nat) (hk : Keeps z s) :
    Keeps z (State.pmuChange s g) := by
  unfold State.pmuChange
  try dsimp only
  repeat' first | split | (intro _; try dsimp only) | with_reducible first | assumption | apply State.updGrp_keeps | refine Keeps.of_mk ?_ rfl rfl rfl

theorem State.connChange_keeps {z : State} (s : State) (c : Nat) (old : Int) (hk : Keeps z s) :
    Keeps z (State.connChange s c old) := by
  unfold State.connChange
  try dsimp only
  repeat' first | split | (intro _; try dsimp only) | with_reducible first | assumption | apply State.setPar_keeps | apply State.updGrp_keeps | apply State.updLane_keeps | refine Keeps.of_mk ?_ rfl rfl rfl

theorem State.newDemand_keeps {z : State} (s : State) (d : Nat) (hk : Keeps z s) :
    Keeps z (State.newDemand s d) := by
  unfold State.newDemand
  try dsimp only
  repeat' first | split | (intro _; try dsimp only) | with_reducible first | assumption | apply State.updDps_keeps | refine Keeps.of_mk ?_ rfl rfl rfl

theorem State.rampTo_keeps {z : State} (s : State) (d code : Nat) (hk : Keeps z s) :
    Keeps z (State.rampTo s d code) := by
  unfold State.rampTo
  try dsimp only
  repeat' first | split | (intro _; try dsimp only) | with_reducible first | assumption | apply State.updDps_keeps | refine Keeps.of_mk ?_ rfl rfl rfl

theorem State.rseSync_keeps {z : State} (s : State) (n : Nat) (hk : Keeps z s) :
    Keeps z (State.rseSync s n) := by
  unfold State.rseSync
  try dsimp only
  repeat' first | split | (intro _; try dsimp only) | with_reducible first | assumption | apply State.updGrp_keeps | apply Keeps.foldl | apply Keeps.foldl_fst | refine Keeps.of_mk ?_ rfl rfl rfl

theorem State.applied_keeps {z : State} (s : State) (id : Nat) (old v : Int) (hk : Keeps z s) :
    Keeps z (State.applied s id old v) := by
  unfold State.applied
  try dsimp only
  repeat' first | split | (intro _; try dsimp only) | with_reducible first | assumption | apply State.connChange_keeps | apply State.leaveLow_keeps | apply State.newDemand_keeps | apply State.pmuChange_keeps | apply State.rampTo_keeps | apply State.recompute_keeps | apply State.rseSync_keeps | apply State.updLane_keeps | apply State.updPadc_keeps | apply Keeps.foldl | apply Keeps.foldl_fst | refine Keeps.of_mk ?_ rfl rfl rfl

theorem State.applyVal_keeps {z : State} (s : State) (id : Nat) (v : Int) (hk : Keeps z s) :
    Keeps z (State.applyVal s id v) := by
  unfold State.applyVal
  try dsimp only
  repeat' first | split | (intro _; try dsimp only) | with_reducible first | assumption | apply State.applied_keeps | apply State.setPar_keeps | refine Keeps.of_mk ?_ rfl rfl rfl

theorem State.rseIdle_keeps {z : State} (s : State) (n : Nat) (hk : Keeps z s) :
    Keeps z (State.rseIdle s n) := by
  unfold State.rseIdle
  try dsimp only
  repeat' first | split | (intro _; try dsimp only) | with_reducible first | assumption | apply State.applyVal_keeps | apply State.updRse_keeps | apply Keeps.foldl | apply Keeps.foldl_fst | refine Keeps.of_mk ?_ rfl rfl rfl

theorem State.applyPend_keeps {z : State} (s : State) (hk : Keeps z s) :
    Keeps z (State.applyPend s) := by
  unfold State.applyPend
  try dsimp only
  repeat' first | split | (intro _; try dsimp only) | with_reducible first | assumption | apply State.applyVal_keeps | apply State.rseIdle_keeps | apply State.statClears_keeps | apply Keeps.foldl | apply Keeps.foldl_fst | refine Keeps.of_mk ?_ rfl rfl rfl

/-! ## RasterOps -/

theorem State.underPixels_keeps {z : State} (s : State) (n : Nat) (layer : Bool) (f count : Nat) (hk : Keeps z s) :
    Keeps z (State.underPixels s n layer f count) := by
  unfold State.underPixels
  try dsimp only
  repeat' first | split | (intro _; try dsimp only) | with_reducible first | assumption | apply State.raise_keeps | apply State.updBurst_keeps | apply State.updRse_keeps | refine Keeps.of_mk ?_ rfl rfl rfl

theorem State.lostPixels_keeps {z : State} (s : State) (p n q : Nat) (hk : Keeps z s) :
    Keeps z (State.lostPixels s p n q) := by
  unfold State.lostPixels
  try dsimp only
  repeat' first | split | (intro _; try dsimp only) | with_reducible first | assumption | apply State.underPixels_keeps | refine Keeps.of_mk ?_ rfl rfl rfl

theorem State.pixelWords_keeps {z : State} (p n : Nat) (l : List Nat) (s : State) (h : Keeps z s) :
    Keeps z (State.pixelWords s p n l).1 := by
  induction l generalizing s with
  | nil => exact h
  | cons q r ih =>
    simp only [State.pixelWords]
    refine ih _ (State.updRse_keeps _ _ _ (State.lostPixels_keeps _ _ _ _ ?_))
    split
    · exact State.updRse_keeps _ _ _ h
    · exact h

theorem State.rasterLanes_keeps {z : State} (s : State) (n : Nat) (b : Burst) (period : Nat) (hk : Keeps z s) :
    Keeps z (State.rasterLanes s n b period) := by
  have h2 := State.pixelWords_keeps b.part.val n ((List.range (s.rseFactor n / max 1 (s.parN 6 n 0x004))).map
    (b.emitted * s.rseFactor n / max 1 (s.parN 6 n 0x004) + ·)) s hk
  simp only [State.rasterLanes]
  refine Keeps.foldl _ _ (fun t c ht => ?_) h2
  split
  · exact ht
  · exact State.drivePin_keeps _ _ _ _ ht

theorem State.keepChk_keeps {z : State} (s : State) (n upto : Nat) (hk : Keeps z s) :
    Keeps z (State.keepChk s n upto) := by
  unfold State.keepChk
  try dsimp only
  repeat' first | split | (intro _; try dsimp only) | with_reducible first | assumption | apply State.updRse_keeps | refine Keeps.of_mk ?_ rfl rfl rfl

/-! ## Emit -/

theorem State.streamAct_keeps {z : State} (s : State) (k act value strm pos ns : Nat) (hk : Keeps z s) :
    Keeps z (State.streamAct s k act value strm pos ns) := by
  unfold State.streamAct
  try dsimp only
  repeat' first | split | (intro _; try dsimp only) | with_reducible first | assumption | apply State.sitePush_keeps | apply State.updSite_keeps | refine Keeps.of_mk ?_ rfl rfl rfl

theorem State.actCtl_keeps {z : State} (s : State) (r : Nat) (b : Burst) (q e : Nat) (d : CtlDesc) (hk : Keeps z s) :
    Keeps z (State.actCtl s r b q e d) := by
  unfold State.actCtl
  try dsimp only
  repeat' first | split | (intro _; try dsimp only) | with_reducible first | assumption | apply State.armSet_keeps | apply State.capOff_keeps | apply State.capOn_keeps | apply State.disarmSet_keeps | apply State.injRequest_keeps | apply State.issueTok_keeps | apply State.streamAct_keeps | apply State.updBurst_keeps | apply State.updMark_keeps | apply Keeps.foldl | apply Keeps.foldl_fst | refine Keeps.of_mk ?_ rfl rfl rfl

theorem State.actDue_keeps {z : State} (s : State) (r : Nat) (img : Image) (c : Column) (hk : Keeps z s) :
    Keeps z (State.actDue s r img c) := by
  unfold State.actDue
  try dsimp only
  repeat' first | split | (intro _; try dsimp only) | with_reducible first | assumption | apply State.actCtl_keeps | apply State.putBurst_keeps | apply Keeps.foldl | apply Keeps.foldl_fst | refine Keeps.of_mk ?_ rfl rfl rfl

theorem State.actRest_keeps {z : State} (s : State) (r : Nat) (b : Burst) (hk : Keeps z s) :
    Keeps z (State.actRest s r b) := by
  unfold State.actRest
  try dsimp only
  repeat' first | split | (intro _; try dsimp only) | with_reducible first | assumption | apply State.actCtl_keeps | apply State.updBurst_keeps | apply Keeps.foldl | apply Keeps.foldl_fst | refine Keeps.of_mk ?_ rfl rfl rfl

theorem State.emitVec_keeps {z : State} (s : State) (r : Nat) (img : Image) (b : Burst) (c : Column) (rest : List Column) (hk : Keeps z s) :
    Keeps z (State.emitVec s r img b c rest) := by
  unfold State.emitVec
  try dsimp only
  repeat' first | split | (intro _; try dsimp only) | with_reducible first | assumption | apply State.drivePin_keeps | apply State.moveTo_keeps | apply State.occur_keeps | apply State.putBurst_keeps | apply State.tcApply_keeps | apply Keeps.foldl | apply Keeps.foldl_fst | refine Keeps.of_mk ?_ rfl rfl rfl

theorem State.emitRaster_keeps {z : State} (s : State) (r : Nat) (b : Burst) (hk : Keeps z s) :
    Keeps z (State.emitRaster s r b) := by
  unfold State.emitRaster
  try dsimp only
  repeat' first | split | (intro _; try dsimp only) | with_reducible first | assumption | apply State.moveTo_keeps | apply State.putBurst_keeps | apply State.rasterLanes_keeps | refine Keeps.of_mk ?_ rfl rfl rfl

theorem State.emit_keeps {z : State} (s : State) (r : Nat) (hk : Keeps z s) :
    Keeps z (State.emit s r) := by
  unfold State.emit
  try dsimp only
  repeat' first | split | (intro _; try dsimp only) | with_reducible first | assumption | apply State.actDue_keeps | apply State.emitRaster_keeps | apply State.emitVec_keeps | refine Keeps.of_mk ?_ rfl rfl rfl

/-! ## Bursts -/

theorem State.completeTask_keeps {z : State} (s : State) (p tag : Nat) (words : List Nat) (issue : Bool) (outKey : Nat) (home : Site) (code : Nat) (hk : Keeps z s) :
    Keeps z (State.completeTask s p tag words issue outKey home code) := by
  unfold State.completeTask
  try dsimp only
  repeat' first | split | (intro _; try dsimp only) | with_reducible first | assumption | apply State.complete_keeps | apply State.issueTok_keeps | refine Keeps.of_mk ?_ rfl rfl rfl

theorem State.linkCombine_keeps {z : State} (s : State) (id : Nat) (hk : Keeps z s) :
    Keeps z (State.linkCombine s id) := by
  unfold State.linkCombine
  try dsimp only
  repeat' first | split | (intro _; try dsimp only) | with_reducible first | assumption | apply State.completeTask_keeps | apply State.issueTok_keeps | apply State.sendC1_keeps | apply State.updLink_keeps | apply Keeps.foldl | apply Keeps.foldl_fst | refine Keeps.of_mk ?_ rfl rfl rfl

theorem State.linkResult_keeps {z : State} (s : State) (id node code time : Nat) (hk : Keeps z s) :
    Keeps z (State.linkResult s id node code time) := by
  unfold State.linkResult
  try dsimp only
  repeat' first | split | (intro _; try dsimp only) | with_reducible first | assumption | apply State.linkCombine_keeps | apply State.updLink_keeps | refine Keeps.of_mk ?_ rfl rfl rfl

theorem State.linkReady_keeps {z : State} (s : State) (id node : Nat) (hk : Keeps z s) :
    Keeps z (State.linkReady s id node) := by
  unfold State.linkReady
  try dsimp only
  repeat' first | split | (intro _; try dsimp only) | with_reducible first | assumption | apply State.sendTrig_keeps | apply State.updLink_keeps | refine Keeps.of_mk ?_ rfl rfl rfl

theorem State.sendReady_keeps {z : State} (s : State) (b : Burst) (hk : Keeps z s) :
    Keeps z (State.sendReady s b) := by
  unfold State.sendReady
  try dsimp only
  repeat' first | split | (intro _; try dsimp only) | with_reducible first | assumption | apply State.linkReady_keeps | apply State.sendC1_keeps | refine Keeps.of_mk ?_ rfl rfl rfl

theorem State.reportTask_keeps {z : State} (s : State) (b : Burst) (words : List Nat) (code : Nat) (hk : Keeps z s) :
    Keeps z (State.reportTask s b words code) := by
  unfold State.reportTask
  try dsimp only
  repeat' first | split | (intro _; try dsimp only) | with_reducible first | assumption | apply State.completeTask_keeps | apply State.linkResult_keeps | apply State.sendC1_keeps | apply State.updLink_keeps | refine Keeps.of_mk ?_ rfl rfl rfl

theorem State.giveUp_keeps {z : State} (s : State) (r : Nat) (res : SiteResult) (hk : Keeps z s) :
    Keeps z (State.giveUp s r res) := by
  unfold State.giveUp
  try dsimp only
  repeat' first | split | (intro _; try dsimp only) | with_reducible first | assumption | apply State.applyPend_keeps | apply State.delBurst_keeps | apply State.reportTask_keeps | refine Keeps.of_mk ?_ rfl rfl rfl

theorem State.startLate_keeps {z : State} (s : State) (r : Nat) (b : Burst) (hk : Keeps z s) :
    Keeps z (State.startLate s r b) := by
  unfold State.startLate
  try dsimp only
  repeat' first | split | (intro _; try dsimp only) | with_reducible first | assumption | apply State.putBurst_keeps | apply State.raise_keeps | apply State.updBurst_keeps | refine Keeps.of_mk ?_ rfl rfl rfl

theorem State.linkStart_keeps {z : State} (s : State) (r t : Nat) (hk : Keeps z s) :
    Keeps z (State.linkStart s r t) := by
  unfold State.linkStart
  try dsimp only
  repeat' first | split | (intro _; try dsimp only) | with_reducible first | assumption | apply State.putBurst_keeps | apply State.startLate_keeps | refine Keeps.of_mk ?_ rfl rfl rfl

theorem State.allFilled_keeps {z : State} (s : State) (r : Nat) (b : Burst) (hk : Keeps z s) :
    Keeps z (State.allFilled s r b) := by
  unfold State.allFilled
  try dsimp only
  repeat' first | split | (intro _; try dsimp only) | with_reducible first | assumption | apply State.putBurst_keeps | apply State.sendReady_keeps | apply State.startLate_keeps | refine Keeps.of_mk ?_ rfl rfl rfl

theorem State.startSite_keeps {z : State} (s : State) (b : Burst) (r tick k : Nat) (hk : Keeps z s) :
    Keeps z (State.startSite s b r tick k) := by
  unfold State.startSite
  try dsimp only
  repeat' first | split | (intro _; try dsimp only) | with_reducible first | assumption | apply State.logStart_keeps | apply State.updChFail_keeps | apply State.updCu_keeps | apply State.updLane_keeps | apply State.updMark_keeps | apply State.updSite_keeps | apply State.updTrg_keeps | apply Keeps.foldl | apply Keeps.foldl_fst | refine Keeps.of_mk ?_ rfl rfl rfl

theorem State.startBurst_keeps {z : State} (s : State) (r : Nat) (b : Burst) (tick : Nat) (hk : Keeps z s) :
    Keeps z (State.startBurst s r b tick) := by
  unfold State.startBurst
  try dsimp only
  repeat' first | split | (intro _; try dsimp only) | with_reducible first | assumption | apply State.lanesMode_keeps | apply State.moveTo_keeps | apply State.putBurst_keeps | apply State.startSite_keeps | apply State.updMs_keeps | apply State.updRse_keeps | apply Keeps.foldl | apply Keeps.foldl_fst | refine Keeps.of_mk ?_ rfl rfl rfl

theorem State.updOldest_keeps {z : State} (s : State) (r : Nat) (ended : Bool) (f : Burst → Burst) (hk : Keeps z s) :
    Keeps z (State.updOldest s r ended f) := by
  unfold State.updOldest
  try dsimp only
  repeat' first | split | (intro _; try dsimp only) | with_reducible first | assumption | apply State.updBurst_keeps | refine Keeps.of_mk ?_ rfl rfl rfl

theorem State.failStop_keeps {z : State} (s : State) (r : Nat) (ended : Bool) (b : Burst) (x : Flight) (hk : Keeps z s) :
    Keeps z (State.failStop s r ended b x) := by
  unfold State.failStop
  try dsimp only
  repeat' first | split | (intro _; try dsimp only) | with_reducible first | assumption | apply State.raise_keeps | apply State.updOldest_keeps | refine Keeps.of_mk ?_ rfl rfl rfl

theorem State.siteFails_keeps {z : State} (s : State) (r : Nat) (ended : Bool) (b : Burst) (x : Flight) (fails : List ChFail) (k : Nat) (hk : Keeps z s) :
    Keeps z (State.siteFails s r ended b x fails k) := by
  unfold State.siteFails
  try dsimp only
  repeat' first | split | (intro _; try dsimp only) | with_reducible first | assumption | apply State.logRec_keeps | apply State.occur_keeps | apply State.updChFail_keeps | apply State.updSite_keeps | apply Keeps.foldl | apply Keeps.foldl_fst | refine Keeps.of_mk ?_ rfl rfl rfl

theorem State.judge_keeps {z : State} (s : State) (r : Nat) (ended : Bool) (b : Burst) (x : Flight) (fails : List ChFail) (hk : Keeps z s) :
    Keeps z (State.judge s r ended b x fails) := by
  unfold State.judge
  try dsimp only
  repeat' first | split | (intro _; try dsimp only) | with_reducible first | assumption | apply State.failStop_keeps | apply State.siteFails_keeps | apply State.updOldest_keeps | apply Keeps.foldl | apply Keeps.foldl_fst | refine Keeps.of_mk ?_ rfl rfl rfl

theorem State.owedRec_keeps {z : State} (s : State) (b : Burst) (o : Owed) (hk : Keeps z s) :
    Keeps z (State.owedRec s b o) := by
  unfold State.owedRec
  try dsimp only
  repeat' first | split | (intro _; try dsimp only) | with_reducible first | assumption | apply State.logRec_keeps | apply Keeps.foldl | apply Keeps.foldl_fst | refine Keeps.of_mk ?_ rfl rfl rfl

theorem State.owedRecs_keeps {z : State} (s : State) (b : Burst) (hk : Keeps z s) :
    Keeps z (State.owedRecs s b) := by
  unfold State.owedRecs
  try dsimp only
  repeat' first | split | (intro _; try dsimp only) | with_reducible first | assumption | apply State.owedRec_keeps | apply Keeps.foldl | apply Keeps.foldl_fst | refine Keeps.of_mk ?_ rfl rfl rfl

theorem State.finalResult_keeps {z : State} (s : State) (r : Nat) (seen : List (Chan × List Cmp)) (hk : Keeps z s) :
    Keeps z (State.finalResult s r seen) := by
  unfold State.finalResult
  try dsimp only
  repeat' first | split | (intro _; try dsimp only) | with_reducible first | assumption | apply State.capture_keeps | apply State.judge_keeps | apply State.moveTo_keeps | apply State.owedRecs_keeps | apply State.updOldest_keeps | refine Keeps.of_mk ?_ rfl rfl rfl

theorem State.missing_keeps {z : State} (s : State) (r : Nat) (c : Short) (hk : Keeps z s) :
    Keeps z (State.missing s r c) := by
  unfold State.missing
  try dsimp only
  repeat' first | split | (intro _; try dsimp only) | with_reducible first | assumption | apply State.event_keeps | apply State.fence_keeps | apply State.moveTo_keeps | apply State.putBurst_keeps | apply State.underrun_keeps | apply raiseTop_keeps | refine Keeps.of_mk ?_ rfl rfl rfl

theorem State.resume_keeps {z : State} (s : State) (r : Nat) (hk : Keeps z s) :
    Keeps z (State.resume s r) := by
  unfold State.resume
  try dsimp only
  repeat' first | split | (intro _; try dsimp only) | with_reducible first | assumption | apply State.holdCycles_keeps | refine Keeps.of_mk ?_ rfl rfl rfl

theorem State.stretchEnd_keeps {z : State} (s : State) (r : Nat) (hk : Keeps z s) :
    Keeps z (State.stretchEnd s r) := by
  unfold State.stretchEnd
  try dsimp only
  repeat' first | split | (intro _; try dsimp only) | with_reducible first | assumption | apply State.moveTo_keeps | apply State.underrun_keeps | apply raiseTop_keeps | refine Keeps.of_mk ?_ rfl rfl rfl

theorem State.earlySets_keeps {z : State} (s : State) (b : Burst) (hk : Keeps z s) :
    Keeps z (State.earlySets s b) := by
  unfold State.earlySets
  try dsimp only
  repeat' first | split | (intro _; try dsimp only) | with_reducible first | assumption | apply State.disarmSet_keeps | apply Keeps.foldl | apply Keeps.foldl_fst | refine Keeps.of_mk ?_ rfl rfl rfl

theorem State.asyncAct_keeps {z : State} (s : State) (r : Nat) (hk : Keeps z s) :
    Keeps z (State.asyncAct s r) := by
  unfold State.asyncAct
  try dsimp only
  repeat' first | split | (intro _; try dsimp only) | with_reducible first | assumption | apply State.dischargeSite_keeps | apply State.earlySets_keeps | apply State.holdCycles_keeps | apply State.lanesMode_keeps | apply State.moveTo_keeps | apply State.safeSite_keeps | apply State.stopSiteAt_keeps | apply State.updSite_keeps | apply Keeps.foldl | apply Keeps.foldl_fst | refine Keeps.of_mk ?_ rfl rfl rfl

theorem State.runLimit_keeps {z : State} (s : State) (r : Nat) (hk : Keeps z s) :
    Keeps z (State.runLimit s r) := by
  unfold State.runLimit
  try dsimp only
  repeat' first | split | (intro _; try dsimp only) | with_reducible first | assumption | apply State.moveTo_keeps | apply State.putBurst_keeps | refine Keeps.of_mk ?_ rfl rfl rfl

theorem State.endOf_keeps {z : State} (s : State) (r : Nat) (hk : Keeps z s) :
    Keeps z (State.endOf s r) := by
  unfold State.endOf
  try dsimp only
  repeat' first | split | (intro _; try dsimp only) | with_reducible first | assumption | apply State.actRest_keeps | apply State.applyPend_keeps | apply State.delBurst_keeps | apply State.dischargeSite_keeps | apply State.earlySets_keeps | apply State.keepChk_keeps | apply State.lanesMode_keeps | apply State.moveTo_keeps | apply State.safeSite_keeps | apply State.tcApply_keeps | apply State.updMs_keeps | apply State.updSite_keeps | apply Keeps.foldl | apply Keeps.foldl_fst | refine Keeps.of_mk ?_ rfl rfl rfl

theorem State.siteResult_keeps {z : State} (s : State) (b : Burst) (res : SiteResult) (k : Nat) (hk : Keeps z s) :
    Keeps z (State.siteResult s b res k) := by
  unfold State.siteResult
  try dsimp only
  repeat' first | split | (intro _; try dsimp only) | with_reducible first | assumption | apply State.closeData_keeps | apply State.endCapture_keeps | apply State.event_keeps | apply State.logSummary_keeps | apply State.sitePushAll_keeps | apply State.statEnd_keeps | apply State.underrun_keeps | apply State.updCu_keeps | apply State.updSite_keeps | apply Keeps.foldl | apply Keeps.foldl_fst | refine Keeps.of_mk ?_ rfl rfl rfl

theorem State.finalOf_keeps {z : State} (s : State) (r : Nat) (hk : Keeps z s) :
    Keeps z (State.finalOf s r) := by
  unfold State.finalOf
  try dsimp only
  repeat' first | split | (intro _; try dsimp only) | with_reducible first | assumption | apply State.applyPend_keeps | apply State.disarmSet_keeps | apply State.reportTask_keeps | apply State.siteResult_keeps | apply Keeps.foldl | apply Keeps.foldl_fst | refine Keeps.of_mk ?_ rfl rfl rfl

/-! ## Microcode -/

theorem State.microCommit_keeps {z : State} (s : State) (e : Eng) (w : IWord) (old : Burst) (x : MRun) (pc : Option Nat) (hk : Keeps z s) :
    Keeps z (State.microCommit s e w old x pc) := by
  unfold State.microCommit
  try dsimp only
  repeat' first | split | (intro _; try dsimp only) | with_reducible first | assumption | apply State.event_keeps | apply State.putBurst_keeps | apply State.updEng_keeps | refine Keeps.of_mk ?_ rfl rfl rfl

theorem State.microRun_keeps {z : State} (s : State) (e : Eng) (i : ImgSt) (b : Burst) (ir : Nat) (w : IWord) (hk : Keeps z s) :
    Keeps z (State.microRun s e i b ir w) := by
  unfold State.microRun
  try dsimp only
  repeat' first | split | (intro _; try dsimp only) | with_reducible first | assumption | apply State.commit_keeps | apply State.machineCheck_keeps | apply State.microCommit_keeps | refine Keeps.of_mk ?_ rfl rfl rfl

theorem State.pattern_keeps {z : State} (s : State) (e : Eng) (i : Instr) (f : Burst → ImgSt → State → State) (hf : ∀ x0 x1 t, Keeps z t → Keeps z (f x0 x1 t)) (hk : Keeps z s) :
    Keeps z (State.pattern s e i f) := by
  unfold State.pattern
  try dsimp only
  repeat' first | split | (intro _; try dsimp only) | with_reducible first | assumption | apply State.microRun_keeps | apply State.updBurst_keeps | apply State.updEng_keeps | apply hf | refine Keeps.of_mk ?_ rfl rfl rfl

theorem State.patternB_keeps {z : State} (s : State) (e : Eng) (i : Instr) (f : Burst → ImgSt → Burst) (hk : Keeps z s) :
    Keeps z (State.patternB s e i f) := by
  unfold State.patternB
  try dsimp only
  repeat' first | split | (intro _; try dsimp only) | with_reducible first | assumption | apply State.pattern_keeps | apply State.putBurst_keeps | refine Keeps.of_mk ?_ rfl rfl rfl

/-! ## Pattern -/

theorem execVec_keeps {z : State} (e : Eng) (count : Nat) (s : State) (hk : Keeps z s) :
    KeepsOut z (execVec e count s) := by
  unfold execVec
  try dsimp only
  repeat' first | split | (intro _; try dsimp only) | with_reducible first | apply KeepsOut.next | assumption | apply State.patternB_keeps | apply State.post_keeps | refine Keeps.of_mk ?_ rfl rfl rfl

theorem execRpt_keeps {z : State} (e : Eng) (count : Nat) (s : State) (hk : Keeps z s) :
    KeepsOut z (execRpt e count s) := by
  unfold execRpt
  try dsimp only
  repeat' first | split | (intro _; try dsimp only) | with_reducible first | apply KeepsOut.next | assumption | apply State.patternB_keeps | apply State.post_keeps | refine Keeps.of_mk ?_ rfl rfl rfl

theorem execLoop_keeps {z : State} (e : Eng) (count : Nat) (s : State) (hk : Keeps z s) :
    KeepsOut z (execLoop e count s) := by
  unfold execLoop
  try dsimp only
  repeat' first | split | (intro _; try dsimp only) | with_reducible first | apply KeepsOut.next | assumption | apply State.machineCheck_keeps | apply State.pattern_keeps | apply State.putBurst_keeps | refine Keeps.of_mk ?_ rfl rfl rfl

theorem execEndl_keeps {z : State} (e : Eng) (s : State) (hk : Keeps z s) :
    KeepsOut z (execEndl e s) := by
  unfold execEndl
  try dsimp only
  repeat' first | split | (intro _; try dsimp only) | with_reducible first | apply KeepsOut.next | assumption | apply State.machineCheck_keeps | apply State.pattern_keeps | apply State.putBurst_keeps | refine Keeps.of_mk ?_ rfl rfl rfl

theorem execCall_keeps {z : State} (e : Eng) (segment : Nat) (s : State) (hk : Keeps z s) :
    KeepsOut z (execCall e segment s) := by
  unfold execCall
  try dsimp only
  repeat' first | split | (intro _; try dsimp only) | with_reducible first | apply KeepsOut.next | assumption | apply State.machineCheck_keeps | apply State.pattern_keeps | apply State.putBurst_keeps | refine Keeps.of_mk ?_ rfl rfl rfl

theorem execRet_keeps {z : State} (e : Eng) (s : State) (hk : Keeps z s) :
    KeepsOut z (execRet e s) := by
  unfold execRet
  try dsimp only
  repeat' first | split | (intro _; try dsimp only) | with_reducible first | apply KeepsOut.next | assumption | apply State.machineCheck_keeps | apply State.pattern_keeps | apply State.putBurst_keeps | refine Keeps.of_mk ?_ rfl rfl rfl

theorem execJmp_keeps {z : State} (e : Eng) (segment lpop : Nat) (s : State) (hk : Keeps z s) :
    KeepsOut z (execJmp e segment lpop s) := by
  unfold execJmp
  try dsimp only
  repeat' first | split | (intro _; try dsimp only) | with_reducible first | apply KeepsOut.next | assumption | apply State.pattern_keeps | apply State.transfer_keeps | refine Keeps.of_mk ?_ rfl rfl rfl

theorem State.jumpFail_keeps {z : State} (s : State) (e : Eng) (img : Image) (b : Burst) (segment lpop : Nat) (clr onFail : Bool) (hk : Keeps z s) :
    Keeps z (State.jumpFail s e img b segment lpop clr onFail) := by
  unfold State.jumpFail
  try dsimp only
  repeat' first | split | (intro _; try dsimp only) | with_reducible first | assumption | apply State.putBurst_keeps | apply State.transfer_keeps | refine Keeps.of_mk ?_ rfl rfl rfl

theorem execJf_keeps {z : State} (e : Eng) (segment lpop : Nat) (clr : Bool) (s : State) (hk : Keeps z s) :
    KeepsOut z (execJf e segment lpop clr s) := by
  unfold execJf
  try dsimp only
  repeat' first | split | (intro _; try dsimp only) | with_reducible first | apply KeepsOut.next | assumption | apply State.jumpFail_keeps | apply State.pattern_keeps | refine Keeps.of_mk ?_ rfl rfl rfl

theorem execJnf_keeps {z : State} (e : Eng) (segment lpop : Nat) (clr : Bool) (s : State) (hk : Keeps z s) :
    KeepsOut z (execJnf e segment lpop clr s) := by
  unfold execJnf
  try dsimp only
  repeat' first | split | (intro _; try dsimp only) | with_reducible first | apply KeepsOut.next | assumption | apply State.jumpFail_keeps | apply State.pattern_keeps | refine Keeps.of_mk ?_ rfl rfl rfl

theorem execMatchLoop_keeps {z : State} (e : Eng) (segment maxIter : Nat) (sense toFail : Bool) (s : State) (hk : Keeps z s) :
    KeepsOut z (execMatchLoop e segment maxIter sense toFail s) := by
  unfold execMatchLoop
  try dsimp only
  repeat' first | split | (intro _; try dsimp only) | with_reducible first | apply KeepsOut.next | assumption | apply State.machineCheck_keeps | apply State.pattern_keeps | apply State.post_keeps | apply State.putBurst_keeps | refine Keeps.of_mk ?_ rfl rfl rfl

theorem State.flushOwed_keeps {z : State} (s : State) (r : Nat) (hk : Keeps z s) :
    Keeps z (State.flushOwed s r) := by
  unfold State.flushOwed
  try dsimp only
  repeat' first | split | (intro _; try dsimp only) | with_reducible first | assumption | apply State.owedRecs_keeps | apply State.updBurst_keeps | refine Keeps.of_mk ?_ rfl rfl rfl

theorem State.matchTimeout_keeps {z : State} (s : State) (e : Eng) (img : Image) (b : Burst) (u : MatchSt) (hk : Keeps z s) :
    Keeps z (State.matchTimeout s e img b u) := by
  unfold State.matchTimeout
  try dsimp only
  repeat' first | split | (intro _; try dsimp only) | with_reducible first | assumption | apply State.event_keeps | apply State.flushOwed_keeps | apply State.putBurst_keeps | refine Keeps.of_mk ?_ rfl rfl rfl

theorem execMatchDecide_keeps {z : State} (e : Eng) (s : State) (hk : Keeps z s) :
    KeepsOut z (execMatchDecide e s) := by
  unfold execMatchDecide
  try dsimp only
  repeat' first | split | (intro _; try dsimp only) | with_reducible first | apply KeepsOut.next | assumption | apply State.matchTimeout_keeps | apply State.post_keeps | apply State.putBurst_keeps | refine Keeps.of_mk ?_ rfl rfl rfl

theorem execWait_keeps {z : State} (e : Eng) (ns : Bool) (count : Nat) (s : State) (hk : Keeps z s) :
    KeepsOut z (execWait e ns count s) := by
  unfold execWait
  try dsimp only
  repeat' first | split | (intro _; try dsimp only) | with_reducible first | apply KeepsOut.next | assumption | apply State.pattern_keeps | apply State.post_keeps | apply State.putBurst_keeps | refine Keeps.of_mk ?_ rfl rfl rfl

theorem execWtrg_keeps {z : State} (e : Eng) (trigger timeout : Nat) (latch toFail : Bool) (s : State) (hk : Keeps z s) :
    KeepsOut z (execWtrg e trigger timeout latch toFail s) := by
  unfold execWtrg
  try dsimp only
  repeat' first | split | (intro _; try dsimp only) | with_reducible first | apply KeepsOut.next | assumption | apply State.patternB_keeps | refine Keeps.of_mk ?_ rfl rfl rfl

theorem execWtrgTo_keeps {z : State} (e : Eng) (s : State) (hk : Keeps z s) :
    KeepsOut z (execWtrgTo e s) := by
  unfold execWtrgTo
  try dsimp only
  repeat' first | split | (intro _; try dsimp only) | with_reducible first | apply KeepsOut.next | assumption | apply State.event_keeps | apply State.flushOwed_keeps | apply State.holdCycles_keeps | apply State.moveTo_keeps | apply State.tryRelease_keeps | refine Keeps.of_mk ?_ rfl rfl rfl

theorem execMark_keeps {z : State} (e : Eng) (output : MarkOut) (act : Fin 4) (s : State) (hk : Keeps z s) :
    KeepsOut z (execMark e output act s) := by
  unfold execMark
  try dsimp only
  repeat' first | split | (intro _; try dsimp only) | with_reducible first | apply KeepsOut.next | assumption | apply State.patternB_keeps | refine Keeps.of_mk ?_ rfl rfl rfl

theorem execSignal_keeps {z : State} (e : Eng) (token : Nat) (s : State) (hk : Keeps z s) :
    KeepsOut z (execSignal e token s) := by
  unfold execSignal
  try dsimp only
  repeat' first | split | (intro _; try dsimp only) | with_reducible first | apply KeepsOut.next | assumption | apply State.patternB_keeps | refine Keeps.of_mk ?_ rfl rfl rfl

theorem execTset_keeps {z : State} (e : Eng) (ts : Fin 64) (groups : BitVec 16) (off : Bool) (s : State) (hk : Keeps z s) :
    KeepsOut z (execTset e ts groups off s) := by
  unfold execTset
  try dsimp only
  repeat' first | split | (intro _; try dsimp only) | with_reducible first | apply KeepsOut.next | assumption | apply State.patternB_keeps | refine Keeps.of_mk ?_ rfl rfl rfl

theorem execStream_keeps {z : State} (e : Eng) (value strm : Nat) (act : Fin 3) (s : State) (hk : Keeps z s) :
    KeepsOut z (execStream e value strm act s) := by
  unfold execStream
  try dsimp only
  repeat' first | split | (intro _; try dsimp only) | with_reducible first | apply KeepsOut.next | assumption | apply State.patternB_keeps | refine Keeps.of_mk ?_ rfl rfl rfl

theorem execCapon_keeps {z : State} (e : Eng) (config : Nat) (s : State) (hk : Keeps z s) :
    KeepsOut z (execCapon e config s) := by
  unfold execCapon
  try dsimp only
  repeat' first | split | (intro _; try dsimp only) | with_reducible first | apply KeepsOut.next | assumption | apply State.patternB_keeps | refine Keeps.of_mk ?_ rfl rfl rfl

theorem execCapoff_keeps {z : State} (e : Eng) (config : Nat) (s : State) (hk : Keeps z s) :
    KeepsOut z (execCapoff e config s) := by
  unfold execCapoff
  try dsimp only
  repeat' first | split | (intro _; try dsimp only) | with_reducible first | apply KeepsOut.next | assumption | apply State.patternB_keeps | refine Keeps.of_mk ?_ rfl rfl rfl

theorem execStamp_keeps {z : State} (e : Eng) (mset : Nat) (disarm : Bool) (s : State) (hk : Keeps z s) :
    KeepsOut z (execStamp e mset disarm s) := by
  unfold execStamp
  try dsimp only
  repeat' first | split | (intro _; try dsimp only) | with_reducible first | apply KeepsOut.next | assumption | apply State.patternB_keeps | refine Keeps.of_mk ?_ rfl rfl rfl

theorem execInj_keeps {z : State} (e : Eng) (group : Grp) (conv : Nat) (s : State) (hk : Keeps z s) :
    KeepsOut z (execInj e group conv s) := by
  unfold execInj
  try dsimp only
  repeat' first | split | (intro _; try dsimp only) | with_reducible first | apply KeepsOut.next | assumption | apply State.patternB_keeps | refine Keeps.of_mk ?_ rfl rfl rfl

theorem execFailstop_keeps {z : State} (e : Eng) (en : Bool) (s : State) (hk : Keeps z s) :
    KeepsOut z (execFailstop e en s) := by
  unfold execFailstop
  try dsimp only
  repeat' first | split | (intro _; try dsimp only) | with_reducible first | apply KeepsOut.next | assumption | apply State.patternB_keeps | refine Keeps.of_mk ?_ rfl rfl rfl

theorem execHalt_keeps {z : State} (e : Eng) (s : State) (hk : Keeps z s) :
    KeepsOut z (execHalt e s) := by
  unfold execHalt
  try dsimp only
  repeat' first | split | (intro _; try dsimp only) | with_reducible first | apply KeepsOut.next | assumption | apply State.patternB_keeps | refine Keeps.of_mk ?_ rfl rfl rfl

theorem execControlDescriptorAct_keeps {z : State} (r : Runner) (s : State) (hk : Keeps z s) :
    KeepsOut z (execControlDescriptorAct r s) := by
  unfold execControlDescriptorAct
  try dsimp only
  repeat' first | split | (intro _; try dsimp only) | with_reducible first | apply KeepsOut.next | assumption | apply State.actDue_keeps | apply State.actRest_keeps | refine Keeps.of_mk ?_ rfl rfl rfl

theorem execIllegalOpcodeTrap_keeps {z : State} (e : Eng) (opcode : Nat) (s : State) (hk : Keeps z s) :
    KeepsOut z (execIllegalOpcodeTrap e opcode s) := by
  unfold execIllegalOpcodeTrap
  try dsimp only
  repeat' first | split | (intro _; try dsimp only) | with_reducible first | apply KeepsOut.next | assumption | apply State.machineCheck_keeps | apply State.microRun_keeps | refine Keeps.of_mk ?_ rfl rfl rfl

theorem execControlStoreScrub_keeps {z : State} (e : Eng) (parityError : Bool) (addr : Nat) (s : State) (hk : Keeps z s) :
    KeepsOut z (execControlStoreScrub e parityError addr s) := by
  unfold execControlStoreScrub
  try dsimp only
  repeat' first | split | (intro _; try dsimp only) | with_reducible first | apply KeepsOut.next | assumption | apply State.machineCheck_keeps | refine Keeps.of_mk ?_ rfl rfl rfl

/-! ## Admit -/

theorem State.dispatch_keeps {z : State} (s : State) (i : Nat) (t : TaskSt) (r d e : Nat) (hk : Keeps z s) :
    Keeps z (State.dispatch s i t r d e) := by
  unfold State.dispatch
  try dsimp only
  repeat' first | split | (intro _; try dsimp only) | with_reducible first | assumption | apply State.freeTask_keeps | apply State.leaveLow_keeps | apply State.putBurst_keeps | apply State.updEng_keeps | refine Keeps.of_mk ?_ rfl rfl rfl

theorem State.tellBreak_keeps {z : State} (s : State) (p : Nat) (hk : Keeps z s) :
    Keeps z (State.tellBreak s p) := by
  unfold State.tellBreak
  try dsimp only
  repeat' first | split | (intro _; try dsimp only) | with_reducible first | assumption | apply State.precedence_keeps | refine Keeps.of_mk ?_ rfl rfl rfl

theorem State.tellCap_keeps {z : State} (s : State) (i : Nat) (t : TaskSt) (hk : Keeps z s) :
    Keeps z (State.tellCap s i t) := by
  unfold State.tellCap
  try dsimp only
  repeat' first | split | (intro _; try dsimp only) | with_reducible first | assumption | apply State.precedence_keeps | apply State.updTask_keeps | refine Keeps.of_mk ?_ rfl rfl rfl

theorem State.tryDispatch_keeps {z : State} (s : State) (i : Nat) (t : TaskSt) (hk : Keeps z s) :
    Keeps z (State.tryDispatch s i t) := by
  unfold State.tryDispatch
  try dsimp only
  repeat' first | split | (intro _; try dsimp only) | with_reducible first | assumption | apply State.dispatch_keeps | apply State.endTask_keeps | apply State.tellBreak_keeps | apply State.tellCap_keeps | apply State.updTask_keeps | refine Keeps.of_mk ?_ rfl rfl rfl

/-! ## MemOps -/

theorem State.candidate_keeps {z : State} (s : State) (r : MemRow) (hk : Keeps z s) :
    Keeps z (State.candidate s r) := by
  unfold State.candidate
  try dsimp only
  repeat' first | split | (intro _; try dsimp only) | with_reducible first | assumption | apply State.updMc_keeps | refine Keeps.of_mk ?_ rfl rfl rfl

theorem State.rowError_keeps {z : State} (s : State) (r : MemRow) (hk : Keeps z s) :
    Keeps z (State.rowError s r) := by
  unfold State.rowError
  try dsimp only
  repeat' first | split | (intro _; try dsimp only) | with_reducible first | assumption | apply State.candidate_keeps | apply State.updMc_keeps | refine Keeps.of_mk ?_ rfl rfl rfl

theorem State.eccCorr_keeps {z : State} (s : State) (x addr : Nat) (hk : Keeps z s) :
    Keeps z (State.eccCorr s x addr) := by
  unfold State.eccCorr
  try dsimp only
  repeat' first | split | (intro _; try dsimp only) | with_reducible first | assumption | apply State.event_keeps | apply State.rowError_keeps | apply State.updMc_keeps | refine Keeps.of_mk ?_ rfl rfl rfl

theorem State.eccUe_keeps {z : State} (s : State) (x addr : Nat) (cond : Option (Nat × Term)) (hk : Keeps z s) :
    Keeps z (State.eccUe s x addr cond) := by
  unfold State.eccUe
  try dsimp only
  repeat' first | split | (intro _; try dsimp only) | with_reducible first | assumption | apply State.candidate_keeps | apply State.raise_keeps | apply State.updMc_keeps | refine Keeps.of_mk ?_ rfl rfl rfl

theorem State.damageImage_keeps {z : State} (s : State) (b : Burst) (m : Nat) (hk : Keeps z s) :
    Keeps z (State.damageImage s b m) := by
  unfold State.damageImage
  try dsimp only
  repeat' first | split | (intro _; try dsimp only) | with_reducible first | assumption | apply State.event_keeps | apply State.updImage_keeps | refine Keeps.of_mk ?_ rfl rfl rfl

theorem State.streamUe_keeps {z : State} (s : State) (r : Nat) (b : Burst) (x : Nat) (pos : Option Nat) (hk : Keeps z s) :
    Keeps z (State.streamUe s r b x pos) := by
  unfold State.streamUe
  try dsimp only
  repeat' first | split | (intro _; try dsimp only) | with_reducible first | assumption | apply State.damageImage_keeps | apply State.drawFree_keeps | apply State.eccUe_keeps | apply State.updBurst_keeps | refine Keeps.of_mk ?_ rfl rfl rfl

theorem State.fillUe_keeps {z : State} (s : State) (r : Nat) (b : Burst) (x : Nat) (hk : Keeps z s) :
    Keeps z (State.fillUe s r b x) := by
  unfold State.fillUe
  try dsimp only
  repeat' first | split | (intro _; try dsimp only) | with_reducible first | assumption | apply State.applyPend_keeps | apply State.complete_keeps | apply State.damageImage_keeps | apply State.delBurst_keeps | apply State.drawFree_keeps | apply State.eccUe_keeps | apply State.issueTok_keeps | refine Keeps.of_mk ?_ rfl rfl rfl

theorem State.channelEvent_keeps {z : State} (s : State) (src m cause : Nat) (hk : Keeps z s) :
    Keeps z (State.channelEvent s src m cause) := by
  unfold State.channelEvent
  try dsimp only
  repeat' first | split | (intro _; try dsimp only) | with_reducible first | assumption | apply State.drawFree_keeps | apply State.event_keeps | refine Keeps.of_mk ?_ rfl rfl rfl

theorem State.catchUp_keeps {z : State} (s : State) (x : Nat) (hk : Keeps z s) :
    Keeps z (State.catchUp s x) := by
  unfold State.catchUp
  try dsimp only
  repeat' first | split | (intro _; try dsimp only) | with_reducible first | assumption | apply State.event_keeps | apply State.updPc_keeps | refine Keeps.of_mk ?_ rfl rfl rfl

theorem State.oweAgain_keeps {z : State} (s : State) (x : Nat) (hk : Keeps z s) :
    Keeps z (State.oweAgain s x) := by
  unfold State.oweAgain
  try dsimp only
  repeat' first | split | (intro _; try dsimp only) | with_reducible first | assumption | apply State.catchUp_keeps | apply State.updPc_keeps | refine Keeps.of_mk ?_ rfl rfl rfl

theorem State.setDoubled_keeps {z : State} (s : State) (k : Nat) (on : Bool) (hk : Keeps z s) :
    Keeps z (State.setDoubled s k on) := by
  unfold State.setDoubled
  try dsimp only
  repeat' first | split | (intro _; try dsimp only) | with_reducible first | assumption | apply State.event_keeps | apply State.oweAgain_keeps | apply State.updStack_keeps | apply Keeps.foldl | apply Keeps.foldl_fst | refine Keeps.of_mk ?_ rfl rfl rfl

theorem State.startTrain_keeps {z : State} (s : State) (m : Nat) (hk : Keeps z s) :
    Keeps z (State.startTrain s m) := by
  unfold State.startTrain
  try dsimp only
  repeat' first | split | (intro _; try dsimp only) | with_reducible first | assumption | apply State.updMc_keeps | refine Keeps.of_mk ?_ rfl rfl rfl

theorem State.loseDead_keeps {z : State} (s : State) (p n : Nat) (hk : Keeps z s) :
    Keeps z (State.loseDead s p n) := by
  unfold State.loseDead
  try dsimp only
  repeat' first | split | (intro _; try dsimp only) | with_reducible first | assumption | refine Keeps.of_mk ?_ rfl rfl rfl

end Sys2Proof.Machine
end

