-- ==== Sys2Proof/Laws/KeepsRows.lean ====
section
/-!
SUPPORT. What the rows of the hardware and of the host port keep (`Keeps`, Laws/Keeps.lean).
-/

set_option linter.unusedTactic false
set_option linter.unreachableTactic false

namespace Sys2Proof.Machine

/-! ## BurstRows -/

theorem execTaskDispatch_keeps {z : State} (i : TaskIx) (s : State) (hk : Keeps z s) :
    KeepsOut z (execTaskDispatch i s) := by
  unfold execTaskDispatch
  try dsimp only
  repeat' first | split | (intro _; try dsimp only) | with_reducible first | apply KeepsOut.next | assumption | apply State.tryDispatch_keeps | refine Keeps.of_mk ?_ rfl rfl rfl

theorem execLoopStoreFillDone_keeps {z : State} (e : Eng) (ecc : Ecc) (x : Pc) (s : State) (hk : Keeps z s) :
    KeepsOut z (execLoopStoreFillDone e ecc x s) := by
  unfold execLoopStoreFillDone
  try dsimp only
  repeat' first | split | (intro _; try dsimp only) | with_reducible first | apply KeepsOut.next | assumption | apply State.drawFree_keeps | apply State.eccCorr_keeps | apply State.fillUe_keeps | apply State.putBurst_keeps | apply State.updEng_keeps | refine Keeps.of_mk ?_ rfl rfl rfl

theorem execIslandFilled_keeps {z : State} (r : Runner) (g : Grp) (s : State) (hk : Keeps z s) :
    KeepsOut z (execIslandFilled r g s) := by
  unfold execIslandFilled
  try dsimp only
  repeat' first | split | (intro _; try dsimp only) | with_reducible first | apply KeepsOut.next | assumption | apply State.allFilled_keeps | apply State.putBurst_keeps | refine Keeps.of_mk ?_ rfl rfl rfl

theorem execBurstStartTick_keeps {z : State} (r : Runner) (s : State) (hk : Keeps z s) :
    KeepsOut z (execBurstStartTick r s) := by
  unfold execBurstStartTick
  try dsimp only
  repeat' first | split | (intro _; try dsimp only) | with_reducible first | apply KeepsOut.next | assumption | apply State.startBurst_keeps | refine Keeps.of_mk ?_ rfl rfl rfl

theorem State.delivered_keeps {z : State} (s : State) (r : Nat) (ok : Nat → Bool) (hk : Keeps z s) :
    Keeps z (State.delivered s r ok) := by
  unfold State.delivered
  try dsimp only
  repeat' first | split | (intro _; try dsimp only) | with_reducible first | assumption | apply State.deliver_keeps | apply State.updBurst_keeps | refine Keeps.of_mk ?_ rfl rfl rfl

theorem execGranuleDelivered_keeps {z : State} (e : Eng) (ecc : Ecc) (x : Pc) (gran : Nat) (s : State) (hk : Keeps z s) :
    KeepsOut z (execGranuleDelivered e ecc x gran s) := by
  unfold execGranuleDelivered
  try dsimp only
  repeat' first | split | (intro _; try dsimp only) | with_reducible first | apply KeepsOut.next | assumption | apply State.delivered_keeps | apply State.drawFree_keeps | apply State.eccCorr_keeps | apply State.streamUe_keeps | refine Keeps.of_mk ?_ rfl rfl rfl

theorem execPositionEmitted_keeps {z : State} (r : Runner) (ls : Ecc) (s : State) (hk : Keeps z s) :
    KeepsOut z (execPositionEmitted r ls s) := by
  unfold execPositionEmitted
  try dsimp only
  repeat' first | split | (intro _; try dsimp only) | with_reducible first | apply KeepsOut.next | assumption | apply State.drawFree_keeps | apply State.emit_keeps | apply State.event_keeps | apply State.machineCheck_keeps | apply State.tryRelease_keeps | apply State.updEng_keeps | refine Keeps.of_mk ?_ rfl rfl rfl

theorem execPositionMissing_keeps {z : State} (r : Runner) (cause : Short) (mc : Option Mc) (s : State) (hk : Keeps z s) :
    KeepsOut z (execPositionMissing r cause mc s) := by
  unfold execPositionMissing
  try dsimp only
  repeat' first | split | (intro _; try dsimp only) | with_reducible first | apply KeepsOut.next | assumption | apply State.missing_keeps | refine Keeps.of_mk ?_ rfl rfl rfl

theorem execPauseResume_keeps {z : State} (r : Runner) (s : State) (hk : Keeps z s) :
    KeepsOut z (execPauseResume r s) := by
  unfold execPauseResume
  try dsimp only
  repeat' first | split | (intro _; try dsimp only) | with_reducible first | apply KeepsOut.next | assumption | apply State.resume_keeps | refine Keeps.of_mk ?_ rfl rfl rfl

theorem execStretchLimitReached_keeps {z : State} (r : Runner) (s : State) (hk : Keeps z s) :
    KeepsOut z (execStretchLimitReached r s) := by
  unfold execStretchLimitReached
  try dsimp only
  repeat' first | split | (intro _; try dsimp only) | with_reducible first | apply KeepsOut.next | assumption | apply State.stretchEnd_keeps | refine Keeps.of_mk ?_ rfl rfl rfl

theorem execCompareResultFinal_keeps {z : State} (r : Runner) (seen : List (Chan × List Cmp)) (s : State) (hk : Keeps z s) :
    KeepsOut z (execCompareResultFinal r seen s) := by
  unfold execCompareResultFinal
  try dsimp only
  repeat' first | split | (intro _; try dsimp only) | with_reducible first | apply KeepsOut.next | assumption | apply State.finalResult_keeps | refine Keeps.of_mk ?_ rfl rfl rfl

theorem execAsyncEventAct_keeps {z : State} (r : Runner) (s : State) (hk : Keeps z s) :
    KeepsOut z (execAsyncEventAct r s) := by
  unfold execAsyncEventAct
  try dsimp only
  repeat' first | split | (intro _; try dsimp only) | with_reducible first | apply KeepsOut.next | assumption | apply State.asyncAct_keeps | refine Keeps.of_mk ?_ rfl rfl rfl

theorem execRunLimitExpiry_keeps {z : State} (r : Runner) (s : State) (hk : Keeps z s) :
    KeepsOut z (execRunLimitExpiry r s) := by
  unfold execRunLimitExpiry
  try dsimp only
  repeat' first | split | (intro _; try dsimp only) | with_reducible first | apply KeepsOut.next | assumption | apply State.runLimit_keeps | refine Keeps.of_mk ?_ rfl rfl rfl

theorem execBurstEnd_keeps {z : State} (r : Runner) (s : State) (hk : Keeps z s) :
    KeepsOut z (execBurstEnd r s) := by
  unfold execBurstEnd
  try dsimp only
  repeat' first | split | (intro _; try dsimp only) | with_reducible first | apply KeepsOut.next | assumption | apply State.endOf_keeps | refine Keeps.of_mk ?_ rfl rfl rfl

theorem execBurstResultFinal_keeps {z : State} (r : Runner) (s : State) (hk : Keeps z s) :
    KeepsOut z (execBurstResultFinal r s) := by
  unfold execBurstResultFinal
  try dsimp only
  repeat' first | split | (intro _; try dsimp only) | with_reducible first | apply KeepsOut.next | assumption | apply State.finalOf_keeps | refine Keeps.of_mk ?_ rfl rfl rfl

/-! ## SchedRows -/

theorem execTokenArrival_keeps {z : State} (scope : Site) (kind : Fin 7) (key : Nat) (result : BitVec 16) (s : State) (hk : Keeps z s) :
    KeepsOut z (execTokenArrival scope kind key result s) := by
  unfold execTokenArrival
  try dsimp only
  repeat' first | split | (intro _; try dsimp only) | with_reducible first | apply KeepsOut.next | assumption | apply State.issueTok_keeps | refine Keeps.of_mk ?_ rfl rfl rfl

theorem execTokenOverflowDrain_keeps {z : State} (s : State) (hk : Keeps z s) :
    KeepsOut z (execTokenOverflowDrain s) := by
  unfold execTokenOverflowDrain
  try dsimp only
  repeat' first | split | (intro _; try dsimp only) | with_reducible first | apply KeepsOut.next | assumption | apply State.drainHeld_keeps | apply State.drainTok_keeps | apply State.wake_keeps | refine Keeps.of_mk ?_ rfl rfl rfl

theorem execWaitTimeoutExpiry_keeps {z : State} (i : TaskIx) (s : State) (hk : Keeps z s) :
    KeepsOut z (execWaitTimeoutExpiry i s) := by
  unfold execWaitTimeoutExpiry
  try dsimp only
  repeat' first | split | (intro _; try dsimp only) | with_reducible first | apply KeepsOut.next | assumption | apply State.endTask_keeps | apply State.event_keeps | apply State.moveTo_keeps | apply State.tryDispatch_keeps | refine Keeps.of_mk ?_ rfl rfl rfl

theorem execAdmitPatienceExpiry_keeps {z : State} (s : State) (hk : Keeps z s) :
    KeepsOut z (execAdmitPatienceExpiry s) := by
  unfold execAdmitPatienceExpiry
  try dsimp only
  repeat' first | split | (intro _; try dsimp only) | with_reducible first | apply KeepsOut.next | assumption | apply State.event_keeps | apply State.moveTo_keeps | refine Keeps.of_mk ?_ rfl rfl rfl

theorem execAffPatienceExpiry_keeps {z : State} (i : TaskIx) (s : State) (hk : Keeps z s) :
    KeepsOut z (execAffPatienceExpiry i s) := by
  unfold execAffPatienceExpiry
  try dsimp only
  repeat' first | split | (intro _; try dsimp only) | with_reducible first | apply KeepsOut.next | assumption | apply State.moveTo_keeps | apply State.tryDispatch_keeps | refine Keeps.of_mk ?_ rfl rfl rfl

theorem execLinkTimeoutExpiry_keeps {z : State} (r : Runner) (s : State) (hk : Keeps z s) :
    KeepsOut z (execLinkTimeoutExpiry r s) := by
  unfold execLinkTimeoutExpiry
  try dsimp only
  repeat' first | split | (intro _; try dsimp only) | with_reducible first | apply KeepsOut.next | assumption | apply State.event_keeps | apply State.giveUp_keeps | apply State.moveTo_keeps | refine Keeps.of_mk ?_ rfl rfl rfl

theorem execLinkMemberLost_keeps {z : State} (site : Site) (node : Nat) (s : State) (hk : Keeps z s) :
    KeepsOut z (execLinkMemberLost site node s) := by
  unfold execLinkMemberLost
  try dsimp only
  repeat' first | split | (intro _; try dsimp only) | with_reducible first | apply KeepsOut.next | assumption | apply State.event_keeps | apply State.linkResult_keeps | apply State.moveTo_keeps | refine Keeps.of_mk ?_ rfl rfl rfl

theorem execBudgetRecompute_keeps {z : State} (s : State) (hk : Keeps z s) :
    KeepsOut z (execBudgetRecompute s) := by
  unfold execBudgetRecompute
  try dsimp only
  repeat' first | split | (intro _; try dsimp only) | with_reducible first | apply KeepsOut.next | assumption | apply State.recompute_keeps | refine Keeps.of_mk ?_ rfl rfl rfl

theorem execC1Stall_keeps {z : State} (port : Port) (s : State) (hk : Keeps z s) :
    KeepsOut z (execC1Stall port s) := by
  unfold execC1Stall
  try dsimp only
  repeat' first | split | (intro _; try dsimp only) | with_reducible first | apply KeepsOut.next | assumption | apply State.event_keeps | apply State.moveTo_keeps | apply State.updPort_keeps | refine Keeps.of_mk ?_ rfl rfl rfl

/-! ## DpsRows -/

theorem State.seqPhase_keeps {z : State} (s : State) (k : Nat) (phase : SeqPhase) (due : Nat) (hk : Keeps z s) :
    Keeps z (State.seqPhase s k phase due) := by
  unfold State.seqPhase
  try dsimp only
  repeat' first | split | (intro _; try dsimp only) | with_reducible first | assumption | apply State.updSite_keeps | refine Keeps.of_mk ?_ rfl rfl rfl

theorem State.settledTok_keeps {z : State} (s : State) (k code : Nat) (hk : Keeps z s) :
    Keeps z (State.settledTok s k code) := by
  unfold State.settledTok
  try dsimp only
  repeat' first | split | (intro _; try dsimp only) | with_reducible first | assumption | apply State.issueTok_keeps | refine Keeps.of_mk ?_ rfl rfl rfl

theorem State.upDone_keeps {z : State} (s : State) (k : Nat) (r : SeqRun) (hk : Keeps z s) :
    Keeps z (State.upDone s k r) := by
  unfold State.upDone
  try dsimp only
  repeat' first | split | (intro _; try dsimp only) | with_reducible first | assumption | apply State.complete_keeps | apply State.settledTok_keeps | apply State.shed_keeps | apply State.updSite_keeps | refine Keeps.of_mk ?_ rfl rfl rfl

theorem State.stepDelay_keeps {z : State} (s : State) (k : Nat) (x : SeqStep) (hk : Keeps z s) :
    Keeps z (State.stepDelay s k x) := by
  unfold State.stepDelay
  try dsimp only
  repeat' first | split | (intro _; try dsimp only) | with_reducible first | assumption | apply State.seqPhase_keeps | refine Keeps.of_mk ?_ rfl rfl rfl

theorem State.stepDone_keeps {z : State} (s : State) (k : Nat) (r : SeqRun) (x : SeqStep) (hk : Keeps z s) :
    Keeps z (State.stepDone s k r x) := by
  unfold State.stepDone
  try dsimp only
  repeat' first | split | (intro _; try dsimp only) | with_reducible first | assumption | apply State.stepDelay_keeps | apply State.upDone_keeps | refine Keeps.of_mk ?_ rfl rfl rfl

theorem State.downDone_keeps {z : State} (s : State) (k : Nat) (r : SeqRun) (hk : Keeps z s) :
    Keeps z (State.downDone s k r) := by
  unfold State.downDone
  try dsimp only
  repeat' first | split | (intro _; try dsimp only) | with_reducible first | assumption | apply State.complete_keeps | apply State.updSite_keeps | refine Keeps.of_mk ?_ rfl rfl rfl

theorem State.downStep_keeps {z : State} (s : State) (k i : Nat) (hk : Keeps z s) :
    Keeps z (State.downStep s k i) := by
  unfold State.downStep
  try dsimp only
  repeat' first | split | (intro _; try dsimp only) | with_reducible first | assumption | apply State.seqPhase_keeps | apply State.stepDelay_keeps | apply State.updDps_keeps | apply State.updSite_keeps | refine Keeps.of_mk ?_ rfl rfl rfl

theorem State.downOff_keeps {z : State} (s : State) (k d : Nat) (x : SeqStep) (hk : Keeps z s) :
    Keeps z (State.downOff s k d x) := by
  unfold State.downOff
  try dsimp only
  repeat' first | split | (intro _; try dsimp only) | with_reducible first | assumption | apply State.stepDelay_keeps | apply State.updDps_keeps | refine Keeps.of_mk ?_ rfl rfl rfl

theorem execDpsStepAdmitted_keeps {z : State} (site : Site) (s : State) (hk : Keeps z s) :
    KeepsOut z (execDpsStepAdmitted site s) := by
  unfold execDpsStepAdmitted
  try dsimp only
  repeat' first | split | (intro _; try dsimp only) | with_reducible first | apply KeepsOut.next | assumption | apply State.seqPhase_keeps | apply State.setPar_keeps | apply State.updDps_keeps | refine Keeps.of_mk ?_ rfl rfl rfl

theorem execDpsSeedSweepEnd_keeps {z : State} (d : Dps) (hi lo cur : Bool) (s : State) (hk : Keeps z s) :
    KeepsOut z (execDpsSeedSweepEnd d hi lo cur s) := by
  unfold execDpsSeedSweepEnd
  try dsimp only
  repeat' first | split | (intro _; try dsimp only) | with_reducible first | apply KeepsOut.next | assumption | apply State.moveTo_keeps | apply State.seqPhase_keeps | apply State.updDps_keeps | refine Keeps.of_mk ?_ rfl rfl rfl

theorem execDpsRampEnd_keeps {z : State} (d : Dps) (s : State) (hk : Keeps z s) :
    KeepsOut z (execDpsRampEnd d s) := by
  unfold execDpsRampEnd
  try dsimp only
  repeat' first | split | (intro _; try dsimp only) | with_reducible first | apply KeepsOut.next | assumption | apply State.moveTo_keeps | apply State.seqPhase_keeps | apply State.stepDone_keeps | apply State.updDps_keeps | refine Keeps.of_mk ?_ rfl rfl rfl

theorem execDpsSettled_keeps {z : State} (d : Dps) (s : State) (hk : Keeps z s) :
    KeepsOut z (execDpsSettled d s) := by
  unfold execDpsSettled
  try dsimp only
  repeat' first | split | (intro _; try dsimp only) | with_reducible first | apply KeepsOut.next | assumption | apply State.moveTo_keeps | apply State.stepDone_keeps | apply State.updDps_keeps | refine Keeps.of_mk ?_ rfl rfl rfl

theorem execSeqDelayExpiry_keeps {z : State} (site : Site) (s : State) (hk : Keeps z s) :
    KeepsOut z (execSeqDelayExpiry site s) := by
  unfold execSeqDelayExpiry
  try dsimp only
  repeat' first | split | (intro _; try dsimp only) | with_reducible first | apply KeepsOut.next | assumption | apply State.downDone_keeps | apply State.downStep_keeps | apply State.moveTo_keeps | apply State.updSite_keeps | refine Keeps.of_mk ?_ rfl rfl rfl

theorem execSeqTimeout_keeps {z : State} (site : Site) (s : State) (hk : Keeps z s) :
    KeepsOut z (execSeqTimeout site s) := by
  unfold execSeqTimeout
  try dsimp only
  repeat' first | split | (intro _; try dsimp only) | with_reducible first | apply KeepsOut.next | assumption | apply State.complete_keeps | apply State.event_keeps | apply State.moveTo_keeps | apply State.settledTok_keeps | apply State.updSite_keeps | refine Keeps.of_mk ?_ rfl rfl rfl

theorem execDpsOffLevelReached_keeps {z : State} (d : Dps) (s : State) (hk : Keeps z s) :
    KeepsOut z (execDpsOffLevelReached d s) := by
  unfold execDpsOffLevelReached
  try dsimp only
  repeat' first | split | (intro _; try dsimp only) | with_reducible first | apply KeepsOut.next | assumption | apply State.downOff_keeps | apply State.updDps_keeps | refine Keeps.of_mk ?_ rfl rfl rfl

theorem execDischSlow_keeps {z : State} (d : Dps) (s : State) (hk : Keeps z s) :
    KeepsOut z (execDischSlow d s) := by
  unfold execDischSlow
  try dsimp only
  repeat' first | split | (intro _; try dsimp only) | with_reducible first | apply KeepsOut.next | assumption | apply State.downOff_keeps | apply State.event_keeps | apply State.moveTo_keeps | apply State.updDps_keeps | refine Keeps.of_mk ?_ rfl rfl rfl

theorem execWindowFault_keeps {z : State} (d : Dps) (s : State) (hk : Keeps z s) :
    KeepsOut z (execWindowFault d s) := by
  unfold execWindowFault
  try dsimp only
  repeat' first | split | (intro _; try dsimp only) | with_reducible first | apply KeepsOut.next | assumption | apply State.event_keeps | apply State.moveTo_keeps | apply State.updDps_keeps | refine Keeps.of_mk ?_ rfl rfl rfl

theorem execSenseOpen_keeps {z : State} (d : Dps) (s : State) (hk : Keeps z s) :
    KeepsOut z (execSenseOpen d s) := by
  unfold execSenseOpen
  try dsimp only
  repeat' first | split | (intro _; try dsimp only) | with_reducible first | apply KeepsOut.next | assumption | apply State.event_keeps | apply State.updDps_keeps | refine Keeps.of_mk ?_ rfl rfl rfl

theorem execDpsStageTrip_keeps {z : State} (d : Dps) (loopFault : Bool) (s : State) (hk : Keeps z s) :
    KeepsOut z (execDpsStageTrip d loopFault s) := by
  unfold execDpsStageTrip
  try dsimp only
  repeat' first | split | (intro _; try dsimp only) | with_reducible first | apply KeepsOut.next | assumption | apply State.event_keeps | refine Keeps.of_mk ?_ rfl rfl rfl

theorem execWinStateChange_keeps {z : State} (d : Dps) (hi lo cur : Bool) (t : Nat) (s : State) (hk : Keeps z s) :
    KeepsOut z (execWinStateChange d hi lo cur t s) := by
  unfold execWinStateChange
  try dsimp only
  repeat' first | split | (intro _; try dsimp only) | with_reducible first | apply KeepsOut.next | assumption | apply State.moveTo_keeps | apply State.updDps_keeps | refine Keeps.of_mk ?_ rfl rfl rfl

/-! ## PfeRows -/

theorem execLaneOvercurrent_keeps {z : State} (l : Lane) (s : State) (hk : Keeps z s) :
    KeepsOut z (execLaneOvercurrent l s) := by
  unfold execLaneOvercurrent
  try dsimp only
  repeat' first | split | (intro _; try dsimp only) | with_reducible first | apply KeepsOut.next | assumption | apply State.event_keeps | refine Keeps.of_mk ?_ rfl rfl rfl

theorem execLaneOvervoltage_keeps {z : State} (l : Lane) (s : State) (hk : Keeps z s) :
    KeepsOut z (execLaneOvervoltage l s) := by
  unfold execLaneOvervoltage
  try dsimp only
  repeat' first | split | (intro _; try dsimp only) | with_reducible first | apply KeepsOut.next | assumption | apply State.event_keeps | refine Keeps.of_mk ?_ rfl rfl rfl

theorem State.idleLane_keeps {z : State} (s : State) (c : Nat) (hk : Keeps z s) :
    Keeps z (State.idleLane s c) := by
  unfold State.idleLane
  try dsimp only
  repeat' first | split | (intro _; try dsimp only) | with_reducible first | assumption | apply State.safeChan_keeps | apply State.updLane_keeps | refine Keeps.of_mk ?_ rfl rfl rfl

theorem execLaneSeedSweepEnd_keeps {z : State} (l : Lane) (selfCheckOk : Bool) (s : State) (hk : Keeps z s) :
    KeepsOut z (execLaneSeedSweepEnd l selfCheckOk s) := by
  unfold execLaneSeedSweepEnd
  try dsimp only
  repeat' first | split | (intro _; try dsimp only) | with_reducible first | apply KeepsOut.next | assumption | apply State.event_keeps | apply State.idleLane_keeps | apply State.updLane_keeps | refine Keeps.of_mk ?_ rfl rfl rfl

theorem execConnChangeComplete_keeps {z : State} (done : ConnDone) (s : State) (hk : Keeps z s) :
    KeepsOut z (execConnChangeComplete done s) := by
  unfold execConnChangeComplete
  try dsimp only
  repeat' first | split | (intro _; try dsimp only) | with_reducible first | apply KeepsOut.next | assumption | apply State.event_keeps | apply State.idleLane_keeps | apply State.pmuChange_keeps | apply State.safeChan_keeps | apply State.updGrp_keeps | apply State.updLane_keeps | refine Keeps.of_mk ?_ rfl rfl rfl

theorem execPmuSettled_keeps {z : State} (g : Grp) (s : State) (hk : Keeps z s) :
    KeepsOut z (execPmuSettled g s) := by
  unfold execPmuSettled
  try dsimp only
  repeat' first | split | (intro _; try dsimp only) | with_reducible first | apply KeepsOut.next | assumption | apply State.moveTo_keeps | apply State.updGrp_keeps | refine Keeps.of_mk ?_ rfl rfl rfl

theorem execCurrentLimit_keeps {z : State} (at_ : LimitAt) (enters : Bool) (s : State) (hk : Keeps z s) :
    KeepsOut z (execCurrentLimit at_ enters s) := by
  unfold execCurrentLimit
  try dsimp only
  repeat' first | split | (intro _; try dsimp only) | with_reducible first | apply KeepsOut.next | assumption | apply State.updDps_keeps | apply State.updGrp_keeps | apply State.updLane_keeps | apply State.updPadc_keeps | refine Keeps.of_mk ?_ rfl rfl rfl

/-! ## CapRows -/

theorem execXtrigEdge_keeps {z : State} (input : Fin 2) (falling : Bool) (t : Nat) (s : State) (hk : Keeps z s) :
    KeepsOut z (execXtrigEdge input falling t s) := by
  unfold execXtrigEdge
  try dsimp only
  repeat' first | split | (intro _; try dsimp only) | with_reducible first | apply KeepsOut.next | assumption | apply State.moveTo_keeps | apply State.occurAt_keeps | apply State.sample_keeps | refine Keeps.of_mk ?_ rfl rfl rfl

theorem execCaptureRingEnd_keeps {z : State} (u : Cu) (s : State) (hk : Keeps z s) :
    KeepsOut z (execCaptureRingEnd u s) := by
  unfold execCaptureRingEnd
  try dsimp only
  repeat' first | split | (intro _; try dsimp only) | with_reducible first | apply KeepsOut.next | assumption | apply State.endCapture_keeps | apply State.post_keeps | refine Keeps.of_mk ?_ rfl rfl rfl

theorem execStreamProdUpdate_keeps {z : State} (h : Hs) (s : State) (hk : Keeps z s) :
    KeepsOut z (execStreamProdUpdate h s) := by
  unfold execStreamProdUpdate
  try dsimp only
  repeat' first | split | (intro _; try dsimp only) | with_reducible first | apply KeepsOut.next | assumption | apply State.moveTo_keeps | apply State.streamWrite_keeps | apply State.updHs_keeps | refine Keeps.of_mk ?_ rfl rfl rfl

theorem execStreamConsRead_keeps {z : State} (h : Hs) (cons : Nat) (s : State) (hk : Keeps z s) :
    KeepsOut z (execStreamConsRead h cons s) := by
  unfold execStreamConsRead
  try dsimp only
  repeat' first | split | (intro _; try dsimp only) | with_reducible first | apply KeepsOut.next | assumption | apply State.streamRecover_keeps | apply State.updHs_keeps | refine Keeps.of_mk ?_ rfl rfl rfl

theorem State.epochs_keeps {z : State} (s : State) (hk : Keeps z s) :
    Keeps z (State.epochs s) := by
  unfold State.epochs
  try dsimp only
  repeat' first | split | (intro _; try dsimp only) | with_reducible first | assumption | apply State.streamPush_keeps | apply Keeps.foldl | apply Keeps.foldl_fst | refine Keeps.of_mk ?_ rfl rfl rfl

theorem execEpochDue_keeps {z : State} (s : State) (hk : Keeps z s) :
    KeepsOut z (execEpochDue s) := by
  unfold execEpochDue
  try dsimp only
  repeat' first | split | (intro _; try dsimp only) | with_reducible first | apply KeepsOut.next | assumption | apply State.epochs_keeps | apply State.moveTo_keeps | refine Keeps.of_mk ?_ rfl rfl rfl

theorem execStreamError_keeps {z : State} (h : Hs) (addr : Nat) (s : State) (hk : Keeps z s) :
    KeepsOut z (execStreamError h addr s) := by
  unfold execStreamError
  try dsimp only
  repeat' first | split | (intro _; try dsimp only) | with_reducible first | apply KeepsOut.next | assumption | apply State.event_keeps | apply State.fnErr_keeps | apply State.updHs_keeps | refine Keeps.of_mk ?_ rfl rfl rfl

/-! ## TmuRows -/

theorem execRawRecordClose_keeps {z : State} (m : MSet) (s : State) (hk : Keeps z s) :
    KeepsOut z (execRawRecordClose m s) := by
  unfold execRawRecordClose
  try dsimp only
  repeat' first | split | (intro _; try dsimp only) | with_reducible first | apply KeepsOut.next | assumption | apply State.closeRaw_keeps | apply State.moveTo_keeps | refine Keeps.of_mk ?_ rfl rfl rfl

theorem State.toSets_keeps {z : State} (s : State) (c stamp : Nat) (vcl rising missed : Bool) (hk : Keeps z s) :
    Keeps z (State.toSets s c stamp vcl rising missed) := by
  unfold State.toSets
  try dsimp only
  repeat' first | split | (intro _; try dsimp only) | with_reducible first | assumption | apply State.missedEdge_keeps | apply State.setEdge_keeps | apply Keeps.foldl | apply Keeps.foldl_fst | refine Keeps.of_mk ?_ rfl rfl rfl

theorem execStampEdge_keeps {z : State} (l : Lane) (vcl rising : Bool) (raw : Nat) (s : State) (hk : Keeps z s) :
    KeepsOut z (execStampEdge l vcl rising raw s) := by
  unfold execStampEdge
  try dsimp only
  repeat' first | split | (intro _; try dsimp only) | with_reducible first | apply KeepsOut.next | assumption | apply State.moveTo_keeps | apply State.statStamp_keeps | apply State.toSets_keeps | apply State.updLane_keeps | refine Keeps.of_mk ?_ rfl rfl rfl

theorem execMsTimeout_keeps {z : State} (m : MSet) (s : State) (hk : Keeps z s) :
    KeepsOut z (execMsTimeout m s) := by
  unfold execMsTimeout
  try dsimp only
  repeat' first | split | (intro _; try dsimp only) | with_reducible first | apply KeepsOut.next | assumption | apply State.closeGates_keeps | apply State.event_keeps | apply State.moveTo_keeps | apply State.publishSet_keeps | refine Keeps.of_mk ?_ rfl rfl rfl

theorem execFreqGateClose_keeps {z : State} (m : MSet) (stamp edges : Nat) (s : State) (hk : Keeps z s) :
    KeepsOut z (execFreqGateClose m stamp edges s) := by
  unfold execFreqGateClose
  try dsimp only
  repeat' first | split | (intro _; try dsimp only) | with_reducible first | apply KeepsOut.next | assumption | apply State.closeGate_keeps | refine Keeps.of_mk ?_ rfl rfl rfl

theorem execOscTcompUpdate_keeps {z : State} (temp : Int) (s : State) (hk : Keeps z s) :
    KeepsOut z (execOscTcompUpdate temp s) := by
  unfold execOscTcompUpdate
  try dsimp only
  repeat' first | split | (intro _; try dsimp only) | with_reducible first | apply KeepsOut.next | assumption | apply State.event_keeps | apply State.moveTo_keeps | refine Keeps.of_mk ?_ rfl rfl rfl

theorem execOscAgeingStep_keeps {z : State} (s : State) (hk : Keeps z s) :
    KeepsOut z (execOscAgeingStep s) := by
  unfold execOscAgeingStep
  try dsimp only
  repeat' first | split | (intro _; try dsimp only) | with_reducible first | apply KeepsOut.next | assumption | apply State.event_keeps | apply State.moveTo_keeps | refine Keeps.of_mk ?_ rfl rfl rfl

theorem execOscWarm_keeps {z : State} (s : State) (hk : Keeps z s) :
    KeepsOut z (execOscWarm s) := by
  unfold execOscWarm
  try dsimp only
  repeat' first | split | (intro _; try dsimp only) | with_reducible first | apply KeepsOut.next | assumption | apply State.event_keeps | refine Keeps.of_mk ?_ rfl rfl rfl

theorem execOscFault_keeps {z : State} (s : State) (hk : Keeps z s) :
    KeepsOut z (execOscFault s) := by
  unfold execOscFault
  try dsimp only
  repeat' first | split | (intro _; try dsimp only) | with_reducible first | apply KeepsOut.next | assumption | apply State.event_keeps | refine Keeps.of_mk ?_ rfl rfl rfl

theorem execTmuFault_keeps {z : State} (lane : Option Lane) (set : Option MSet) (s : State) (hk : Keeps z s) :
    KeepsOut z (execTmuFault lane set s) := by
  unfold execTmuFault
  try dsimp only
  repeat' first | split | (intro _; try dsimp only) | with_reducible first | apply KeepsOut.next | assumption | apply State.event_keeps | apply State.publishFenced_keeps | refine Keeps.of_mk ?_ rfl rfl rfl

/-! ## PadcRows -/

theorem State.startConv_keeps {z : State} (s : State) (c : Nat) (injected : Bool) (setting pos start : Nat) (hk : Keeps z s) :
    Keeps z (State.startConv s c injected setting pos start) := by
  unfold State.startConv
  try dsimp only
  repeat' first | split | (intro _; try dsimp only) | with_reducible first | assumption | apply State.updPadc_keeps | refine Keeps.of_mk ?_ rfl rfl rfl

theorem State.startSingle_keeps {z : State} (s : State) (c : Nat) (hk : Keeps z s) :
    Keeps z (State.startSingle s c) := by
  unfold State.startSingle
  try dsimp only
  repeat' first | split | (intro _; try dsimp only) | with_reducible first | assumption | apply State.startConv_keeps | apply State.updPadc_keeps | refine Keeps.of_mk ?_ rfl rfl rfl

theorem execRegIntervalDue_keeps {z : State} (c : Conv) (s : State) (hk : Keeps z s) :
    KeepsOut z (execRegIntervalDue c s) := by
  unfold execRegIntervalDue
  try dsimp only
  repeat' first | split | (intro _; try dsimp only) | with_reducible first | apply KeepsOut.next | assumption | apply State.moveTo_keeps | apply State.startConv_keeps | apply State.updPadc_keeps | refine Keeps.of_mk ?_ rfl rfl rfl

theorem execInjConversionStart_keeps {z : State} (c : Conv) (s : State) (hk : Keeps z s) :
    KeepsOut z (execInjConversionStart c s) := by
  unfold execInjConversionStart
  try dsimp only
  repeat' first | split | (intro _; try dsimp only) | with_reducible first | apply KeepsOut.next | assumption | apply State.moveTo_keeps | apply State.startConv_keeps | apply State.updPadc_keeps | refine Keeps.of_mk ?_ rfl rfl rfl

theorem execConversionEnd_keeps {z : State} (c : Conv) (outputs : List Int) (clamp ovr : Bool) (s : State) (hk : Keeps z s) :
    KeepsOut z (execConversionEnd c outputs clamp ovr s) := by
  unfold execConversionEnd
  try dsimp only
  repeat' first | split | (intro _; try dsimp only) | with_reducible first | apply KeepsOut.next | assumption | apply State.issueTok_keeps | apply State.moveTo_keeps | apply State.sitePush_keeps | apply State.startSingle_keeps | apply State.updPadc_keeps | refine Keeps.of_mk ?_ rfl rfl rfl

theorem State.askCal_keeps {z : State} (s : State) (c : Nat) (auto : Bool) (hk : Keeps z s) :
    Keeps z (State.askCal s c auto) := by
  unfold State.askCal
  try dsimp only
  repeat' first | split | (intro _; try dsimp only) | with_reducible first | assumption | apply State.dropPending_keeps | apply State.updPadc_keeps | refine Keeps.of_mk ?_ rfl rfl rfl

theorem State.startCal_keeps {z : State} (s : State) (c : Nat) (hk : Keeps z s) :
    Keeps z (State.startCal s c) := by
  unfold State.startCal
  try dsimp only
  repeat' first | split | (intro _; try dsimp only) | with_reducible first | assumption | apply State.updPadc_keeps | refine Keeps.of_mk ?_ rfl rfl rfl

theorem State.runCal_keeps {z : State} (s : State) (c : Nat) (hk : Keeps z s) :
    Keeps z (State.runCal s c) := by
  unfold State.runCal
  try dsimp only
  repeat' first | split | (intro _; try dsimp only) | with_reducible first | assumption | apply State.startCal_keeps | refine Keeps.of_mk ?_ rfl rfl rfl

theorem execSelfcalStart_keeps {z : State} (c : Conv) (s : State) (hk : Keeps z s) :
    KeepsOut z (execSelfcalStart c s) := by
  unfold execSelfcalStart
  try dsimp only
  repeat' first | split | (intro _; try dsimp only) | with_reducible first | apply KeepsOut.next | assumption | apply State.askCal_keeps | apply State.runCal_keeps | refine Keeps.of_mk ?_ rfl rfl rfl

theorem execSelfcalEnd_keeps {z : State} (c : Conv) (zeroMean refMean : Int) (s : State) (hk : Keeps z s) :
    KeepsOut z (execSelfcalEnd c zeroMean refMean s) := by
  unfold execSelfcalEnd
  try dsimp only
  repeat' first | split | (intro _; try dsimp only) | with_reducible first | apply KeepsOut.next | assumption | apply State.complete_keeps | apply State.event_keeps | apply State.moveTo_keeps | apply State.startSingle_keeps | apply State.updPadc_keeps | refine Keeps.of_mk ?_ rfl rfl rfl

theorem execPadcPowerupWarm_keeps {z : State} (c : Conv) (s : State) (hk : Keeps z s) :
    KeepsOut z (execPadcPowerupWarm c s) := by
  unfold execPadcPowerupWarm
  try dsimp only
  repeat' first | split | (intro _; try dsimp only) | with_reducible first | apply KeepsOut.next | assumption | apply State.moveTo_keeps | apply State.updPadc_keeps | refine Keeps.of_mk ?_ rfl rfl rfl

theorem execHkSlotEnd_keeps {z : State} (value : Int) (s : State) (hk : Keeps z s) :
    KeepsOut z (execHkSlotEnd value s) := by
  unfold execHkSlotEnd
  try dsimp only
  repeat' first | split | (intro _; try dsimp only) | with_reducible first | apply KeepsOut.next | assumption | apply State.moveTo_keeps | apply State.startCal_keeps | apply State.updDps_keeps | refine Keeps.of_mk ?_ rfl rfl rfl

theorem execPadcFault_keeps {z : State} (c : Conv) (s : State) (hk : Keeps z s) :
    KeepsOut z (execPadcFault c s) := by
  unfold execPadcFault
  try dsimp only
  repeat' first | split | (intro _; try dsimp only) | with_reducible first | apply KeepsOut.next | assumption | apply State.convDrop_keeps | apply State.event_keeps | refine Keeps.of_mk ?_ rfl rfl rfl

/-! ## RseRows -/

theorem execRseVblank_keeps {z : State} (n : Rse) (s : State) (hk : Keeps z s) :
    KeepsOut z (execRseVblank n s) := by
  unfold execRseVblank
  try dsimp only
  repeat' first | split | (intro _; try dsimp only) | with_reducible first | apply KeepsOut.next | assumption | apply State.applyVal_keeps | apply State.keepChk_keeps | apply State.updRse_keeps | apply Keeps.foldl | apply Keeps.foldl_fst | refine Keeps.of_mk ?_ rfl rfl rfl

theorem State.updRseBurst_keeps {z : State} (s : State) (n : Nat) (ended : Bool) (f : Burst → Burst) (hk : Keeps z s) :
    Keeps z (State.updRseBurst s n ended f) := by
  unfold State.updRseBurst
  try dsimp only
  repeat' first | split | (intro _; try dsimp only) | with_reducible first | assumption | apply State.updBurst_keeps | refine Keeps.of_mk ?_ rfl rfl rfl

theorem execRseFrameChecked_keeps {z : State} (n : Rse) (crcs : List Nat) (invalid : BitVec 16) (syncLost : Bool) (s : State) (hk : Keeps z s) :
    KeepsOut z (execRseFrameChecked n crcs invalid syncLost s) := by
  unfold execRseFrameChecked
  try dsimp only
  repeat' first | split | (intro _; try dsimp only) | with_reducible first | apply KeepsOut.next | assumption | apply State.event_keeps | apply State.sitePush_keeps | apply State.updRseBurst_keeps | apply State.updRse_keeps | refine Keeps.of_mk ?_ rfl rfl rfl

theorem execRsePixelUnderrun_keeps {z : State} (n : Rse) (layer : Bool) (count : Nat) (s : State) (hk : Keeps z s) :
    KeepsOut z (execRsePixelUnderrun n layer count s) := by
  unfold execRsePixelUnderrun
  try dsimp only
  repeat' first | split | (intro _; try dsimp only) | with_reducible first | apply KeepsOut.next | assumption | apply State.underPixels_keeps | refine Keeps.of_mk ?_ rfl rfl rfl

theorem execLatTolReport_keeps {z : State} (n : Rse) (tol : Nat) (s : State) (hk : Keeps z s) :
    KeepsOut z (execLatTolReport n tol s) := by
  unfold execLatTolReport
  try dsimp only
  repeat' first | split | (intro _; try dsimp only) | with_reducible first | apply KeepsOut.next | assumption | apply State.leaveLow_keeps | apply State.updRse_keeps | refine Keeps.of_mk ?_ rfl rfl rfl

theorem execRseFault_keeps {z : State} (n : Rse) (s : State) (hk : Keeps z s) :
    KeepsOut z (execRseFault n s) := by
  unfold execRseFault
  try dsimp only
  repeat' first | split | (intro _; try dsimp only) | with_reducible first | apply KeepsOut.next | assumption | apply State.event_keeps | refine Keeps.of_mk ?_ rfl rfl rfl

theorem execCmpFault_keeps {z : State} (g : Grp) (s : State) (hk : Keeps z s) :
    KeepsOut z (execCmpFault g s) := by
  unfold execCmpFault
  try dsimp only
  repeat' first | split | (intro _; try dsimp only) | with_reducible first | apply KeepsOut.next | assumption | apply State.event_keeps | refine Keeps.of_mk ?_ rfl rfl rfl

/-! ## MemRows -/

theorem execRefreshDue_keeps {z : State} (x : Pc) (s : State) (hk : Keeps z s) :
    KeepsOut z (execRefreshDue x s) := by
  unfold execRefreshDue
  try dsimp only
  repeat' first | split | (intro _; try dsimp only) | with_reducible first | apply KeepsOut.next | assumption | apply State.catchUp_keeps | apply State.moveTo_keeps | apply State.updPc_keeps | refine Keeps.of_mk ?_ rfl rfl rfl

theorem execStackTempRead_keeps {z : State} (k : Stack) (reading : Option Int) (s : State) (hk : Keeps z s) :
    KeepsOut z (execStackTempRead k reading s) := by
  unfold execStackTempRead
  try dsimp only
  repeat' first | split | (intro _; try dsimp only) | with_reducible first | apply KeepsOut.next | assumption | apply State.missing_keeps | apply State.setDoubled_keeps | apply State.updStack_keeps | refine Keeps.of_mk ?_ rfl rfl rfl

theorem execRetrainDue_keeps {z : State} (m : Mc) (s : State) (hk : Keeps z s) :
    KeepsOut z (execRetrainDue m s) := by
  unfold execRetrainDue
  try dsimp only
  repeat' first | split | (intro _; try dsimp only) | with_reducible first | apply KeepsOut.next | assumption | apply State.moveTo_keeps | apply State.startTrain_keeps | apply State.updMc_keeps | refine Keeps.of_mk ?_ rfl rfl rfl

theorem execRetrainDeferExpiry_keeps {z : State} (m : Mc) (s : State) (hk : Keeps z s) :
    KeepsOut z (execRetrainDeferExpiry m s) := by
  unfold execRetrainDeferExpiry
  try dsimp only
  repeat' first | split | (intro _; try dsimp only) | with_reducible first | apply KeepsOut.next | assumption | apply State.channelEvent_keeps | apply State.moveTo_keeps | apply State.startTrain_keeps | refine Keeps.of_mk ?_ rfl rfl rfl

theorem execRetrainDone_keeps {z : State} (m : Mc) (good : Bool) (s : State) (hk : Keeps z s) :
    KeepsOut z (execRetrainDone m good s) := by
  unfold execRetrainDone
  try dsimp only
  repeat' first | split | (intro _; try dsimp only) | with_reducible first | apply KeepsOut.next | assumption | apply State.channelEvent_keeps | apply State.updMc_keeps | refine Keeps.of_mk ?_ rfl rfl rfl

theorem execParityAlert_keeps {z : State} (x : Pc) (sameCommandThird : Bool) (s : State) (hk : Keeps z s) :
    KeepsOut z (execParityAlert x sameCommandThird s) := by
  unfold execParityAlert
  try dsimp only
  repeat' first | split | (intro _; try dsimp only) | with_reducible first | apply KeepsOut.next | assumption | apply State.event_keeps | apply State.replay_keeps | apply State.startTrain_keeps | apply State.updMc_keeps | refine Keeps.of_mk ?_ rfl rfl rfl

theorem execLpEntry_keeps {z : State} (x : Pc) (selfRefresh : Bool) (s : State) (hk : Keeps z s) :
    KeepsOut z (execLpEntry x selfRefresh s) := by
  unfold execLpEntry
  try dsimp only
  repeat' first | split | (intro _; try dsimp only) | with_reducible first | apply KeepsOut.next | assumption | apply State.moveTo_keeps | apply State.updPc_keeps | refine Keeps.of_mk ?_ rfl rfl rfl

theorem execLpExit_keeps {z : State} (x : Pc) (s : State) (hk : Keeps z s) :
    KeepsOut z (execLpExit x s) := by
  unfold execLpExit
  try dsimp only
  repeat' first | split | (intro _; try dsimp only) | with_reducible first | apply KeepsOut.next | assumption | apply State.wakePc_keeps | refine Keeps.of_mk ?_ rfl rfl rfl

theorem execMemRequestServed_keeps {z : State} (x : Pc) (cls : MemClass) (write : Bool) (p : Part) (addr : Nat) (ecc : Ecc) (s : State) (hk : Keeps z s) :
    KeepsOut z (execMemRequestServed x cls write p addr ecc s) := by
  unfold execMemRequestServed
  try dsimp only
  repeat' first | split | (intro _; try dsimp only) | with_reducible first | apply KeepsOut.next | assumption | apply State.eccCorr_keeps | apply State.eccUe_keeps | apply State.moveTo_keeps | apply State.rewrite_keeps | apply State.spoil_keeps | apply State.tagCheck_keeps | apply State.updPc_keeps | apply State.wakePc_keeps | refine Keeps.of_mk ?_ rfl rfl rfl

/-! ## Wire -/

theorem State.blockErrors_keeps {z : State} (s : State) (p n : Nat) (hk : Keeps z s) :
    Keeps z (State.blockErrors s p n) := by
  unfold State.blockErrors
  try dsimp only
  repeat' first | split | (intro _; try dsimp only) | with_reducible first | assumption | apply State.event_keeps | apply State.updPort_keeps | refine Keeps.of_mk ?_ rfl rfl rfl

theorem State.takeBlock_keeps {z : State} (s : State) (p bits : Nat) (crc : BitVec 8) (act : State → State) (hact : ∀ t, Keeps z t → Keeps z (act t)) (hk : Keeps z s) :
    Keeps z (State.takeBlock s p bits crc act) := by
  unfold State.takeBlock
  try dsimp only
  repeat' first | split | (intro _; try dsimp only) | with_reducible first | assumption | apply State.blockErrors_keeps | apply hact | refine Keeps.of_mk ?_ rfl rfl rfl

theorem State.takeC0_keeps {z : State} (s : State) (p : Nat) (bits : Nat → Nat) (crcs : BitVec 8 × BitVec 8) (act : State → State) (hact : ∀ t, Keeps z t → Keeps z (act t)) (hk : Keeps z s) :
    Keeps z (State.takeC0 s p bits crcs act) := by
  unfold State.takeC0
  try dsimp only
  repeat' first | split | (intro _; try dsimp only) | with_reducible first | assumption | apply State.blockErrors_keeps | apply hact | refine Keeps.of_mk ?_ rfl rfl rfl

theorem State.sendNak_keeps {z : State} (s : State) (p : Nat) (hk : Keeps z s) :
    Keeps z (State.sendNak s p) := by
  unfold State.sendNak
  try dsimp only
  repeat' first | split | (intro _; try dsimp only) | with_reducible first | assumption | apply State.updPort_keeps | refine Keeps.of_mk ?_ rfl rfl rfl

theorem State.takeFrame_keeps {z : State} (s : State) (p : Nat) (h : FrameHdr) (f : Frame) (act : State → State) (hact : ∀ t, Keeps z t → Keeps z (act t)) (hk : Keeps z s) :
    Keeps z (State.takeFrame s p h f act) := by
  unfold State.takeFrame
  try dsimp only
  repeat' first | split | (intro _; try dsimp only) | with_reducible first | assumption | apply State.blockErrors_keeps | apply State.sendFlow_keeps | apply State.sendNak_keeps | apply State.updPort_keeps | apply hact | refine Keeps.of_mk ?_ rfl rfl rfl

/-! ## NglRows -/

theorem execTickSend_keeps {z : State} (s : State) (hk : Keeps z s) :
    KeepsOut z (execTickSend s) := by
  unfold execTickSend
  try dsimp only
  repeat' first | split | (intro _; try dsimp only) | with_reducible first | apply KeepsOut.next | assumption | apply State.moveTo_keeps | apply State.queueC0_keeps | apply Keeps.foldl | apply Keeps.foldl_fst | refine Keeps.of_mk ?_ rfl rfl rfl

theorem State.setLock_keeps {z : State} (s : State) (on : Bool) (hk : Keeps z s) :
    Keeps z (State.setLock s on) := by
  unfold State.setLock
  try dsimp only
  repeat' first | split | (intro _; try dsimp only) | with_reducible first | assumption | apply State.event_keeps | refine Keeps.of_mk ?_ rfl rfl rfl

theorem State.setOsc_keeps {z : State} (s : State) (v : Nat) (hk : Keeps z s) :
    Keeps z (State.setOsc s v) := by
  unfold State.setOsc
  try dsimp only
  repeat' first | split | (intro _; try dsimp only) | with_reducible first | assumption | refine Keeps.of_mk ?_ rfl rfl rfl

theorem State.selectDomain_keeps {z : State} (s : State) (dom : Nat) (hk : Keeps z s) :
    Keeps z (State.selectDomain s dom) := by
  unfold State.selectDomain
  try dsimp only
  repeat' first | split | (intro _; try dsimp only) | with_reducible first | assumption | apply State.epochs_keeps | apply State.event_keeps | apply State.setOsc_keeps | refine Keeps.of_mk ?_ rfl rfl rfl

theorem State.holdover_keeps {z : State} (s : State) (dom : Nat) (hk : Keeps z s) :
    Keeps z (State.holdover s dom) := by
  unfold State.holdover
  try dsimp only
  repeat' first | split | (intro _; try dsimp only) | with_reducible first | assumption | apply State.event_keeps | apply State.setLock_keeps | apply State.setOsc_keeps | refine Keeps.of_mk ?_ rfl rfl rfl

theorem State.leaveDomain_keeps {z : State} (s : State) (dom : Nat) (alone : State → State) (halone : ∀ t, Keeps z t → Keeps z (alone t)) (hk : Keeps z s) :
    Keeps z (State.leaveDomain s dom alone) := by
  unfold State.leaveDomain
  try dsimp only
  repeat' first | split | (intro _; try dsimp only) | with_reducible first | assumption | apply State.selectDomain_keeps | apply halone | refine Keeps.of_mk ?_ rfl rfl rfl

theorem State.newMaster_keeps {z : State} (s : State) (dom master : Nat) (v : Int) (hk : Keeps z s) :
    Keeps z (State.newMaster s dom master v) := by
  unfold State.newMaster
  try dsimp only
  repeat' first | split | (intro _; try dsimp only) | with_reducible first | assumption | apply State.event_keeps | apply State.leaveDomain_keeps | apply State.updDom_keeps | refine Keeps.of_mk ?_ rfl rfl rfl

theorem State.steerFree_keeps {z : State} (s : State) (hk : Keeps z s) :
    Keeps z (State.steerFree s) := by
  unfold State.steerFree
  try dsimp only
  repeat' first | split | (intro _; try dsimp only) | with_reducible first | assumption | apply State.drawFree_keeps | apply State.event_keeps | refine Keeps.of_mk ?_ rfl rfl rfl

theorem State.discipline_keeps {z : State} (s : State) (dom dt : Nat) (hk : Keeps z s) :
    Keeps z (State.discipline s dom dt) := by
  unfold State.discipline
  try dsimp only
  repeat' first | split | (intro _; try dsimp only) | with_reducible first | assumption | apply State.setLock_keeps | apply State.setOsc_keeps | apply State.steerFree_keeps | refine Keeps.of_mk ?_ rfl rfl rfl

theorem State.takeTick_keeps {z : State} (s : State) (port : Port) (dom : Dom) (master usLo depart arrival : Nat) (hk : Keeps z s) :
    Keeps z (State.takeTick s port dom master usLo depart arrival) := by
  unfold State.takeTick
  try dsimp only
  repeat' first | split | (intro _; try dsimp only) | with_reducible first | assumption | apply State.discipline_keeps | apply State.newMaster_keeps | apply State.selectDomain_keeps | apply State.steerFree_keeps | apply State.updDom_keeps | refine Keeps.of_mk ?_ rfl rfl rfl

theorem execTickReceive_keeps {z : State} (rx : BlockRx) (dom : Dom) (master usLo depart arrival : Nat) (s : State) (hk : Keeps z s) :
    KeepsOut z (execTickReceive rx dom master usLo depart arrival s) := by
  unfold execTickReceive
  try dsimp only
  repeat' first | split | (intro _; try dsimp only) | with_reducible first | apply KeepsOut.next | assumption | apply State.moveTo_keeps | apply State.takeBlock_keeps | apply State.takeTick_keeps | refine Keeps.of_mk ?_ rfl rfl rfl

theorem execTickLoss_keeps {z : State} (dom : Dom) (s : State) (hk : Keeps z s) :
    KeepsOut z (execTickLoss dom s) := by
  unfold execTickLoss
  try dsimp only
  repeat' first | split | (intro _; try dsimp only) | with_reducible first | apply KeepsOut.next | assumption | apply State.holdover_keeps | apply State.leaveDomain_keeps | apply State.moveTo_keeps | apply State.updDom_keeps | refine Keeps.of_mk ?_ rfl rfl rfl

theorem execTimeLock_keeps {z : State} (s : State) (hk : Keeps z s) :
    KeepsOut z (execTimeLock s) := by
  unfold execTimeLock
  try dsimp only
  repeat' first | split | (intro _; try dsimp only) | with_reducible first | apply KeepsOut.next | assumption | apply State.moveTo_keeps | apply State.setLock_keeps | refine Keeps.of_mk ?_ rfl rfl rfl

theorem execDomainRevert_keeps {z : State} (s : State) (hk : Keeps z s) :
    KeepsOut z (execDomainRevert s) := by
  unfold execDomainRevert
  try dsimp only
  repeat' first | split | (intro _; try dsimp only) | with_reducible first | apply KeepsOut.next | assumption | apply State.moveTo_keeps | apply State.selectDomain_keeps | refine Keeps.of_mk ?_ rfl rfl rfl

theorem execC0TriggerReceive_keeps {z : State} (rx : C0Rx) (dom : Dom) (number : NTrg) (tShort t : Nat) (s : State) (hk : Keeps z s) :
    KeepsOut z (execC0TriggerReceive rx dom number tShort t s) := by
  unfold execC0TriggerReceive
  try dsimp only
  repeat' first | split | (intro _; try dsimp only) | with_reducible first | apply KeepsOut.next | assumption | apply State.broadcast_keeps | apply State.moveTo_keeps | apply State.queueC0_keeps | apply State.receiveTrig_keeps | apply State.takeC0_keeps | refine Keeps.of_mk ?_ rfl rfl rfl

theorem execNgulosTriggerAct_keeps {z : State} (number : NTrg) (s : State) (hk : Keeps z s) :
    KeepsOut z (execNgulosTriggerAct number s) := by
  unfold execNgulosTriggerAct
  try dsimp only
  repeat' first | split | (intro _; try dsimp only) | with_reducible first | apply KeepsOut.next | assumption | apply State.issueTok_keeps | apply State.linkStart_keeps | apply State.moveTo_keeps | apply State.occurAt_keeps | apply State.sample_keeps | refine Keeps.of_mk ?_ rfl rfl rfl

theorem State.stopAct_keeps {z : State} (s : State) (all : Bool) (linkId : Nat) (res : SiteResult) (hk : Keeps z s) :
    Keeps z (State.stopAct s all linkId res) := by
  unfold State.stopAct
  try dsimp only
  repeat' first | split | (intro _; try dsimp only) | with_reducible first | assumption | apply State.endBurst_keeps | apply State.stopSite_keeps | apply Keeps.foldl | apply Keeps.foldl_fst | refine Keeps.of_mk ?_ rfl rfl rfl

theorem execC0StopReceive_keeps {z : State} (rx : C0Rx) (all : Bool) (linkId : Nat) (cause : StopCause) (node : Nat) (s : State) (hk : Keeps z s) :
    KeepsOut z (execC0StopReceive rx all linkId cause node s) := by
  unfold execC0StopReceive
  try dsimp only
  repeat' first | split | (intro _; try dsimp only) | with_reducible first | apply KeepsOut.next | assumption | apply State.broadcast_keeps | apply State.queueC0_keeps | apply State.stopAct_keeps | apply State.takeC0_keeps | refine Keeps.of_mk ?_ rfl rfl rfl

theorem execEchoSend_keeps {z : State} (port : Port) (s : State) (hk : Keeps z s) :
    KeepsOut z (execEchoSend port s) := by
  unfold execEchoSend
  try dsimp only
  repeat' first | split | (intro _; try dsimp only) | with_reducible first | apply KeepsOut.next | assumption | apply State.moveTo_keeps | apply State.queueC0_keeps | apply State.updPort_keeps | refine Keeps.of_mk ?_ rfl rfl rfl

theorem execEchoRequestReceive_keeps {z : State} (rx : BlockRx) (sendTime t : Nat) (s : State) (hk : Keeps z s) :
    KeepsOut z (execEchoRequestReceive rx sendTime t s) := by
  unfold execEchoRequestReceive
  try dsimp only
  repeat' first | split | (intro _; try dsimp only) | with_reducible first | apply KeepsOut.next | assumption | apply State.moveTo_keeps | apply State.queueC0_keeps | apply State.takeBlock_keeps | refine Keeps.of_mk ?_ rfl rfl rfl

theorem execEchoReplyReceive_keeps {z : State} (rx : BlockRx) (t1 t4 turnaround : Nat) (s : State) (hk : Keeps z s) :
    KeepsOut z (execEchoReplyReceive rx t1 t4 turnaround s) := by
  unfold execEchoReplyReceive
  try dsimp only
  repeat' first | split | (intro _; try dsimp only) | with_reducible first | apply KeepsOut.next | assumption | apply State.c0Cond_keeps | apply State.drawFree_keeps | apply State.event_keeps | apply State.takeBlock_keeps | apply State.updPort_keeps | refine Keeps.of_mk ?_ rfl rfl rfl

theorem State.freeAlarms_keeps {z : State} (s : State) (l : List (Nat × Frame)) (hk : Keeps z s) :
    Keeps z (State.freeAlarms s l) := by
  unfold State.freeAlarms
  try dsimp only
  repeat' first | split | (intro _; try dsimp only) | with_reducible first | assumption | apply State.alarm_keeps | apply State.event_keeps | apply Keeps.foldl | apply Keeps.foldl_fst | refine Keeps.of_mk ?_ rfl rfl rfl

theorem State.replay_keeps {z : State} (s : State) (p : Nat) (hk : Keeps z s) :
    Keeps z (State.replay s p) := by
  unfold State.replay
  try dsimp only
  repeat' first | split | (intro _; try dsimp only) | with_reducible first | assumption | apply State.updPort_keeps | refine Keeps.of_mk ?_ rfl rfl rfl

theorem execFlowReceive_keeps {z : State} (rx : BlockRx) (xoff : Bool) (credits ackSeq : Nat) (nak : Bool) (s : State) (hk : Keeps z s) :
    KeepsOut z (execFlowReceive rx xoff credits ackSeq nak s) := by
  unfold execFlowReceive
  try dsimp only
  repeat' first | split | (intro _; try dsimp only) | with_reducible first | apply KeepsOut.next | assumption | apply State.freeAlarms_keeps | apply State.replay_keeps | apply State.takeBlock_keeps | apply State.updPort_keeps | apply State.xoffEvent_keeps | refine Keeps.of_mk ?_ rfl rfl rfl

theorem execC1ReplayTimeout_keeps {z : State} (port : Port) (s : State) (hk : Keeps z s) :
    KeepsOut z (execC1ReplayTimeout port s) := by
  unfold execC1ReplayTimeout
  try dsimp only
  repeat' first | split | (intro _; try dsimp only) | with_reducible first | apply KeepsOut.next | assumption | apply State.moveTo_keeps | apply State.replay_keeps | refine Keeps.of_mk ?_ rfl rfl rfl

theorem State.passC1_keeps {z : State} (s : State) (port dst : Nat) (f : Frame) (hk : Keeps z s) :
    Keeps z (State.passC1 s port dst f) := by
  unfold State.passC1
  try dsimp only
  repeat' first | split | (intro _; try dsimp only) | with_reducible first | assumption | apply State.forward_keeps | apply State.queueC1_keeps | apply State.returnCredit_keeps | refine Keeps.of_mk ?_ rfl rfl rfl

theorem execTokenFrame_keeps {z : State} (port : Port) (h : FrameHdr) (scope : Site) (kind : Fin 7) (key : Nat) (result : BitVec 16) (s : State) (hk : Keeps z s) :
    KeepsOut z (execTokenFrame port h scope kind key result s) := by
  unfold execTokenFrame
  try dsimp only
  repeat' first | split | (intro _; try dsimp only) | with_reducible first | apply KeepsOut.next | assumption | apply State.passC1_keeps | apply State.placeTok_keeps | apply State.returnCredit_keeps | apply State.takeFrame_keeps | apply State.updPort_keeps | apply State.wake_keeps | refine Keeps.of_mk ?_ rfl rfl rfl

theorem execLinkReadyFrame_keeps {z : State} (port : Port) (ends : FrameEnds) (fcs : FrameSeal) (linkId : Nat) (s : State) (hk : Keeps z s) :
    KeepsOut z (execLinkReadyFrame port ends fcs linkId s) := by
  unfold execLinkReadyFrame
  try dsimp only
  repeat' first | split | (intro _; try dsimp only) | with_reducible first | apply KeepsOut.next | assumption | apply State.linkReady_keeps | apply State.passC1_keeps | apply State.returnCredit_keeps | apply State.takeFrame_keeps | refine Keeps.of_mk ?_ rfl rfl rfl

theorem execLinkResultFrame_keeps {z : State} (port : Port) (ends : FrameEnds) (fcs : FrameSeal) (linkId : Nat) (result : BitVec 16) (s : State) (hk : Keeps z s) :
    KeepsOut z (execLinkResultFrame port ends fcs linkId result s) := by
  unfold execLinkResultFrame
  try dsimp only
  repeat' first | split | (intro _; try dsimp only) | with_reducible first | apply KeepsOut.next | assumption | apply State.linkResult_keeps | apply State.passC1_keeps | apply State.returnCredit_keeps | apply State.takeFrame_keeps | refine Keeps.of_mk ?_ rfl rfl rfl

theorem State.toParent_keeps {z : State} (s : State) (addr : Nat) (withdraw : Bool) (hk : Keeps z s) :
    Keeps z (State.toParent s addr withdraw) := by
  unfold State.toParent
  try dsimp only
  repeat' first | split | (intro _; try dsimp only) | with_reducible first | assumption | apply State.queueC1_keeps | refine Keeps.of_mk ?_ rfl rfl rfl

theorem State.announced_keeps {z : State} (s : State) (p addr : Nat) (withdraw : Bool) (hk : Keeps z s) :
    Keeps z (State.announced s p addr withdraw) := by
  unfold State.announced
  try dsimp only
  repeat' first | split | (intro _; try dsimp only) | with_reducible first | assumption | apply State.event_keeps | apply State.toParent_keeps | refine Keeps.of_mk ?_ rfl rfl rfl

theorem execAnnounce_keeps {z : State} (rx : FrameRx) (addr : Nat) (withdraw : Bool) (s : State) (hk : Keeps z s) :
    KeepsOut z (execAnnounce rx addr withdraw s) := by
  unfold execAnnounce
  try dsimp only
  repeat' first | split | (intro _; try dsimp only) | with_reducible first | apply KeepsOut.next | assumption | apply State.announced_keeps | apply State.returnCredit_keeps | apply State.takeFrame_keeps | refine Keeps.of_mk ?_ rfl rfl rfl

theorem State.joinTime_keeps {z : State} (s : State) (dom : Nat) (time : Nat) (hk : Keeps z s) :
    Keeps z (State.joinTime s dom time) := by
  unfold State.joinTime
  try dsimp only
  repeat' first | split | (intro _; try dsimp only) | with_reducible first | assumption | apply State.epochs_keeps | apply State.publishSet_keeps | apply State.updDom_keeps | apply State.updGrp_keeps | apply Keeps.foldl | apply Keeps.foldl_fst | refine Keeps.of_mk ?_ rfl rfl rfl

theorem execTimeSet_keeps {z : State} (rx : FrameRx) (dom : Dom) (master hops time : Nat) (s : State) (hk : Keeps z s) :
    KeepsOut z (execTimeSet rx dom master hops time s) := by
  unfold execTimeSet
  try dsimp only
  repeat' first | split | (intro _; try dsimp only) | with_reducible first | apply KeepsOut.next | assumption | apply State.c0Cond_keeps | apply State.event_keeps | apply State.joinTime_keeps | apply State.returnCredit_keeps | apply State.takeFrame_keeps | apply State.updDom_keeps | refine Keeps.of_mk ?_ rfl rfl rfl

theorem execTimeSetPeriodic_keeps {z : State} (s : State) (hk : Keeps z s) :
    KeepsOut z (execTimeSetPeriodic s) := by
  unfold execTimeSetPeriodic
  try dsimp only
  repeat' first | split | (intro _; try dsimp only) | with_reducible first | apply KeepsOut.next | assumption | apply State.queueC1_keeps | apply Keeps.foldl | apply Keeps.foldl_fst | refine Keeps.of_mk ?_ rfl rfl rfl

theorem State.label_keeps {z : State} (s : State) (seconds mt : Nat) (hk : Keeps z s) :
    Keeps z (State.label s seconds mt) := by
  unfold State.label
  try dsimp only
  repeat' first | split | (intro _; try dsimp only) | with_reducible first | assumption | apply State.event_keeps | refine Keeps.of_mk ?_ rfl rfl rfl

theorem execTimeLabel_keeps {z : State} (rx : FrameRx) (dom : Dom) (seconds t : Nat) (s : State) (hk : Keeps z s) :
    KeepsOut z (execTimeLabel rx dom seconds t s) := by
  unfold execTimeLabel
  try dsimp only
  repeat' first | split | (intro _; try dsimp only) | with_reducible first | apply KeepsOut.next | assumption | apply State.broadcast_keeps | apply State.label_keeps | apply State.queueC1_keeps | apply State.returnCredit_keeps | apply State.takeFrame_keeps | refine Keeps.of_mk ?_ rfl rfl rfl

theorem State.remote_keeps {z : State} (s : State) (r : EvRec) (hk : Keeps z s) :
    Keeps z (State.remote s r) := by
  unfold State.remote
  try dsimp only
  repeat' first | split | (intro _; try dsimp only) | with_reducible first | assumption | apply State.deliver_keeps | refine Keeps.of_mk ?_ rfl rfl rfl

theorem execAlarmFrame_keeps {z : State} (port : Port) (ends : FrameEnds) (fcs : FrameSeal) (event : Src) (count time : Nat) (s : State) (hk : Keeps z s) :
    KeepsOut z (execAlarmFrame port ends fcs event count time s) := by
  unfold execAlarmFrame
  try dsimp only
  repeat' first | split | (intro _; try dsimp only) | with_reducible first | apply KeepsOut.next | assumption | apply State.alarm_keeps | apply State.event_keeps | apply State.forward_keeps | apply State.queueC2_keeps | apply State.react_keeps | apply State.remote_keeps | apply State.sendFlow_keeps | apply State.takeFrame_keeps | refine Keeps.of_mk ?_ rfl rfl rfl

theorem execLogFrame_keeps {z : State} (port : Port) (ends : FrameEnds) (fcs : FrameSeal) (rec : WireRec) (s : State) (hk : Keeps z s) :
    KeepsOut z (execLogFrame port ends fcs rec s) := by
  unfold execLogFrame
  try dsimp only
  repeat' first | split | (intro _; try dsimp only) | with_reducible first | apply KeepsOut.next | assumption | apply State.forward_keeps | apply State.queueC3_keeps | apply State.remote_keeps | apply State.takeFrame_keeps | apply raiseTop_keeps | refine Keeps.of_mk ?_ rfl rfl rfl

theorem execLogDrop_keeps {z : State} (port : Port) (ends : FrameEnds) (fcs : FrameSeal) (count : Nat) (s : State) (hk : Keeps z s) :
    KeepsOut z (execLogDrop port ends fcs count s) := by
  unfold execLogDrop
  try dsimp only
  repeat' first | split | (intro _; try dsimp only) | with_reducible first | apply KeepsOut.next | assumption | apply State.forward_keeps | apply State.queueC3_keeps | apply State.react_keeps | apply State.remote_keeps | apply State.takeFrame_keeps | apply raiseTop_keeps | refine Keeps.of_mk ?_ rfl rfl rfl

theorem execChimeEdge_keeps {z : State} (c : ChimeOut) (s : State) (hk : Keeps z s) :
    KeepsOut z (execChimeEdge c s) := by
  unfold execChimeEdge
  try dsimp only
  repeat' first | split | (intro _; try dsimp only) | with_reducible first | apply KeepsOut.next | assumption | apply State.moveTo_keeps | apply State.updChime_keeps | refine Keeps.of_mk ?_ rfl rfl rfl

theorem State.sendC0_keeps {z : State} (s : State) (p i : Nat) (hk : Keeps z s) :
    Keeps z (State.sendC0 s p i) := by
  unfold State.sendC0
  try dsimp only
  repeat' first | split | (intro _; try dsimp only) | with_reducible first | assumption | apply State.c0Cond_keeps | apply State.flowOthers_keeps | apply State.updPort_keeps | refine Keeps.of_mk ?_ rfl rfl rfl

theorem execBlockSend_keeps {z : State} (port : Port) (s : State) (hk : Keeps z s) :
    KeepsOut z (execBlockSend port s) := by
  unfold execBlockSend
  try dsimp only
  repeat' first | split | (intro _; try dsimp only) | with_reducible first | apply KeepsOut.next | assumption | apply State.replay_keeps | apply State.sendC0_keeps | apply State.updPort_keeps | refine Keeps.of_mk ?_ rfl rfl rfl

theorem execAlarmSend_keeps {z : State} (event : Src) (s : State) (hk : Keeps z s) :
    KeepsOut z (execAlarmSend event s) := by
  unfold execAlarmSend
  try dsimp only
  repeat' first | split | (intro _; try dsimp only) | with_reducible first | apply KeepsOut.next | assumption | apply State.alarm_keeps | apply State.event_keeps | apply State.queueC2_keeps | refine Keeps.of_mk ?_ rfl rfl rfl

/-! ## LinkRows -/

theorem State.applyAt_keeps {z : State} (s : State) (at_ : Apply) (el : Nat) (hk : Keeps z s) :
    Keeps z (State.applyAt s at_ el) := by
  unfold State.applyAt
  try dsimp only
  repeat' first | split | (intro _; try dsimp only) | with_reducible first | assumption | apply State.applyVal_keeps | apply Keeps.foldl | apply Keeps.foldl_fst | refine Keeps.of_mk ?_ rfl rfl rfl

theorem State.attempt_keeps {z : State} (s : State) (p attempts : Nat) (retrain retry : Bool) (hk : Keeps z s) :
    Keeps z (State.attempt s p attempts retrain retry) := by
  unfold State.attempt
  try dsimp only
  repeat' first | split | (intro _; try dsimp only) | with_reducible first | assumption | apply State.applyAt_keeps | apply State.updPort_keeps | refine Keeps.of_mk ?_ rfl rfl rfl

theorem State.retrainPort_keeps {z : State} (s : State) (p : Nat) (hk : Keeps z s) :
    Keeps z (State.retrainPort s p) := by
  unfold State.retrainPort
  try dsimp only
  repeat' first | split | (intro _; try dsimp only) | with_reducible first | assumption | apply State.attempt_keeps | apply State.c0Cond_keeps | refine Keeps.of_mk ?_ rfl rfl rfl

theorem State.wakeB_keeps {z : State} (s : State) (p : Nat) (hk : Keeps z s) :
    Keeps z (State.wakeB s p) := by
  unfold State.wakeB
  try dsimp only
  repeat' first | split | (intro _; try dsimp only) | with_reducible first | assumption | apply State.updPort_keeps | refine Keeps.of_mk ?_ rfl rfl rfl

theorem State.withdrawOver_keeps {z : State} (s : State) (p : Nat) (hk : Keeps z s) :
    Keeps z (State.withdrawOver s p) := by
  unfold State.withdrawOver
  try dsimp only
  repeat' first | split | (intro _; try dsimp only) | with_reducible first | assumption | apply State.toParent_keeps | apply Keeps.foldl | apply Keeps.foldl_fst | refine Keeps.of_mk ?_ rfl rfl rfl

theorem State.retrainDoneCmd_keeps {z : State} (s : State) (p : Nat) (st : Status) (hk : Keeps z s) :
    Keeps z (State.retrainDoneCmd s p st) := by
  unfold State.retrainDoneCmd
  try dsimp only
  repeat' first | split | (intro _; try dsimp only) | with_reducible first | assumption | apply State.complete_keeps | apply State.updPort_keeps | refine Keeps.of_mk ?_ rfl rfl rfl

theorem State.goDown_keeps {z : State} (s : State) (p : Nat) (tell : Bool) (hk : Keeps z s) :
    Keeps z (State.goDown s p tell) := by
  unfold State.goDown
  try dsimp only
  repeat' first | split | (intro _; try dsimp only) | with_reducible first | assumption | apply State.event_keeps | apply State.replay_keeps | apply State.retrainDoneCmd_keeps | apply State.updPort_keeps | apply State.updSlane_keeps | apply State.wakeB_keeps | apply State.withdrawOver_keeps | refine Keeps.of_mk ?_ rfl rfl rfl

theorem State.attemptFails_keeps {z : State} (s : State) (p cause : Nat) (hk : Keeps z s) :
    Keeps z (State.attemptFails s p cause) := by
  unfold State.attemptFails
  try dsimp only
  repeat' first | split | (intro _; try dsimp only) | with_reducible first | assumption | apply State.attempt_keeps | apply State.event_keeps | apply State.goDown_keeps | refine Keeps.of_mk ?_ rfl rfl rfl

theorem State.goActive_keeps {z : State} (s : State) (p : Nat) (hk : Keeps z s) :
    Keeps z (State.goActive s p) := by
  unfold State.goActive
  try dsimp only
  repeat' first | split | (intro _; try dsimp only) | with_reducible first | assumption | apply State.event_keeps | apply State.toParent_keeps | apply State.updPort_keeps | refine Keeps.of_mk ?_ rfl rfl rfl

theorem State.goIdle_keeps {z : State} (s : State) (p : Nat) (hk : Keeps z s) :
    Keeps z (State.goIdle s p) := by
  unfold State.goIdle
  try dsimp only
  repeat' first | split | (intro _; try dsimp only) | with_reducible first | assumption | apply State.updPort_keeps | refine Keeps.of_mk ?_ rfl rfl rfl

theorem execTrainBlockReceive_keeps {z : State} (rx : BlockRx) (phase : TrainPhase) (standby refIndep : Bool) (farPort node : Nat) (rec : RxState) (s : State) (hk : Keeps z s) :
    KeepsOut z (execTrainBlockReceive rx phase standby refIndep farPort node rec s) := by
  unfold execTrainBlockReceive
  try dsimp only
  repeat' first | split | (intro _; try dsimp only) | with_reducible first | apply KeepsOut.next | assumption | apply State.attemptFails_keeps | apply State.goIdle_keeps | apply State.updPort_keeps | apply State.updSlane_keeps | refine Keeps.of_mk ?_ rfl rfl rfl

theorem execTrainingComplete_keeps {z : State} (port : Port) (ppm : Int) (s : State) (hk : Keeps z s) :
    KeepsOut z (execTrainingComplete port ppm s) := by
  unfold execTrainingComplete
  try dsimp only
  repeat' first | split | (intro _; try dsimp only) | with_reducible first | apply KeepsOut.next | assumption | apply State.event_keeps | apply State.goActive_keeps | apply State.goIdle_keeps | apply State.replay_keeps | apply State.retrainDoneCmd_keeps | apply State.updPort_keeps | apply State.updSlane_keeps | refine Keeps.of_mk ?_ rfl rfl rfl

theorem execTrainTimeoutExpiry_keeps {z : State} (port : Port) (s : State) (hk : Keeps z s) :
    KeepsOut z (execTrainTimeoutExpiry port s) := by
  unfold execTrainTimeoutExpiry
  try dsimp only
  repeat' first | split | (intro _; try dsimp only) | with_reducible first | apply KeepsOut.next | assumption | apply State.attemptFails_keeps | apply State.moveTo_keeps | refine Keeps.of_mk ?_ rfl rfl rfl

theorem execBlockLockLoss_keeps {z : State} (port : Port) (s : State) (hk : Keeps z s) :
    KeepsOut z (execBlockLockLoss port s) := by
  unfold execBlockLockLoss
  try dsimp only
  repeat' first | split | (intro _; try dsimp only) | with_reducible first | apply KeepsOut.next | assumption | apply State.blockErrors_keeps | apply State.event_keeps | apply State.retrainPort_keeps | apply State.updPort_keeps | apply State.wakeB_keeps | refine Keeps.of_mk ?_ rfl rfl rfl

theorem execElasticOverflow_keeps {z : State} (port : Port) (s : State) (hk : Keeps z s) :
    KeepsOut z (execElasticOverflow port s) := by
  unfold execElasticOverflow
  try dsimp only
  repeat' first | split | (intro _; try dsimp only) | with_reducible first | apply KeepsOut.next | assumption | apply State.event_keeps | apply State.retrainPort_keeps | refine Keeps.of_mk ?_ rfl rfl rfl

theorem execActivityDetect_keeps {z : State} (port : Port) (s : State) (hk : Keeps z s) :
    KeepsOut z (execActivityDetect port s) := by
  unfold execActivityDetect
  try dsimp only
  repeat' first | split | (intro _; try dsimp only) | with_reducible first | apply KeepsOut.next | assumption | apply State.updPort_keeps | refine Keeps.of_mk ?_ rfl rfl rfl

theorem execFastExitFail_keeps {z : State} (port : Port) (s : State) (hk : Keeps z s) :
    KeepsOut z (execFastExitFail port s) := by
  unfold execFastExitFail
  try dsimp only
  repeat' first | split | (intro _; try dsimp only) | with_reducible first | apply KeepsOut.next | assumption | apply State.attempt_keeps | apply State.event_keeps | refine Keeps.of_mk ?_ rfl rfl rfl

theorem execBlockLockGain_keeps {z : State} (port : Port) (s : State) (hk : Keeps z s) :
    KeepsOut z (execBlockLockGain port s) := by
  unfold execBlockLockGain
  try dsimp only
  repeat' first | split | (intro _; try dsimp only) | with_reducible first | apply KeepsOut.next | assumption | apply State.goActive_keeps | apply State.updPort_keeps | refine Keeps.of_mk ?_ rfl rfl rfl

theorem execStandbyCheckDue_keeps {z : State} (port : Port) (ok : Bool) (s : State) (hk : Keeps z s) :
    KeepsOut z (execStandbyCheckDue port ok s) := by
  unfold execStandbyCheckDue
  try dsimp only
  repeat' first | split | (intro _; try dsimp only) | with_reducible first | apply KeepsOut.next | assumption | apply State.event_keeps | apply State.goDown_keeps | refine Keeps.of_mk ?_ rfl rfl rfl

theorem execStandbyReturn_keeps {z : State} (s : State) (hk : Keeps z s) :
    KeepsOut z (execStandbyReturn s) := by
  unfold execStandbyReturn
  try dsimp only
  repeat' first | split | (intro _; try dsimp only) | with_reducible first | apply KeepsOut.next | assumption | apply State.goIdle_keeps | apply State.moveTo_keeps | refine Keeps.of_mk ?_ rfl rfl rfl

theorem execRetryIntervalExpiry_keeps {z : State} (port : Port) (s : State) (hk : Keeps z s) :
    KeepsOut z (execRetryIntervalExpiry port s) := by
  unfold execRetryIntervalExpiry
  try dsimp only
  repeat' first | split | (intro _; try dsimp only) | with_reducible first | apply KeepsOut.next | assumption | apply State.attempt_keeps | apply State.moveTo_keeps | refine Keeps.of_mk ?_ rfl rfl rfl

theorem execLaneScanDone_keeps {z : State} (l : SLane) (counts : List Nat) (incomplete : Bool) (s : State) (hk : Keeps z s) :
    KeepsOut z (execLaneScanDone l counts incomplete s) := by
  unfold execLaneScanDone
  try dsimp only
  repeat' first | split | (intro _; try dsimp only) | with_reducible first | apply KeepsOut.next | assumption | apply State.complete_keeps | apply State.moveTo_keeps | apply State.updSlane_keeps | refine Keeps.of_mk ?_ rfl rfl rfl

theorem execPrbsCheckerLock_keeps {z : State} (l : SLane) (relock : Bool) (s : State) (hk : Keeps z s) :
    KeepsOut z (execPrbsCheckerLock l relock s) := by
  unfold execPrbsCheckerLock
  try dsimp only
  repeat' first | split | (intro _; try dsimp only) | with_reducible first | apply KeepsOut.next | assumption | apply State.updSlane_keeps | refine Keeps.of_mk ?_ rfl rfl rfl

theorem execHostLinkDown_keeps {z : State} (h : HPort) (refclk : Bool) (s : State) (hk : Keeps z s) :
    KeepsOut z (execHostLinkDown h refclk s) := by
  unfold execHostLinkDown
  try dsimp only
  repeat' first | split | (intro _; try dsimp only) | with_reducible first | apply KeepsOut.next | assumption | apply State.applyAt_keeps | apply State.event_keeps | apply State.updFn_keeps | apply State.updHlink_keeps | apply Keeps.foldl | apply Keeps.foldl_fst | refine Keeps.of_mk ?_ rfl rfl rfl

theorem execHostLinkUp_keeps {z : State} (h : HPort) (rate width : Nat) (s : State) (hk : Keeps z s) :
    KeepsOut z (execHostLinkUp h rate width s) := by
  unfold execHostLinkUp
  try dsimp only
  repeat' first | split | (intro _; try dsimp only) | with_reducible first | apply KeepsOut.next | assumption | apply State.drainEvts_keeps | apply State.event_keeps | apply State.flushCpl_keeps | apply State.updHlink_keeps | apply Keeps.foldl | apply Keeps.foldl_fst | refine Keeps.of_mk ?_ rfl rfl rfl

/-! ## SupplyRows -/

theorem State.loadControl_keeps {z : State} (s : State) (u : UImage) (hk : Keeps z s) :
    Keeps z (State.loadControl s u) := by
  unfold State.loadControl
  try dsimp only
  repeat' first | split | (intro _; try dsimp only) | with_reducible first | assumption | apply State.updEng_keeps | apply Keeps.foldl | apply Keeps.foldl_fst | refine Keeps.of_mk ?_ rfl rfl rfl

theorem State.moduleReset_keeps {z : State} (s : State) (cause : Nat) (hk : Keeps z s) :
    Keeps z (s.moduleReset cause) := by
  simp only [State.moduleReset]
  refine State.loadControl_keeps _ _ ?_
  exact ⟨hk.pending, fun _ => rfl, hk.free⟩

theorem State.requestReset_keeps {z : State} (s : State) (cause : Nat) (hk : Keeps z s) :
    Keeps z (State.requestReset s cause) := by
  unfold State.requestReset
  try dsimp only
  repeat' first | split | (intro _; try dsimp only) | with_reducible first | assumption | apply State.moduleReset_keeps | refine Keeps.of_mk ?_ rfl rfl rfl

theorem State.supplyResetBy_keeps {z : State} (s : State) (vinStayed : Bool) (cause : Nat) (hk : Keeps z s) :
    Keeps z (State.supplyResetBy s vinStayed cause) := by
  unfold State.supplyResetBy
  try dsimp only
  repeat' first | split | (intro _; try dsimp only) | with_reducible first | assumption | apply State.moduleReset_keeps | refine Keeps.of_mk ?_ rfl rfl rfl

theorem State.followStop_keeps {z : State} (s : State) (src : Nat) (hk : Keeps z s) :
    Keeps z (State.followStop s src) := by
  unfold State.followStop
  try dsimp only
  repeat' first | split | (intro _; try dsimp only) | with_reducible first | assumption | apply State.event_keeps | apply State.giveUp_keeps | apply Keeps.foldl | apply Keeps.foldl_fst | refine Keeps.of_mk ?_ rfl rfl rfl

theorem execStopGraceExpiry_keeps {z : State} (s : State) (hk : Keeps z s) :
    KeepsOut z (execStopGraceExpiry s) := by
  unfold execStopGraceExpiry
  try dsimp only
  repeat' first | split | (intro _; try dsimp only) | with_reducible first | apply KeepsOut.next | assumption | apply State.endBurst_keeps | apply State.moveTo_keeps | apply Keeps.foldl | apply Keeps.foldl_fst | refine Keeps.of_mk ?_ rfl rfl rfl

theorem State.dieStages_keeps {z : State} (s : State) (hk : Keeps z s) :
    Keeps z (State.dieStages s) := by
  unfold State.dieStages
  try dsimp only
  repeat' first | split | (intro _; try dsimp only) | with_reducible first | assumption | apply State.event_keeps | apply State.followStop_keeps | apply State.recompute_keeps | refine Keeps.of_mk ?_ rfl rfl rfl

theorem State.hbmStages_keeps {z : State} (s : State) (k : Nat) (hk : Keeps z s) :
    Keeps z (State.hbmStages s k) := by
  unfold State.hbmStages
  try dsimp only
  repeat' first | split | (intro _; try dsimp only) | with_reducible first | assumption | apply State.event_keeps | apply State.followStop_keeps | apply State.updStack_keeps | refine Keeps.of_mk ?_ rfl rfl rfl

theorem State.stages_keeps {z : State} (s : State) (n : Nat) (hk : Keeps z s) :
    Keeps z (State.stages s n) := by
  unfold State.stages
  try dsimp only
  repeat' first | split | (intro _; try dsimp only) | with_reducible first | assumption | apply State.dieStages_keeps | apply State.event_keeps | apply State.followStop_keeps | apply State.hbmStages_keeps | apply State.updDps_keeps | refine Keeps.of_mk ?_ rfl rfl rfl

theorem execThrottleDwellComplete_keeps {z : State} (stack : Option Stack) (s : State) (hk : Keeps z s) :
    KeepsOut z (execThrottleDwellComplete stack s) := by
  unfold execThrottleDwellComplete
  try dsimp only
  repeat' first | split | (intro _; try dsimp only) | with_reducible first | apply KeepsOut.next | assumption | apply State.event_keeps | apply State.moveTo_keeps | apply State.recompute_keeps | apply State.updStack_keeps | refine Keeps.of_mk ?_ rfl rfl rfl

theorem State.breakSensor_keeps {z : State} (s : State) (n cause : Nat) (hk : Keeps z s) :
    Keeps z (State.breakSensor s n cause) := by
  unfold State.breakSensor
  try dsimp only
  repeat' first | split | (intro _; try dsimp only) | with_reducible first | assumption | apply State.event_keeps | apply State.followStop_keeps | apply State.recompute_keeps | apply State.stages_keeps | apply State.updEng_keeps | apply State.updSns_keeps | apply Keeps.foldl | apply Keeps.foldl_fst | refine Keeps.of_mk ?_ rfl rfl rfl

theorem State.goodReading_keeps {z : State} (s : State) (n : Nat) (hk : Keeps z s) :
    Keeps z (State.goodReading s n) := by
  unfold State.goodReading
  try dsimp only
  repeat' first | split | (intro _; try dsimp only) | with_reducible first | assumption | apply State.stages_keeps | apply State.updSns_keeps | refine Keeps.of_mk ?_ rfl rfl rfl

theorem State.compareSns_keeps {z : State} (s : State) (n : Nat) (v : Int) (other : Option Int) (hk : Keeps z s) :
    Keeps z (State.compareSns s n v other) := by
  unfold State.compareSns
  try dsimp only
  repeat' first | split | (intro _; try dsimp only) | with_reducible first | assumption | apply State.breakSensor_keeps | apply State.goodReading_keeps | apply State.stages_keeps | apply State.updSns_keeps | refine Keeps.of_mk ?_ rfl rfl rfl

theorem State.cooled_keeps {z : State} (s : State) (hk : Keeps z s) :
    Keeps z (State.cooled s) := by
  unfold State.cooled
  try dsimp only
  repeat' first | split | (intro _; try dsimp only) | with_reducible first | assumption | apply State.moduleReset_keeps | refine Keeps.of_mk ?_ rfl rfl rfl

theorem execSensorRead_keeps {z : State} (n : Sensor) (reading second : Option Int) (s : State) (hk : Keeps z s) :
    KeepsOut z (execSensorRead n reading second s) := by
  unfold execSensorRead
  try dsimp only
  repeat' first | split | (intro _; try dsimp only) | with_reducible first | apply KeepsOut.next | assumption | apply State.breakSensor_keeps | apply State.compareSns_keeps | apply State.cooled_keeps | apply State.updSns_keeps | refine Keeps.of_mk ?_ rfl rfl rfl

theorem State.liftSensor_keeps {z : State} (s : State) (n : Nat) (hk : Keeps z s) :
    Keeps z (State.liftSensor s n) := by
  unfold State.liftSensor
  try dsimp only
  repeat' first | split | (intro _; try dsimp only) | with_reducible first | assumption | apply State.poolEvent_keeps | apply State.updDps_keeps | apply State.updEng_keeps | apply State.updGrp_keeps | apply raiseTop_keeps | apply Keeps.foldl | apply Keeps.foldl_fst | refine Keeps.of_mk ?_ rfl rfl rfl

theorem execSensorRestore_keeps {z : State} (n : Sensor) (s : State) (hk : Keeps z s) :
    KeepsOut z (execSensorRestore n s) := by
  unfold execSensorRestore
  try dsimp only
  repeat' first | split | (intro _; try dsimp only) | with_reducible first | apply KeepsOut.next | assumption | apply State.event_keeps | apply State.followStop_keeps | apply State.liftSensor_keeps | apply State.moveTo_keeps | apply State.recompute_keeps | apply State.stages_keeps | apply State.updSns_keeps | refine Keeps.of_mk ?_ rfl rfl rfl

theorem execThermalTrip_keeps {z : State} (n : Sensor) (s : State) (hk : Keeps z s) :
    KeepsOut z (execThermalTrip n s) := by
  unfold execThermalTrip
  try dsimp only
  repeat' first | split | (intro _; try dsimp only) | with_reducible first | apply KeepsOut.next | assumption | apply State.event_keeps | refine Keeps.of_mk ?_ rfl rfl rfl

theorem execInconvShutdown_keeps {z : State} (s : State) (hk : Keeps z s) :
    KeepsOut z (execInconvShutdown s) := by
  unfold execInconvShutdown
  try dsimp only
  repeat' first | split | (intro _; try dsimp only) | with_reducible first | apply KeepsOut.next | assumption | apply State.moveTo_keeps | apply State.supplyResetBy_keeps | apply State.updSns_keeps | refine Keeps.of_mk ?_ rfl rfl rfl

theorem execPIdleMeasure_keeps {z : State} (power : Nat) (s : State) (hk : Keeps z s) :
    KeepsOut z (execPIdleMeasure power s) := by
  unfold execPIdleMeasure
  try dsimp only
  repeat' first | split | (intro _; try dsimp only) | with_reducible first | apply KeepsOut.next | assumption | refine Keeps.of_mk ?_ rfl rfl rfl

theorem execReferenceCompUpdate_keeps {z : State} (s : State) (hk : Keeps z s) :
    KeepsOut z (execReferenceCompUpdate s) := by
  unfold execReferenceCompUpdate
  try dsimp only
  repeat' first | split | (intro _; try dsimp only) | with_reducible first | apply KeepsOut.next | assumption | apply Keeps.foldl | apply Keeps.foldl_fst | refine Keeps.of_mk ?_ rfl rfl rfl

theorem execVinWarn_keeps {z : State} (vinFilt : Nat) (s : State) (hk : Keeps z s) :
    KeepsOut z (execVinWarn vinFilt s) := by
  unfold execVinWarn
  try dsimp only
  repeat' first | split | (intro _; try dsimp only) | with_reducible first | apply KeepsOut.next | apply KeepsOut.fault | assumption | apply State.event_keeps | apply State.recompute_keeps | refine Keeps.of_mk ?_ rfl rfl rfl

theorem execVinHigh_keeps {z : State} (s : State) (hk : Keeps z s) :
    KeepsOut z (execVinHigh s) := by
  unfold execVinHigh
  try dsimp only
  repeat' first | split | (intro _; try dsimp only) | with_reducible first | apply KeepsOut.next | assumption | apply State.event_keeps | refine Keeps.of_mk ?_ rfl rfl rfl

theorem execVinHighClear_keeps {z : State} (s : State) (hk : Keeps z s) :
    KeepsOut z (execVinHighClear s) := by
  unfold execVinHighClear
  try dsimp only
  repeat' first | split | (intro _; try dsimp only) | with_reducible first | apply KeepsOut.next | assumption | refine Keeps.of_mk ?_ rfl rfl rfl

theorem execVinOv_keeps {z : State} (vin : Nat) (s : State) (hk : Keeps z s) :
    KeepsOut z (execVinOv vin s) := by
  unfold execVinOv
  try dsimp only
  repeat' first | split | (intro _; try dsimp only) | with_reducible first | apply KeepsOut.next | apply KeepsOut.fault | assumption | apply State.event_keeps | apply State.openSwitch_keeps | refine Keeps.of_mk ?_ rfl rfl rfl

theorem execSupplyReset_keeps {z : State} (vinStayed : Bool) (s : State) (hk : Keeps z s) :
    KeepsOut z (execSupplyReset vinStayed s) := by
  unfold execSupplyReset
  try dsimp only
  repeat' first | split | (intro _; try dsimp only) | with_reducible first | apply KeepsOut.next | assumption | apply State.supplyResetBy_keeps | refine Keeps.of_mk ?_ rfl rfl rfl

theorem execOvRecovery_keeps {z : State} (s : State) (hk : Keeps z s) :
    KeepsOut z (execOvRecovery s) := by
  unfold execOvRecovery
  try dsimp only
  repeat' first | split | (intro _; try dsimp only) | with_reducible first | apply KeepsOut.next | assumption | refine Keeps.of_mk ?_ rfl rfl rfl

theorem execInputLimit_keeps {z : State} (s : State) (hk : Keeps z s) :
    KeepsOut z (execInputLimit s) := by
  unfold execInputLimit
  try dsimp only
  repeat' first | split | (intro _; try dsimp only) | with_reducible first | apply KeepsOut.next | assumption | apply State.event_keeps | refine Keeps.of_mk ?_ rfl rfl rfl

theorem execVinMate_keeps {z : State} (vin : Nat) (s : State) (hk : Keeps z s) :
    KeepsOut z (execVinMate vin s) := by
  unfold execVinMate
  try dsimp only
  repeat' first | split | (intro _; try dsimp only) | with_reducible first | apply KeepsOut.next | apply KeepsOut.fault | assumption | refine Keeps.of_mk ?_ rfl rfl rfl

theorem execPrechargeComplete_keeps {z : State} (s : State) (hk : Keeps z s) :
    KeepsOut z (execPrechargeComplete s) := by
  unfold execPrechargeComplete
  try dsimp only
  repeat' first | split | (intro _; try dsimp only) | with_reducible first | apply KeepsOut.next | assumption | refine Keeps.of_mk ?_ rfl rfl rfl

theorem execResetRelease_keeps {z : State} (ga : BitVec 6) (s : State) (hk : Keeps z s) :
    KeepsOut z (execResetRelease ga s) := by
  unfold execResetRelease
  try dsimp only
  repeat' first | split | (intro _; try dsimp only) | with_reducible first | apply KeepsOut.next | assumption | apply State.moveTo_keeps | refine Keeps.of_mk ?_ rfl rfl rfl

theorem execPrsntNLoss_keeps {z : State} (s : State) (hk : Keeps z s) :
    KeepsOut z (execPrsntNLoss s) := by
  unfold execPrsntNLoss
  try dsimp only
  repeat' first | split | (intro _; try dsimp only) | with_reducible first | apply KeepsOut.next | assumption | apply State.event_keeps | refine Keeps.of_mk ?_ rfl rfl rfl

theorem execPrsntNAssert_keeps {z : State} (s : State) (hk : Keeps z s) :
    KeepsOut z (execPrsntNAssert s) := by
  unfold execPrsntNAssert
  try dsimp only
  repeat' first | split | (intro _; try dsimp only) | with_reducible first | apply KeepsOut.next | assumption | refine Keeps.of_mk ?_ rfl rfl rfl

theorem State.startStore_keeps {z : State} (s : State) (hk : Keeps z s) :
    Keeps z (State.startStore s) := by
  unfold State.startStore
  try dsimp only
  repeat' first | split | (intro _; try dsimp only) | with_reducible first | assumption | apply State.event_keeps | refine Keeps.of_mk ?_ rfl rfl rfl

theorem execEjectNAssert_keeps {z : State} (s : State) (hk : Keeps z s) :
    KeepsOut z (execEjectNAssert s) := by
  unfold execEjectNAssert
  try dsimp only
  repeat' first | split | (intro _; try dsimp only) | with_reducible first | apply KeepsOut.next | assumption | apply State.calAbandon_keeps | apply State.event_keeps | apply State.startStore_keeps | refine Keeps.of_mk ?_ rfl rfl rfl

theorem execEjectNRelease_keeps {z : State} (s : State) (hk : Keeps z s) :
    KeepsOut z (execEjectNRelease s) := by
  unfold execEjectNRelease
  try dsimp only
  repeat' first | split | (intro _; try dsimp only) | with_reducible first | apply KeepsOut.next | assumption | apply State.event_keeps | refine Keeps.of_mk ?_ rfl rfl rfl

theorem State.fenceLong_keeps {z : State} (s : State) (hk : Keeps z s) :
    Keeps z (State.fenceLong s) := by
  unfold State.fenceLong
  try dsimp only
  repeat' first | split | (intro _; try dsimp only) | with_reducible first | assumption | apply State.complete_keeps | apply Keeps.foldl | apply Keeps.foldl_fst | refine Keeps.of_mk ?_ rfl rfl rfl

theorem State.fenceTasks_keeps {z : State} (s : State) (hk : Keeps z s) :
    Keeps z (State.fenceTasks s) := by
  unfold State.fenceTasks
  try dsimp only
  repeat' first | split | (intro _; try dsimp only) | with_reducible first | assumption | apply State.dropTask_keeps | apply Keeps.foldl | apply Keeps.foldl_fst | refine Keeps.of_mk ?_ rfl rfl rfl

theorem State.portsOff_keeps {z : State} (s : State) (hk : Keeps z s) :
    Keeps z (State.portsOff s) := by
  unfold State.portsOff
  try dsimp only
  repeat' first | split | (intro _; try dsimp only) | with_reducible first | assumption | apply State.replay_keeps | apply State.updPort_keeps | apply Keeps.foldl | apply Keeps.foldl_fst | refine Keeps.of_mk ?_ rfl rfl rfl

theorem execEjectGraceExpiry_keeps {z : State} (s : State) (hk : Keeps z s) :
    KeepsOut z (execEjectGraceExpiry s) := by
  unfold execEjectGraceExpiry
  try dsimp only
  repeat' first | split | (intro _; try dsimp only) | with_reducible first | apply KeepsOut.next | assumption | apply State.fenceLong_keeps | apply State.fenceTasks_keeps | apply State.moveTo_keeps | apply State.portsOff_keeps | apply State.safeState_keeps | refine Keeps.of_mk ?_ rfl rfl rfl

theorem execEjectSafe_keeps {z : State} (s : State) (hk : Keeps z s) :
    KeepsOut z (execEjectSafe s) := by
  unfold execEjectSafe
  try dsimp only
  repeat' first | split | (intro _; try dsimp only) | with_reducible first | apply KeepsOut.next | assumption | apply State.event_keeps | apply State.moveTo_keeps | refine Keeps.of_mk ?_ rfl rfl rfl

/-! ## TmgRows -/

theorem execPllLock_keeps {z : State} (g : Grp) (s : State) (hk : Keeps z s) :
    KeepsOut z (execPllLock g s) := by
  unfold execPllLock
  try dsimp only
  repeat' first | split | (intro _; try dsimp only) | with_reducible first | apply KeepsOut.next | assumption | apply State.updGrp_keeps | refine Keeps.of_mk ?_ rfl rfl rfl

theorem execPllUnlock_keeps {z : State} (g : Grp) (s : State) (hk : Keeps z s) :
    KeepsOut z (execPllUnlock g s) := by
  unfold execPllUnlock
  try dsimp only
  repeat' first | split | (intro _; try dsimp only) | with_reducible first | apply KeepsOut.next | assumption | apply State.event_keeps | refine Keeps.of_mk ?_ rfl rfl rfl

theorem execPllRelock_keeps {z : State} (g : Grp) (ok : Bool) (s : State) (hk : Keeps z s) :
    KeepsOut z (execPllRelock g ok s) := by
  unfold execPllRelock
  try dsimp only
  repeat' first | split | (intro _; try dsimp only) | with_reducible first | apply KeepsOut.next | assumption | apply State.event_keeps | apply State.updGrp_keeps | refine Keeps.of_mk ?_ rfl rfl rfl

theorem execEbFault_keeps {z : State} (g : Grp) (s : State) (hk : Keeps z s) :
    KeepsOut z (execEbFault g s) := by
  unfold execEbFault
  try dsimp only
  repeat' first | split | (intro _; try dsimp only) | with_reducible first | apply KeepsOut.next | assumption | apply State.event_keeps | refine Keeps.of_mk ?_ rfl rfl rfl

theorem execTsParity_keeps {z : State} (g : Grp) (s : State) (hk : Keeps z s) :
    KeepsOut z (execTsParity g s) := by
  unfold execTsParity
  try dsimp only
  repeat' first | split | (intro _; try dsimp only) | with_reducible first | apply KeepsOut.next | assumption | apply State.event_keeps | refine Keeps.of_mk ?_ rfl rfl rfl

theorem State.dropSums_keeps {z : State} (s : State) (g : Nat) (hk : Keeps z s) :
    Keeps z (State.dropSums s g) := by
  unfold State.dropSums
  try dsimp only
  repeat' first | split | (intro _; try dsimp only) | with_reducible first | assumption | apply State.updLane_keeps | apply Keeps.foldl | apply Keeps.foldl_fst | refine Keeps.of_mk ?_ rfl rfl rfl

theorem State.keepSums_keeps {z : State} (s : State) (g : Nat) (hk : Keeps z s) :
    Keeps z (State.keepSums s g) := by
  unfold State.keepSums
  try dsimp only
  repeat' first | split | (intro _; try dsimp only) | with_reducible first | assumption | apply State.updLane_keeps | apply Keeps.foldl | apply Keeps.foldl_fst | refine Keeps.of_mk ?_ rfl rfl rfl

theorem State.followStale_keeps {z : State} (s : State) (g : Nat) (hk : Keeps z s) :
    Keeps z (State.followStale s g) := by
  unfold State.followStale
  try dsimp only
  repeat' first | split | (intro _; try dsimp only) | with_reducible first | assumption | apply State.dropSums_keeps | apply State.endBurst_keeps | apply State.event_keeps | apply State.keepSums_keeps | apply State.updGrp_keeps | apply Keeps.foldl | apply Keeps.foldl_fst | refine Keeps.of_mk ?_ rfl rfl rfl

theorem State.retarget_keeps {z : State} (s : State) (g : Nat) (hk : Keeps z s) :
    Keeps z (State.retarget s g) := by
  unfold State.retarget
  try dsimp only
  repeat' first | split | (intro _; try dsimp only) | with_reducible first | assumption | apply State.event_keeps | apply State.followStale_keeps | apply State.updGrp_keeps | apply State.updLane_keeps | apply Keeps.foldl | apply Keeps.foldl_fst | refine Keeps.of_mk ?_ rfl rfl rfl

theorem execIslandTempRead_keeps {z : State} (g : Grp) (tIsl : Int) (s : State) (hk : Keeps z s) :
    KeepsOut z (execIslandTempRead g tIsl s) := by
  unfold execIslandTempRead
  try dsimp only
  repeat' first | split | (intro _; try dsimp only) | with_reducible first | apply KeepsOut.next | assumption | apply State.retarget_keeps | apply State.updGrp_keeps | refine Keeps.of_mk ?_ rfl rfl rfl

theorem execTcStep_keeps {z : State} (l : Lane) (s : State) (hk : Keeps z s) :
    KeepsOut z (execTcStep l s) := by
  unfold execTcStep
  try dsimp only
  repeat' first | split | (intro _; try dsimp only) | with_reducible first | apply KeepsOut.next | assumption | apply State.moveTo_keeps | apply State.updLane_keeps | refine Keeps.of_mk ?_ rfl rfl rfl

theorem execStatDeskewStep_keeps {z : State} (l : Lane) (drive : Bool) (s : State) (hk : Keeps z s) :
    KeepsOut z (execStatDeskewStep l drive s) := by
  unfold execStatDeskewStep
  try dsimp only
  repeat' first | split | (intro _; try dsimp only) | with_reducible first | apply KeepsOut.next | assumption | apply State.moveTo_keeps | apply State.updGrp_keeps | apply State.updLane_keeps | refine Keeps.of_mk ?_ rfl rfl rfl

/-! ## FwRows -/

theorem execConsequenceWindowClose_keeps {z : State} (s : State) (hk : Keeps z s) :
    KeepsOut z (execConsequenceWindowClose s) := by
  unfold execConsequenceWindowClose
  try dsimp only
  repeat' first | split | (intro _; try dsimp only) | with_reducible first | apply KeepsOut.next | assumption | apply State.moveTo_keeps | apply State.react_keeps | apply State.writeRecord_keeps | apply raiseTop_keeps | apply Keeps.foldl | apply Keeps.foldl_fst | refine Keeps.of_mk ?_ rfl rfl rfl

theorem execGongReadback_keeps {z : State} (s : State) (hk : Keeps z s) :
    KeepsOut z (execGongReadback s) := by
  unfold execGongReadback
  try dsimp only
  repeat' first | split | (intro _; try dsimp only) | with_reducible first | apply KeepsOut.next | assumption | apply State.event_keeps | refine Keeps.of_mk ?_ rfl rfl rfl

theorem execFwWatchdog_keeps {z : State} (s : State) (hk : Keeps z s) :
    KeepsOut z (execFwWatchdog s) := by
  unfold execFwWatchdog
  try dsimp only
  repeat' first | split | (intro _; try dsimp only) | with_reducible first | apply KeepsOut.next | assumption | apply State.event_keeps | refine Keeps.of_mk ?_ rfl rfl rfl

theorem execFabricParity_keeps {z : State} (s : State) (hk : Keeps z s) :
    KeepsOut z (execFabricParity s) := by
  unfold execFabricParity
  try dsimp only
  repeat' first | split | (intro _; try dsimp only) | with_reducible first | apply KeepsOut.next | assumption | apply State.event_keeps | refine Keeps.of_mk ?_ rfl rfl rfl

theorem execSramUe_keeps {z : State} (s : State) (hk : Keeps z s) :
    KeepsOut z (execSramUe s) := by
  unfold execSramUe
  try dsimp only
  repeat' first | split | (intro _; try dsimp only) | with_reducible first | apply KeepsOut.next | assumption | apply State.event_keeps | refine Keeps.of_mk ?_ rfl rfl rfl

theorem execSramCorr_keeps {z : State} (s : State) (hk : Keeps z s) :
    KeepsOut z (execSramCorr s) := by
  unfold execSramCorr
  try dsimp only
  repeat' first | split | (intro _; try dsimp only) | with_reducible first | apply KeepsOut.next | assumption | apply State.event_keeps | refine Keeps.of_mk ?_ rfl rfl rfl

theorem State.loadRef_keeps {z : State} (s : State) (r : StoredRef) (hk : Keeps z s) :
    Keeps z (State.loadRef s r) := by
  unfold State.loadRef
  try dsimp only
  repeat' first | split | (intro _; try dsimp only) | with_reducible first | assumption | apply State.updDps_keeps | apply State.updGrp_keeps | refine Keeps.of_mk ?_ rfl rfl rfl

theorem State.loadStore_keeps {z : State} (s : State) (hk : Keeps z s) :
    Keeps z (State.loadStore s) := by
  unfold State.loadStore
  try dsimp only
  repeat' first | split | (intro _; try dsimp only) | with_reducible first | assumption | apply State.event_keeps | apply State.loadRef_keeps | apply State.setPar_keeps | apply State.updLane_keeps | apply State.updPadc_keeps | apply Keeps.foldl | apply Keeps.foldl_fst | refine Keeps.of_mk ?_ rfl rfl rfl

theorem State.repairEvent_keeps {z : State} (s : State) (src cause : Nat) (r : MemRow) (hk : Keeps z s) :
    Keeps z (State.repairEvent s src cause r) := by
  unfold State.repairEvent
  try dsimp only
  repeat' first | split | (intro _; try dsimp only) | with_reducible first | assumption | apply State.event_keeps | refine Keeps.of_mk ?_ rfl rfl rfl

theorem State.killRow_keeps {z : State} (s : State) (r : MemRow) (hk : Keeps z s) :
    Keeps z (State.killRow s r) := by
  unfold State.killRow
  try dsimp only
  repeat' first | split | (intro _; try dsimp only) | with_reducible first | assumption | refine Keeps.of_mk ?_ rfl rfl rfl

theorem State.repairOne_keeps {z : State} (s : State) (r : MemRow) (fails : Bool) (hk : Keeps z s) :
    Keeps z (State.repairOne s r fails) := by
  unfold State.repairOne
  try dsimp only
  repeat' first | split | (intro _; try dsimp only) | with_reducible first | assumption | apply State.killRow_keeps | apply State.repairEvent_keeps | apply State.updMc_keeps | refine Keeps.of_mk ?_ rfl rfl rfl

theorem State.repairs_keeps {z : State} (s : State) (m : Nat) (fails : Bool) (hk : Keeps z s) :
    Keeps z (State.repairs s m fails) := by
  unfold State.repairs
  try dsimp only
  repeat' first | split | (intro _; try dsimp only) | with_reducible first | assumption | apply State.repairOne_keeps | apply State.updMc_keeps | apply Keeps.foldl | apply Keeps.foldl_fst | refine Keeps.of_mk ?_ rfl rfl rfl

theorem State.runRepairs_keeps {z : State} (s : State) (failed : List Mc) (hk : Keeps z s) :
    Keeps z (State.runRepairs s failed) := by
  unfold State.runRepairs
  try dsimp only
  repeat' first | split | (intro _; try dsimp only) | with_reducible first | assumption | apply State.repairs_keeps | apply Keeps.foldl | apply Keeps.foldl_fst | refine Keeps.of_mk ?_ rfl rfl rfl

theorem State.trainAll_keeps {z : State} (s : State) (hk : Keeps z s) :
    Keeps z (State.trainAll s) := by
  unfold State.trainAll
  try dsimp only
  repeat' first | split | (intro _; try dsimp only) | with_reducible first | assumption | apply State.updMc_keeps | apply Keeps.foldl | apply Keeps.foldl_fst | refine Keeps.of_mk ?_ rfl rfl rfl

theorem State.report_keeps {z : State} (s : State) (hk : Keeps z s) :
    Keeps z (State.report s) := by
  unfold State.report
  try dsimp only
  repeat' first | split | (intro _; try dsimp only) | with_reducible first | assumption | apply State.event_keeps | refine Keeps.of_mk ?_ rfl rfl rfl

theorem State.boot_keeps {z : State} (s : State) (failed : List Mc) (hk : Keeps z s) :
    Keeps z (State.boot s failed) := by
  unfold State.boot
  try dsimp only
  repeat' first | split | (intro _; try dsimp only) | with_reducible first | assumption | apply State.loadControl_keeps | apply State.loadStore_keeps | apply State.report_keeps | apply State.runRepairs_keeps | apply State.trainAll_keeps | refine Keeps.of_mk ?_ rfl rfl rfl

theorem execFirmwareBoot_keeps {z : State} (activeOk otherOk : Bool) (pprFailed : List Mc) (s : State) (hk : Keeps z s) :
    KeepsOut z (execFirmwareBoot activeOk otherOk pprFailed s) := by
  unfold execFirmwareBoot
  try dsimp only
  repeat' first | split | (intro _; try dsimp only) | with_reducible first | apply KeepsOut.next | assumption | apply State.boot_keeps | apply State.event_keeps | refine Keeps.of_mk ?_ rfl rfl rfl

theorem execBootTimeout_keeps {z : State} (s : State) (hk : Keeps z s) :
    KeepsOut z (execBootTimeout s) := by
  unfold execBootTimeout
  try dsimp only
  repeat' first | split | (intro _; try dsimp only) | with_reducible first | apply KeepsOut.next | assumption | apply State.event_keeps | refine Keeps.of_mk ?_ rfl rfl rfl

theorem State.svcEvent_keeps {z : State} (s : State) (p seconds : Nat) (hk : Keeps z s) :
    Keeps z (State.svcEvent s p seconds) := by
  unfold State.svcEvent
  try dsimp only
  repeat' first | split | (intro _; try dsimp only) | with_reducible first | assumption | apply State.event_keeps | refine Keeps.of_mk ?_ rfl rfl rfl

theorem execServiceLockExpiry_keeps {z : State} (s : State) (hk : Keeps z s) :
    KeepsOut z (execServiceLockExpiry s) := by
  unfold execServiceLockExpiry
  try dsimp only
  repeat' first | split | (intro _; try dsimp only) | with_reducible first | apply KeepsOut.next | assumption | apply State.moveTo_keeps | apply State.svcEvent_keeps | refine Keeps.of_mk ?_ rfl rfl rfl

/-! ## Commit -/

theorem State.commitTs_keeps {z : State} (s : State) (rs : List TsRec) (hk : Keeps z s) :
    Keeps z (State.commitTs s rs) := by
  unfold State.commitTs
  try dsimp only
  repeat' first | split | (intro _; try dsimp only) | with_reducible first | assumption | apply State.updGrp_keeps | apply Keeps.foldl | apply Keeps.foldl_fst | refine Keeps.of_mk ?_ rfl rfl rfl

theorem State.stageRse_keeps {z : State} (s : State) (id : Nat) (v : Int) (hk : Keeps z s) :
    Keeps z (State.stageRse s id v) := by
  unfold State.stageRse
  try dsimp only
  repeat' first | split | (intro _; try dsimp only) | with_reducible first | assumption | apply State.applyVal_keeps | apply State.updRse_keeps | refine Keeps.of_mk ?_ rfl rfl rfl

theorem State.pendValue_keeps {z : State} (s : State) (p : Part) (id : Nat) (v : Int) (hk : Keeps z s) :
    Keeps z (State.pendValue s p id v) := by
  unfold State.pendValue
  try dsimp only
  repeat' first | split | (intro _; try dsimp only) | with_reducible first | assumption | refine Keeps.of_mk ?_ rfl rfl rfl

theorem State.applyCfg_keeps {z : State} (s : State) (id : Nat) (v : Int) (hk : Keeps z s) :
    Keeps z (State.applyCfg s id v) := by
  unfold State.applyCfg
  try dsimp only
  repeat' first | split | (intro _; try dsimp only) | with_reducible first | assumption | apply State.applyVal_keeps | apply State.force_keeps | refine Keeps.of_mk ?_ rfl rfl rfl

theorem State.commitVal_keeps {z : State} (s : State) (p : Part) (id : Nat) (v : Int) (held : Bool) (hk : Keeps z s) :
    Keeps z (State.commitVal s p id v held) := by
  unfold State.commitVal
  try dsimp only
  repeat' first | split | (intro _; try dsimp only) | with_reducible first | assumption | apply State.applyCfg_keeps | apply State.applyVal_keeps | apply State.commit_keeps | apply State.pendValue_keeps | apply State.stageRse_keeps | refine Keeps.of_mk ?_ rfl rfl rfl

theorem State.openHeld_keeps {z : State} (s : State) (p : Nat) (hk : Keeps z s) :
    Keeps z (State.openHeld s p) := by
  unfold State.openHeld
  try dsimp only
  repeat' first | split | (intro _; try dsimp only) | with_reducible first | assumption | apply State.updLane_keeps | apply Keeps.foldl | apply Keeps.foldl_fst | refine Keeps.of_mk ?_ rfl rfl rfl

theorem State.stagePairs_keeps {z : State} (s : State) (p : Nat) (pairs : List (Nat × Int)) (hk : Keeps z s) :
    Keeps z (State.stagePairs s p pairs) := by
  unfold State.stagePairs
  try dsimp only
  repeat' first | split | (intro _; try dsimp only) | with_reducible first | assumption | apply State.updFn_keeps | apply Keeps.foldl | apply Keeps.foldl_fst | refine Keeps.of_mk ?_ rfl rfl rfl

theorem State.commit_keeps {z : State} (s : State) (p : Part) (hk : Keeps z s) : Keeps z (s.commit p).2.2 := by
  unfold State.commit
  split
  · exact hk
  · refine State.openHeld_keeps _ _ (Keeps.foldl _ _ (fun t x ht => State.event_keeps _ _ _ _ ht) ?_)
    refine Keeps.foldl _ _ (fun t x ht => State.commitVal_keeps _ _ _ _ _ ht) ?_
    refine Keeps.foldl _ _ (fun t x ht => State.updGrp_keeps _ _ _ ht) ?_
    exact State.commitTs_keeps _ _ (State.updFn_keeps _ _ _ hk)

theorem State.setPairs_keeps {z : State} (s : State) (p : Part) (pairs : List (Nat × Int)) (commit : Bool)
    (hk : Keeps z s) : Keeps z (s.setPairs p pairs commit).2.2 := by
  unfold State.setPairs
  split
  · exact hk
  · dsimp only
    split
    · exact hk
    · split
      · exact State.commit_keeps _ _ (State.stagePairs_keeps _ _ _ hk)
      · exact State.stagePairs_keeps _ _ _ hk

/-! ## HostRows -/

theorem State.abortBurst_keeps {z : State} (s : State) (r : Nat) (hk : Keeps z s) :
    Keeps z (State.abortBurst s r) := by
  unfold State.abortBurst
  try dsimp only
  repeat' first | split | (intro _; try dsimp only) | with_reducible first | assumption | apply State.endBurst_keeps | apply State.giveUp_keeps | refine Keeps.of_mk ?_ rfl rfl rfl

theorem State.abortTask_keeps {z : State} (s : State) (i : Nat) (hk : Keeps z s) :
    Keeps z (State.abortTask s i) := by
  unfold State.abortTask
  try dsimp only
  repeat' first | split | (intro _; try dsimp only) | with_reducible first | assumption | apply State.abortBurst_keeps | apply State.endTask_keeps | refine Keeps.of_mk ?_ rfl rfl rfl

theorem State.abortAll_keeps {z : State} (s : State) (task : TaskSt → Bool) (burst : Burst → Bool) (hk : Keeps z s) :
    Keeps z (State.abortAll s task burst) := by
  unfold State.abortAll
  try dsimp only
  repeat' first | split | (intro _; try dsimp only) | with_reducible first | assumption | apply State.abortBurst_keeps | apply State.abortTask_keeps | apply Keeps.foldl | apply Keeps.foldl_fst | refine Keeps.of_mk ?_ rfl rfl rfl

theorem State.abortPart_keeps {z : State} (s : State) (p : Part) (hk : Keeps z s) :
    Keeps z (State.abortPart s p) := by
  unfold State.abortPart
  try dsimp only
  repeat' first | split | (intro _; try dsimp only) | with_reducible first | assumption | apply State.abortAll_keeps | refine Keeps.of_mk ?_ rfl rfl rfl

theorem execCmdTail_keeps {z : State} (p : Part) (count : Nat) (written : List CmdEntry) (s : State) (hk : Keeps z s) :
    KeepsOut z (execCmdTail p count written s) := by
  unfold execCmdTail
  try dsimp only
  repeat' first | split | (intro _; try dsimp only) | with_reducible first | apply KeepsOut.next | assumption | apply State.fnErr_keeps | apply State.updFn_keeps | refine Keeps.of_mk ?_ rfl rfl rfl

theorem State.countTurn_keeps {z : State} (s : State) (p : Nat) (hk : Keeps z s) :
    Keeps z (State.countTurn s p) := by
  unfold State.countTurn
  try dsimp only
  repeat' first | split | (intro _; try dsimp only) | with_reducible first | assumption | refine Keeps.of_mk ?_ rfl rfl rfl

theorem execCmdTake_keeps {z : State} (p : Part) (s : State) (hk : Keeps z s) :
    KeepsOut z (execCmdTake p s) := by
  unfold execCmdTake
  try dsimp only
  repeat' first | split | (intro _; try dsimp only) | with_reducible first | apply KeepsOut.next | assumption | apply State.command_keeps | apply State.countTurn_keeps | apply State.event_keeps | apply State.refuseCmd_keeps | apply State.updFn_keeps | refine Keeps.of_mk ?_ rfl rfl rfl

theorem execCmdEnable_keeps {z : State} (p : Part) (enable : Bool) (s : State) (hk : Keeps z s) :
    KeepsOut z (execCmdEnable p enable s) := by
  unfold execCmdEnable
  try dsimp only
  repeat' first | split | (intro _; try dsimp only) | with_reducible first | apply KeepsOut.next | assumption | apply State.drainEvts_keeps | apply State.flushCpl_keeps | apply State.updFn_keeps | refine Keeps.of_mk ?_ rfl rfl rfl

theorem execRingStop_keeps {z : State} (p : Part) (s : State) (hk : Keeps z s) :
    KeepsOut z (execRingStop p s) := by
  unfold execRingStop
  try dsimp only
  repeat' first | split | (intro _; try dsimp only) | with_reducible first | apply KeepsOut.next | assumption | apply State.abortPart_keeps | apply State.event_keeps | apply State.updFn_keeps | refine Keeps.of_mk ?_ rfl rfl rfl

theorem execRingResume_keeps {z : State} (p : Part) (s : State) (hk : Keeps z s) :
    KeepsOut z (execRingResume p s) := by
  unfold execRingResume
  try dsimp only
  repeat' first | split | (intro _; try dsimp only) | with_reducible first | apply KeepsOut.next | assumption | apply State.updFn_keeps | refine Keeps.of_mk ?_ rfl rfl rfl

theorem execMsixCoalTimeout_keeps {z : State} (p : Part) (evt : Bool) (s : State) (hk : Keeps z s) :
    KeepsOut z (execMsixCoalTimeout p evt s) := by
  unfold execMsixCoalTimeout
  try dsimp only
  repeat' first | split | (intro _; try dsimp only) | with_reducible first | apply KeepsOut.next | assumption | apply State.updFn_keeps | refine Keeps.of_mk ?_ rfl rfl rfl

theorem execCplDmaError_keeps {z : State} (p : Part) (addr : Nat) (s : State) (hk : Keeps z s) :
    KeepsOut z (execCplDmaError p addr s) := by
  unfold execCplDmaError
  try dsimp only
  repeat' first | split | (intro _; try dsimp only) | with_reducible first | apply KeepsOut.next | assumption | apply State.event_keeps | apply State.fnErr_keeps | apply State.updFn_keeps | refine Keeps.of_mk ?_ rfl rfl rfl

theorem execEvtDmaError_keeps {z : State} (p : Part) (addr : Nat) (s : State) (hk : Keeps z s) :
    KeepsOut z (execEvtDmaError p addr s) := by
  unfold execEvtDmaError
  try dsimp only
  repeat' first | split | (intro _; try dsimp only) | with_reducible first | apply KeepsOut.next | assumption | apply State.event_keeps | apply State.fnErr_keeps | apply State.updFn_keeps | refine Keeps.of_mk ?_ rfl rfl rfl

theorem execCplCons_keeps {z : State} (p : Part) (count : Nat) (s : State) (hk : Keeps z s) :
    KeepsOut z (execCplCons p count s) := by
  unfold execCplCons
  try dsimp only
  repeat' first | split | (intro _; try dsimp only) | with_reducible first | apply KeepsOut.next | assumption | apply State.flushCpl_keeps | apply State.updFn_keeps | refine Keeps.of_mk ?_ rfl rfl rfl

theorem execEvtCons_keeps {z : State} (p : Part) (count : Nat) (s : State) (hk : Keeps z s) :
    KeepsOut z (execEvtCons p count s) := by
  unfold execEvtCons
  try dsimp only
  repeat' first | split | (intro _; try dsimp only) | with_reducible first | apply KeepsOut.next | assumption | apply State.drainEvts_keeps | apply State.updFn_keeps | refine Keeps.of_mk ?_ rfl rfl rfl

theorem execFerrClear_keeps {z : State} (p : Part) (s : State) (hk : Keeps z s) :
    KeepsOut z (execFerrClear p s) := by
  unfold execFerrClear
  try dsimp only
  repeat' first | split | (intro _; try dsimp only) | with_reducible first | apply KeepsOut.next | assumption | apply State.updFn_keeps | refine Keeps.of_mk ?_ rfl rfl rfl

theorem execLinkLostClear_keeps {z : State} (p : Part) (s : State) (hk : Keeps z s) :
    KeepsOut z (execLinkLostClear p s) := by
  unfold execLinkLostClear
  try dsimp only
  repeat' first | split | (intro _; try dsimp only) | with_reducible first | apply KeepsOut.next | assumption | apply State.updFn_keeps | refine Keeps.of_mk ?_ rfl rfl rfl

theorem execRlLowRead_keeps {z : State} (p : Part) (reg : RlReg) (s : State) (hk : Keeps z s) :
    KeepsOut z (execRlLowRead p reg s) := by
  unfold execRlLowRead
  try dsimp only
  repeat' first | split | (intro _; try dsimp only) | with_reducible first | apply KeepsOut.next | assumption | apply State.updFn_keeps | refine Keeps.of_mk ?_ rfl rfl rfl

theorem execRegisterWrite_keeps {z : State} (p : Part) (offset : Nat) (value : Word) (s : State) (hk : Keeps z s) :
    KeepsOut z (execRegisterWrite p offset value s) := by
  unfold execRegisterWrite
  try dsimp only
  repeat' first | split | (intro _; try dsimp only) | with_reducible first | apply KeepsOut.next | assumption | apply State.fnErr_keeps | apply State.updFn_keeps | refine Keeps.of_mk ?_ rfl rfl rfl

theorem State.requestPart_keeps {z : State} (s : State) (p : Nat) (hk : Keeps z s) :
    Keeps z (State.requestPart s p) := by
  unfold State.requestPart
  try dsimp only
  repeat' first | split | (intro _; try dsimp only) | with_reducible first | assumption | apply State.updFn_keeps | refine Keeps.of_mk ?_ rfl rfl rfl

theorem execPartReset_keeps {z : State} (p : Part) (key : Word) (s : State) (hk : Keeps z s) :
    KeepsOut z (execPartReset p key s) := by
  unfold execPartReset
  try dsimp only
  repeat' first | split | (intro _; try dsimp only) | with_reducible first | apply KeepsOut.next | assumption | apply State.fnErr_keeps | apply State.requestPart_keeps | refine Keeps.of_mk ?_ rfl rfl rfl

theorem execFunctionLevelReset_keeps {z : State} (p : Part) (s : State) (hk : Keeps z s) :
    KeepsOut z (execFunctionLevelReset p s) := by
  unfold execFunctionLevelReset
  try dsimp only
  repeat' first | split | (intro _; try dsimp only) | with_reducible first | apply KeepsOut.next | assumption | apply State.requestPart_keeps | refine Keeps.of_mk ?_ rfl rfl rfl

theorem State.forgetCmds_keeps {z : State} (s : State) (p : Part) (hk : Keeps z s) :
    Keeps z (State.forgetCmds s p) := by
  unfold State.forgetCmds
  try dsimp only
  repeat' first | split | (intro _; try dsimp only) | with_reducible first | assumption | refine Keeps.of_mk ?_ rfl rfl rfl

theorem State.dropBursts_keeps {z : State} (s : State) (p : Part) (hk : Keeps z s) :
    Keeps z (State.dropBursts s p) := by
  unfold State.dropBursts
  try dsimp only
  repeat' first | split | (intro _; try dsimp only) | with_reducible first | assumption | apply State.applyPend_keeps | apply State.delBurst_keeps | apply State.freeTask_keeps | apply State.reportTask_keeps | apply Keeps.foldl | apply Keeps.foldl_fst | refine Keeps.of_mk ?_ rfl rfl rfl

theorem State.safePart_keeps {z : State} (s : State) (p : Nat) (hk : Keeps z s) :
    Keeps z (State.safePart s p) := by
  unfold State.safePart
  try dsimp only
  repeat' first | split | (intro _; try dsimp only) | with_reducible first | assumption | apply State.dischargeDps_keeps | apply State.safeChan_keeps | apply Keeps.foldl | apply Keeps.foldl_fst | refine Keeps.of_mk ?_ rfl rfl rfl

theorem State.clearPart_keeps {z : State} (s : State) (p : Nat) (hk : Keeps z s) :
    Keeps z (State.clearPart s p) := by
  unfold State.clearPart
  try dsimp only
  repeat' first | split | (intro _; try dsimp only) | with_reducible first | assumption | apply State.shed_keeps | apply State.underrun_keeps | refine Keeps.of_mk ?_ rfl rfl rfl

theorem State.clearFn_keeps {z : State} (s : State) (p : Part) (hk : Keeps z s) :
    Keeps z (State.clearFn s p) := by
  unfold State.clearFn
  try dsimp only
  repeat' first | split | (intro _; try dsimp only) | with_reducible first | assumption | apply State.updFn_keeps | refine Keeps.of_mk ?_ rfl rfl rfl

theorem execPartResetAck_keeps {z : State} (p : Part) (s : State) (hk : Keeps z s) :
    KeepsOut z (execPartResetAck p s) := by
  unfold execPartResetAck
  try dsimp only
  repeat' first | split | (intro _; try dsimp only) | with_reducible first | apply KeepsOut.next | assumption | apply State.clearFn_keeps | apply State.clearPart_keeps | apply State.dropBursts_keeps | apply State.forgetCmds_keeps | apply State.safePart_keeps | refine Keeps.of_mk ?_ rfl rfl rfl

theorem execPartResetComplete_keeps {z : State} (p : Part) (s : State) (hk : Keeps z s) :
    KeepsOut z (execPartResetComplete p s) := by
  unfold execPartResetComplete
  try dsimp only
  repeat' first | split | (intro _; try dsimp only) | with_reducible first | apply KeepsOut.next | assumption | apply State.complete_keeps | apply State.event_keeps | apply State.rewrite_keeps | apply State.updFn_keeps | apply Keeps.foldl | apply Keeps.foldl_fst | refine Keeps.of_mk ?_ rfl rfl rfl | refine Keeps.clear_mk ?_ rfl rfl rfl

theorem execResetAckTimeout_keeps {z : State} (p : Part) (s : State) (hk : Keeps z s) :
    KeepsOut z (execResetAckTimeout p s) := by
  unfold execResetAckTimeout
  try dsimp only
  repeat' first | split | (intro _; try dsimp only) | with_reducible first | apply KeepsOut.next | assumption | apply State.complete_keeps | apply State.event_keeps | apply State.moduleReset_keeps | apply State.moveTo_keeps | apply State.updFn_keeps | apply Keeps.foldl | apply Keeps.foldl_fst | refine Keeps.of_mk ?_ rfl rfl rfl

theorem execModReset_keeps {z : State} (p : Part) (key : Word) (s : State) (hk : Keeps z s) :
    KeepsOut z (execModReset p key s) := by
  unfold execModReset
  try dsimp only
  repeat' first | split | (intro _; try dsimp only) | with_reducible first | apply KeepsOut.next | assumption | apply State.fnErr_keeps | apply State.requestReset_keeps | refine Keeps.of_mk ?_ rfl rfl rfl

end Sys2Proof.Machine
end

