-- ==== Sys2Proof/Laws/KeepsCommands.lean ====
section
/-!
SUPPORT. What the commands of the opcode table, the calibration rows and Rudiment keep (`Keeps`, Laws/Keeps.lean).
-/

set_option linter.unusedTactic false
set_option linter.unreachableTactic false

namespace Sys2Proof.Machine

/-! ## SysCmds -/

theorem State.readParam_keeps {z : State} (s : State) (p : Nat) (staged : Bool) (id : Nat) (hk : Keeps z s) :
    Keeps z (s.readParam p staged id).2 := by
  unfold State.readParam
  dsimp only
  split
  · exact hk
  · split
    · exact hk
    · split
      · exact State.updFn_keeps _ _ _ hk
      · exact State.drawFree_keeps _ (State.updFn_keeps _ _ _ hk)
    · split
      · exact hk
      · split
        · dsimp only
          split
          · exact State.drawFree_keeps _ hk
          · exact hk
        · exact State.drawFree_keeps _ hk

theorem State.readAll_keeps {z : State} (s : State) (p : Nat) (staged : Bool) (l : List Nat) (hk : Keeps z s) :
    Keeps z (s.readAll p staged l).2 := by
  induction l generalizing s with
  | nil => exact hk
  | cons id r ih => exact ih _ (State.readParam_keeps s p staged id hk)

theorem execSysNop_keeps {z : State} (p : Part) (tag : Nat) (s : State) (hk : Keeps z s) :
    KeepsOut z (execSysNop p tag s) := by
  unfold execSysNop
  try dsimp only
  repeat' first | split | (intro _; try dsimp only) | with_reducible first | apply KeepsOut.next | assumption | apply State.command_keeps | apply State.complete_keeps | refine Keeps.of_mk ?_ rfl rfl rfl

theorem State.refuseParam_keeps {z : State} (s : State) (p tag : Nat) (op : BitVec 16) (st : Status) (ws ids : List Nat) (write : Bool) (hk : Keeps z s) :
    Keeps z (State.refuseParam s p tag op st ws ids write) := by
  unfold State.refuseParam
  try dsimp only
  repeat' first | split | (intro _; try dsimp only) | with_reducible first | assumption | apply State.event_keeps | apply State.fnErr_keeps | apply State.refuseCmd_keeps | apply State.tagCheck_keeps | refine Keeps.of_mk ?_ rfl rfl rfl

theorem execSysParamGet_keeps {z : State} (p : Part) (tag : Nat) (ids : List Nat) (list staged : Bool) (s : State) (hk : Keeps z s) :
    KeepsOut z (execSysParamGet p tag ids list staged s) := by
  unfold execSysParamGet
  try dsimp only
  repeat' first | split | (intro _; try dsimp only) | with_reducible first | apply KeepsOut.next | assumption | apply State.command_keeps | apply State.commit_keeps | apply State.complete_keeps | apply State.readAll_keeps | apply State.refuseParam_keeps | apply State.updFn_keeps | refine Keeps.of_mk ?_ rfl rfl rfl

theorem execSysParamSet_keeps {z : State} (p : Part) (tag : Nat) (pairs : List (Nat × Int)) (commit list : Bool) (s : State) (hk : Keeps z s) :
    KeepsOut z (execSysParamSet p tag pairs commit list s) := by
  unfold execSysParamSet
  try dsimp only
  repeat' first | split | (intro _; try dsimp only) | with_reducible first | apply KeepsOut.next | assumption | apply State.command_keeps | apply State.commit_keeps | apply State.complete_keeps | apply State.refuseParam_keeps | apply State.setPairs_keeps | apply State.updFn_keeps | refine Keeps.of_mk ?_ rfl rfl rfl

theorem execParamListDone_keeps {z : State} (p : Part) (tag : Nat) (s : State) (hk : Keeps z s) :
    KeepsOut z (execParamListDone p tag s) := by
  unfold execParamListDone
  try dsimp only
  repeat' first | split | (intro _; try dsimp only) | with_reducible first | apply KeepsOut.next | assumption | apply State.commit_keeps | apply State.complete_keeps | apply State.readAll_keeps | apply State.refuseParam_keeps | apply State.setPairs_keeps | apply State.updFn_keeps | refine Keeps.of_mk ?_ rfl rfl rfl

theorem execSysParamCommit_keeps {z : State} (p : Part) (tag : Nat) (s : State) (hk : Keeps z s) :
    KeepsOut z (execSysParamCommit p tag s) := by
  unfold execSysParamCommit
  try dsimp only
  repeat' first | split | (intro _; try dsimp only) | with_reducible first | apply KeepsOut.next | assumption | apply State.command_keeps | apply State.commit_keeps | apply State.complete_keeps | apply State.refuseCmd_keeps | refine Keeps.of_mk ?_ rfl rfl rfl

theorem execSysParamDiscard_keeps {z : State} (p : Part) (tag : Nat) (s : State) (hk : Keeps z s) :
    KeepsOut z (execSysParamDiscard p tag s) := by
  unfold execSysParamDiscard
  try dsimp only
  repeat' first | split | (intro _; try dsimp only) | with_reducible first | apply KeepsOut.next | assumption | apply State.command_keeps | apply State.complete_keeps | apply State.updFn_keeps | refine Keeps.of_mk ?_ rfl rfl rfl

theorem execSysResetPartition_keeps {z : State} (p : Part) (tag : Nat) (target : Part) (s : State) (hk : Keeps z s) :
    KeepsOut z (execSysResetPartition p tag target s) := by
  unfold execSysResetPartition
  try dsimp only
  repeat' first | split | (intro _; try dsimp only) | with_reducible first | apply KeepsOut.next | assumption | apply State.command_keeps | apply State.complete_keeps | apply State.requestPart_keeps | apply State.updFn_keeps | refine Keeps.of_mk ?_ rfl rfl rfl

theorem execSysResetModule_keeps {z : State} (p : Part) (tag : Nat) (s : State) (hk : Keeps z s) :
    KeepsOut z (execSysResetModule p tag s) := by
  unfold execSysResetModule
  try dsimp only
  repeat' first | split | (intro _; try dsimp only) | with_reducible first | apply KeepsOut.next | assumption | apply State.command_keeps | apply State.requestReset_keeps | refine Keeps.of_mk ?_ rfl rfl rfl

theorem execSysServiceUnlock_keeps {z : State} (p : Part) (tag : Nat) (seconds : Nat) (s : State) (hk : Keeps z s) :
    KeepsOut z (execSysServiceUnlock p tag seconds s) := by
  unfold execSysServiceUnlock
  try dsimp only
  repeat' first | split | (intro _; try dsimp only) | with_reducible first | apply KeepsOut.next | assumption | apply State.command_keeps | apply State.complete_keeps | apply State.svcEvent_keeps | refine Keeps.of_mk ?_ rfl rfl rfl

/-! ## VeCmds -/

theorem execVeImageLoad_keeps {z : State} (p : Part) (tag : Nat) (image : Image) (s : State) (hk : Keeps z s) :
    KeepsOut z (execVeImageLoad p tag image s) := by
  unfold execVeImageLoad
  try dsimp only
  repeat' first | split | (intro _; try dsimp only) | with_reducible first | apply KeepsOut.next | assumption | apply State.command_keeps | apply State.complete_keeps | apply State.leaveLow_keeps | apply State.putImage_keeps | refine Keeps.of_mk ?_ rfl rfl rfl

theorem execImageLoadDone_keeps {z : State} (p : Part) (h : Handle) (s : State) (hk : Keeps z s) :
    KeepsOut z (execImageLoadDone p h s) := by
  unfold execImageLoadDone
  try dsimp only
  repeat' first | split | (intro _; try dsimp only) | with_reducible first | apply KeepsOut.next | assumption | apply State.complete_keeps | apply State.delImage_keeps | apply State.putImage_keeps | apply State.refuseCmd_keeps | refine Keeps.of_mk ?_ rfl rfl rfl

theorem execVeImageUnload_keeps {z : State} (p : Part) (tag : Nat) (handle : Nat) (s : State) (hk : Keeps z s) :
    KeepsOut z (execVeImageUnload p tag handle s) := by
  unfold execVeImageUnload
  try dsimp only
  repeat' first | split | (intro _; try dsimp only) | with_reducible first | apply KeepsOut.next | assumption | apply State.command_keeps | apply State.complete_keeps | apply State.delImage_keeps | refine Keeps.of_mk ?_ rfl rfl rfl

theorem execVeImageInfo_keeps {z : State} (p : Part) (tag : Nat) (handle entry : Nat) (s : State) (hk : Keeps z s) :
    KeepsOut z (execVeImageInfo p tag handle entry s) := by
  unfold execVeImageInfo
  try dsimp only
  repeat' first | split | (intro _; try dsimp only) | with_reducible first | apply KeepsOut.next | assumption | apply State.command_keeps | apply State.complete_keeps | refine Keeps.of_mk ?_ rfl rfl rfl

theorem State.ucodeDone_keeps {z : State} (s : State) (hk : Keeps z s) :
    Keeps z (State.ucodeDone s) := by
  unfold State.ucodeDone
  try dsimp only
  repeat' first | split | (intro _; try dsimp only) | with_reducible first | assumption | apply State.complete_keeps | refine Keeps.of_mk ?_ rfl rfl rfl

theorem execVeUcodeLoad_keeps {z : State} (p : Part) (tag : Nat) (verified : Bool) (image : UImage) (s : State) (hk : Keeps z s) :
    KeepsOut z (execVeUcodeLoad p tag verified image s) := by
  unfold execVeUcodeLoad
  try dsimp only
  repeat' first | split | (intro _; try dsimp only) | with_reducible first | apply KeepsOut.next | assumption | apply State.command_keeps | apply State.complete_keeps | apply State.event_keeps | apply State.refuseCmd_keeps | apply State.ucodeDone_keeps | refine Keeps.of_mk ?_ rfl rfl rfl

theorem execUcodeEngineLoad_keeps {z : State} (e : Eng) (readBackOk : Bool) (s : State) (hk : Keeps z s) :
    KeepsOut z (execUcodeEngineLoad e readBackOk s) := by
  unfold execUcodeEngineLoad
  try dsimp only
  repeat' first | split | (intro _; try dsimp only) | with_reducible first | apply KeepsOut.next | assumption | apply State.event_keeps | apply State.ucodeDone_keeps | apply State.updEng_keeps | refine Keeps.of_mk ?_ rfl rfl rfl

/-! ## TmgCmds -/

theorem State.stagedDone_keeps {z : State} (s : State) (p : Part) (tag : Nat) (op : BitVec 16) (commit : Bool) (hk : Keeps z s) :
    Keeps z (State.stagedDone s p tag op commit) := by
  unfold State.stagedDone
  try dsimp only
  repeat' first | split | (intro _; try dsimp only) | with_reducible first | assumption | apply State.commit_keeps | apply State.complete_keeps | apply State.refuseCmd_keeps | refine Keeps.of_mk ?_ rfl rfl rfl

theorem execTmgSet_keeps {z : State} (p : Part) (tag : Nat) (recs : List TsRec) (commit : Bool) (s : State) (hk : Keeps z s) :
    KeepsOut z (execTmgSet p tag recs commit s) := by
  unfold execTmgSet
  try dsimp only
  repeat' first | split | (intro _; try dsimp only) | with_reducible first | apply KeepsOut.next | assumption | apply State.command_keeps | apply State.commit_keeps | apply State.stagedDone_keeps | apply State.updFn_keeps | apply Keeps.foldl | apply Keeps.foldl_fst | refine Keeps.of_mk ?_ rfl rfl rfl

theorem execTmgGet_keeps {z : State} (p : Part) (tag : Nat) (group : Grp) (ts : Fin 64) (s : State) (hk : Keeps z s) :
    KeepsOut z (execTmgGet p tag group ts s) := by
  unfold execTmgGet
  try dsimp only
  repeat' first | split | (intro _; try dsimp only) | with_reducible first | apply KeepsOut.next | assumption | apply State.command_keeps | apply State.complete_keeps | refine Keeps.of_mk ?_ rfl rfl rfl

theorem execTmgCheck_keeps {z : State} (p : Part) (tag : Nat) (site : Site) (group : Grp) (sets : BitVec 64) (s : State) (hk : Keeps z s) :
    KeepsOut z (execTmgCheck p tag site group sets s) := by
  unfold execTmgCheck
  try dsimp only
  repeat' first | split | (intro _; try dsimp only) | with_reducible first | apply KeepsOut.next | assumption | apply State.command_keeps | apply State.complete_keeps | refine Keeps.of_mk ?_ rfl rfl rfl

theorem execTmgRateSet_keeps {z : State} (p : Part) (tag : Nat) (rec : RateRec) (commit : Bool) (s : State) (hk : Keeps z s) :
    KeepsOut z (execTmgRateSet p tag rec commit s) := by
  unfold execTmgRateSet
  try dsimp only
  repeat' first | split | (intro _; try dsimp only) | with_reducible first | apply KeepsOut.next | assumption | apply State.command_keeps | apply State.commit_keeps | apply State.stagedDone_keeps | apply State.updFn_keeps | refine Keeps.of_mk ?_ rfl rfl rfl

theorem State.moveLane_keeps {z : State} (s : State) (c a b : Nat) (hk : Keeps z s) :
    Keeps z (State.moveLane s c a b) := by
  unfold State.moveLane
  try dsimp only
  repeat' first | split | (intro _; try dsimp only) | with_reducible first | assumption | apply State.updLane_keeps | refine Keeps.of_mk ?_ rfl rfl rfl

theorem execTmgRemap_keeps {z : State} (p : Part) (tag : Nat) (group : Grp) (pos : Fin 32) (s : State) (hk : Keeps z s) :
    KeepsOut z (execTmgRemap p tag group pos s) := by
  unfold execTmgRemap
  try dsimp only
  repeat' first | split | (intro _; try dsimp only) | with_reducible first | apply KeepsOut.next | assumption | apply State.command_keeps | apply State.complete_keeps | apply State.event_keeps | apply State.moveLane_keeps | apply State.updGrp_keeps | apply State.updLane_keeps | refine Keeps.of_mk ?_ rfl rfl rfl

theorem execTmgUnremap_keeps {z : State} (p : Part) (tag : Nat) (group : Grp) (s : State) (hk : Keeps z s) :
    KeepsOut z (execTmgUnremap p tag group s) := by
  unfold execTmgUnremap
  try dsimp only
  repeat' first | split | (intro _; try dsimp only) | with_reducible first | apply KeepsOut.next | assumption | apply State.command_keeps | apply State.complete_keeps | apply State.event_keeps | apply State.moveLane_keeps | apply State.updGrp_keeps | apply State.updLane_keeps | refine Keeps.of_mk ?_ rfl rfl rfl

/-! ## DpsCmds -/

theorem execDpsSeqSet_keeps {z : State} (p : Part) (tag : Nat) (rec : SeqRec) (s : State) (hk : Keeps z s) :
    KeepsOut z (execDpsSeqSet p tag rec s) := by
  unfold execDpsSeqSet
  try dsimp only
  repeat' first | split | (intro _; try dsimp only) | with_reducible first | apply KeepsOut.next | assumption | apply State.command_keeps | apply State.complete_keeps | apply State.updSite_keeps | refine Keeps.of_mk ?_ rfl rfl rfl

theorem execDpsPowerUp_keeps {z : State} (p : Part) (tag : Nat) (site : Site) (s : State) (hk : Keeps z s) :
    KeepsOut z (execDpsPowerUp p tag site s) := by
  unfold execDpsPowerUp
  try dsimp only
  repeat' first | split | (intro _; try dsimp only) | with_reducible first | apply KeepsOut.next | assumption | apply State.command_keeps | apply State.complete_keeps | apply State.updSite_keeps | refine Keeps.of_mk ?_ rfl rfl rfl

theorem execDpsPowerDown_keeps {z : State} (p : Part) (tag : Nat) (site : Site) (s : State) (hk : Keeps z s) :
    KeepsOut z (execDpsPowerDown p tag site s) := by
  unfold execDpsPowerDown
  try dsimp only
  repeat' first | split | (intro _; try dsimp only) | with_reducible first | apply KeepsOut.next | assumption | apply State.command_keeps | apply State.complete_keeps | apply State.downStep_keeps | apply State.updSite_keeps | refine Keeps.of_mk ?_ rfl rfl rfl

/-! ## CapCmds -/

theorem State.writeBytes_keeps {z : State} (s : State) (p a : Nat) (bs : List (BitVec 8)) (hk : Keeps z s) :
    Keeps z (State.writeBytes s p a bs) := by
  unfold State.writeBytes
  try dsimp only
  repeat' first | split | (intro _; try dsimp only) | with_reducible first | assumption | apply State.writeHbm_keeps | apply Keeps.foldl | apply Keeps.foldl_fst | refine Keeps.of_mk ?_ rfl rfl rfl

theorem State.startXfer_keeps {z : State} (s : State) (p : Part) (tag : Nat) (op : BitVec 16) (addr : Nat) (data : List Int) (write : Option (Nat × List (BitVec 8))) (reads : List (Nat × Nat)) (hk : Keeps z s) :
    Keeps z (State.startXfer s p tag op addr data write reads) := by
  unfold State.startXfer
  try dsimp only
  repeat' first | split | (intro _; try dsimp only) | with_reducible first | assumption | apply State.complete_keeps | apply State.leaveLow_keeps | refine Keeps.of_mk ?_ rfl rfl rfl

theorem State.putXfer_keeps {z : State} (s : State) (x : Xfer) (hk : Keeps z s) :
    Keeps z (State.putXfer s x) := by
  unfold State.putXfer
  try dsimp only
  repeat' first | split | (intro _; try dsimp only) | with_reducible first | assumption | apply State.writeBytes_keeps | refine Keeps.of_mk ?_ rfl rfl rfl

theorem State.endXfer_keeps {z : State} (s : State) (x : Xfer) (hk : Keeps z s) :
    Keeps z (State.endXfer s x) := by
  unfold State.endXfer
  try dsimp only
  repeat' first | split | (intro _; try dsimp only) | with_reducible first | assumption | apply State.complete_keeps | refine Keeps.of_mk ?_ rfl rfl rfl

theorem execHostTransferDone_keeps {z : State} (p : Part) (tag : Nat) (how : XferEnd) (s : State) (hk : Keeps z s) :
    KeepsOut z (execHostTransferDone p tag how s) := by
  unfold execHostTransferDone
  try dsimp only
  repeat' first | split | (intro _; try dsimp only) | with_reducible first | apply KeepsOut.next | assumption | apply State.complete_keeps | apply State.dmaFail_keeps | apply State.endXfer_keeps | apply State.putXfer_keeps | apply State.spoil_keeps | apply Keeps.foldl | apply Keeps.foldl_fst | refine Keeps.of_mk ?_ rfl rfl rfl

theorem execCapLogRead_keeps {z : State} (p : Part) (tag : Nat) (site : Site) (first count : Nat) (s : State) (hk : Keeps z s) :
    KeepsOut z (execCapLogRead p tag site first count s) := by
  unfold execCapLogRead
  try dsimp only
  repeat' first | split | (intro _; try dsimp only) | with_reducible first | apply KeepsOut.next | assumption | apply State.command_keeps | apply State.startXfer_keeps | refine Keeps.of_mk ?_ rfl rfl rfl

theorem execCapLogRelease_keeps {z : State} (p : Part) (tag : Nat) (site : Site) (s : State) (hk : Keeps z s) :
    KeepsOut z (execCapLogRelease p tag site s) := by
  unfold execCapLogRelease
  try dsimp only
  repeat' first | split | (intro _; try dsimp only) | with_reducible first | apply KeepsOut.next | assumption | apply State.command_keeps | apply State.complete_keeps | apply State.updSite_keeps | refine Keeps.of_mk ?_ rfl rfl rfl

theorem execCapCaptureRead_keeps {z : State} (p : Part) (tag : Nat) (u : Cu) (first count : Nat) (s : State) (hk : Keeps z s) :
    KeepsOut z (execCapCaptureRead p tag u first count s) := by
  unfold execCapCaptureRead
  try dsimp only
  repeat' first | split | (intro _; try dsimp only) | with_reducible first | apply KeepsOut.next | assumption | apply State.command_keeps | apply State.drawFree_keeps | apply State.startXfer_keeps | refine Keeps.of_mk ?_ rfl rfl rfl

theorem execCapTrigger_keeps {z : State} (p : Part) (tag : Nat) (t : Trg) (s : State) (hk : Keeps z s) :
    KeepsOut z (execCapTrigger p tag t s) := by
  unfold execCapTrigger
  try dsimp only
  repeat' first | split | (intro _; try dsimp only) | with_reducible first | apply KeepsOut.next | assumption | apply State.command_keeps | apply State.complete_keeps | apply State.occurAt_keeps | refine Keeps.of_mk ?_ rfl rfl rfl

theorem execCapStreamOpen_keeps {z : State} (p : Part) (tag : Nat) (desc : StreamDesc) (s : State) (hk : Keeps z s) :
    KeepsOut z (execCapStreamOpen p tag desc s) := by
  unfold execCapStreamOpen
  try dsimp only
  repeat' first | split | (intro _; try dsimp only) | with_reducible first | apply KeepsOut.next | assumption | apply State.command_keeps | apply State.complete_keeps | apply State.updHs_keeps | refine Keeps.of_mk ?_ rfl rfl rfl

theorem execCapStreamClose_keeps {z : State} (p : Part) (tag : Nat) (h : Hs) (s : State) (hk : Keeps z s) :
    KeepsOut z (execCapStreamClose p tag h s) := by
  unfold execCapStreamClose
  try dsimp only
  repeat' first | split | (intro _; try dsimp only) | with_reducible first | apply KeepsOut.next | assumption | apply State.command_keeps | apply State.complete_keeps | apply State.streamWrite_keeps | apply State.updHs_keeps | refine Keeps.of_mk ?_ rfl rfl rfl

/-! ## TmuCmds -/

theorem execTmuArm_keeps {z : State} (p : Part) (tag : Nat) (m : MSet) (ref : Nat) (s : State) (hk : Keeps z s) :
    KeepsOut z (execTmuArm p tag m ref s) := by
  unfold execTmuArm
  try dsimp only
  repeat' first | split | (intro _; try dsimp only) | with_reducible first | apply KeepsOut.next | assumption | apply State.armSet_keeps | apply State.command_keeps | apply State.complete_keeps | refine Keeps.of_mk ?_ rfl rfl rfl

theorem execTmuDisarm_keeps {z : State} (p : Part) (tag : Nat) (m : MSet) (s : State) (hk : Keeps z s) :
    KeepsOut z (execTmuDisarm p tag m s) := by
  unfold execTmuDisarm
  try dsimp only
  repeat' first | split | (intro _; try dsimp only) | with_reducible first | apply KeepsOut.next | assumption | apply State.command_keeps | apply State.complete_keeps | apply State.disarmSet_keeps | refine Keeps.of_mk ?_ rfl rfl rfl

theorem execTmuResult_keeps {z : State} (p : Part) (tag : Nat) (m : MSet) (s : State) (hk : Keeps z s) :
    KeepsOut z (execTmuResult p tag m s) := by
  unfold execTmuResult
  try dsimp only
  repeat' first | split | (intro _; try dsimp only) | with_reducible first | apply KeepsOut.next | assumption | apply State.command_keeps | apply State.complete_keeps | refine Keeps.of_mk ?_ rfl rfl rfl

theorem execPadcConvert_keeps {z : State} (p : Part) (tag : Nat) (c : Conv) (s : State) (hk : Keeps z s) :
    KeepsOut z (execPadcConvert p tag c s) := by
  unfold execPadcConvert
  try dsimp only
  repeat' first | split | (intro _; try dsimp only) | with_reducible first | apply KeepsOut.next | assumption | apply State.command_keeps | apply State.complete_keeps | apply State.startSingle_keeps | apply State.updPadc_keeps | refine Keeps.of_mk ?_ rfl rfl rfl

theorem execPadcSelfcal_keeps {z : State} (p : Part) (tag : Nat) (c : Conv) (s : State) (hk : Keeps z s) :
    KeepsOut z (execPadcSelfcal p tag c s) := by
  unfold execPadcSelfcal
  try dsimp only
  repeat' first | split | (intro _; try dsimp only) | with_reducible first | apply KeepsOut.next | assumption | apply State.askCal_keeps | apply State.command_keeps | apply State.complete_keeps | apply State.runCal_keeps | apply State.updPadc_keeps | refine Keeps.of_mk ?_ rfl rfl rfl

/-! ## SchCmds -/

theorem execSchSiteDefine_keeps {z : State} (p : Part) (tag : Nat) (rec : SiteRec) (s : State) (hk : Keeps z s) :
    KeepsOut z (execSchSiteDefine p tag rec s) := by
  unfold execSchSiteDefine
  try dsimp only
  repeat' first | split | (intro _; try dsimp only) | with_reducible first | apply KeepsOut.next | assumption | apply State.command_keeps | apply State.complete_keeps | apply State.updSite_keeps | refine Keeps.of_mk ?_ rfl rfl rfl

theorem execSchSubmit_keeps {z : State} (p : Part) (tag : Nat) (desc : TaskDesc) (s : State) (hk : Keeps z s) :
    KeepsOut z (execSchSubmit p tag desc s) := by
  unfold execSchSubmit
  try dsimp only
  repeat' first | split | (intro _; try dsimp only) | with_reducible first | apply KeepsOut.next | assumption | apply State.command_keeps | apply State.complete_keeps | apply State.putTask_keeps | apply State.wake_keeps | refine Keeps.of_mk ?_ rfl rfl rfl

theorem State.abortOf_keeps {z : State} (s : State) (what : AbortOf) (hk : Keeps z s) : Keeps z (s.abortOf what) := by
  unfold State.abortOf
  split
  · exact State.abortTask_keeps _ _ hk
  · exact State.abortAll_keeps _ _ _ hk
  · exact State.abortAll_keeps _ _ _ hk

theorem execSchAbort_keeps {z : State} (p : Part) (tag : Nat) (what : AbortOf) (s : State) (hk : Keeps z s) :
    KeepsOut z (execSchAbort p tag what s) := by
  unfold execSchAbort
  try dsimp only
  repeat' first | split | (intro _; try dsimp only) | with_reducible first | apply KeepsOut.next | assumption | apply State.abortOf_keeps | apply State.command_keeps | apply State.complete_keeps | refine Keeps.of_mk ?_ rfl rfl rfl

theorem execSchTaskInfo_keeps {z : State} (p : Part) (tag : Nat) (i : TaskIx) (s : State) (hk : Keeps z s) :
    KeepsOut z (execSchTaskInfo p tag i s) := by
  unfold execSchTaskInfo
  try dsimp only
  repeat' first | split | (intro _; try dsimp only) | with_reducible first | apply KeepsOut.next | assumption | apply State.command_keeps | apply State.complete_keeps | refine Keeps.of_mk ?_ rfl rfl rfl

theorem execSchToken_keeps {z : State} (p : Part) (tag : Nat) (slot : Slot) (node : Nat) (remote : Bool) (s : State) (hk : Keeps z s) :
    KeepsOut z (execSchToken p tag slot node remote s) := by
  unfold execSchToken
  try dsimp only
  repeat' first | split | (intro _; try dsimp only) | with_reducible first | apply KeepsOut.next | assumption | apply State.command_keeps | apply State.complete_keeps | apply State.issueTok_keeps | apply State.remote_keeps | apply State.sendC1_keeps | refine Keeps.of_mk ?_ rfl rfl rfl

theorem execSchTokenClear_keeps {z : State} (p : Part) (tag : Nat) (slot : Slot) (all : Bool) (s : State) (hk : Keeps z s) :
    KeepsOut z (execSchTokenClear p tag slot all s) := by
  unfold execSchTokenClear
  try dsimp only
  repeat' first | split | (intro _; try dsimp only) | with_reducible first | apply KeepsOut.next | assumption | apply State.command_keeps | apply State.complete_keeps | refine Keeps.of_mk ?_ rfl rfl rfl

theorem execMsParity_keeps {z : State} (i : TaskIx) (s : State) (hk : Keeps z s) :
    KeepsOut z (execMsParity i s) := by
  unfold execMsParity
  try dsimp only
  repeat' first | split | (intro _; try dsimp only) | with_reducible first | apply KeepsOut.next | assumption | apply State.endTask_keeps | apply State.event_keeps | refine Keeps.of_mk ?_ rfl rfl rfl

/-! ## MemCmds -/

theorem State.touched_keeps {z : State} (s : State) (p : Nat) (hk : Keeps z s) : Keeps z (s.touched p).2 := by
  unfold State.touched
  dsimp only
  split
  · exact hk
  · exact State.drawFree_keeps _ hk

theorem State.memMove_keeps {z : State} (s : State) (p : Part) (tag : Nat) (op : BitVec 16) (addr len : Nat)
    (data : List Int) (write : Option (Nat × List (BitVec 8))) (reads : List (Nat × Nat)) (hk : Keeps z s) :
    Keeps z (State.memMove s p tag op addr len data write reads) := by
  have h2 := State.touched_keeps s p.val hk
  unfold State.memMove
  split
  · rename_i e
    rw [e] at h2
    exact State.refuseCmd_keeps _ _ _ _ _ _ h2
  · rename_i e
    rw [e] at h2
    split
    · exact State.refuseCmd_keeps _ _ _ _ _ _ h2
    · exact State.startXfer_keeps _ _ _ _ _ _ _ _ h2

theorem execMemWrite_keeps {z : State} (p : Part) (tag : Nat) (addr : Nat) (bytes : List (BitVec 8)) (s : State) (hk : Keeps z s) :
    KeepsOut z (execMemWrite p tag addr bytes s) := by
  unfold execMemWrite
  try dsimp only
  repeat' first | split | (intro _; try dsimp only) | with_reducible first | apply KeepsOut.next | assumption | apply State.command_keeps | apply State.memMove_keeps | refine Keeps.of_mk ?_ rfl rfl rfl

theorem execMemRead_keeps {z : State} (p : Part) (tag : Nat) (addr len : Nat) (s : State) (hk : Keeps z s) :
    KeepsOut z (execMemRead p tag addr len s) := by
  unfold execMemRead
  try dsimp only
  repeat' first | split | (intro _; try dsimp only) | with_reducible first | apply KeepsOut.next | assumption | apply State.command_keeps | apply State.memMove_keeps | refine Keeps.of_mk ?_ rfl rfl rfl

theorem execMemFence_keeps {z : State} (p : Part) (tag : Nat) (m : Mc) (s : State) (hk : Keeps z s) :
    KeepsOut z (execMemFence p tag m s) := by
  unfold execMemFence
  try dsimp only
  repeat' first | split | (intro _; try dsimp only) | with_reducible first | apply KeepsOut.next | assumption | apply State.channelEvent_keeps | apply State.command_keeps | apply State.complete_keeps | refine Keeps.of_mk ?_ rfl rfl rfl

theorem State.remapPart_keeps {z : State} (s : State) (t : Nat) (hk : Keeps z s) :
    Keeps z (State.remapPart s t) := by
  unfold State.remapPart
  try dsimp only
  repeat' first | split | (intro _; try dsimp only) | with_reducible first | assumption | apply State.loseDead_keeps | apply State.rewrite_keeps | refine Keeps.of_mk ?_ rfl rfl rfl | refine Keeps.clear_mk ?_ rfl rfl rfl

theorem execMemRemap_keeps {z : State} (p : Part) (tag : Nat) (target : Part) (s : State) (hk : Keeps z s) :
    KeepsOut z (execMemRemap p tag target s) := by
  unfold execMemRemap
  try dsimp only
  repeat' first | split | (intro _; try dsimp only) | with_reducible first | apply KeepsOut.next | assumption | apply State.command_keeps | apply State.complete_keeps | apply State.remapPart_keeps | refine Keeps.of_mk ?_ rfl rfl rfl

theorem execMemRepair_keeps {z : State} (p : Part) (tag : Nat) (m : Option Mc) (s : State) (hk : Keeps z s) :
    KeepsOut z (execMemRepair p tag m s) := by
  unfold execMemRepair
  try dsimp only
  repeat' first | split | (intro _; try dsimp only) | with_reducible first | apply KeepsOut.next | assumption | apply State.command_keeps | apply State.complete_keeps | apply State.updMc_keeps | apply Keeps.foldl | apply Keeps.foldl_fst | refine Keeps.of_mk ?_ rfl rfl rfl

/-! ## NglCmds -/

theorem State.applyConfig_keeps {z : State} (s : State) (hk : Keeps z s) :
    Keeps z (State.applyConfig s) := by
  unfold State.applyConfig
  try dsimp only
  repeat' first | split | (intro _; try dsimp only) | with_reducible first | assumption | apply State.applyVal_keeps | apply Keeps.foldl | apply Keeps.foldl_fst | refine Keeps.of_mk ?_ rfl rfl rfl

theorem State.configPorts_keeps {z : State} (s : State) (hk : Keeps z s) :
    Keeps z (State.configPorts s) := by
  unfold State.configPorts
  try dsimp only
  repeat' first | split | (intro _; try dsimp only) | with_reducible first | assumption | apply State.attempt_keeps | apply State.retrainDoneCmd_keeps | apply State.updPort_keeps | apply State.updSlane_keeps | apply Keeps.foldl | apply Keeps.foldl_fst | refine Keeps.of_mk ?_ rfl rfl rfl

theorem State.rejoin_keeps {z : State} (s : State) (hk : Keeps z s) :
    Keeps z (State.rejoin s) := by
  unfold State.rejoin
  try dsimp only
  repeat' first | split | (intro _; try dsimp only) | with_reducible first | assumption | apply State.setLock_keeps | apply State.setOsc_keeps | refine Keeps.of_mk ?_ rfl rfl rfl

theorem execNglConfig_keeps {z : State} (p : Part) (tag : Nat) (s : State) (hk : Keeps z s) :
    KeepsOut z (execNglConfig p tag s) := by
  unfold execNglConfig
  try dsimp only
  repeat' first | split | (intro _; try dsimp only) | with_reducible first | apply KeepsOut.next | assumption | apply State.applyConfig_keeps | apply State.command_keeps | apply State.complete_keeps | apply State.configPorts_keeps | apply State.rejoin_keeps | refine Keeps.of_mk ?_ rfl rfl rfl

theorem execNglTrigger_keeps {z : State} (p : Part) (tag : Nat) (number : NTrg) (lead : Bool) (time : Nat) (s : State) (hk : Keeps z s) :
    KeepsOut z (execNglTrigger p tag number lead time s) := by
  unfold execNglTrigger
  try dsimp only
  repeat' first | split | (intro _; try dsimp only) | with_reducible first | apply KeepsOut.next | assumption | apply State.command_keeps | apply State.complete_keeps | apply State.sendTrig_keeps | refine Keeps.of_mk ?_ rfl rfl rfl

theorem execNglStop_keeps {z : State} (p : Part) (tag : Nat) (linkId : Nat) (all : Bool) (result reason : Nat) (s : State) (hk : Keeps z s) :
    KeepsOut z (execNglStop p tag linkId all result reason s) := by
  unfold execNglStop
  try dsimp only
  repeat' first | split | (intro _; try dsimp only) | with_reducible first | apply KeepsOut.next | assumption | apply State.broadcast_keeps | apply State.command_keeps | apply State.complete_keeps | apply State.queueC0_keeps | apply State.stopAct_keeps | refine Keeps.of_mk ?_ rfl rfl rfl

theorem execNglTimeLabel_keeps {z : State} (p : Part) (tag : Nat) (seconds : Nat) (s : State) (hk : Keeps z s) :
    KeepsOut z (execNglTimeLabel p tag seconds s) := by
  unfold execNglTimeLabel
  try dsimp only
  repeat' first | split | (intro _; try dsimp only) | with_reducible first | apply KeepsOut.next | assumption | apply State.broadcast_keeps | apply State.command_keeps | apply State.complete_keeps | apply State.drawFree_keeps | apply State.label_keeps | apply State.queueC1_keeps | refine Keeps.of_mk ?_ rfl rfl rfl

theorem execNglChime_keeps {z : State} (p : Part) (tag : Nat) (rec : ChimeRec) (s : State) (hk : Keeps z s) :
    KeepsOut z (execNglChime p tag rec s) := by
  unfold execNglChime
  try dsimp only
  repeat' first | split | (intro _; try dsimp only) | with_reducible first | apply KeepsOut.next | assumption | apply State.command_keeps | apply State.complete_keeps | apply State.updChime_keeps | refine Keeps.of_mk ?_ rfl rfl rfl

theorem execNglLaneScan_keeps {z : State} (p : Part) (tag : Nat) (desc : ScanDesc) (s : State) (hk : Keeps z s) :
    KeepsOut z (execNglLaneScan p tag desc s) := by
  unfold execNglLaneScan
  try dsimp only
  repeat' first | split | (intro _; try dsimp only) | with_reducible first | apply KeepsOut.next | assumption | apply State.command_keeps | apply State.complete_keeps | apply State.updSlane_keeps | refine Keeps.of_mk ?_ rfl rfl rfl

theorem execNglPrbs_keeps {z : State} (p : Part) (tag : Nat) (lane pattern mode inject : Nat) (s : State) (hk : Keeps z s) :
    KeepsOut z (execNglPrbs p tag lane pattern mode inject s) := by
  unfold execNglPrbs
  try dsimp only
  repeat' first | split | (intro _; try dsimp only) | with_reducible first | apply KeepsOut.next | assumption | apply State.command_keeps | apply State.complete_keeps | apply State.pattern_keeps | apply State.updPort_keeps | apply State.updSlane_keeps | refine Keeps.of_mk ?_ rfl rfl rfl

theorem execNglLaneRetrain_keeps {z : State} (p : Part) (tag : Nat) (lane : Nat) (s : State) (hk : Keeps z s) :
    KeepsOut z (execNglLaneRetrain p tag lane s) := by
  unfold execNglLaneRetrain
  try dsimp only
  repeat' first | split | (intro _; try dsimp only) | with_reducible first | apply KeepsOut.next | assumption | apply State.command_keeps | apply State.complete_keeps | apply State.retrainPort_keeps | apply State.updPort_keeps | apply State.wakeB_keeps | refine Keeps.of_mk ?_ rfl rfl rfl

/-! ## SupCmds -/

theorem State.setPages_keeps {z : State} (s : State) (p n : Nat) (hk : Keeps z s) :
    Keeps z (State.setPages s p n) := by
  unfold State.setPages
  try dsimp only
  repeat' first | split | (intro _; try dsimp only) | with_reducible first | assumption | apply State.loseDead_keeps | apply State.rewrite_keeps | refine Keeps.of_mk ?_ rfl rfl rfl | refine Keeps.clear_mk ?_ rfl rfl rfl

theorem State.setPart_keeps {z : State} (s : State) (r : PartRec) (hk : Keeps z s) :
    Keeps z (State.setPart s r) := by
  unfold State.setPart
  try dsimp only
  repeat' first | split | (intro _; try dsimp only) | with_reducible first | assumption | apply State.setPages_keeps | refine Keeps.of_mk ?_ rfl rfl rfl

theorem State.tableEvents_keeps {z : State} (s t : State) (hk : Keeps z t) : Keeps z (s.tableEvents t) := by
  unfold State.tableEvents
  try dsimp only
  repeat' first | (intro _; try dsimp only) | with_reducible assumption | with_reducible apply State.event_keeps | with_reducible apply Keeps.foldl | split

theorem execSupPartSet_keeps {z : State} (p : Part) (tag : Nat) (rec : PartRec) (s : State) (hk : Keeps z s) :
    KeepsOut z (execSupPartSet p tag rec s) := by
  unfold execSupPartSet
  try dsimp only
  repeat' first | split | (intro _; try dsimp only) | with_reducible first | apply KeepsOut.next | assumption | apply State.command_keeps | apply State.complete_keeps | apply State.setPart_keeps | apply State.tableEvents_keeps | apply State.tableEvents_keeps | refine Keeps.of_mk ?_ rfl rfl rfl

theorem execSupPartGet_keeps {z : State} (p : Part) (tag : Nat) (target : Part) (s : State) (hk : Keeps z s) :
    KeepsOut z (execSupPartGet p tag target s) := by
  unfold execSupPartGet
  try dsimp only
  repeat' first | split | (intro _; try dsimp only) | with_reducible first | apply KeepsOut.next | assumption | apply State.command_keeps | apply State.complete_keeps | refine Keeps.of_mk ?_ rfl rfl rfl

theorem execSupFwLoad_keeps {z : State} (p : Part) (tag : Nat) (verified : Bool) (image : FwImage) (minHandover : Nat) (s : State) (hk : Keeps z s) :
    KeepsOut z (execSupFwLoad p tag verified image minHandover s) := by
  unfold execSupFwLoad
  try dsimp only
  repeat' first | split | (intro _; try dsimp only) | with_reducible first | apply KeepsOut.next | assumption | apply State.command_keeps | apply State.complete_keeps | apply State.event_keeps | apply State.refuseCmd_keeps | refine Keeps.of_mk ?_ rfl rfl rfl

theorem execSupFwHandover_keeps {z : State} (p : Part) (tag : Nat) (s : State) (hk : Keeps z s) :
    KeepsOut z (execSupFwHandover p tag s) := by
  unfold execSupFwHandover
  try dsimp only
  repeat' first | split | (intro _; try dsimp only) | with_reducible first | apply KeepsOut.next | assumption | apply State.command_keeps | apply State.complete_keeps | apply State.event_keeps | refine Keeps.of_mk ?_ rfl rfl rfl

theorem execHandoverDrainDone_keeps {z : State} (s : State) (hk : Keeps z s) :
    KeepsOut z (execHandoverDrainDone s) := by
  unfold execHandoverDrainDone
  try dsimp only
  repeat' first | split | (intro _; try dsimp only) | with_reducible first | apply KeepsOut.next | assumption | refine Keeps.of_mk ?_ rfl rfl rfl

theorem State.endHandover_keeps {z : State} (s : State) (st : Status) (words : List Nat) (hk : Keeps z s) :
    Keeps z (State.endHandover s st words) := by
  unfold State.endHandover
  try dsimp only
  repeat' first | split | (intro _; try dsimp only) | with_reducible first | assumption | apply State.complete_keeps | refine Keeps.of_mk ?_ rfl rfl rfl

theorem State.resumeFw_keeps {z : State} (s : State) (hk : Keeps z s) :
    Keeps z (State.resumeFw s) := by
  unfold State.resumeFw
  try dsimp only
  repeat' first | split | (intro _; try dsimp only) | with_reducible first | assumption | apply State.deliver_keeps | apply State.drainEvts_keeps | apply State.flushCpl_keeps | apply State.updFn_keeps | apply Keeps.foldl | apply Keeps.foldl_fst | refine Keeps.of_mk ?_ rfl rfl rfl

theorem execHandoverDrainTimeout_keeps {z : State} (s : State) (hk : Keeps z s) :
    KeepsOut z (execHandoverDrainTimeout s) := by
  unfold execHandoverDrainTimeout
  try dsimp only
  repeat' first | split | (intro _; try dsimp only) | with_reducible first | apply KeepsOut.next | assumption | apply State.endHandover_keeps | apply State.event_keeps | apply State.moveTo_keeps | apply State.resumeFw_keeps | refine Keeps.of_mk ?_ rfl rfl rfl

theorem execHandoverResume_keeps {z : State} (us : Nat) (s : State) (hk : Keeps z s) :
    KeepsOut z (execHandoverResume us s) := by
  unfold execHandoverResume
  try dsimp only
  repeat' first | split | (intro _; try dsimp only) | with_reducible first | apply KeepsOut.next | assumption | apply State.endHandover_keeps | apply State.event_keeps | apply State.moveTo_keeps | apply State.resumeFw_keeps | refine Keeps.of_mk ?_ rfl rfl rfl

theorem execHandoverRevert_keeps {z : State} (s : State) (hk : Keeps z s) :
    KeepsOut z (execHandoverRevert s) := by
  unfold execHandoverRevert
  try dsimp only
  repeat' first | split | (intro _; try dsimp only) | with_reducible first | apply KeepsOut.next | assumption | apply State.endHandover_keeps | apply State.event_keeps | apply State.moveTo_keeps | apply State.resumeFw_keeps | refine Keeps.of_mk ?_ rfl rfl rfl

theorem execHltFwSelect_keeps {z : State} (p : Part) (tag : Nat) (bankB : Bool) (s : State) (hk : Keeps z s) :
    KeepsOut z (execHltFwSelect p tag bankB s) := by
  unfold execHltFwSelect
  try dsimp only
  repeat' first | split | (intro _; try dsimp only) | with_reducible first | apply KeepsOut.next | assumption | apply State.command_keeps | apply State.complete_keeps | refine Keeps.of_mk ?_ rfl rfl rfl

theorem execHltForce_keeps {z : State} (p : Part) (tag : Nat) (source : Nat) (payload : List Nat) (s : State) (hk : Keeps z s) :
    KeepsOut z (execHltForce p tag source payload s) := by
  unfold execHltForce
  try dsimp only
  repeat' first | split | (intro _; try dsimp only) | with_reducible first | apply KeepsOut.next | assumption | apply State.command_keeps | apply State.complete_keeps | apply State.force_keeps | refine Keeps.of_mk ?_ rfl rfl rfl

theorem execHltAlarmAck_keeps {z : State} (p : Part) (tag : Nat) (s : State) (hk : Keeps z s) :
    KeepsOut z (execHltAlarmAck p tag s) := by
  unfold execHltAlarmAck
  try dsimp only
  repeat' first | split | (intro _; try dsimp only) | with_reducible first | apply KeepsOut.next | assumption | apply State.command_keeps | apply State.complete_keeps | refine Keeps.of_mk ?_ rfl rfl rfl

theorem execHltFerrRead_keeps {z : State} (p : Part) (tag : Nat) (block : Nat) (s : State) (hk : Keeps z s) :
    KeepsOut z (execHltFerrRead p tag block s) := by
  unfold execHltFerrRead
  try dsimp only
  repeat' first | split | (intro _; try dsimp only) | with_reducible first | apply KeepsOut.next | assumption | apply State.command_keeps | apply State.complete_keeps | refine Keeps.of_mk ?_ rfl rfl rfl

theorem execHltFerrClear_keeps {z : State} (p : Part) (tag : Nat) (block : Nat) (s : State) (hk : Keeps z s) :
    KeepsOut z (execHltFerrClear p tag block s) := by
  unfold execHltFerrClear
  try dsimp only
  repeat' first | split | (intro _; try dsimp only) | with_reducible first | apply KeepsOut.next | assumption | apply State.command_keeps | apply State.complete_keeps | refine Keeps.of_mk ?_ rfl rfl rfl

theorem execHltUnfence_keeps {z : State} (p : Part) (tag : Nat) (unit : RepairUnit) (s : State) (hk : Keeps z s) :
    KeepsOut z (execHltUnfence p tag unit s) := by
  unfold execHltUnfence
  try dsimp only
  repeat' first | split | (intro _; try dsimp only) | with_reducible first | apply KeepsOut.next | assumption | apply State.command_keeps | apply State.complete_keeps | refine Keeps.of_mk ?_ rfl rfl rfl

theorem State.unfenceEngine_keeps {z : State} (s : State) (e : Nat) (hk : Keeps z s) :
    Keeps z (State.unfenceEngine s e) := by
  unfold State.unfenceEngine
  try dsimp only
  repeat' first | split | (intro _; try dsimp only) | with_reducible first | assumption | apply State.poolEvent_keeps | apply State.updEng_keeps | apply raiseTop_keeps | refine Keeps.of_mk ?_ rfl rfl rfl

theorem State.unfenceLane_keeps {z : State} (s : State) (l : Nat) (hk : Keeps z s) :
    Keeps z (State.unfenceLane s l) := by
  unfold State.unfenceLane
  try dsimp only
  repeat' first | split | (intro _; try dsimp only) | with_reducible first | assumption | apply State.updLane_keeps | refine Keeps.of_mk ?_ rfl rfl rfl

theorem State.unfenceUnit_keeps {z : State} (s : State) (u : RepairUnit) (hk : Keeps z s) :
    Keeps z (s.unfenceUnit u) := by
  unfold State.unfenceUnit
  split
  · exact State.unfenceEngine_keeps _ _ hk
  · exact State.unfenceLane_keeps _ _ hk
  · exact State.updRse_keeps _ _ _ hk
  · exact hk
  · exact hk

theorem execUnfenceSelftestDone_keeps {z : State} (unit : RepairUnit) (ok : Bool) (s : State) (hk : Keeps z s) :
    KeepsOut z (execUnfenceSelftestDone unit ok s) := by
  unfold execUnfenceSelftestDone
  try dsimp only
  repeat' first | split | (intro _; try dsimp only) | with_reducible first | apply KeepsOut.next | assumption | apply State.complete_keeps | apply State.event_keeps | apply State.unfenceUnit_keeps | refine Keeps.of_mk ?_ rfl rfl rfl

/-! ## CalRows -/

theorem execCalRun_keeps {z : State} (p : Part) (tag : Nat) (groups dps : Nat) (s : State) (hk : Keeps z s) :
    KeepsOut z (execCalRun p tag groups dps s) := by
  unfold execCalRun
  try dsimp only
  repeat' first | split | (intro _; try dsimp only) | with_reducible first | apply KeepsOut.next | assumption | apply State.command_keeps | apply State.complete_keeps | refine Keeps.of_mk ?_ rfl rfl rfl

theorem State.calBegin_keeps {z : State} (s : State) (u : CalUnit) (hk : Keeps z s) :
    Keeps z (State.calBegin s u) := by
  unfold State.calBegin
  try dsimp only
  repeat' first | split | (intro _; try dsimp only) | with_reducible first | assumption | apply State.updGrp_keeps | apply State.updLane_keeps | apply Keeps.foldl | apply Keeps.foldl_fst | refine Keeps.of_mk ?_ rfl rfl rfl

theorem State.calStart_keeps {z : State} (s : State) (u : CalUnit) (n : Nat) (hk : Keeps z s) :
    Keeps z (State.calStart s u n) := by
  unfold State.calStart
  try dsimp only
  repeat' first | split | (intro _; try dsimp only) | with_reducible first | assumption | refine Keeps.of_mk ?_ rfl rfl rfl

theorem execCalUnitStart_keeps {z : State} (s : State) (hk : Keeps z s) :
    KeepsOut z (execCalUnitStart s) := by
  unfold execCalUnitStart
  try dsimp only
  repeat' first | split | (intro _; try dsimp only) | with_reducible first | apply KeepsOut.next | assumption | apply State.calBegin_keeps | apply State.calDone_keeps | apply State.calStart_keeps | refine Keeps.of_mk ?_ rfl rfl rfl

theorem State.drawn_keeps {z : State} (s : State) (n : Nat) (hk : Keeps z s) : Keeps z (State.drawn s n) :=
  ⟨hk.pending, hk.wf, Nat.le_trans hk.free (Nat.le_add_right _ _)⟩

theorem State.newLane_keeps {z : State} (s : State) (l : Nat) (hk : Keeps z s) :
    Keeps z (State.newLane s l) := by
  unfold State.newLane
  try dsimp only
  repeat' first | split | (intro _; try dsimp only) | with_reducible first | assumption | apply State.drawn_keeps | apply State.updLane_keeps | refine Keeps.of_mk ?_ rfl rfl rfl

theorem State.newRef_keeps {z : State} (s : State) (c : Nat) (hk : Keeps z s) :
    Keeps z (State.newRef s c) := by
  unfold State.newRef
  try dsimp only
  repeat' first | split | (intro _; try dsimp only) | with_reducible first | assumption | apply State.drawn_keeps | apply State.updPadc_keeps | refine Keeps.of_mk ?_ rfl rfl rfl

theorem State.storeDue_keeps {z : State} (s : State) (hk : Keeps z s) :
    Keeps z (State.storeDue s) := by
  unfold State.storeDue
  try dsimp only
  repeat' first | split | (intro _; try dsimp only) | with_reducible first | assumption | refine Keeps.of_mk ?_ rfl rfl rfl

theorem State.calAccept_keeps {z : State} (s : State) (u : CalUnit) (n : Nat) (hk : Keeps z s) :
    Keeps z (State.calAccept s u n) := by
  unfold State.calAccept
  try dsimp only
  repeat' first | split | (intro _; try dsimp only) | with_reducible first | assumption | apply State.drawn_keeps | apply State.event_keeps | apply State.newLane_keeps | apply State.newRef_keeps | apply State.retarget_keeps | apply State.statZero_keeps | apply State.storeDue_keeps | apply State.updDps_keeps | apply State.updGrp_keeps | apply State.updLane_keeps | apply Keeps.foldl | apply Keeps.foldl_fst | refine Keeps.of_mk ?_ rfl rfl rfl

theorem State.calReject_keeps {z : State} (s : State) (u : CalUnit) (quantity lane : Nat) (hk : Keeps z s) :
    Keeps z (State.calReject s u quantity lane) := by
  unfold State.calReject
  try dsimp only
  repeat' first | split | (intro _; try dsimp only) | with_reducible first | assumption | apply State.event_keeps | apply State.followStale_keeps | apply State.storeDue_keeps | apply State.updDps_keeps | apply State.updGrp_keeps | refine Keeps.of_mk ?_ rfl rfl rfl

theorem State.calFinish_keeps {z : State} (s : State) (u : CalUnit) (how : CalHow) (hk : Keeps z s) :
    Keeps z (State.calFinish s u how) := by
  unfold State.calFinish
  try dsimp only
  repeat' first | split | (intro _; try dsimp only) | with_reducible first | assumption | apply State.calDone_keeps | apply State.calRelease_keeps | refine Keeps.of_mk ?_ rfl rfl rfl

theorem State.calFail_keeps {z : State} (s : State) (u : CalUnit) (n quantity lane : Nat) (hk : Keeps z s) :
    Keeps z (State.calFail s u n quantity lane) := by
  unfold State.calFail
  try dsimp only
  repeat' first | split | (intro _; try dsimp only) | with_reducible first | assumption | apply State.calFinish_keeps | apply State.calReject_keeps | apply State.calStart_keeps | refine Keeps.of_mk ?_ rfl rfl rfl

theorem execCalAttemptEnd_keeps {z : State} (u : CalUnit) (outcome : CalEnd) (s : State) (hk : Keeps z s) :
    KeepsOut z (execCalAttemptEnd u outcome s) := by
  unfold execCalAttemptEnd
  try dsimp only
  repeat' first | split | (intro _; try dsimp only) | with_reducible first | apply KeepsOut.next | assumption | apply State.calAccept_keeps | apply State.calFail_keeps | apply State.calFinish_keeps | apply State.drawFree_keeps | apply State.event_keeps | apply State.moveTo_keeps | refine Keeps.of_mk ?_ rfl rfl rfl

theorem execCalStore_keeps {z : State} (p : Part) (tag : Nat) (s : State) (hk : Keeps z s) :
    KeepsOut z (execCalStore p tag s) := by
  unfold execCalStore
  try dsimp only
  repeat' first | split | (intro _; try dsimp only) | with_reducible first | apply KeepsOut.next | assumption | apply State.command_keeps | apply State.complete_keeps | apply State.startStore_keeps | refine Keeps.of_mk ?_ rfl rfl rfl

theorem execStoreIntervalExpiry_keeps {z : State} (s : State) (hk : Keeps z s) :
    KeepsOut z (execStoreIntervalExpiry s) := by
  unfold execStoreIntervalExpiry
  try dsimp only
  repeat' first | split | (intro _; try dsimp only) | with_reducible first | apply KeepsOut.next | assumption | apply State.moveTo_keeps | apply State.startStore_keeps | refine Keeps.of_mk ?_ rfl rfl rfl

theorem State.answerStore_keeps {z : State} (s : State) (hk : Keeps z s) :
    Keeps z (State.answerStore s) := by
  unfold State.answerStore
  try dsimp only
  repeat' first | split | (intro _; try dsimp only) | with_reducible first | assumption | apply State.complete_keeps | apply State.startStore_keeps | apply Keeps.foldl | apply Keeps.foldl_fst | refine Keeps.of_mk ?_ rfl rfl rfl

theorem execStoreStepVerified_keeps {z : State} (ok : Bool) (s : State) (hk : Keeps z s) :
    KeepsOut z (execStoreStepVerified ok s) := by
  unfold execStoreStepVerified
  try dsimp only
  repeat' first | split | (intro _; try dsimp only) | with_reducible first | apply KeepsOut.next | assumption | apply State.answerStore_keeps | apply State.drawFree_keeps | apply State.event_keeps | refine Keeps.of_mk ?_ rfl rfl rfl

theorem execCalStatClear_keeps {z : State} (p : Part) (tag : Nat) (g : Grp) (s : State) (hk : Keeps z s) :
    KeepsOut z (execCalStatClear p tag g s) := by
  unfold execCalStatClear
  try dsimp only
  repeat' first | split | (intro _; try dsimp only) | with_reducible first | apply KeepsOut.next | assumption | apply State.command_keeps | apply State.complete_keeps | apply State.statClears_keeps | apply State.updGrp_keeps | refine Keeps.of_mk ?_ rfl rfl rfl

/-! ## Rudiment -/

theorem State.print_keeps {z : State} (s : State) (o : RudOut) (hk : Keeps z s) :
    Keeps z (State.print s o) := by
  unfold State.print
  try dsimp only
  repeat' first | split | (intro _; try dsimp only) | with_reducible first | assumption | refine Keeps.of_mk ?_ rfl rfl rfl

theorem execHelp_keeps {z : State} (s : State) (hk : Keeps z s) :
    KeepsOut z (execHelp s) := by
  unfold execHelp
  try dsimp only
  repeat' first | split | (intro _; try dsimp only) | with_reducible first | apply KeepsOut.next | assumption | apply State.print_keeps | refine Keeps.of_mk ?_ rfl rfl rfl

theorem State.peekVal_keeps {z : State} (s : State) (id : Nat) (hk : Keeps z s) : Keeps z (s.peekVal id).2 :=
  State.readParam_keeps _ _ _ _ hk

theorem execPeek_keeps {z : State} (id : Nat) (s : State) (hk : Keeps z s) :
    KeepsOut z (execPeek id s) := by
  unfold execPeek
  try dsimp only
  repeat' first | split | (intro _; try dsimp only) | with_reducible first | apply KeepsOut.next | assumption | apply State.peekVal_keeps | apply State.print_keeps | refine Keeps.of_mk ?_ rfl rfl rfl

theorem State.pokeVal_keeps {z : State} (s : State) (id : Nat) (value : Int) (hk : Keeps z s) :
    Keeps z (s.pokeVal id value).2 :=
  State.updFn_keeps _ _ _ (State.setPairs_keeps _ _ _ _ (State.updFn_keeps _ _ _ hk))

theorem execPoke_keeps {z : State} (id : Nat) (value : Int) (s : State) (hk : Keeps z s) :
    KeepsOut z (execPoke id value s) := by
  unfold execPoke
  try dsimp only
  repeat' first | split | (intro _; try dsimp only) | with_reducible first | apply KeepsOut.next | assumption | apply State.event_keeps | apply State.pokeVal_keeps | apply State.print_keeps | refine Keeps.of_mk ?_ rfl rfl rfl

theorem execFaults_keeps {z : State} (s : State) (hk : Keeps z s) :
    KeepsOut z (execFaults s) := by
  unfold execFaults
  try dsimp only
  repeat' first | split | (intro _; try dsimp only) | with_reducible first | apply KeepsOut.next | apply KeepsOut.fault | assumption | apply State.print_keeps | refine Keeps.of_mk ?_ rfl rfl rfl

theorem execTemps_keeps {z : State} (s : State) (hk : Keeps z s) :
    KeepsOut z (execTemps s) := by
  unfold execTemps
  try dsimp only
  repeat' first | split | (intro _; try dsimp only) | with_reducible first | apply KeepsOut.next | assumption | apply State.print_keeps | refine Keeps.of_mk ?_ rfl rfl rfl

theorem execTime_keeps {z : State} (s : State) (hk : Keeps z s) :
    KeepsOut z (execTime s) := by
  unfold execTime
  try dsimp only
  repeat' first | split | (intro _; try dsimp only) | with_reducible first | apply KeepsOut.next | assumption | apply State.print_keeps | refine Keeps.of_mk ?_ rfl rfl rfl

theorem execLanes_keeps {z : State} (s : State) (hk : Keeps z s) :
    KeepsOut z (execLanes s) := by
  unfold execLanes
  try dsimp only
  repeat' first | split | (intro _; try dsimp only) | with_reducible first | apply KeepsOut.next | assumption | apply State.print_keeps | refine Keeps.of_mk ?_ rfl rfl rfl

theorem execFw_keeps {z : State} (s : State) (hk : Keeps z s) :
    KeepsOut z (execFw s) := by
  unfold execFw
  try dsimp only
  repeat' first | split | (intro _; try dsimp only) | with_reducible first | apply KeepsOut.next | assumption | apply State.print_keeps | refine Keeps.of_mk ?_ rfl rfl rfl

theorem execFwSelect_keeps {z : State} (bankB : Bool) (s : State) (hk : Keeps z s) :
    KeepsOut z (execFwSelect bankB s) := by
  unfold execFwSelect
  try dsimp only
  repeat' first | split | (intro _; try dsimp only) | with_reducible first | apply KeepsOut.next | assumption | apply State.print_keeps | refine Keeps.of_mk ?_ rfl rfl rfl

theorem execRudimentReset_keeps {z : State} (s : State) (hk : Keeps z s) :
    KeepsOut z (execRudimentReset s) := by
  unfold execRudimentReset
  try dsimp only
  repeat' first | split | (intro _; try dsimp only) | with_reducible first | apply KeepsOut.next | assumption | apply State.print_keeps | apply State.requestReset_keeps | refine Keeps.of_mk ?_ rfl rfl rfl

end Sys2Proof.Machine
end

