-- ==== Sys2Proof/Laws/Sequencer.lean ====
section
/-!
SUPPORT. The instruction that an engine executes next has its effect: `Fetches`, `Interprets`, `BurstBecomes`.
-/

namespace Sys2Proof

open Sys2Proof.Machine

/-- The instruction that an engine executes next has its effect. -/
theorem pattern_acts {s : State} {e : Eng} {i : Instr} {b : Burst} {m : ImgSt} (h : Fetches s e i b m)
    (f : Burst → ImgSt → State → State) : s.pattern e i f = movedOn (f b m (noted s e b.ip)) e m b.ip := by
  obtain ⟨h1, h2, h3, h4⟩ := h
  obtain ⟨w, hw, hd⟩ := Option.bind_eq_some_iff.1 h4
  unfold State.pattern
  rw [h1]
  simp only [h3, Option.isSome_none, Bool.false_eq_true, if_false, hw, hd, if_true, h2, List.isEmpty_nil]
  rfl

/-- The instruction that an engine interprets runs its routine to the next commit point. -/
theorem pattern_interprets {s : State} {e : Eng} {i : Instr} {b : Burst} {m : ImgSt} {ir : Nat} {w : IWord}
    (h : Interprets s e i b m ir w) (f : Burst → ImgSt → State → State) :
    s.pattern e i f = movedOn (s.microRun e m b ir w) e m ir := by
  obtain ⟨h1, h2, h3, h4, h5⟩ := h
  have h2' : (s.engAt e.val).ucode.words.isEmpty = false := by simpa using h2
  unfold State.pattern
  rw [h1]
  simp only [← h3, h4, h5, if_true, h2', Bool.false_eq_true, if_false]
  rfl

/-- A new burst of the engine, and nothing else. -/
theorem putBurst_becomes (s : State) (e : Eng) (m : ImgSt) (ip : Nat) (b : Burst) :
    BurstBecomes s e m ip b (movedOn ((noted s e ip).putBurst e.val b) e m ip) := by
  unfold movedOn State.updBurst
  simp only [State.putBurst_same]
  refine ⟨by simp, ?_, rfl⟩
  unfold State.engAt noted State.updEng State.putBurst
  simp

theorem next_of_pattern {c : Instr} {s : State} {e : Eng} {i : Instr} {f : Burst → ImgSt → State → State} {b : Burst}
    {m : ImgSt} (he : exec c s = .next (s.pattern e i f)) (h : Fetches s e i b m) :
    exec c s = .next (movedOn (f b m (noted s e b.ip)) e m b.ip) := he.trans (congrArg _ (pattern_acts h f))

theorem answers_of_pattern {c : Instr} {s : State} {P : State → Prop} {e : Eng} {i : Instr}
    {f : Burst → ImgSt → State → State} {b : Burst} {m : ImgSt} (he : exec c s = .next (s.pattern e i f))
    (h : Fetches s e i b m) (hP : P (movedOn (f b m (noted s e b.ip)) e m b.ip)) : Answers c s P :=
  ⟨_, next_of_pattern he h, hP⟩

end Sys2Proof
end

