-- ==== Sys2Proof/Tests/Slice0.lean ====
section
/-!
SUPPORT. Tests: ill-formed commands are refused, words of 02 decode, the hypotheses of every statement are met by a
concrete state, worked examples of spec/ come out as it says.
-/

namespace Sys2Proof.Tests

open Sys2Proof Sys2Proof.Machine

set_option Elab.async false

/-! ## Ill-formed commands: one for each check of WellFormed -/

def someImage : Image :=
  { signed := true, magic := 0x53443531, version := 1, hdrSize := 32, rsvd := 0, segtabOff := 32, fmttabOff := 64
    instrOff := 64, instrCount := 1, vecOff := 72, vecBytes := 0, formats := [], segments := [], bytes := 72 }

/-- One ill-formed term for each check that a pattern instruction meets. -/
theorem test_ill_formed_pattern : ∀ i ∈ ([
    .vec 0 0, .vec 0 (2 ^ 32), .rpt 0 0, .loop 0 (2 ^ 32), .call 0 (2 ^ 24), .jmp 0 (2 ^ 24) 0, .jmp 0 0 9,
    .jf 0 (2 ^ 24) 0 true, .jf 0 0 9 true, .jnf 0 (2 ^ 24) 0 true, .jnf 0 0 9 true,
    .matchLoop 0 (2 ^ 24) 1 true true, .matchLoop 0 0 0 true true, .matchLoop 0 0 (2 ^ 24) true true,
    .wait 0 false 0, .wait 0 true (2 ^ 48), .wtrg 0 0x102 0 true true, .wtrg 0 0x400 0 true true,
    .wtrg 0 4096 0 true true, .wtrg 0 0 (2 ^ 32) true true, .signal 0 (2 ^ 48), .stream 0 (2 ^ 32) 0 0,
    .stream 0 0 256 0, .capon 0 256, .capoff 0 256, .stamp 0 4096 true, .inj 0 0 256] : List Instr), i.wf = false := by
  decide

/-- One ill-formed term for each check that a row of the hardware meets. -/
theorem test_ill_formed_rows : ∀ i ∈ ([
    .illegalOpcodeTrap 0 0x16, .illegalOpcodeTrap 0 0x40, .controlStoreScrub 0 true 4096,
    .tokenArrival 0 0 (2 ^ 48) 0, .streamConsRead 0 (2 ^ 32),
    .rseFrameChecked 0 [2 ^ 32] 0 true, .tickReceive ⟨0, 0⟩ 0 0 (2 ^ 32) 0 0,
    .c0TriggerReceive ⟨0, (0, 0)⟩ 0 0 (2 ^ 32) 0,
    .tokenFrame 0 ⟨⟨0, 0⟩, ⟨0, 0⟩⟩ 0 0 (2 ^ 48) 0, .laneScanDone 0 [2 ^ 32] true, .hostLinkUp 0 0 1, .hostLinkUp 0 1 0,
    .cmdTail 0 (2 ^ 32) [], .cplCons 0 (2 ^ 32), .evtCons 0 (2 ^ 32), .registerWrite 0 0x2000 0,
    .paramListDone 0 65536, .hostTransferDone 0 65536 .good, .peek (2 ^ 32), .poke (2 ^ 32) 0] : List Instr),
    i.wf = false := by
  decide

/-- One ill-formed term for each check that a command of the opcode table meets. -/
theorem test_ill_formed_commands : ∀ i ∈ ([
    .sysNop 0 65536, .sysParamGet 0 65536 [1] false false, .sysParamGet 0 5 [] false false,
    .sysParamGet 0 5 [2 ^ 32] false false, .sysParamSet 0 5 [] false false, .sysParamSet 0 5 [(2 ^ 32, 0)] false false,
    .sysParamSet 0 65536 [(1, 0)] false false, .sysParamCommit 0 65536, .sysParamDiscard 0 65536,
    .sysResetPartition 0 65536 0, .sysResetModule 0 65536, .sysServiceUnlock 0 65536 0, .sysServiceUnlock 0 5 (2 ^ 32),
    .veImageLoad 0 65536 someImage, .veImageUnload 0 5 (2 ^ 32), .veImageInfo 0 5 (2 ^ 32) 0, .veImageInfo 0 5 0 (2 ^ 32),
    .veUcodeLoad 0 5 true { version := 2 ^ 32 }, .tmgSet 0 5 [] true, .tmgGet 0 65536 0 0, .tmgCheck 0 65536 0 0 0,
    .tmgRemap 0 65536 0 0, .tmgUnremap 0 65536 0, .dpsPowerUp 0 65536 0, .dpsPowerDown 0 65536 0,
    .capLogRead 0 5 0 (2 ^ 32) 0, .capLogRead 0 5 0 0 (2 ^ 32), .capLogRelease 0 65536 0,
    .capCaptureRead 0 5 0 (2 ^ 32) 0, .capCaptureRead 0 5 0 0 (2 ^ 32), .capTrigger 0 65536 0, .capStreamClose 0 65536 0,
    .tmuArm 0 5 0 (2 ^ 64), .tmuArm 0 65536 0 0, .tmuDisarm 0 65536 0, .tmuResult 0 65536 0, .padcConvert 0 65536 0,
    .padcSelfcal 0 65536 0, .schAbort 0 65536 (.site 0), .schTaskInfo 0 65536 0, .memWrite 0 5 (2 ^ 64) [1],
    .memWrite 0 5 0 [], .memRead 0 5 (2 ^ 64) 1, .memRead 0 5 0 0, .memFence 0 65536 0, .memRemap 0 65536 0,
    .memRepair 0 65536 none, .nglConfig 0 65536, .nglTrigger 0 5 0 true (2 ^ 64), .nglStop 0 5 (2 ^ 32) true 0 0,
    .nglStop 0 5 0 true (2 ^ 32) 0, .nglStop 0 5 0 true 0 (2 ^ 32), .nglTimeLabel 0 5 (2 ^ 64), .nglPrbs 0 5 (2 ^ 32) 0 0 0,
    .nglPrbs 0 5 0 (2 ^ 32) 0 0, .nglPrbs 0 5 0 0 (2 ^ 32) 0, .nglPrbs 0 5 0 0 0 (2 ^ 32), .nglLaneRetrain 0 5 (2 ^ 32),
    .supPartGet 0 65536 0, .supFwLoad 0 5 true ⟨2 ^ 32, { version := 1 }⟩ 0,
    .supFwLoad 0 5 true ⟨0, { version := 1 }⟩ (2 ^ 32), .supFwLoad 0 5 true ⟨0, { version := 2 ^ 32 }⟩ 0, .supFwHandover 0 65536,
    .hltForce 0 5 (2 ^ 32) [], .hltForce 0 5 0 [2 ^ 32], .hltAlarmAck 0 65536, .hltFerrRead 0 5 (2 ^ 32),
    .hltFerrClear 0 5 (2 ^ 32), .hltUnfence 0 65536 .badKind, .hltFwSelect 0 65536 true, .calRun 0 5 (2 ^ 32) 0,
    .calRun 0 5 0 (2 ^ 32), .calStore 0 65536, .calStatClear 0 65536 0] : List Instr), i.wf = false := by
  decide

/-- Operands at the ends of their fields are well formed; each of these instructions has a word and belongs to its
engine (the hypotheses of PatternInstructionsDecodeAsEncoded). -/
theorem witness_PatternInstructionsDecodeAsEncoded : ∀ i ∈ ([
    .vec 31 1, .vec 31 (2 ^ 32 - 1), .rpt 31 1, .rpt 31 (2 ^ 32 - 1), .loop 31 1, .loop 31 (2 ^ 32 - 1), .endl 31,
    .call 31 (2 ^ 24 - 1), .ret 31, .jmp 31 (2 ^ 24 - 1) 8, .jf 31 (2 ^ 24 - 1) 8 true, .jnf 31 0 0 false,
    .matchLoop 31 (2 ^ 24 - 1) (2 ^ 24 - 1) true true, .matchLoop 31 0 1 false false, .wait 31 true (2 ^ 48 - 1),
    .wait 31 false 1, .wtrg 31 0 0 false true, .wtrg 31 0x201 (2 ^ 32 - 1) true false, .wtrg 31 0x3FF 1 false false,
    .mark 31 7 3, .signal 31 (2 ^ 48 - 1), .tset 31 63 0xFFFF true, .stream 31 (2 ^ 32 - 1) 255 2, .capon 31 255,
    .capoff 31 255, .stamp 31 4095 true, .inj 31 15 255, .failstop 31 true, .halt 31] : List Instr),
    ownEngine i = some 31 ∧ i.wf = true := by decide

/-! ## Words written out from the encodings of 02 -/

/-- VEC 1: OPCODE 0x01 in [63:58], COUNT in [31:0] (02 R47). -/
theorem test_word_vec : decodePat 3 0x0400000000000001 = some (.vec 3 1) := by decide
/-- LOOP 5: OPCODE 0x03 (02 R49). -/
theorem test_word_loop : decodePat 3 0x0C00000000000005 = some (.loop 3 5) := by decide
/-- ENDL: OPCODE 0x04, every other bit 0 (02 R49); a bit set is reserved (R46). -/
theorem test_word_endl : decodePat 3 0x1000000000000000 = some (.endl 3) ∧ decodePat 3 0x1000000000000001 = none := by decide
/-- CALL 9: OPCODE 0x05 (02 R50). -/
theorem test_word_call : decodePat 3 0x1400000000000009 = some (.call 3 9) := by decide
/-- RET: OPCODE 0x06 (02 R50). -/
theorem test_word_ret : decodePat 3 0x1800000000000000 = some (.ret 3) := by decide
/-- JMP 9 with LPOP 2 in MOD [3:0] (02 R51). -/
theorem test_word_jmp : decodePat 3 0x1C02000000000009 = some (.jmp 3 9 2) := by decide
/-- JNF with CLR in MOD [4] (02 R54). -/
theorem test_word_jnf : decodePat 3 0x2410000000000009 = some (.jnf 3 9 0 true) := by decide
/-- WAIT of 500 ns: UNIT in MOD [0] (02 R48). -/
theorem test_word_wait : decodePat 3 0x2C010000000001F4 = some (.wait 3 true 500) := by decide
/-- HALT: OPCODE 0x16 (02 R64). -/
theorem test_word_halt : decodePat 3 0x5800000000000000 = some (.halt 3) := by decide
/-- The table gives no bits: no word spells a command. -/
theorem test_no_table_word : decodeTableWord 32 0x12345678 = none := rfl

/-! ## The hypotheses of each statement are met

The theorem `witness_<Name>` shows for each clause of `Obligations.<Name>` that has hypotheses a state and operands that
meet them. -/

abbrev r0 : State := State.reset

/-- The state after reset with another host function 0. -/
def withFn (f : FnSt) : State := { r0 with host.fn := [(0, f)] }

/-- An entry of the command ring. -/
def entry (tag : Nat) (op : BitVec 16) : CmdEntry :=
  { tag, opcode := op, len := 0, commit := false, list := false, staged := false, ordered := false, rsvd := false, dma := none }

/-- A step from a state with a command waiting, and one from an empty queue. -/
theorem witness_EveryStepKeepsTheInvariant :
    Memory.wf r0.mem.hbm = true ∧ (∃ t, step r0 = .next t) ∧
    ∃ t, step { r0 with pending := [.sysNop 0 5] } = .next t := ⟨by decide, ⟨_, rfl⟩, ⟨_, rfl⟩⟩

theorem witness_MicrowordFields :
    (decodeMicro 0x8A09223F1F).isSome = true ∧ 0x8A09223F1F < 2 ^ 40 ∧ (microOp 0 0).isSome = true ∧
    (microOp (0x8A09223F1F / 2 ^ 22 % 2 ^ 5) (0x8A09223F1F % 2 ^ 22)).isSome = true := by decide

/-- 257 entries ahead, a count that moves back, 256 entries ahead; an entry to take; an intake that is closed. -/
theorem witness_CommandRingCounts :
    256 < (257 + 2 ^ 16 - (r0.fnAt 0).head) % 2 ^ 16 ∧
    (let f := (withFn { tail := 2, head := 1 }).fnAt 0
     (1 + 2 ^ 16 - f.head) % 2 ^ 16 < (f.tail + 2 ^ 16 - f.head) % 2 ^ 16) ∧
    ((256 + 2 ^ 16 - (r0.fnAt 0).head) % 2 ^ 16 ≤ 256) ∧
    ((r0.fnAt 0).tail + 2 ^ 16 - (r0.fnAt 0).head) % 2 ^ 16 ≤ (256 + 2 ^ 16 - (r0.fnAt 0).head) % 2 ^ 16 ∧
    (let s := withFn { enable := true, tail := 1, ring := [entry 5 1] }
     (s.fnAt 0).holdFull = false ∧ s.intake 0 = true ∧ s.nextTurn = some 0 ∧ (s.fnAt 0).ring = [entry 5 1] ∧ (entry 5 1).ordered = false ∧
     (s.fnAt 0).enable = true) ∧
    (r0.fnAt 0).enable = false ∧ (r0.fnAt 0).holdFull = false ∧
    ((withFn { holdFull := true }).fnAt 0).enable = false ∧ ((withFn { holdFull := true }).fnAt 0).holdFull = true := by
  decide

theorem witness_ResetWithoutAcknowledgement :
    (r0.fnAt 0).reset ≠ 1 ∧ (r0.fnAt 0).reset ≠ 2 ∧
    (let s : State := { withFn { reset := 1 } with host.params := [(pid 0 0 0x001, 1)] }
     (s.fnAt 0).reset = 1 ∧ s.fw.hand = 0 ∧ s.parN 0 0 0x001 = 1) ∧
    (let s : State := { withFn { reset := 1 } with host.params := [(pid 0 0 0x001, 0)] }
     (s.fnAt 0).reset = 1 ∧ s.fw.hand = 0 ∧ s.parN 0 0 0x001 ≠ 1) ∧
    (let s : State := { withFn { reset := 1 } with fw.hand := 2 }; s.fw.hand ≠ 0) ∧
    ((withFn { reset := 4 }).fnAt 0).reset = 4 := by decide +kernel

/-- One second and a day; a lock that is open and one that is closed. -/
theorem witness_ServiceUnlock :
    Passes r0 0 5 0x0008 ∧ r0.rightService 0 = true ∧ 1 ≤ 1 ∧ 1 ≤ 86400 ∧ 1 ≤ 86400 ∧ 86400 ≤ 86400 ∧
    r0.fw.svcUntil = none ∧
    (let s : State := { r0 with fw.svcUntil := some 1000000000 }
     Passes s 0 5 0x0008 ∧ s.rightService 0 = true ∧ s.fw.svcUntil.isSome = true ∧ s.fw.svcUntil = some 1000000000) := by
  decide +kernel

theorem witness_LatchedCompanions :
    (r0.rlWords 0 .time).isSome = true ∧ (r0.rlWords 0 .serial).isSome = true ∧ (r0.rlWords 0 .ferrTime).isSome = true ∧
    (let s := withFn { reset := 1 }; (s.fnAt 0).reset = 1 ∧ s.fw.hand = 0 ∧ s.fw.state = 1) := by decide +kernel

theorem witness_ReadingCommandsChangeNothingElse : ∀ c ∈ ([
    .sysNop 0 5, .veImageInfo 0 5 0 0, .tmgGet 0 5 0 0, .tmgCheck 0 5 0 0 0, .tmuResult 0 5 0, .schTaskInfo 0 5 0,
    .supPartGet 0 5 0, .hltFerrRead 0 5 0] : List Instr),
    onlyReads c = true ∧ (issuedBy c).map (fun x => (x.1, x.2.1)) = some (0, 5) := by decide

theorem witness_DisabledPartitionDeniesEveryCommand :
    issuedBy (.sysNop 1 5) = some (1, 5, 0x0001) ∧ r0.tagBusy 1 5 0x0001 = false ∧ (r0.part 1).enable = false := by
  decide +kernel

theorem witness_TagInUseRefusesEveryCommand :
    issuedBy (.calStore 0 5) = some (0, 5, 0x0E02) ∧
    (taken r0 0 5 0x0001).tagBusy 0 5 0x0E02 = true := by decide +kernel

/-- HP1 enabled, HP0 the system partition; every opcode of the list. -/
theorem witness_SystemCommandsDeniedElsewhere :
    let s : State := { r0 with host.ptab := [(0, PartRec.hp0), (1, { PartRec.none 1 with enable := true })] }
    s.isSystem 1 = false ∧ (s.part 1).enable = true ∧
    ∀ c ∈ ([.memRemap 1 5 0, .nglConfig 1 5, .nglTimeLabel 1 5 0, .nglPrbs 1 5 0 0 0 0, .nglLaneRetrain 1 5 0,
      .supFwLoad 1 5 true ⟨0, { version := 1 }⟩ 0, .supFwHandover 1 5, .hltForce 1 5 0 [], .hltAlarmAck 1 5, .hltFwSelect 1 5 true,
      .calStore 1 5] : List Instr),
      (issuedBy c).any (fun x => x.1 == 1 && x.2.1 == 5 && !s.tagBusy 1 5 x.2.2 && [0x0A04, 0x0B01, 0x0B04, 0x0B06, 0x0B07,
        0x0B08, 0x0C01, 0x0C03, 0x0C04, 0x0D01, 0x0D02, 0x0D06, (0x0E02 : BitVec 16)].contains x.2.2) = true := by
  decide +kernel

theorem witness_DmaErrorOfCommand :
    let s := withFn { tags := [{ tag := 5, opcode := 0x0101, taken := true, dma := some 0x123456789ABC }] }
    s.tagBusy 0 5 0x0101 = false ∧ (s.part 0).enable = true ∧ (s.fnAt 0).dmaOf 5 0x0101 = some 0x123456789ABC ∧
    (s.fnAt 0).ferr = none := by decide +kernel

/-- An image of one segment: VEC 2, HALT; two vectors of channel 0. -/
def img0 : Image :=
  { signed := true, magic := 0x53444931, version := 1, hdrSize := 64, rsvd := 0, segtabOff := 64, fmttabOff := 96
    instrOff := 352, instrCount := 2, vecOff := 512, vecBytes := 256, formats := [[1]], bytes := 768
    segments := [{ firstInstr := 0, instrs := [0x0400000000000002, 0x5800000000000000], granule := 0
                   vectors := [(2, 256)], format := 0, residency := 0, rsvd := false }] }

/-- HP0 holds an image under handle 0. -/
def withImage (mode : ImgMode) (img : Image) : State :=
  { r0 with ve.images := [(imgKey 0 0, { mode, img, tag := 5, mcs := [0] })] }

theorem witness_SystemCommandsComplete :
    let id := pid 0 0 0x001
    let u (op : BitVec 16) := taken r0 0 5 op
    Passes r0 0 5 0x0001 ∧ Passes r0 0 5 0x0002 ∧ (u 0x0002).idsBad 0 [id] = none ∧
    (u 0x0002).idsBad 0 (List.replicate 6 id) = none ∧ (List.replicate 4096 id).length ≤ 4096 ∧
    Passes r0 0 5 0x0003 ∧ (u 0x0003).pairsBad 0 [(id, 1)] = none ∧
    (((u 0x0003).stagePairs 0 [(id, 1)]).fnAt 0).staged.length ≤ 4096 ∧
    ((u 0x0003).setPairs 0 [(id, 1)] true).1 = .ok ∧ Passes r0 0 5 0x0004 ∧ ((u 0x0004).commit 0).1 = .ok ∧
    Passes r0 0 5 0x0005 ∧ Passes r0 0 5 0x0006 ∧ (r0.fnAt 0).reset = 0 ∧ r0.isSystem 0 = true ∧ (r0.fnAt 1).reset = 0 ∧
    Passes r0 0 5 0x0007 ∧ r0.rightModReset 0 = true ∧ r0.pwr.sup.eject = false ∧ Passes r0 0 5 0x0008 ∧
    r0.rightService 0 = true ∧
    (let c : ListCmd := { tag := 5, pairs := [(id, 1)], set := false, commit := false, staged := false }
     let s := withFn { listCmd := [c] }
     (s.fnAt 0).listCmd.find? (fun c => c.tag == 5) = some c ∧
     (s.updFn 0 (fun f => { f with listCmd := f.listCmd.filter (fun d => d.tag != 5) })).idsBad 0 [id] = none) ∧
    (let c : ListCmd := { tag := 5, pairs := [(id, 1)], set := true, commit := true, staged := false }
     let s := withFn { listCmd := [c] }
     (s.fnAt 0).listCmd.find? (fun c => c.tag == 5) = some c ∧
     ((s.updFn 0 (fun f => { f with listCmd := f.listCmd.filter (fun d => d.tag != 5) })).setPairs 0 [(id, 1)] true).1 =
       .ok) := by decide +kernel

/-- A good image, one whose MAGIC is wrong, the only entry of its table, an engine that takes microcode. -/
theorem witness_ImageCommandsComplete :
    Passes r0 0 5 0x0101 ∧ r0.freeHandle 0 = some 0 ∧
    (let s := withImage .loading img0
     (s.imageAt (imgKey 0 0)).any (fun x => x.mode == .loading && (s.loadBad 0 x).isNone) = true) ∧
    (let s := withImage .loading { img0 with magic := 0 }
     (s.imageAt (imgKey 0 0)).any (fun x => x.mode == .loading && (s.loadBad 0 x).isSome) = true) ∧
    (let s := withImage .ready img0
     Passes s 0 5 0x0102 ∧ Passes s 0 5 0x0103 ∧ s.imageUsed 0 0 = false ∧
     (s.ownImage 0 0).any (fun x => x.mode != .loading && decide (0 < x.img.segments.length)) = true) ∧
    Passes r0 0 5 0x0104 ∧ r0.rightConfig 0 = true ∧ r0.fw.ucodeCmd = none ∧
    (let s : State := { r0 with fw.ucodeTodo := [31] }
     s.fw.ucodeTodo.contains 31 = true ∧ s.burstAt 31 = none ∧ (s.engAt 31).mode ≠ .fenced ∧
     (s.engAt 31).retried = false ∧ ((s.updEng 31 (fun x => { x with retried := true })).engAt 31).retried = true ∧
     ((s.updEng 31 (fun x => { x with mode := .fenced })).engAt 31).mode = .fenced) := by decide +kernel

/-- A timing-set record with the shortest period in every channel off. -/
def ts0 : TsRec := { group := 15, ts := 63, define := true, period := 10000, entries := [], rsvd := false }

def rate0 : RateRec := { group := 15, mode := 0, entries := [{ tb := 2 ^ 24 * 4, slope := 0, dwell := 1000 }], rsvd := false }

/-- A site of channel 0 and DPS 0. -/
def siteRec0 : SiteRec :=
  { site := 0, define := true, linked := false, members := 0, dps := 1, linkId := 0, home := 0, chMap := 1, rsvd := false }

def withSite (f : SiteSt → SiteSt) : State := { r0 with pf.site := [(0, f { defn := some siteRec0 })] }

/-- Groups with an accepted calibration. -/
def withGrp (g : Nat) (f : GrpSt → GrpSt) : State := { r0 with pf.grp := [(g, f { refCount := 1, refState := 1 })] }

theorem witness_TimingCommandsComplete :
    let u (op : BitVec 16) := taken r0 0 5 op
    Passes r0 0 5 0x0201 ∧ r0.ownsTs 0 15 63 = true ∧ r0.recsFault 0 [ts0] = none ∧
    (((u 0x0201).updFn 0 (fun f => { f with stagedTs := [ts0].foldl stageTs f.stagedTs })).commit 0).1 = .ok ∧
    Passes r0 0 5 0x0202 ∧
    (let s := withSite id
     Passes s 0 5 0x0203 ∧ (s.part 0).sites.getLsbD 0 = true ∧ (s.siteAt 0).defn.isSome = true ∧
     ((bitList (1 : BitVec 64)).find? (fun n => (s.tsNow 0 n).isNone)) = some 0 ∧
     ((bitList (0 : BitVec 64)).find? (fun n => (s.tsNow 0 n).isNone)) = none ∧ s.edgeBad 0 0 (bitList (0 : BitVec 64)) = none) ∧
    Passes r0 0 5 0x0204 ∧ r0.ownsRate 0 15 = true ∧ rate0.rsvd = false ∧ rate0.mode ≤ 1 ∧ rate0.group < 16 ∧
    1 ≤ rate0.entries.length ∧ rate0.entries.length ≤ 64 ∧ (r0.grpAt 15).rateOwner = none ∧ r0.rateFault rate0 = none ∧
    (((u 0x0204).updFn 0 (fun f => { f with stagedRate := f.stagedRate ++ [rate0] })).commit 0).1 = .ok ∧
    Passes r0 0 5 0x0205 ∧ r0.rightConfig 0 = true ∧
    (let s := withGrp 15 id
     (s.chanSite (32 * 15 + 31)).any s.siteTasked = false ∧ s.cal.run.running.any (fun x => isGroup 15 x.1) = false ∧
     (s.grpAt 15).refState = 1 ∧ (s.grpAt 15).l32 = none) ∧
    (let s := withGrp 15 (fun x => { x with l32 := some 31 })
     Passes s 0 5 0x0205 ∧ Passes s 0 5 0x0206 ∧ s.rightConfig 0 = true ∧
     s.cal.run.running.any (fun x => isGroup 15 x.1) = false ∧ (s.chanSite (32 * 15 + 31)).any s.siteTasked = false ∧
     (s.grpAt 15).refState = 1 ∧ (s.grpAt 15).l32 = some 31) := by decide +kernel

/-- Two sets with edges of one lane out of order: the case that tmg.check reports. -/
theorem witness_TimingCommandsComplete_edgeBad :
    let e (d0 : Nat) : TsEntry := { driveFmt := 1, cmpMode := 0, d := [d0, 0, 0, 0], c := [], rsvd := false }
    let s : State := { withSite id with pf.grp := [(0, { bank0 :=
      [(0, { group := 0, ts := 0, define := true, period := 2500, entries := [(0, e 0)], rsvd := false }),
       (1, { group := 0, ts := 1, define := true, period := 2500, entries := [(0, e 4999)], rsvd := false })] })] }
    ((bitList (3 : BitVec 64)).find? (fun n => (s.tsNow 0 n).isNone)) = none ∧
    (s.edgeBad 0 0 (bitList (3 : BitVec 64))).isSome = true := by decide +kernel

def seq0 : SeqRec := { site := 0, steps := [{ channel := 0, waitSettle := true, vout := 64000, delay := 10000000 }], rsvd := false }

theorem witness_PowerCommandsComplete :
    (let s := withSite id
     Passes s 0 5 0x0401 ∧ s.ownsSite 0 0 = true ∧ seqMalformed seq0 = false ∧ seqInRange seq0 = true ∧
     s.seqConflict 0 seq0.steps = none ∧ s.siteOn 0 = false ∧ (s.siteAt 0).seqRun = none) ∧
    (let s := withSite (fun x => { x with seq := some seq0 })
     Passes s 0 5 0x0402 ∧ s.ownsSite 0 0 = true ∧ s.evt.fatal = false ∧ (s.siteAt 0).seq = some seq0 ∧
     s.seqConflict 0 seq0.steps = none ∧ (∀ x ∈ seq0.steps, (s.dpsAt x.channel).mode ≠ .fenced) ∧ s.siteOn 0 = false ∧
     (s.siteAt 0).seqRun = none ∧ Passes s 0 5 0x0403 ∧ s.siteBusy 0 = false) := by decide +kernel

def stream0 : StreamDesc :=
  { stream := 63, msix := 31, base := 4096, size := 65536, prodAddr := 8, consAddr := 16, watermark := 32, rsvd := false }

def xfer0 : Xfer := { part := 0, tag := 5, opcode := 0x0A02, data := [7], write := none, addr := 0 }

theorem witness_CaptureCommandsComplete :
    (let s : State := { r0 with host.params := [(pid 5 127 0x012, 1)] }
     Passes s 0 5 0x0501 ∧ s.ownsSite 0 127 = true ∧ s.siteBusy 127 = false ∧ 1 + 127 ≤ s.parN 5 127 0x012 * 128) ∧
    Passes r0 0 5 0x0502 ∧ r0.ownsSite 0 127 = true ∧
    (let s : State := { r0 with acq.cu := [(15, { samples := [(0, 1)] })], host.params := [(pid 5 15 0x040, 255)] }
     Passes s 0 5 0x0503 ∧ (s.part 0).units.getLsbD 15 = true ∧ 128 ≤ s.parN 5 15 0x040 ∧
     0 + 1 ≤ (s.cuAt 15).samples.length) ∧
    (let s : State := { r0 with host.params := [(pid 5 15 0x040, 3)] }
     s.siteBusy (s.parN 5 15 0x040) = false ∧ s.parN 5 15 0x040 = 3) ∧
    Passes r0 0 5 0x0504 ∧ (r0.part 0).capTriggers.getLsbD 31 = true ∧
    Passes r0 0 5 0x0505 ∧ (r0.part 0).streams.getLsbD stream0.stream = true ∧ stream0.rsvd = false ∧
    streamInRange stream0 = true ∧ (r0.hsAt stream0.stream).mode = .closed ∧
    Passes r0 0 5 0x0506 ∧ r0.streamBusy 63 = false ∧
    (let s : State := { r0 with host.xfers := [xfer0] }
     (s.host.xfers.filter (fun x => x.part == 0)).find? (fun x => x.tag == 5) = some xfer0 ∧
     (∀ y ∈ s.host.xfers, y.part = 0 → y.write = none) ∧ s.fencedPage 0 xfer0.addr xfer0.memLen = none ∧
     xfer0.reads.findSome? (fun r => s.badIn 0 r.1 r.2) = none) ∧
    (let x : Xfer := { xfer0 with reads := [(64, 4)] }
     let s : State := { r0 with host.xfers := [x], mem.bad := [1] }
     s.fencedPage 0 x.addr x.memLen = none ∧ x.reads.findSome? (fun r => s.badIn 0 r.1 r.2) = some 64) ∧
    (let s : State := { r0 with host.xfers := [xfer0], mem.mc := [(0, { mode := 3 })] }
     s.fencedPage 0 xfer0.addr xfer0.memLen = some 0) := by decide +kernel

/-- An armed reference of 0, one that has passed, one to come. -/
theorem witness_MeasurementCommandsComplete :
    (let s : State := { r0 with now := 2, host.params := [(pid 7 255 0x00B, 1)] }
     Passes s 0 5 0x0701 ∧ s.ownsSet 0 255 = true ∧ s.msPar 255 0x00B = 1 ∧ (s.msAt 255).fenced = false ∧
     s.msOff 255 = none ∧ 1 < s.now ∧ s.now ≤ 2) ∧
    Passes r0 0 5 0x0702 ∧ r0.ownsSet 0 255 = true ∧ Passes r0 0 5 0x0703 ∧
    (let s : State := { r0 with host.params := [(pid 8 15 0x010, 1)] }
     Passes s 0 5 0x0801 ∧ s.ownsPmu 0 15 = true ∧ (s.padcAt 15).fenced = false ∧ s.parN 8 15 0x010 = 1) ∧
    (let s : State := { r0 with acq.padc := [(16, { warmed := true })] }
     Passes s 0 5 0x0802 ∧ s.ownsConv 0 16 = true ∧ (s.padcAt 16).fenced = false ∧ (s.padcAt 16).warmed = true ∧
     (s.padcAt 16).calRun = false ∧ (s.padcAt 16).calWait = false) := by decide +kernel

theorem witness_CalibrationCommandsComplete :
    (let s : State := { withSite id with host.params := [(pid 14 0 0x001, 1), (pid 14 0 0x002, 1)] }
     Passes s 0 5 0x0E01 ∧ s.isSystem 0 = true ∧ 1 < 2 ^ 16 ∧ 1 < 2 ^ 18 ∧ s.parN 14 0 0x001 ≠ 0 ∧ s.parN 14 0 0x002 ≠ 0 ∧
     (∀ u ∈ calUnits 1 1, s.calBusy u = false) ∧ (∀ u ∈ calUnits 1 1, s.calFenced u = false) ∧
     (∀ u ∈ calUnits 1 1, s.ownsCal 0 u = true)) ∧
    Passes r0 0 5 0x0E02 ∧ r0.isSystem 0 = true ∧ r0.cal.store.pending = false ∧
    (let s : State := { r0 with cal.store := { pending := true } }
     Passes s 0 5 0x0E02 ∧ s.isSystem 0 = true ∧ s.cal.store.pending = true) ∧
    Passes r0 0 5 0x0E03 ∧ r0.ownsGrp 0 15 = true := by decide +kernel

def task0 : TaskDesc :=
  { queue := 0, kind := 0, pausable := false, linked := false, issueDone := false, noAffinity := false, eclass := 0
    source := 0, nops := 0, linkTrig := 0, entry := 0, runLimit := 0, waitTimeout := 1000, extraSites := [], outKey := 0
    slots := [], rsvd := false }

def slot0 : Slot := { key := 2 ^ 48 - 1, tkind := 0, consume := true, anyResult := true, scope := 127, rsvd := false }

/-- A task in entry 4095 of the matching store. -/
def withTask (f : TaskSt → TaskSt) : State :=
  { withSite id with sch.tasks := [(4095, f { desc := task0, part := 0, tag := 5, order := 0, at_ := 0 })] }

/-- A segment table whose entry reaches nothing, so that the power estimate is 0 whatever the activity profiles are. -/
def noReach : List Segment :=
  [{ firstInstr := 0, instrs := [], granule := 0, vectors := [], format := 0, residency := 0, rsvd := false }]

theorem witness_SchedulerCommandsComplete :
    Passes r0 0 5 0x0901 ∧ r0.ownsSiteRec 0 siteRec0 = true ∧ siteMalformed siteRec0 = false ∧ siteRec0.site < 128 ∧
    siteRec0.linked = false ∧ r0.siteConflict siteRec0 = none ∧ r0.siteTasked 0 = false ∧ r0.siteOn 0 = false ∧
    (let q : SiteRec := { siteRec0 with linked := true, members := 255, linkId := 2 ^ 32 - 1 }
     q.linked = true ∧ 2 ≤ q.members ∧ q.members ≤ 255 ∧ siteMalformed q = false ∧ r0.ownsSiteRec 0 q = true ∧
     r0.siteConflict q = none) ∧
    (let s : State := { withImage .ready { img0 with segments := noReach } with pf.site := [(0, { defn := some siteRec0 })] }
     Passes s 0 5 0x0902 ∧ s.ownsTask 0 task0 = true ∧ s.evt.fatal = false ∧ s.submitBad 0 task0 = false ∧
     (s.descImage 0 task0).any (fun x => x.mode != .loading) = true ∧ s.submitConflict 0 task0 = none ∧
     s.submitRange 0 task0 = false ∧
     s.submitFull 0 task0 = false ∧ s.freeEntry.isSome = true) ∧
    (let s := withTask id
     Passes s 0 5 0x0903 ∧ s.ownsAbort 0 (.task 4095) = true ∧ s.ownsAbort 0 (.site 0) = true ∧
     Passes s 0 5 0x0906 ∧ s.ownsIndex 0 4095 = true ∧ (s.taskWords 4095).isSome = true) ∧
    Passes r0 0 5 0x0904 ∧ r0.ownsSite 0 slot0.scope.val = true ∧ slot0.rsvd = false ∧ slot0.tkind = 0 ∧
    slot0.key < 2 ^ 48 ∧ 2 ^ 14 - 1 < 2 ^ 14 ∧ r0.tokFits (slotTok slot0) = true ∧ 2 ^ 14 - 1 ≠ r0.node ∧
    Passes r0 0 5 0x0905 ∧ slot0.tkind < 7 := by decide +kernel

def bytes64 : List (BitVec 8) := List.replicate 64 1

theorem witness_MemoryCommandsComplete :
    Passes r0 0 5 0x0A01 ∧ r0.rangeOk 0 0 bytes64.length = true ∧ r0.liveImages 0 = [] ∧
    r0.fencedPage 0 0 bytes64.length = none ∧ r0.rangeOk 0 (4096 * r0.pagesOf 0 - 64) 64 = true ∧
    Passes r0 0 5 0x0A02 ∧ r0.rangeOk 0 0 (2 ^ 30) = true ∧
    (let s : State := { r0 with host.xfers := [⟨0, 5, 0x0A01, [], some (0, bytes64), 0, []⟩] }
     s.host.xfers = [⟨0, 5, 0x0A01, [], some (0, bytes64), 0, []⟩] ∧ s.fencedPage 0 0 bytes64.length = none) ∧
    Passes r0 0 5 0x0A03 ∧ r0.rightConfig 0 = true ∧ (r0.mcAt 31).mode ≠ 3 ∧
    ((({ r0 with mem.mc := [(31, { mode := 3 })] } : State)).mcAt 31).mode = 3 ∧
    Passes r0 0 5 0x0A04 ∧ r0.isSystem 0 = true ∧ r0.partBusy 0 = false ∧ Passes r0 0 5 0x0A05 ∧
    (let s : State := { r0 with
       mem.pages := [(0, [{ count := 4, chans := [0, 1] }])], mem.mc := [(0, { mode := 3 })] }
     s.partBusy 0 = false ∧ s.poisonedPages 0 ≤ s.freePages) := by decide +kernel

def chime0 : ChimeRec :=
  { output := 3, enable := true, invert := true, t0 := 0, period := 20, width := 15, count := 1, rsvd := false }

def scan0 : ScanDesc :=
  { lane := 0, phStep := 16, vStep := 16, phMin := -32, phMax := 31, vMin := -64, vMax := 64, dwellExp := 40, rsvd := false }

theorem witness_LinkCommandsComplete :
    Passes r0 0 5 0x0B01 ∧ r0.isSystem 0 = true ∧ r0.linkedTask = false ∧
    Passes r0 0 5 0x0B02 ∧ (r0.part 0).nglTriggers.getLsbD 255 = true ∧ r0.trigOk true 100 = true ∧
    r0.trigOk true 2000000000 = true ∧ r0.trigOk false 0 = true ∧
    Passes r0 0 5 0x0B03 ∧ r0.ownsStop 0 7 true = true ∧
    (let s := withSite (fun x => { x with defn := some { siteRec0 with linked := true, members := 2, linkId := 7 } })
     s.ownsStop 0 7 false = true) ∧
    (let s : State := { r0 with host.params := [(pid 11 0 0x004, 1)] }
     Passes s 0 5 0x0B04 ∧ s.isSystem 0 = true ∧ 2 ^ 48 - 1 < 2 ^ 48 ∧ s.timeMaster = true) ∧
    Passes r0 0 5 0x0B05 ∧ chime0.output < 4 ∧ (r0.part 0).chime.getLsbD chime0.output = true ∧ chime0.rsvd = false ∧
    chimeInRange r0.now chime0 = true ∧
    (let s : State := { r0 with ngl.port := [(0, { mode := .active })] }
     Passes s 0 5 0x0B06 ∧ s.isSystem 0 = true ∧ scan0.rsvd = false ∧ scanInRange scan0 = true ∧ ¬ 6 ≤ scan0.lane ∧
     s.laneLive scan0.lane = true ∧ (s.slaneAt scan0.lane).scan = none) ∧
    (let s : State := { r0 with host.params := [(pid 11 3 0x08D, 1)] }
     s.parN 11 (hostPortOf 37) 0x08D ≠ 0 ∧ s.laneLive 37 = true) ∧
    Passes r0 0 5 0x0B07 ∧ r0.prbsFree 5 = true ∧
    (let s : State := { r0 with ngl.port := [(5, { mode := .active })] }
     Passes s 0 5 0x0B08 ∧ s.isSystem 0 = true ∧ (s.portAt 5).mode ≠ .off ∧ (s.portAt 5).mode ≠ .training ∧
     (s.slaneAt 5).prbs = none) := by decide +kernel

/-- HP1 enabled with nothing of HP0's. -/
def part1 : PartRec := { PartRec.none 15 with enable := true, engReserve := 0, msLimit := 0 }

theorem witness_SupervisorCommandsComplete :
    Passes r0 0 5 0x0C01 ∧ r0.isSystem 0 = true ∧ r0.recBad part1 = false ∧ recInRange part1 = true ∧
    r0.heldElsewhere part1 = none ∧ r0.sumsBad part1 = false ∧ r0.takenBusy part1 = false ∧
    r0.pagesBusy part1.part part1.hbmPages = false ∧ Passes r0 0 5 0x0C02 ∧ Passes r0 0 5 0x0C03 ∧ r0.fw.hand = 0 ∧
    (let s : State := { r0 with fw.mayHand := true, fw.validB := true }
     Passes s 0 5 0x0C04 ∧ s.isSystem 0 = true ∧ s.fw.hand = 0 ∧ s.fw.mayHand = true ∧ s.fw.otherValid = true) ∧
    Passes r0 0 5 0x0D06 ∧ r0.fw.validA = true := by decide +kernel

theorem witness_HandoverStepsComplete :
    (let s : State := { r0 with fw.hand := 1 }; s.fw.hand = 1 ∧ s.drained = true) ∧
    (let s : State := { taken r0 0 5 0x0402 with fw.hand := 1 }; s.fw.hand = 1 ∧ s.drained = false) ∧
    (let s : State := { r0 with fw.hand := 2 }; s.fw.hand = 2 ∧ 400000 ≤ 400000) := by decide +kernel

theorem witness_FaultCommandsComplete :
    Passes r0 0 5 0x0D01 ∧ r0.isSystem 0 = true ∧ reservedSrc 0 = false ∧ reservedSrc 0x5E6 = false ∧
    (List.replicate 10 0).length ≤ 10 ∧ Passes r0 0 5 0x0D02 ∧ Passes r0 0 5 0x0D03 ∧ r0.mayFerr 0 14 = true ∧
    Tbl.find r0.evt.ferr 14 = none ∧ Passes r0 0 5 0x0D04 ∧
    (let e : FErr := { time := 1, addr := 2, master := 3, access := 1, element := 0, source := 0x100, count := 1 }
     let s : State := { r0 with evt.ferr := [(14, e)] }
     Tbl.find s.evt.ferr 14 = some e ∧ s.mayFerr 0 14 = true) ∧
    Passes r0 0 5 0x0D05 ∧ r0.rightConfig 0 = true ∧ (r0.grpAt (527 / 33)).pmuConn = none ∧ r0.cal.unfence = [] ∧
    r0.unfenceNow (.lane 527) = some (.ok, []) ∧
    (let s : State := { r0 with pf.lane := [(527, { fenced := true, fences := 1 })] }
     s.unfenceNow (.lane 527) = none ∧
     (let v : State := { s with cal.unfence := [(.lane 527, 0, 5)] }
      v.cal.unfence.find? (fun x => x.1 == .lane 527) = some (.lane 527, 0, 5) ∧
      (v.unfenceUnit (.lane 527)).unitFenced (.lane 527) = false)) ∧
    (let s : State := { r0 with ve.eng := [(31, { mode := .fenced, sensorFence := true })], pwr.sns := [(19, { broken := 1, fencing := true })] }
     (s.unfenceUnit (.engine 31)).unitFenced (.engine 31) = true) := by decide +kernel

def burst0 : Burst := { task := 0, part := 0, tag := 5, sites := [0], home := 0, handle := 0, entry := 0 }

/-- An image whose only segment holds these words and two vectors of channel 0. -/
def imgOf (ws : List IWord) : Image :=
  { img0 with segments := [{ firstInstr := 0, instrs := ws, granule := 0, vectors := [(2, 256)], format := 0
                             residency := 0, rsvd := false }] }

/-- A burst on runner `r`, with an image of these words. -/
def onRunner (r : Nat) (ws : List IWord) (f : Burst → Burst) : State :=
  { withImage .ready (imgOf ws) with ve.bursts := [(r, f burst0)] }

/-- Engine 31, with an empty control store, executes this instruction next. -/
def executes (s : State) (i : Instr) : Bool :=
  match s.fetch 31 with
  | some (b, m) => decide (Fetches s 31 i b m)
  | none => false

/-- What `executes` says: a burst and an image as `Fetches` names them. -/
theorem executes_fetches (s : State) (i : Instr) (h : executes s i = true) : ∃ b m, Fetches s 31 i b m := by
  unfold executes at h
  split at h
  · exact ⟨_, _, of_decide_eq_true h⟩
  · cases h

/-- The word of an instruction alone in its segment. -/
def runs1 (i : Instr) (f : Burst → Burst) : State := onRunner 31 ((encodePat i).toList) f

theorem witness_IssuingInstructions : ∀ i ∈ ([.vec 31 2, .rpt 31 1, .rpt 31 (2 ^ 32 - 1), .wait 31 false 1,
    .wait 31 true (2 ^ 48 - 1), .mark 31 7 3, .signal 31 (2 ^ 48 - 1), .tset 31 63 0xFFFF true, .stream 31 0 255 2,
    .capon 31 15, .capoff 31 15, .stamp 31 255 true, .inj 31 15 7, .failstop 31 true, .halt 31] : List Instr),
    executes (runs1 i id) i = true := by decide +kernel

def loops (k count : Nat) (b : Burst) : Burst := { b with loops := List.replicate k { count, ip := 0, vp := 0 } }
def rets (k : Nat) (b : Burst) : Burst := { b with rets := List.replicate k { ip := 0, vp := 0 } }

/-- Eight levels and none, seven levels, one level; a target that exists and one beyond the table. -/
theorem witness_NestingInstructions :
    (∀ k ∈ [0, 7, 8], executes (runs1 (.loop 31 1) (loops k 1)) (.loop 31 1) = true) ∧
    (∀ k ∈ [0, 1], ∀ n ∈ [1, 2], executes (runs1 (.endl 31) (loops k n)) (.endl 31) = true) ∧
    (∀ k ∈ [7, 8], ∀ seg ∈ [0, 1], executes (runs1 (.call 31 seg) (rets k)) (.call 31 seg) = true) ∧
    (imgOf [0]).enter 0 = some (0, 0) ∧ (imgOf [0]).enter 1 = none ∧
    (∀ k ∈ [0, 8], executes (runs1 (.ret 31) (rets k)) (.ret 31) = true) := by decide +kernel

/-- LPOP 8 with eight levels and with seven; results final or not, the flag set or not. -/
theorem witness_JumpInstructions :
    (∀ k ∈ [7, 8], executes (runs1 (.jmp 31 0 8) (loops k 1)) (.jmp 31 0 8) = true) ∧
    executes (runs1 (.jmp 31 1 0) id) (.jmp 31 1 0) = true ∧
    (∀ clr ∈ [false, true], ∀ f ∈ ([id, fun b => { b with vix := 225, emitted := 0 }, fun b => { b with vix := 225, emitted := 1 },
        fun b => { b with vix := 225, emitted := 1, jf := [0] }] : List (Burst → Burst)),
      executes (runs1 (.jf 31 0 0 clr) f) (.jf 31 0 0 clr) = true ∧
      executes (runs1 (.jnf 31 0 0 clr) f) (.jnf 31 0 0 clr) = true) ∧
    (let b : Burst := { burst0 with vix := 225 }; b.finalTo b.horizon = false) ∧
    (let b : Burst := { burst0 with vix := 225, emitted := 1 }; b.finalTo b.horizon = true ∧ b.jfTest b.horizon = false) ∧
    (let b : Burst := { burst0 with vix := 225, emitted := 1, jf := [0] }
     b.finalTo b.horizon = true ∧ b.jfTest b.horizon = true) := by decide +kernel

def unit0 : MatchSt := { body := 0, maxIter := 2, sense := true, toFail := true, first := 0, decided := 1, failing := [1], len := 2 }

/-- A decision that matches, one that does not with iterations left, one at MAX_ITER; a wait in progress. -/
theorem witness_MatchAndTriggerInstructions :
    executes (runs1 (.matchLoop 31 0 1 true true) id) (.matchLoop 31 0 1 true true) = true ∧ 0 < bodyLen (imgOf [0]) 0 ∧
    (let b : Burst := { burst0 with unit := some unit0, vix := 2, emitted := 2 }
     let s := onRunner 31 [0] (fun _ => b)
     s.burstAt 31 = some b ∧ (s.imgOf b).isSome = true ∧ (s.engAt 31).mode ≠ .fenced ∧
     0 < unit0.len ∧ unit0.micro = false ∧ (∀ d ∈ b.runs, d.done < d.n) ∧
     b.finalTo ((unit0.first + unit0.decided * unit0.len : Nat) - 1 : Int) = true ∧
     unit0.failing.contains unit0.decided = unit0.sense) ∧
    (let u : MatchSt := { unit0 with failing := [] }
     u.failing.contains u.decided ≠ u.sense ∧ u.decided < u.maxIter ∧ ({ u with decided := 2 } : MatchSt).maxIter ≤ 2) ∧
    executes (runs1 (.wtrg 31 0x101 1 true true) id) (.wtrg 31 0x101 1 true true) = true ∧
    (let w : WtrgSt := { selector := 0x101, pos := 1, timeout := 1, toFail := true, latch := true }
     let b : Burst := { burst0 with waits := [w], phase := .running, startTick := some 0, emitted := 1, cycle := 1 }
     let s := onRunner 31 [0] (fun _ => b)
     s.tryRelease 31 = s ∧ s.burstAt 31 = some b ∧ b.waits = [w] ∧ b.waiting = true ∧
     0 < w.timeout ∧ b.before (max b.cycle (b.waitFrom + w.timeout + 1)) = true) := by decide +kernel

/-- A microword: NEXT, UOP and its operand field, with the parity bit that makes its ones even (02 R70). -/
def uword (next uop ops : Nat) : BitVec 40 :=
  let w := next * 2 ^ 27 + uop * 2 ^ 22 + ops
  if microParity w then .ofNat 40 w else .ofNat 40 (w + 2 ^ 39)

/-- Engine 31 with the control store given. -/
def withStore (ws : List (BitVec 40)) (m : Micro) (s : State) : State :=
  s.updEng 31 (fun x => { x with ucode := { x.ucode with words := ws }, micro := m })

/-- 24 microwords before a commit point and none in 25: NOPs that go on to one another. -/
def nops : List (BitVec 40) := (List.range 64).map (fun k => uword ((k + 1) % 64) 0 0)

/-- HALT at the dispatch entry 0x16 with every outcome of its routine. -/
theorem witness_SequencerUnits :
    (let s := withStore nops {} (runs1 (.halt 31) id)
     (s.fetch 31).any (fun x => decide (Interprets s 31 (.halt 31) x.1 x.2 0 0x5800000000000000)) = true ∧
     (MRun.run 31 { mode := .ready, img := imgOf [], tag := 5 } 0x5800000000000000 (s.engAt 31).ucode.words 25 0x16
       { b := burst0, m := {}, ip := 1, moved := false }).2 = .check 1 ∧
     (s.fetch 31).isSome = true ∧ (s.engAt 31).ucode.words ≠ []) ∧
    (let s := withStore nops { pc := some 3, ir := 0 } (runs1 (.halt 31) id)
     (s.fetch 31).any (fun x => decide (Interprets s 31 (.halt 31) x.1 x.2 0 0x5800000000000000)) = true) ∧
    (MRun.run 31 { mode := .ready, img := imgOf [], tag := 5 } 0x5800000000000000 [] 25 0x16
      { b := burst0, m := {}, ip := 1, moved := false }).2 = .check 1 ∧
    (MRun.run 31 { mode := .ready, img := imgOf [], tag := 5 } 0 (List.replicate 64 1) 25 0x16
      { b := burst0, m := {}, ip := 1, moved := false }).2 = .check 0 ∧
    (runs1 (.halt 31) id).fetch 31 ≠ none ∧ reservedOpcode 0 = true ∧ reservedOpcode 0x17 = true ∧
    reservedOpcode 0x3F = true ∧ (r0.engAt 31).mode ≠ .fenced ∧ (r0.engAt 31).ucode.words = [] ∧
    (let b : Burst := { burst0 with phase := .running, halted := true }
     let s := onRunner 35 [0] (fun _ => b); s.burstAt 35 = some b ∧ b.ended = true ∧ b.phase = .running) := by
  decide +kernel

/-- FSYNC on a position to come, whose result is not final, stalls. -/
theorem witness_SequencerUnits_stall :
    (MRun.run 31 { mode := .ready, img := imgOf [], tag := 5 } 0 (List.replicate 64 (uword 0 0x15 0)) 25 0x16
      { b := { burst0 with vix := 1000 }, m := {}, ip := 1, moved := false }).2 = .stall := by decide +kernel

/-- A position at the head of the island buffer, and each descriptor that names it. -/
theorem witness_DescriptorsAct :
    let c : Column := { vec := some 0, ip := 0 }
    let d (x : Ctl) : CtlDesc := { pos := 0, ctl := x }
    let b (x : Ctl) : Burst := { burst0 with phase := .running, cols := [c], ctls := [d x] }
    let s (x : Ctl) := onRunner 35 [0] (fun _ => b x)
    (∀ x ∈ ([.mark 7 3, .signal 1, .tset 63 1 false, .stream 1 2 0, .capon 15, .capoff 15, .stamp 255 true,
        .stamp 255 false, .inj 15 7, .failstop true] : List Ctl),
      (s x).burstAt 35 = some (b x) ∧ ((s x).imgOf (b x)).isSome = true ∧ (b x).ended = false ∧ (b x).canEmit = true ∧
      (b x).cols = [c] ∧ (b x).ctls = [d x] ∧ (d x).pos ≤ (b x).emitted) ∧
    (0 : Site) ∈ burst0.sites ∧
    (let u : State := { s (.stamp 255 true) with host.params := [(pid 7 255 0x00B, 0), (pid 7 255 0x001, 0)] }
     u.msPar 255 0x00B = 0 ∧ u.msPar 255 0x001 = 0) := by decide +kernel

/-- A ready task of HP0 with image 0 of these segments, site 0 with channel 0 connected and its group calibrated. -/
def ready0 (segments : List Segment) (d : TaskDesc) : State :=
  { withImage .ready { img0 with segments } with
    pf.site := [(0, { defn := some siteRec0 })]
    pf.grp := [(0, { pll := .locked, refCount := 1, calStale := false })]
    pf.lane := [(0, { mode := .hiz, idle := true })]
    pf.dps := [(0, { refState := 1 })]
    host.params := [(pid 3 0 0x00A, 1)]
    sch.tasks := [(0, { desc := d, part := 0, tag := 5, order := 0, at_ := 0, mode := .ready })] }

/-- The task is eligible, its completion is not held back, and the verdict is as a test says. -/
def tried (s : State) (f : Verdict → Bool) : Bool :=
  (s.taskAt 0).any (fun t => s.eligible t && decide ((s.fnAt t.part.val).cplHeld.length < 512) && f (s.verdict 0 t) &&
    s.isNext 0 t)

/-- The four verdicts: go; refused, its island out of service; stale, not calibrated; wait, its site in a burst. -/
theorem witness_TaskDispatchFollowsItsVerdict :
    tried (ready0 noReach task0) (fun v => v.isGo) = true ∧
    tried ({ ready0 img0.segments task0 with pf.grp := [(0, { pll := .fenced, dead := true })] }) (fun v => v == .refuse .fenced []) = true ∧
    tried ({ ready0 img0.segments task0 with pf.grp := [(0, { pll := .locked, bank0 :=
      [(0, { group := 0, ts := 0, define := true, period := 2500, entries := [], rsvd := false })] })] }) (fun v => v == .stale) = true ∧
    tried ({ ready0 noReach task0 with ve.bursts := [(31, burst0)] }) (fun v => v == .wait) = true := by decide +kernel

/-- 192 hold positions in the island buffers. -/
def lead : List Column := List.replicate 192 { vec := none, ip := 0 }

/-- A burst that fills, prefills with all of a halted program or with the lead of 192, starts on a runner. -/
theorem witness_BurstPreparation :
    (let b : Burst := { burst0 with phase := .filling }
     (onRunner 31 [0] (fun _ => b)).burstAt 31 = some b ∧ b.phase = .filling) ∧
    (let b : Burst := { burst0 with phase := .prefill, halted := true, groups := [0, 15], filled := [0] }
     (onRunner 35 [0] (fun _ => b)).burstAt 35 = some b ∧ b.phase = .prefill ∧ b.fillReady = true ∧
     b.groups.contains 15 = true ∧ b.groups.contains 0 = true ∧ b.filled.contains 0 = true ∧
     b.groups.all (fun x => (b.filled ++ [15]).contains x) = true ∧
     b.groups.all (fun x => b.filled.contains x) = false) ∧
    (let b : Burst := { burst0 with phase := .prefill, cols := lead }
     (onRunner 35 [0] (fun _ => b)).burstAt 35 = some b ∧ b.fillReady = true ∧ b.groups = []) ∧
    (let b : Burst := { burst0 with phase := .started, startTick := some 1000 }
     let s := onRunner 35 [0] (fun _ => b)
     s.burstAt 35 = some b ∧ b.phase = .started ∧ b.startTick = some 1000 ∧
     (∀ x ∈ s.ve.drain, ∀ k ∈ x.2.sites, k ∉ b.sites)) := by decide +kernel

def flight0 : Flight :=
  { pos := 0, cycle := 0, seg := 0, vec := 0, start := 0, period := 2500, inMatch := false, masked := [], vflags := []
    hold := false, caps := [], fields := [], failstop := false }

def running0 : Burst :=
  { burst0 with phase := .running, startTick := some 0, period := 2500
                runs := [{ kind := .seq, first := 0, n := 2, vp := 0, ip := 0 }] }

/-- Its run waits for granule 2 of the image, on pseudo-channel 0. -/
def awaiting : Burst :=
  { running0 with runs := [{ kind := .seq, first := 0, n := 2, vp := 0, ip := 0, bits := 4 }]
                  strm := { asked := 1, need := 1, out := [{ sq := 0, gran := 2 }] } }

/-- Granules that come back, positions that leave, the pattern's and the raster's. -/
theorem witness_BurstEmission :
    (let s := onRunner 31 [0] (fun _ => awaiting)
     s.burstAt 31 = some awaiting ∧ (s.imgOf awaiting).any (fun m => awaiting.strm.awaits (fun g => m.pcOf g == 0) &&
       (awaiting.strm.out.find? (fun r => m.pcOf r.gran == 0)).map (·.gran) == some 2) = true ∧
     (s.mcAt 0).mode ≠ 3) ∧
    (let b : Burst := { running0 with cols := lead }
     let s := onRunner 35 [0] (fun _ => b)
     s.tryRelease 35 = s ∧ s.burstAt 35 = some b ∧ (s.imgOf b).isSome = true ∧ b.raster = false ∧ b.canEmit = true ∧
     b.cols = { vec := none, ip := 0 } :: lead.tail ∧ b.ctls = []) ∧
    (let b : Burst := { running0 with raster := true }
     let s := onRunner 35 [0] (fun _ => b)
     s.tryRelease 35 = s ∧ s.burstAt 35 = some b ∧ b.raster = true ∧ b.halted = false ∧ b.canEmit = true) ∧
    (let s := onRunner 31 [0] (fun _ => running0)
     31 < 32 ∧ s.burstAt 31 = some running0 ∧ running0.canEmit = true) ∧
    (let b : Burst := { running0 with flight := [flight0] }
     let s : State := { onRunner 31 [0] id with ve.bursts := [], ve.drain := [(31, b)] }
     s.oldest 31 = some (true, b) ∧ b.flight = flight0 :: []) ∧
    (let b : Burst := { running0 with flight := [flight0], cycle := 32 }
     let s := onRunner 31 [0] (fun _ => b)
     s.oldest 31 = some (false, b) ∧ b.dueFinal flight0 = true) := by decide +kernel

/-- A position is missing: of a burst that may pause, has paused before, may not pause; its granule on a fenced channel. -/
theorem witness_BurstEmission_missing :
    (∀ b ∈ ([awaiting, { awaiting with pausable := true }, { awaiting with pausable := true, stretched := true }] : List Burst),
     ∀ c ∈ ([.lateFetch, .refresh, .retrain] : List Short),
      let s := onRunner 35 [0] (fun _ => b)
      s.burstAt 35 = some b ∧ (s.imgOf b).any (fun m => decide (b.lacks m = some (.granule 2)) &&
        decide ((Lack.granule 2).mc m = (some (0 : Mc)).map (·.val)) && s.causeFits m c (.granule 2)) = true ∧ b.raster = false ∧ b.phase = .running ∧ b.waiting = false ∧ b.paused = none ∧
      b.before b.cycle = true ∧ b.spent = false ∧ b.cols = [] ∧ c ≠ .fence) ∧
    (let s : State := { onRunner 35 [0] (fun _ => awaiting) with mem.mc := [(0, { mode := 3 })] }
     s.burstAt 35 = some awaiting ∧ (s.imgOf awaiting).any (fun m => decide (awaiting.lacks m = some (.granule 2)) &&
       decide ((Lack.granule 2).mc m = (some (0 : Mc)).map (·.val)) && s.causeFits m .fence (.granule 2)) = true) ∧
    (let b : Burst := { running0 with runs := [] }
     let s := onRunner 35 [0] (fun _ => b)
     (s.imgOf b).any (fun m => decide (b.lacks m = some (.sequencer true)) &&
       decide ((Lack.sequencer true).mc m = (none : Option Mc).map (·.val)) && s.causeFits m .sequencer (.sequencer true)) = true ∧
     b.spent = false) := by decide +kernel

/-- A pause that ends, a limit that is reached. -/
theorem witness_BurstEmission_pause :
    let p : Pause := { cause := .refresh }
    let b : Burst := { running0 with pausable := true, paused := some p, stretched := true, cols := lead }
    (let s : State := { onRunner 31 [0] (fun _ => b) with host.params := [(pid 10 0 0x110, 0)] }
     s.burstAt 31 = some b ∧ b.paused = some p ∧ b.refilled = true ∧ b.spent = false ∧
     b.before (max b.cycle (b.cycleAt (4000 * s.now)) + 48) = true ∧ s.stretchMax b = none) ∧
    (let s : State := { onRunner 31 [0] (fun _ => b) with host.params := [(pid 10 0 0x110, 1)] }
     s.burstAt 31 = some b ∧ s.stretchMax b = some 1600 ∧ b.before (b.cycle + (1600 - b.holds)) = true) := by decide +kernel

def term0 : Term := { time := 0, act := 0, way := .stop, result := { res := .aborted } }

theorem witness_BurstEnds :
    (let b : Burst := { running0 with sites := [], terms := [term0] }
     let s := onRunner 31 [0] (fun _ => b)
     s.burstAt 31 = some b ∧ b.firstAct = some term0 ∧ b.goesOn = true ∧ term0.act ≤ b.cycle ∧
     b.terms.any (fun x => x.way == .safe && decide (x.act ≤ term0.act)) = false ∧ term0.way ≠ .keep) ∧
    (∀ w ∈ ([.keep, .safe] : List EndWay),
     let u : Term := { term0 with way := w, act := 5 }
     let b : Burst := { running0 with terms := [u], paused := some { cause := .refresh } }
     let s := onRunner 31 [0] (fun _ => b)
     s.burstAt 31 = some b ∧ b.firstAct = some u ∧ b.goesOn = true ∧ b.paused.isSome = true ∧
     b.terms.any (fun x => x.way == .safe && decide (x.act ≤ u.act)) = (w == .safe)) ∧
    (let b : Burst := { running0 with terms := [{ term0 with act := 5 }], emitted := 1
                                      waits := [{ selector := 0, pos := 1, timeout := 0, toFail := false, latch := false }] }
     b.firstAct = some { term0 with act := 5 } ∧ b.goesOn = true ∧ b.waiting = true) ∧
    (let b : Burst := { running0 with runLimit := 1 }
     let s := onRunner 31 [0] (fun _ => b)
     s.burstAt 31 = some b ∧ b.startTick = some 0 ∧ 0 < b.runLimit ∧ b.live = true ∧
     (∀ x ∈ b.terms, x.result ≠ invalidRes rOVERTIME)) ∧
    (let b : Burst := { running0 with halted := true, runs := [] }
     let s := onRunner 31 [0] (fun _ => b)
     s.burstAt 31 = some b ∧ b.ended = true ∧ b.phase = .running ∧
     ((((s.actRest 31 b).lanesMode b .hold).moveTo (nsOf b.nextStart)).tcApply b).burstAt 31 = some b ∧ b.raster = false) ∧
    (let b : Burst := { burst0 with phase := .draining, startTick := some 0 }
     let s := onRunner 31 [0] (fun _ => b)
     s.burstAt 31 = some b ∧ b.phase = .draining ∧ b.isStarted = true ∧ b.raster = false) ∧
    (let s := onRunner 31 [0] (fun _ => running0); s.burstAt 31 = some running0 ∧ running0.ended = false) ∧
    (let b : Burst := { burst0 with phase := .draining }
     let s : State := { r0 with ve.drain := [(35, b)] }
     s.ve.drain.find? (fun x => x.1 == 35) = some (35, b) ∧ b.flight = [] ∧ s.allChecked 35 b = true ∧ b.isStarted = false) ∧
    (let b : Burst := { burst0 with phase := .draining, startTick := some 0 }
     let s : State := { r0 with ve.drain := [(35, b)] }
     s.ve.drain.find? (fun x => x.1 == 35) = some (35, b) ∧ b.flight = [] ∧ s.allChecked 35 b = true ∧ b.isStarted = true) := by decide +kernel

theorem witness_SchedulerRows :
    (let s := withTask id
     (s.taskAt 4095).any (fun t => decide (0 < t.desc.waitTimeout) &&
       !(s.moveTo (t.at_ + 1000 * t.desc.waitTimeout)).goesNow 4095 t) = true) ∧
    (let s := ready0 noReach task0
     (s.taskAt 0).any (fun t => decide (0 < t.desc.waitTimeout) &&
       (s.moveTo (t.at_ + 1000 * t.desc.waitTimeout)).goesNow 0 t) = true) ∧
    (let s := withTask (fun t => { t with mode := .ready, failedAdmit := some 0 })
     (s.headTask).map (·.1) = some 4095 ∧ s.sch.gov.closed = false) ∧
    (let s := withTask (fun t => { t with patience := some 0 }); (s.taskAt 4095).any (fun t => t.patience == some 0) = true) ∧
    (let b : Burst := { burst0 with phase := .waitTrig }
     let s := onRunner 35 [0] (fun _ => b); s.burstAt 35 = some b ∧ b.phase = .waitTrig) ∧
    (let d : SiteRec := { siteRec0 with linked := true, members := 2, linkId := 7, home := r0.node }
     let s : State := { withSite (fun x => { x with defn := some d }) with sch.link := [(7, { endedAt := some 0 })] }
     (s.siteAt 0).defn = some d ∧ (s.linkAt d.linkId).endedAt = some 0 ∧ d.linked = true ∧ d.home = s.node ∧
     (s.linkAt d.linkId).results.any (fun x => x.1 == 9) = false) ∧
    (let x : TokIn := { scope := 0, kind := 0, key := 0, result := 0 }
     let s : State := { r0 with ngl.port := [(5, { mode := .active, held := some (x, 0) })] }
     (s.portAt 5).held = some (x, 0) ∧ (s.portAt 5).stalled = false) := by decide +kernel

/-- Site 0 with its record and its sequence at a phase, DPS 0 in a mode. -/
def inSeq (up : Bool) (phase : SeqPhase) (f : DpsSt → DpsSt) : State :=
  { withSite (fun x => { x with seq := some seq0, seqRun := some { up, step := 0, phase, part := 0, tag := 5, due := 0 } }) with
    pf.dps := [(0, f {})] }

def seq2 : SeqRec := { seq0 with steps := seq0.steps ++ seq0.steps }

theorem witness_PowerSequenceRows :
    (let s := inSeq true .waitAdmit id
     (s.curStep 0).any (fun x => x.1.up && x.1.phase == .waitAdmit &&
       s.admitStep (dpsDemand x.2.channel 0 (s.parN 4 x.2.channel 0x003)) && !s.dpsInCal x.2.channel &&
       (s.dpsAt x.2.channel).mode == .off) = true) ∧
    ((inSeq true .sweep (fun d => { d with mode := .sweep })).dpsAt 0).mode = .sweep ∧
    (let s := inSeq true .ramp (fun d => { d with mode := .ramping })
     (s.dpsAt 0).mode = .ramping ∧ s.rampsDown 0 = false ∧ (s.stepOf 0).map (fun x => x.2.2.waitSettle) = some true) ∧
    (let s := inSeq true .settle (fun d => { d with mode := .settling, inSince := some 0 })
     (s.dpsAt 0).mode = .settling ∧ (s.dpsAt 0).inSince = some 0 ∧
     (s.curStep 0).any (fun x => x.1.up && x.1.phase == .settle) = true) ∧
    (let s := inSeq true .ramp (fun d => { d with mode := .ramping })
     ((s.updSite 0 (fun x => { x with seq := some { seq0 with steps := seq0.steps.map (fun x => { x with waitSettle := false }) } })).stepOf 0).map
       (fun x => x.2.2.waitSettle) = some false) ∧
    (let s : State := { r0 with pf.dps := [(17, { mode := .ramping })] }; (s.dpsAt 17).mode = .ramping ∧ s.stepOf 17 = none) ∧
    (let s : State := { r0 with pf.dps := [(17, { mode := .settling, inSince := some 0 })] }
     (s.dpsAt 17).mode = .settling ∧ (s.dpsAt 17).inSince = some 0 ∧ s.stepOf 17 = none) ∧
    (∀ up ∈ [true, false], let s := inSeq up .delay id
     (s.siteAt 0).seqRun = some { up, step := 0, phase := .delay, part := 0, tag := 5, due := 0 } ∧
     (s.siteAt 0).seq = some seq0 ∧ seq0.steps.length ≤ 0 + 1 ∧ 0 + 1 < seq2.steps.length) ∧
    (let s := inSeq false .ramp (fun d => { d with mode := .discharging })
     (s.stepOf 0).any (fun x => !x.2.1.up && x.2.1.phase == .ramp) = true) ∧
    (let s : State := { r0 with pf.dps := [(17, { mode := .discharging, dischAt := some 0 })] }
     s.stepOf 17 = none ∧ (s.dpsAt 17).mode = .discharging ∧ (s.dpsAt 17).dischAt = some 0 ∧ (s.dpsAt 17).slow = false) := by
  decide +kernel

/-- A step within a record of two whose wait ends, going up and going down. -/
theorem witness_PowerSequenceRows_steps :
    (∀ up ∈ [true, false], ∀ step ∈ [0, 1],
      let s := withSite (fun x => { x with seq := some seq2, seqRun := some { up, step, phase := .delay, part := 0, tag := 5, due := 0 } })
      (s.siteAt 0).seqRun.any (fun r => r.phase == .delay && r.up == up && r.step == step) = true ∧
      (s.siteAt 0).seq.any (fun q => q.steps.length == 2) = true) := by decide +kernel

theorem witness_SupplyMonitorRows :
    (let s : State := { r0 with pf.dps := [(17, { mode := .on, outSince := some 0, known := true, blanked := false, hi := true })]
                                host.params := [(pid 4 17 0x018, 1)] }
     (s.dpsAt 17).outSince = some 0 ∧ (s.dpsAt 17).on = true ∧ (s.dpsAt 17).known = true ∧ (s.dpsAt 17).blanked = false ∧
     s.parN 4 17 0x018 = 1 ∧ (s.dpsAt 17).localSense = false ∧ (s.dpsAt 17).mode ≠ .fenced) ∧
    (r0.dpsAt 17).known = false := by decide +kernel

theorem witness_PinElectronicsRows :
    (let s : State := { r0 with pf.lane := [(527, { mode := .driveHigh, limit := true, sweep := true })] }
     (s.laneAt 527).limit = true ∧ (s.laneAt 527).mode ≠ .opened ∧ (s.laneAt 527).sweep = true) ∧
    (let s : State := { r0 with pf.lane := [(526, { sweep := true })], host.params := [(pid 3 511 0x00A, 1)] }
     (s.laneAt 526).sweep = true ∧ s.chanOf 526 = some 511 ∧ (s.laneAt 526).mode = .opened ∧ s.parN 3 511 0x00A = 1 ∧
     (s.laneAt 526).fenced = false) ∧
    (∀ conn ∈ [0, 1, 2], let s : State := { r0 with
        pf.lane := [(526, { changing := true })], host.params := [(pid 3 511 0x00A, conn)] }
     (s.laneAt (s.laneOf 511)).changing = true ∧ (s.laneAt (s.laneOf 511)).fenced = false ∧ s.parN 3 511 0x00A = conn ∧
     s.pwr.safe = false ∧ s.chanSafe 511 = false) ∧
    (let s : State := { r0 with pf.lane := [(526, { mode := .pmu })], pf.grp := [(15, { pmuConn := some 511 })] }
     (s.pmuOn 15).isSome = true ∧ (s.grpAt 15).pmuSettled = false) ∧
    (let s : State := { r0 with pf.dps := [(17, { mode := .on })] }; (s.dpsAt 17).on = true) := by decide +kernel

def strm0 : StrmRec := { type := 0, source := 0, rflags := 0, time := 0, len := 1, words := [0, 0, 0, 0, 0, 0] }

theorem witness_CaptureRows :
    (let s : State := { r0 with host.params := [(pid 5 1 0x0A2, 128)] }; 128 ≤ s.parN 5 1 0x0A2) ∧
    (let s : State := { onRunner 31 [0] (fun _ => running0) with host.params := [(pid 5 1 0x0A2, 0)] }
     let u := (s.moveTo (0 + 48)).occurAt 0 (4000 * (0 + 48)) ((s.moveTo (0 + 48)).trgsOf 0 6 (fun a => a == 1)) none false
     s.parN 5 1 0x0A2 < 128 ∧ u.siteRunner 0 = some 31 ∧ (u.burstAt 31).any (fun b => b.isStarted && b.phase != .draining) = true) ∧
    (let s : State := { r0 with acq.cu := [(15, { mode := 1, trig := some 0, taken := 2 })], host.params := [(pid 5 15 0x045, 1), (pid 5 15 0x046, 0), (pid 5 15 0x04A, 1)] }
     (s.cuAt 15).mode = 1 ∧ s.parN 5 15 0x045 = 1 ∧ (s.cuAt 15).trig = some 0 ∧ s.parN 5 15 0x046 = 0 ∧
     0 + s.parN 5 15 0x04A < (s.cuAt 15).first + (s.cuAt 15).taken) ∧
    (let s : State := { r0 with acq.cu := [(15, { mode := 1, trig := some 0, post := 2 })], host.params := [(pid 5 15 0x045, 1), (pid 5 15 0x046, 1), (pid 5 15 0x04A, 1)] }
     s.parN 5 15 0x045 = 1 ∧ s.parN 5 15 0x046 ≠ 0 ∧ s.parN 5 15 0x04A < (s.cuAt 15).post) ∧
    (let s : State := { r0 with acq.hs := [(63, { mode := .open_, desc := some stream0, prod := 64, cons := 32 })] }
     (s.hsAt 63).running = true ∧ s.streamDown 63 = false ∧ (s.hsAt 63).wait = [] ∧ (s.hsAt 63).cons ≤ 32 ∧ 64 ≤ (s.hsAt 63).prod ∧
     31 < (s.hsAt 63).cons ∧ (s.hsAt 63).prod < 65 ∧
     (s.updHs 63 (fun x => { x with mode := .error })).ownerBy (fun r => r.streams.getLsbD 63) = some 0) ∧
    (∀ prodOut ∈ [0, 64], let s : State := { r0 with
       acq.hs := [(63, { mode := .open_, desc := some stream0, prod := 64, prodOut, wait := [strm0] })] }
     (s.hsAt 63).running = true ∧ s.streamDown 63 = false ∧ (s.hsAt 63).wait = [strm0] ∧ (s.hsAt 63).prod = 64 ∧
     (s.hsAt 63).prodOut = prodOut) ∧
    (let s : State := { r0 with host.ptab := [(0, PartRec.none 0)], acq.hs := [(63, { mode := .open_ })] }
     (s.hsAt 63).running = true ∧
     (s.updHs 63 (fun x => { x with mode := .error })).ownerBy (fun r => r.streams.getLsbD 63) = none) := by decide +kernel

theorem witness_TimeMeasurementRows :
    (let s : State := { r0 with acq.ms := [(255, { raw := [1] })] }; (s.msAt 255).raw ≠ []) ∧
    (∀ last ∈ [none, some 1590, some 1591], let s : State := { r0 with
        pf.lane := [(526, { mode := .hiz, lastStamp := last })], host.params := [(pid 3 511 0x00A, 1)] }
     s.chanOf 526 = some 511 ∧ s.stamps 526 511 = true ∧ (s.laneAt 526).lastStamp = last) ∧
    2000 < 1591 + deadStamps ∧ 1590 + deadStamps ≤ 2000 ∧
    (let s : State := { r0 with acq.ms := [(255, { armed := true })], host.params := [(pid 7 255 0x00A, 1)] }
     (s.msAt 255).armed = true ∧ (s.msAt 255).fenced = false ∧ 0 < s.msPar 255 0x00A) ∧
    (let s : State := { r0 with acq.ms := [(255, { armed := true, gates := [(4, 512000, 700)] })] }
     (s.msAt 255).gates = [(4, 512000, 700)] ∧ (s.msAt 255).armed = true ∧ (r0.msAt 255).gates = []) ∧
    (let s : State := { r0 with
       pf.lane := [(526, { mode := .hiz })], acq.ms := [(255, { armed := true })]
       host.params := [(pid 3 511 0x00A, 1), (pid 7 255 0x003, 511 + 2 ^ 17)] }
     s.stampOf 511 2000 = 2000 ∧ s.selected 511 false true = true ∧ s.selected 511 true true = false) ∧
    (let s : State := { r0 with acq.osc := { tcomp := 100000 } }; s.acq.osc.tcomp.natAbs = 100000) ∧
    r0.acq.osc.tcomp.natAbs ≠ 100000 ∧ (clampInt 100000 5).natAbs < 100000 ∧ (clampInt 100000 100001).natAbs = 100000 ∧
    r0.acq.osc.ageing = r0.par (pid 7 0 0x101) ∧ r0.acq.osc.state = 0 ∧
    (let s : State := { r0 with acq.osc := { ageing := -5 } }; s.acq.osc.ageing ≠ s.par (pid 7 0 0x101)) ∧
    (let s : State := { r0 with acq.osc := { ageing := 999950 }, host.params := [(pid 7 0 0x101, 1000000)] }
     s.acq.osc.ageing ≠ s.par (pid 7 0 0x101) ∧ (999950 + (1000000 - 999950) : Int).natAbs = 1000000) ∧
    (let s : State := { r0 with acq.osc := { state := 1 } }; s.acq.osc.state ≠ 0 ∧ s.acq.osc.state ≠ 4) := by decide +kernel

/-- A regular conversion that starts and one that is skipped, a request, a result, a self-calibration whose factors are
accepted at the limits and one whose factors are not. -/
theorem witness_ConverterRows :
    (∀ run ∈ [none, some (⟨false, 0, noPos, 0, true, false⟩ : ConvRun)],
     let s : State := { r0 with acq.padc := [(15, { running := run, warmed := true })], host.params := [(pid 8 15 0x010, 2)] }
     s.parN 8 15 0x010 = 2 ∧ (s.padcAt 15).fenced = false ∧ (s.padcAt 15).running = run ∧ (s.padcAt 15).busy = run.isSome) ∧
    (let s : State := { r0 with acq.padc := [(15, { pending := some (3, 0, 0) })] }
     (s.padcAt 15).pending = some (3, 0, 0) ∧ (s.padcAt 15).fenced = false ∧ (s.padcAt 15).running = none) ∧
    (let s : State := { r0 with acq.padc := [(16, { running := some ⟨false, 0, noPos, 0, true, false⟩ })] }
     (s.padcAt 16).running.isSome = true ∧ s.convSite 16 = none ∧ ([8388608] : List Int).length = s.csPar 16 0 0x023) ∧
    (let s : State := { withSite id with acq.padc := [(0, { running := some ⟨false, 0, noPos, 0, true, false⟩ })], host.params := [(pid 3 0 0x00A, 2)] }
     (s.padcAt 0).running.isSome = true ∧ s.convSite 0 = some 0 ∧ ([-8388609] : List Int).length = s.csPar 0 0 0x023) ∧
    (let s : State := { r0 with acq.padc := [(15, { warmed := true, calWait := true })] }
     (s.padcAt 15).fenced = false ∧ (s.padcAt 15).calRun = false ∧ (s.padcAt 15).warmed = true ∧ (s.padcAt 15).calWait = true ∧
     (s.padcAt 15).running = none ∧ (s.padcAt 15).calAuto = false) ∧
    (let s : State := { r0 with acq.padc := [(15, { warmed := true, calTemp := 2999, pending := some (0, 0, 0) })]
                                host.params := [(pid 8 15 0x006, 1)] }
     (s.padcAt 15).calWait = false ∧ s.parN 8 15 0x006 = 1 ∧ s.convSite 15 = none ∧ (s.padcAt 15).pending.isSome = true ∧
     500 < ((s.grpAt 15).tIsl - (s.padcAt 15).calTemp).natAbs) ∧
    (let s : State := { r0 with acq.padc := [(15, { calRun := true, ref := some 4000000 })] }
     (s.padcAt 15).calRun = true ∧ (s.padcAt 15).calCmd = none ∧
     factorsOk 65536 (gainOf ((s.padcAt 15).ref.getD (Config.padcRef 15)) 65536 4065536) = true ∧
     factorsOk 65537 (gainOf ((s.padcAt 15).ref.getD (Config.padcRef 15)) 65537 4065537) = false) ∧
    (let s : State := { r0 with acq.padc := [(15, { calRun := true, calCmd := some (0, 5) })] }
     (s.padcAt 15).calCmd = some (0, 5)) ∧
    (r0.padcAt 16).warmed = false ∧ (r0.padcAt 16).fenced = false ∧ r0.pwr.sup.released = true ∧
    (∀ w ∈ [true, false], ∀ n ∈ [0, 1, 35], let s : State := { r0 with acq.padc := [(16, { warmed := true, calWait := w })], acq.hkSlot := n }
     (s.padcAt 16).fenced = false ∧ (s.padcAt 16).calRun = false ∧ (s.padcAt 16).warmed = true ∧ s.acq.hkSlot % 2 = n % 2 ∧
     (s.padcAt 16).calWait = w ∧ (s.padcAt 16).calAuto = false ∧ (s.padcAt 16).running = none) ∧
    (r0.padcAt 15).calCmd = none := by decide +kernel

/-- A burst on raster engine 3. -/
def onRaster (f : Burst → Burst) : State :=
  { r0 with ve.bursts := [(35, f { running0 with raster := true, entry := 3 })]
            host.params := [(pid 6 3 0x002, 0), (pid 6 3 0x004, 1), (pid 6 (2 * 3 + 1) 0x010, 1)] }

theorem witness_RasterRows :
    (let s := onRaster (fun b => { b with emitted := 96000 })
     (s.burstAt 35).any (fun b => b.isStarted && decide ((s.rseMode 3).va ≤ (s.rseMode 3).lineOf (s.rseClock 3 b)) &&
       decide ((s.rseAt 3).blanks ≤ s.rseClock 3 b / (s.rseMode 3).frameClocks)) = true) ∧
    (let s : State := { onRaster (fun b => { b with emitted := 96000 }) with rse := [(3, { stage1 := [(pid 6 3 0x007, 1)] })] }
     (s.rseAt 3).stage1 = [(pid 6 3 0x007, 1)]) ∧
    (let s : State := { onRaster id with
       rse := [(3, { mismatch := true })]
       host.params := [(pid 6 0 0x030, 15), (pid 6 (16 * 3 + 15) 0x021, 1), (pid 6 (16 * 3 + 15) 0x022, 7)] }
     s.ve.drain = [] ∧ (s.burstAt 35).any (fun b => b.isStarted && decide (s.parN 6 3 0x00B + (s.rseAt 3).checked < b.entry)) = true ∧
     (s.rseAt 3).chks = [] ∧ (s.rseChans 3).any (fun c => bit (s.parN 6 c 0x030) 2 == 1) = true ∧
     s.parN 6 (16 * 3 + 15) 0x021 ≠ 0 ∧ 0 ≠ s.parN 6 (16 * 3 + 15) 0x022 ∧
     Tbl.get (s.rseAt 3).pix 0 (s.parN 6 3 0x00B + (s.rseAt 3).checked) = 0 ∧ (s.rseAt 3).mismatch = true) ∧
    (∀ pix ∈ [[], [(0, 1)]], ∀ v ∈ [0, 1], let s : State := { onRaster id with
       rse := [(3, { pix })]
       host.params := [(pid 6 3 0x004, 1), (pid 6 3 0x007, v), (pid 6 (2 * 3 + 1) 0x010, 1)] }
     (s.burstAt 35).any (fun b => b.live) = true ∧ s.parN 6 (2 * 3 + b2n true) 0x010 = 1 ∧ (s.rseAt 3).pix = pix ∧
     (s.parN 6 3 0x007 : Int) = v ∧ (s.burstAt 35).isSome = true) := by decide +kernel

theorem witness_MemoryRows :
    (r0.pcAt 63).power ≠ 2 ∧ (r0.mcAt 31).mode ≠ 3 ∧ (r0.pcAt 63).catchAt = none ∧ r0.streamHeld = 0 ∧
    (∀ n ∈ [6, 7], let s : State := { r0 with mem.pc := [(63, { owed := n })] }; (s.pcAt 63).owed = n) ∧
    (let s : State := { r0 with ve.bursts := [(0, { running0 with demand := 20972 })] }
     s.streamHeld ≠ 0 ∧ s.defersTraining = true) ∧
    (let s : State := { r0 with now := 10000000 }; (s.stackAt 1).lastRead + 10000000 ≤ s.now) ∧
    (let s : State := { r0 with mem.stack := [(1, { temp := 500 })] }
     (s.mcAt 31).mode = 1 ∧ (s.mcAt 31).urgent = false ∧ s.tempMoved 31 = true ∧ s.defersTraining = false ∧ s.mayTrain 31 = true) ∧
    (let s : State := { r0 with mem.mc := [(31, { deferred := some 0 })] }
     (s.mcAt 31).deferred = some 0 ∧ s.mayTrain 31 = true) ∧
    (let s : State := { r0 with mem.mc := [(31, { mode := 2 })] }; (s.mcAt 31).mode = 2) ∧
    (let s : State := { r0 with mem.mc := [(31, { alerts := List.replicate 64 0 })] }
     (s.mcAt 31).mode ≠ 3 ∧ 64 < ((s.mcAt 31).alerts.filter (fun t => decide (s.now < t + 1000000000)) ++ [s.now]).length ∧
     ((r0.mcAt 31).alerts ++ [r0.now]).length ≤ 64) ∧
    (let s : State := { r0 with host.params := [(pid 10 0 0x011, 1)] }
     (s.mcAt 31).mode = 1 ∧ s.parN 10 0 0x011 = 1 ∧ s.stopRefresh 1 = false ∧ s.tolerates 1000 = true ∧
     s.tolerates 20000 = true ∧ (s.pcAt 63).power = 0) ∧
    (let s : State := { r0 with mem.pc := [(63, { power := 2 })] }; (s.pcAt 63).power ≠ 0 ∧ s.stopRefresh 1 = false) ∧
    (r0.mcAt 31).mode = 1 ∧ r0.stopRefresh 1 = false ∧ 0 < 4096 * r0.pagesOf 0 ∧
    r0.mem.bad.contains (hbmKey 0 0 / 64) = false ∧
    (let s : State := { r0 with mem.bad := [hbmKey 0 64 / 64] }; s.mem.bad.contains (hbmKey 0 64 / 64) = true) := by
  decide +kernel

/-- A node of a tree with this time domain. -/
def withDom (sel : Nat) (x : DomSt) (f : TimeSt → TimeSt) : State :=
  { r0 with ngl.port := [(0, { mode := .active }), (1, { mode := .active })], ngl.dom := [(0, x)], ngl.tm := f { sel }
            host.params := [(pid 11 0 0x001, 1)] }

theorem witness_TimeTickRows :
    r0.sends 0 = false ∧ r0.sends 1 = false ∧ (0 : BitVec 8) ≠ crc8 (tickBits 0 7 5 9) ∧
    (let s := withDom 0 { tracked := true, master := 7, foreignMaster := 8, foreign := 1 } (fun t => { t with joined := true, lock := false, inLockSince := some 0 })
     s.sends 0 = true ∧ s.sends 1 = false ∧ s.portUp 0 = true ∧ s.domPort 0 = 0 ∧ s.isMaster 0 = false ∧
     (s.domAt 0).tracked = true ∧ (s.domAt 0).master = 7 ∧ s.ngl.tm.sel = 0 ∧ s.ngl.tm.joined = true ∧
     (s.domAt 0).foreignMaster = 8 ∧ (s.domAt 0).foreign + 1 < 3 ∧ s.ngl.tm.inLockSince = some 0 ∧ s.ngl.tm.lock = false ∧
     (s.domAt (otherDom 0)).tracked = false) ∧
    (let s := withDom 1 { tracked := true, foreignMaster := 8, foreign := 2 } id
     s.portUp 0 = true ∧ s.domPort 0 = 0 ∧ s.isMaster 0 = false ∧ s.isMaster 1 = false ∧
     s.ngl.tm.sel ≠ 2 ∧ s.ngl.tm.sel ≠ 0 ∧ 3 ≤ (s.domAt 0).foreign + 1 ∧ (s.domAt 0).tracked = true ∧
     (s.domAt (otherDom s.ngl.tm.sel)).tracked = true) ∧
    (let s := withDom 2 {} id; (s.domAt 0).tracked = false ∧ s.ngl.tm.sel = 2) ∧
    (let s : State := { withDom 1 { tracked := true } id with host.params := [(pid 11 0 0x021, 0), (pid 11 0 0x022, 1)] }
     s.parN 11 0 0x022 = 1 ∧ s.ngl.tm.sel ≠ s.parN 11 0 0x021 ∧ (s.domAt (s.parN 11 0 0x021)).tracked = true) := by decide +kernel

/-- Port 2 active, in tree mode. -/
def linked (x : PortSt) : State :=
  { r0 with ngl.port := [(2, { x with mode := .active })], host.params := [(pid 11 0 0x001, 1), (pid 11 0 0x003, 1)] }

/-- The header of a frame with its CRC. -/
def hdr (dst src seq : Nat) (f : Nat → Nat → Frame) : FrameHdr :=
  let g := f dst src
  { dst, src, seq, crc := frameCrc (sofBits g.cls g.bcast g.data.length dst src seq) g.data }

/-- A header is good for its frame, and not with another CRC. -/
def hdrOk (dst src seq : Nat) (f : Nat → Nat → Frame) : Bool :=
  let h := hdr dst src seq f
  frameGood h (f h.dst h.src) && !frameGood { h with crc := h.crc + 1 } (f h.dst h.src)

def rec0 : WireRec := { source := 0x7FF, reaction := 0, time := 0, payload := [] }

def tok0 : TokIn := { scope := 127, kind := 5, key := 2 ^ 48 - 1, result := 65535 }

/-- Good copies of a trigger and a stop, an echo, a flow block; the frames that a port takes in order. -/
theorem witness_LinkReceiveRows_blocks :
    (let s := linked {}
     s.portUp 2 = true ∧ (s.portAt 2).delayValid = false ∧ (s.portAt 2).echoes.length < 63 ∧ (s.portAt 2).replay = [] ∧
     (s.portAt 2).held = none ∧ (s.portAt 2).rxSeq = 0 ∧ (s.portAt 2).rxSeq2 = 0) ∧
    crc8 (trigBits 1 255 9 0) ≠ crc8 (trigBits 1 255 9 1) ∧ crc8 (stopBits true 1 2 3 4 0) ≠ crc8 (stopBits true 1 2 3 4 1) ∧
    (let s := linked { xoffIn := true, replay := [(0, .announce 3 4 5 false)] }
     (s.portAt 2).xoffIn = true ∧ (s.portAt 2).replay ≠ [] ∧ (∀ f ∈ (s.portAt 2).replay, f.1 ≠ 7) ∧
     ackFrames 0 (s.portAt 2).replay = ([(0, .announce 3 4 5 false)], []) ∧ (Frame.announce 3 4 5 false).isAlarm = false) ∧
    hdrOk 3 4 0 (fun d n => .token d n tok0) = true ∧ hdrOk r0.node 4 0 (fun d n => .linkReady d n 9) = true ∧
    hdrOk 3 4 0 (fun d n => .linkResult d n 9 65535) = true ∧ hdrOk 3 4 0 (fun d n => .announce d n 77 true) = true ∧
    hdrOk 3 4 0 (fun d n => .timeSet d n 1 1 1 1000) = true ∧ hdrOk 0x3FFF 4 0 (fun _ n => .timeLabel n 1 5 1000) = true ∧
    hdrOk r0.node 4 0 (fun d n => .alarm d n 0x040 1 0) = true ∧ hdrOk r0.node 4 0 (fun d n => .logDrop d n 5) = true ∧
    (5 : Nat) ≠ 0 ∧ (0 + 4096 - 4095) % 4096 ≤ 32 ∧ 32 < (0 + 4096 - 5) % 4096 := by decide +kernel

/-- The state of a port that has taken a frame in order. -/
def got (s : State) : State := s.updPort 2 (fun x => { x with rxSeq := (x.rxSeq + 1) % 4096, lastRx := x.rxSeq })

theorem witness_LinkReceiveRows :
    (let s := linked {}
     s.node + 1 ≠ s.node ∧ (got s).tokFits tok0 = true ∧ tok0.kind ≠ 6 ∧ (got s).linkSite 9 = none ∧
     Tbl.find ((got s).returnCredit 2).ngl.route 77 = none ∧ 77 ≠ s.node ∧ ((got s).returnCredit 2).nglMode = 1 ∧
     ((got s).returnCredit 2).parN 11 0 0x003 < 2 * 1) ∧
    (let s : State := { linked {} with ngl.route := [(77, 2), (78, 3)] }
     Tbl.find ((got s).returnCredit 2).ngl.route 77 = some 2 ∧ Tbl.find ((got s).returnCredit 2).ngl.route 78 = some 3) ∧
    (∀ valid ∈ [true, false], let s : State := { linked { delayValid := true } with
        host.params := [(pid 11 0 0x001, 2)], ngl.tm := { joined := valid } }
     s.domPort 1 = 2 ∧ ((got s).returnCredit 2).nglMode ≠ 1 ∧
     (let v := ((got s).returnCredit 2).updDom 1 (fun x => { x with master := 1, hops := 1 })
      v.ngl.tm.joined = valid ∧ (v.portAt 2).delayValid = true)) ∧
    (let t : Tok := { scope := 127, kind := 5, key := 0, count := 1, result := 0 }
     let s : State := { linked {} with sch.tokens := List.replicate 16384 t }
     (got s).tokFits { scope := 0, kind := 0, key := 1, result := 0 } = false) ∧
    hdrOk 3 4 0 (fun d n => .log d n rec0) = true := by decide +kernel

theorem witness_LinkSendRows :
    (let x : PendTrig := { number := 255, t := 9 }
     let s : State := { r0 with ngl.pendTrig := [x], host.params := [(pid 11 255 0x031, 128)] }
     firstTrig s.ngl.pendTrig 255 = some x ∧ 128 ≤ s.parN 11 255 0x031) ∧
    (let x : PendTrig := { number := 255, t := 9 }
     let s : State := { r0 with ngl.pendTrig := [x], host.params := [(pid 11 255 0x031, 127)] }
     let u : State := { s.moveTo x.t with ngl.pendTrig := s.ngl.pendTrig.erase x }
     s.parN 11 255 0x031 < 128 ∧ (u.occurAt 127 (4000 * x.t) (u.trgsOf 127 7 (fun a => a == 255)) (some x.t) x.late).siteRunner 127 = none) ∧
    (let s : State := { r0 with ngl.tm := { valid := false } }; s.ngl.tm.valid = false) ∧
    (let s := withDom 0 { tracked := true } id; s.sends 0 = true ∧ s.sends 1 = false ∧ s.ngl.tm.valid = true) ∧
    (let s : State := { r0 with ngl.chime := [(3, { cfg := some chime0, state := 2 })] }; (s.chimeAt 3).cfg = some chime0) ∧
    (linked {}).portUp 2 = true ∧ (linked {}).fillDue 2 = false ∧ ((linked {}).portAt 2).pick = .nothing ∧
    (let s : State := { linked { sinceFill := 1023 } with host.params := [(pid 11 0 0x001, 1), (pid 11 2 0x081, 1)] }
     s.portUp 2 = true ∧ s.fillDue 2 = true) ∧
    ((linked { c0 := [.tick 0 0 0 0] }).portAt 2).pick = .c0 0 ∧
    (let x := (linked { c3 := [.logDrop 3 4 5] }).portAt 2; x.pick = .c3 ∧ x.c3 = [.logDrop 3 4 5] ∧ x.c3Since = 0) ∧
    (let x := (linked { c1 := [.announce 3 4 5 false] }).portAt 2; x.pick = .c1 ∧ x.c1 = [.announce 3 4 5 false]) ∧
    (let x := (linked { c2 := [.alarm 3 1 0 1 0] }).portAt 2; x.pick = .c2 ∧ x.c2 = [.alarm 3 1 0 1 0]) ∧
    (let s : State := { r0 with evt.sticky := [(0, (1, 0, false))], ngl.port := [(0, { mode := .active })]
                                host.params := [(pid 11 0 0x041, 2 ^ 15 + 2 ^ 14 - 1)] }
     Tbl.get s.evt.sticky (0, 0, false) 0 = (1, 0, false) ∧ 0 < 1 ∧ bit (s.parN 11 0 0x041) 15 = 1 ∧
     bits (s.parN 11 0 0x041) 13 0 ≠ s.node ∧ s.portTo (bits (s.parN 11 0 0x041) 13 0) = some 0) := by decide +kernel

/-- Port 1 in a mode, in tree mode. -/
def portIn (m : PortMode) (x : PortSt) (ref : Int) : State :=
  { r0 with ngl.port := [(0, { mode := .active }), (1, { x with mode := m })]
            host.params := [(pid 11 0 0x001, 1), (pid 11 0 0x005, 2), (pid 11 1 0x081, ref)] }

theorem witness_LinkTrainingRows :
    (∀ ref ∈ [0, 1], let s := portIn .training {} ref
     (s.portAt 1).mode = .training ∧ s.parN 11 1 0x081 = ref) ∧
    (0 : BitVec 8) ≠ crc8 (trainBits .confirm false true 1 9 0 true) ∧
    (let s := portIn .standby { exiting := true } 0; (s.portAt 1).mode = .standby ∧ (s.portAt 1).exiting = true) ∧
    (let s := portIn .active {} 1
     (s.portAt 1).mode = .active ∧ s.standbyRole 1 = true ∧ s.portUp 1 = true ∧ s.parN 11 1 0x081 = 1 ∧ s.nglMode = 1 ∧
     s.portUp 0 = true) ∧
    (let s : State := { r0 with ngl.port := [(5, { mode := .training, phase := some .confirm, lock := true, farLock := true })], host.params := [(pid 11 5 0x081, 0)] }
     (s.portAt 5).mode = .training ∧ (s.portAt 5).phase = some .confirm ∧ (s.portAt 5).lock = true ∧
     (s.portAt 5).farLock = true ∧ (s.portAt 5).retrain = false ∧ s.parN 11 5 0x081 ≠ 1 ∧ s.standbyRole 5 = false) ∧
    (let s := portIn .down {} 0; (s.portAt 1).mode = .down ∧ (s.slaneAt 1).prbs = none) := by decide +kernel

theorem witness_LaneTestRows :
    (let s : State := { r0 with ngl.slane := [(37, { scan := some (0, 5, scan0, 0) })] }
     (s.slaneAt 37).scan = some (0, 5, scan0, 0) ∧ (List.replicate 36 0).length = scanNp scan0 * scanNv scan0) ∧
    (let s : State := { r0 with ngl.slane := [(37, { prbs := some (4, 3, 40), prbsLock := true })] }
     (s.slaneAt 37).prbs = some (4, 3, 40) ∧ bit 3 1 = 1 ∧ (s.slaneAt 37).prbsLock = true) ∧
    (∀ m ∈ [0, 1, 2], let s : State := { r0 with host.params := [(pid 11 1 0x082, m)] }
     (s.hlinkAt 1).up = true ∧
     (let u := (portParts 1).foldl (fun s p => s.updFn p (fun f => { f with linkLost := true }))
        (s.updHlink 1 (fun x => { x with up := false }))
      (((u.event 0x0B3 [1]).applyAt .detect 1).parN 11 1 0x082 : Int) = m)) ∧
    (let s : State := { r0 with ngl.hlink := [(1, { up := false })] }; (s.hlinkAt 1).up = false) ∧
    (List.replicate 58 true).length = 58 ∧ (r0.hlinkAt 1).up = true ∧ 5 ≤ 5 ∧ 8 ≤ 8 ∧ 4 < 5 ∧ 7 < 8 := by decide +kernel

theorem witness_TimingIslandRows :
    (r0.grpAt 15).pll = .locking ∧ (r0.grpAt 15).dead = false ∧
    (∀ m ∈ [Pll.locked, .fenced], let s := withGrp 15 (fun x => { x with pll := m, relockFails := 2 })
     (s.grpAt 15).pll = m ∧ (s.grpAt 15).dead = false ∧ 2 ≤ (s.grpAt 15).relockFails) ∧
    (r0.laneAt 527).tc = (r0.laneAt 527).tcTarget ∧
    (let s : State := { r0 with pf.lane := [(527, { tcTarget := -1, targetD := 1, targetC := -1 })] }
     (s.laneAt 527).tc ≠ (s.laneAt 527).tcTarget ∧ (s.laneAt 527).tcPend = false ∧ s.laneBetween 527 = true ∧ (s.laneAt 527).statD ≠ (s.laneAt 527).targetD ∧
     (s.laneAt 527).statC ≠ (s.laneAt 527).targetC) := by decide +kernel

/-- The supply after its release and before it. -/
def withSup (f : SupSt → SupSt) : State := { r0 with pwr.sup := f {} }

/-- A lane of a site that is in use: its step waits for the next cycle start. -/
theorem witness_TimingIslandRows_used :
    let s : State := { withSite id with pf.lane := [(0, { tcTarget := -1 })], ve.bursts := [(31, running0)] }
    (s.laneAt 0).tc ≠ (s.laneAt 0).tcTarget ∧ (s.laneAt 0).tcPend = false ∧ s.laneBetween 0 = false := by decide +kernel

theorem witness_SupplyRows :
    vinMax < vinMax + 1 ∧ vinMax ≤ vinMax ∧ 6200 ≤ 6200 ∧ 6200 < 6201 ∧ 6201 ≤ vinMax ∧
    r0.pwr.sup.high = false ∧ r0.pwr.sup.released = true ∧ (decide (4800 < r0.parN 13 0 0x002)) = r0.pwr.sup.below ∧
    decide (0 < r0.parN 13 0 0x002) ≠ r0.pwr.sup.below ∧
    (let s := withSup (fun x => { x with released := false, ovAt := some 0 })
     s.pwr.sup.released = false ∧ s.pwr.sup.ovAt.isSome = true) ∧
    (let s := withSup (fun x => { x with released := false })
     s.pwr.sup.released = false ∧ s.pwr.sup.ovAt = none ∧ 0 < s.pwr.sup.vin ∧ s.mayRelease = true) ∧
    (withSup (fun x => { x with prsnt := false })).pwr.sup.prsnt = false ∧ r0.pwr.sup.eject = false ∧ r0.pwr.sup.hp = 1 ∧
    (let s := withSup (fun x => { x with eject := true, hp := 2 })
     s.pwr.sup.eject = true ∧ s.pwr.sup.released = true ∧ s.pwr.sup.hp = 2 ∧ s.pwr.sup.ejected = false) ∧
    (let s := withSup (fun x => { x with eject := true, hp := 2, ejected := true })
     s.pwr.sup.hp = 2 ∧ s.pwr.sup.ejected = true ∧ ∀ d, d < 18 → (s.dpsAt d).on = false) ∧
    (∀ t ∈ [0, 1], let s := withSup (fun x => { x with precharged := true, smbFrom := t })
     s.pwr.sup.precharged = true ∧ (s.pwr.sup.smbFrom ≤ s.now ↔ t = 0)) ∧
    (withSup (fun x => { x with precharged := false })).pwr.sup.precharged = false ∧ refSensor 66 < 48 ∧
    r0.validTemp (refSensor 66) = none ∧
    (let s : State := { r0 with pwr.sns := [(refSensor 66, { raw := some 2500 })] }
     s.validTemp (refSensor 66) = some 2500) ∧
    r0.ve.bursts = [] ∧ (∀ d, d < 18 → (r0.dpsAt d).on = false) ∧ r0.cal.run.running = none := by decide +kernel

/-- A reading that is STALE and one that is not, the ends of the range, readings that agree; a dwell, a trip. -/
theorem witness_ThermalRows :
    (let s : State := { r0 with now := 10000001 }; (s.snsAt 47).lastRead + 10000000 < s.now) ∧
    (let s : State := { r0 with now := 10000000 }; s.now ≤ (s.snsAt 47).lastRead + 10000000) ∧
    (-4001 : Int) < -4000 ∧ (15000 : Int) < 15001 ∧ neighbour 47 = none ∧ ((15000 : Int) - 13500).natAbs ≤ 1500 ∧
    (let s : State := { r0 with pwr.sns := [(46, { broken := 1, goodSince := some 0 })] }
     (s.snsAt 46).goodSince = some 0 ∧ (s.snsAt 46).broken ≠ 0 ∧ (s.snsAt 46).latched = false) ∧
    (let s : State := { r0 with pwr.therm := { dieDwell := some 0, hbmDwell := [(1, 0)], stop := some 0, inTrip := true }, pwr.sns := [(23, { raw := some 9501 })] }
     s.pwr.therm.dieDwell = some 0 ∧ s.hotValid (List.range 24) = some 9501 ∧ Tbl.find s.pwr.therm.hbmDwell 1 = some 0 ∧
     s.pwr.therm.stop = some 0 ∧ s.pwr.therm.inTrip = true ∧ s.pwr.sup.released = true) ∧
    (r0.snsAt 23).broken = 0 ∧ (r0.snsAt 23).latched = false ∧ r0.pwr.therm.stop = none := by decide +kernel

theorem witness_SupervisorRows :
    r0.evt.wins = [] ∧ r0.fw.state = 1 ∧ r0.fw.hand ≠ 2 ∧
    (let w : Win := { primary := 0, covers := [], close := 9, counted := [] }
     let s : State := { r0 with evt.wins := [w] }; s.evt.wins = w :: [] ∧ w.counted = []) ∧
    (let s : State := { r0 with fw.state := 2, fw.hand := 2 }; s.fw.hand = 2 ∧ s.fw.state = 2) ∧
    (∀ retry ∈ [true, false], let s : State := { r0 with fw.state := 0, fw.bootRetry := retry }
     s.fw.state = 0 ∧ s.pwr.sup.released = true ∧ s.fw.bootRetry = retry) ∧
    (let s : State := { r0 with fw.svcUntil := some 9 }; s.fw.svcUntil = some 9) := by decide +kernel

theorem witness_HostRingRows :
    256 ≤ 256 ∧ (0 + 65536 - (r0.fnAt 15).head) % 65536 ≤ 256 ∧
    (let f := r0.fnAt 15
     (256 % 65536 + 65536 - f.head) % 65536 ≤ 256 ∧ (f.tail + 65536 - f.head) % 65536 ≤ (256 % 65536 + 65536 - f.head) % 65536 ∧
     256 < (257 % 65536 + 65536 - f.head) % 65536) ∧
    (∀ e ∈ [entry 5 0x0001, entry 5 0xFFFF, { entry 5 0x0001 with rsvd := true }],
     let s := withFn { enable := true, tail := 1, ring := [e] }
     (s.fnAt 0).holdFull = false ∧ s.intake 0 = true ∧ (s.fnAt 0).ring = e :: [] ∧ e.ordered = false ∧ s.nextTurn = some 0 ∧
     (s.fnAt 0).tags.any (fun t => t.tag == e.tag) = false) ∧
    (opcodeLen 0xFFFF false).isNone = true ∧ (opcodeLen 0x0001 false).isSome = true ∧ cmdFormed (entry 5 0x0001) = true ∧
    cmdFormed { entry 5 0x0001 with rsvd := true } = false ∧ r0.intake 0 = false ∧ r0.nextTurn ≠ some 0 ∧ (r0.fnAt 0).ring = [] ∧
    (r0.fnAt 0).holdFull = false ∧ (r0.fnAt 0).stop = false ∧ ((withFn { stop := true }).fnAt 0).stop = true ∧
    (let f := (withFn { cplMsix := 2 ^ 16, cplProd := 1, evtMsix := 2 ^ 16, evtProd := 1 }).fnAt 0
     bits f.cplMsix 31 16 ≠ 0 ∧ ringFill f.cplProd f.cplTold ≠ 0 ∧ bits f.evtMsix 31 16 ≠ 0 ∧ ringFill f.evtProd f.evtTold ≠ 0 ∧
     ringFill 1 f.cplCons ≤ ringFill f.cplProd f.cplCons ∧ ringFill f.cplProd f.cplCons < ringFill 2 f.cplCons ∧
     ringFill 1 f.evtCons ≤ ringFill f.evtProd f.evtCons ∧ ringFill f.evtProd f.evtCons < ringFill 2 f.evtCons) := by
  decide +kernel

theorem witness_HostRegisterRows :
    (r0.rlWords 0 .serial).isSome = true ∧ r0.rlWords 0 (.param 0xFFFFFFFF) = none ∧
    (∀ off ∈ [0x030, 0x060], ((r0.fnAt 0).setRing off 0).isSome = true) ∧
    ((withFn { enable := true }).fnAt 0).enable = true ∧ ((r0.fnAt 0).setRing 0x030 0).map (·.enable) = some false ∧
    (((withFn { enable := true }).fnAt 0).setRing 0x030 0).map (·.enable) = some true ∧ 3 < 4 ∧
    (0x50525354 : Word).toNat = 0x50525354 ∧ (0 : Word).toNat ≠ 0x50525354 ∧ (r0.fnAt 0).reset ≠ 1 ∧ (r0.fnAt 0).reset ≠ 2 ∧
    (let s := withFn { reset := 1 }; (s.fnAt 0).reset = 1 ∧ s.fw.hand = 0 ∧ s.fw.state = 1) ∧
    ((withFn { reset := 2 }).fnAt 0).reset = 2 ∧ (0x4D525354 : Word).toNat = 0x4D525354 ∧ r0.rightModReset 0 = true ∧
    r0.pwr.sup.eject = false ∧ r0.pwr.therm.dieTrip = false := by decide +kernel

/-- No DPS channel is on after reset. -/
theorem witness_HostRegisterRows_dps : ∀ d, (r0.dpsAt d).on = false := fun _ => rfl

def withCalStore (f : StoreSt → StoreSt) : State := { r0 with cal.store := f {} }

theorem witness_CalibrationRows :
    (let s : State := { r0 with cal.run := { queue := [(.dps 17, none)] } }
     s.cal.run.running = none ∧ s.cal.run.queue = (.dps 17, none) :: [] ∧ s.calFenced (.dps 17) = false ∧
     s.calFree (.dps 17) = true) ∧
    (let s : State := { r0 with cal.run := { queue := [(.group 0, none)] }, pf.grp := [(0, { dead := true })] }
     s.calFenced (.group 0) = true) ∧
    (let s : State := { r0 with cal.run := { queue := [(.dps 17, none)] }, pf.dps := [(17, { mode := .on })] }
     s.calFenced (.dps 17) = false ∧ s.calFree (.dps 17) = false) ∧
    (∀ n ∈ [2, 3], ∀ temp ∈ [100, 101], let s : State := { r0 with
        cal.run := { running := some (.group 15, n), startTemp := 2500 }, pf.grp := [(15, { tIsl := 2500 + temp })] }
     s.cal.run.running = some (.group 15, n) ∧
     (((s.moveTo (s.cal.run.startedAt + calNs (.group 15))).calTempOf (.group 15) - s.cal.run.startTemp).natAbs : Int) = temp) ∧
    (∀ t ∈ [none, some 0], let s := withCalStore (fun x => { x with pending := true, lastAt := t })
     s.cal.store.pending = true ∧ s.cal.store.step = 0 ∧ s.cal.store.lastAt = t) ∧
    (∀ k ∈ [1, 2, 3, 4], let s := withCalStore (fun x => { x with step := k })
     s.cal.store.step ≠ 0 ∧ s.cal.store.step = k ∧ s.cal.store.cmds = []) := by decide +kernel

theorem witness_RudimentRows :
    r0.readCheck r0.host.sysPart.val (pid 0 0 0x001) = none ∧ r0.fwRuns = true ∧ r0.unlocked = false ∧ r0.fw.state ≠ 3 ∧
    (let s : State := { r0 with fw.svcUntil := some 9 }
     s.unlocked = true ∧ s.fwRuns = true ∧ (s.pokeVal (pid 0 0 0x001) 1).1 = .ok ∧ s.fw.validA = true ∧
     s.pwr.sup.eject = false ∧ s.pwr.therm.dieTrip = false) ∧
    (let s : State := { r0 with fw.state := 3 }; s.fw.state = 3) := by decide +kernel

/-! ## Worked examples of spec/, with its own numbers -/

/-- 05, R177: DPS16 at 42 V and 50 mA demands 3.48 W, DPS03 at 3.3 V and 250 mA demands 1.48 W. -/
theorem test_dps_demand : dpsDemand 16 48000 500 = 348 ∧ dpsDemand 3 26400 2500 = 148 := by decide

/-- 05, the same example: 42 V at 20 V/ms takes 2,100 µs, 3.3 V at 5 V/ms takes 660 µs. -/
theorem test_ramp_time : rampNs 16 0 48000 2000 = 2100000 ∧ rampNs 3 0 26400 500 = 660000 := by decide

/-- 04, R138: TC_COEF −0.650 ps/°C, calibrated at 86 °C, in units of 0.25 ps. -/
theorem test_temperature_correction :
    ([8800, 8950, 9100, 9110].map (fun t => ({ refCount := 1, tIsl := t, calTemp := 8600 } : GrpSt).target (-650))) =
      [-5, -9, -13, -13] := by decide

/-- 07, R229: MEAN and DEV of 1,280, −4, 0 and 1,024; 09, R262: T_B at 148.5 MHz and S = 2. -/
theorem test_mean_and_rate : meanOf 4 2300 = 73600 ∧ devOf 4 2300 2686992 = 74759 ∧
    rseTb 148500000 2 false = 56488943 := by decide +kernel

/-- 13, R371: NP and NV of the example scan. -/
theorem test_scan_points :
    let d : ScanDesc := { lane := 2, phStep := 2, vStep := 4, phMin := -32, phMax := 31, vMin := -64, vMax := 64, dwellExp := 24, rsvd := false }
    scanNp d = 32 ∧ scanNv d = 33 ∧ scanInRange d = true := by decide

/-- 02, Match loops: the lag of a body of 40 positions is 6 iterations. -/
theorem test_match_lag : matchLag 40 = 6 := by decide

/-- 00, 02, 06, 12: parameter IDs of the examples. -/
theorem test_parameter_ids : pid 1 40 0x010 = 0x01028010 ∧ pid 5 3 0x04A = 0x0500304A ∧ pid 11 42 0x031 = 0x0B02A031 ∧
    pid 13 592 0x100 = 0x0D250100 := by decide

/-- 02, R70: the fields of the example microword, and the same word with another parity bit. -/
theorem test_microword :
    (decodeMicro 0x8A09223F1F).map (·.next) = some 0x141 ∧ decodeMicro 0x0A09223F1F = none := by decide

/-- 10, The governor: at 97 °C and 48 V the budget is 370 W, at 98 °C 355 W. -/
theorem test_budget : pSupply 4800 = 40000 ∧ pThermal true 7200 9700 = 37000 ∧ pThermal true 7200 9800 = 35500 := by decide

/-- 03, the pause: every island holds 192 positions again in cycle 5,000,900; the position follows in 5,000,948, after
948 hold cycles. -/
theorem test_pause :
    let b : Burst := { burst0 with
      phase := .running, startTick := some 0, period := 4000, cycle := 5000000, emitted := 5000000, elapsed := 20000000000
      paused := some { cause := .retrain }, stretched := true, pausable := true, cols := lead }
    let s : State := { onRunner 31 [0x5800000000000000] (fun _ => b) with now := 5001028 }
    ∃ t, exec (.pauseResume 31) s = .next t ∧
      (t.burstAt 31).map (fun c => (c.cycle, c.holds, c.paused)) = some (5000948, 948, none) := by
  exact ⟨_, rfl, by decide +kernel⟩

/-- 16, R453: a service lock opened for 60 s shows in the state. -/
theorem test_service_unlock : ∃ t, exec (.sysServiceUnlock 0 5 60) r0 = .next t ∧ t.fw.svcUntil = some 60000000000 :=
  ⟨_, rfl, by decide +kernel⟩

/-- 11, R305: a byte written to the space of a partition is read back, and other bytes stay 0. -/
theorem test_hbm_write : ((r0.writeBytes 0 100 [7]).readHbm 0 100, (r0.writeBytes 0 100 [7]).readHbm 0 101) = (7, 0) := by
  decide +kernel

/-- 12, R332: CRC-32 of Ethernet, of the nine digits that name it; the scrambler gives back a block. -/
theorem test_crc32 : crc32 [0x31, 0x32, 0x33, 0x34, 0x35, 0x36, 0x37, 0x38, 0x39] = 0xCBF43926 := by decide +kernel

theorem test_line_code : (receiveBlock 5 (sendBlock 5 true 0x1234567890ABCDEF).1).1 = some (true, 0x1234567890ABCDEF) := by
  decide +kernel

end Sys2Proof.Tests
end

section
/-!
SUPPORT. What the register and reset rows of a host function do: one equation per row and case, the companion words that
a latch holds, and the function page after each reset (00 R5, R6; 14 R379, R380, R394 to R396).
-/

namespace Sys2Proof

open Sys2Proof.Machine

/-! ## The latch of a function (00 R6) -/

@[simp] theorem latched_setLatch_same (f : FnSt) (r : RlReg) (ws : List Nat) : (f.setLatch r ws).latched r = ws := by
  have h : (f.latch.filter (fun x => x.1 != r)).find? (fun x => x.1 == r) = none := by simp
  simp [FnSt.setLatch, FnSt.latched, List.find?_append, h]

theorem latched_setLatch_other (f : FnSt) {r other : RlReg} (ws : List Nat) (h : other ≠ r) :
    (f.setLatch r ws).latched other = f.latched other := by
  have hnew : ([(r, ws)] : List (RlReg × List Nat)).find? (fun x => x.1 == other) = none := by simp [h.symm]
  have hold : ∀ x : RlReg × List Nat, ((x.1 != r) = true ∧ (x.1 == other) = true) ↔ (x.1 == other) = true :=
    fun x => and_iff_right_of_imp fun hx => bne_iff_ne.2 (eq_of_beq hx ▸ h)
  simp only [FnSt.setLatch, FnSt.latched, List.find?_append, List.find?_filter, hnew, hold, Option.or_none,
    Bool.decide_eq_true]

/-- With an empty latch every companion word reads 0. -/
theorem latchWord_of_latch_nil {s : State} {p : Nat} (h : (s.fnAt p).latch = []) (r : RlReg) (i : Nat) :
    s.latchWord p r i = 0 := by
  simp [State.latchWord, FnSt.latched, h]

theorem latchWord_of_fnAt {s t : State} {p : Nat} (h : t.fnAt p = s.fnAt p) (r : RlReg) (i : Nat) :
    t.latchWord p r i = s.latchWord p r i := by
  unfold State.latchWord
  rw [h]

/-! ## A row that changes one function page -/

/-- A row that changes the page of one function answers with the changed page and leaves the rest of the state. -/
theorem answers_of_updFn {c : Instr} {s : State} {p : Nat} {f : FnSt → FnSt} {g : FnSt}
    (he : exec c s = .next (s.updFn p f)) (hg : f (s.fnAt p) = g) :
    Answers c s (fun t => t.fnAt p = g ∧ t = { s with host.fn := t.host.fn }) :=
  ⟨_, he, (State.updFn_same s p f).trans hg, updFn_same s p f⟩

/-! ## Registers (14 R379, R382) -/

theorem exec_ferrClear (p : Part) (s : State) :
    exec (.ferrClear p) s = .next (s.updFn p.val (fun f => { f with ferr := none })) := rfl

theorem exec_linkLostClear (p : Part) (s : State) :
    exec (.linkLostClear p) s = .next (s.updFn p.val (fun f => { f with linkLost := false })) := rfl

theorem exec_rlLowRead (p : Part) (reg : RlReg) (s : State) : exec (.rlLowRead p reg) s = execRlLowRead p reg s := rfl

theorem rlLowRead_of_words {s : State} {p : Part} {reg : RlReg} {ws : List Nat} (h : s.rlWords p.val reg = some ws) :
    exec (.rlLowRead p reg) s = .next (s.updFn p.val (FnSt.setLatch reg ws)) := by
  rw [exec_rlLowRead, execRlLowRead, h]

theorem rlLowRead_of_none {s : State} {p : Part} {reg : RlReg} (h : s.rlWords p.val reg = none) :
    exec (.rlLowRead p reg) s = .next s := by
  rw [exec_rlLowRead, execRlLowRead, h]

theorem exec_registerWrite (p : Part) (offset : Nat) (value : Word) (s : State) :
    exec (.registerWrite p offset value) s = execRegisterWrite p offset value s := rfl

/-- A write of a ring register: refused with kind 2 while the ring is enabled (14 R382). -/
theorem registerWrite_of_setRing {s : State} {p : Part} {offset : Nat} {value : Word} {g : FnSt}
    (h : (s.fnAt p.val).setRing offset value.toNat = some g) :
    exec (.registerWrite p offset value) s =
      .next (if g.enable then s.fnErr p.val 2 offset 0 0 else s.updFn p.val (fun _ => g)) := by
  rw [exec_registerWrite, execRegisterWrite, h]

/-- The scratch registers are none of the ring registers. -/
theorem setRing_scratch (f : FnSt) {k : Nat} (w : Nat) (hk : k < 4) : f.setRing (0x0B0 + 4 * k) w = none := by
  interval_cases k <;> rfl

theorem registerWrite_scratch (s : State) (p : Part) {k : Nat} (value : Word) (hk : k < 4) :
    exec (.registerWrite p (0x0B0 + 4 * k) value) s =
      .next (s.updFn p.val (fun f => { f with scratch := Tbl.put f.scratch k value.toNat })) := by
  have hin : 0x0B0 ≤ 0x0B0 + 4 * k ∧ 0x0B0 + 4 * k ≤ 0x0BC ∧ (0x0B0 + 4 * k) % 4 = 0 := by omega
  have hix : (0x0B0 + 4 * k - 0x0B0) / 4 = k := by omega
  rw [exec_registerWrite, execRegisterWrite, setRing_scratch _ _ hk]
  simp only [if_pos hin, hix]

/-! ## Partition reset (14 R394, R395) -/

theorem exec_partReset (p : Part) (key : Word) (s : State) : exec (.partReset p key) s = execPartReset p key s := rfl

theorem exec_functionLevelReset (p : Part) (s : State) :
    exec (.functionLevelReset p) s = .next (s.requestPart p.val) := rfl

theorem partReset_of_key {p : Part} {key : Word} (s : State) (h : key.toNat = 0x50525354) :
    exec (.partReset p key) s = exec (.functionLevelReset p) s := by
  rw [exec_partReset, execPartReset, if_pos h, exec_functionLevelReset]

theorem partReset_of_wrong_key {p : Part} {key : Word} (s : State) (h : key.toNat ≠ 0x50525354) :
    exec (.partReset p key) s = .next (s.fnErr p.val 2 0x0A0 0 0) := by
  rw [exec_partReset, execPartReset, if_neg h]

/-- A request starts a reset where none is in progress. -/
theorem functionLevelReset_starts {s : State} {p : Part} (h1 : (s.fnAt p.val).reset ≠ 1)
    (h2 : (s.fnAt p.val).reset ≠ 2) :
    Answers (.functionLevelReset p) s (fun t =>
      t.fnAt p.val = { s.fnAt p.val with reset := 1, resetAt := s.now } ∧ t = { s with host.fn := t.host.fn }) :=
  answers_of_updFn (exec_functionLevelReset p s) (if_neg (not_or.2 ⟨h1, h2⟩))

theorem exec_partResetAck (p : Part) (s : State) : exec (.partResetAck p) s = execPartResetAck p s := rfl

/-- Running firmware acknowledges a requested reset and takes steps 1 to 6 of R394. -/
theorem partResetAck_of_requested {s : State} {p : Part} (hr : (s.fnAt p.val).reset = 1) (hh : s.fw.hand = 0)
    (hs : s.fw.state = 1) :
    exec (.partResetAck p) s = .next
      (((((s.dropBursts p).forgetCmds p).safePart p.val).clearPart p.val).clearFn p) := by
  rw [exec_partResetAck, execPartResetAck, if_pos ⟨hr, hh, hs⟩]

theorem clearFn_latch (s : State) (p : Part) : ((s.clearFn p).fnAt p.val).latch = [] :=
  congrArg FnSt.latch (State.updFn_same s p.val _)

theorem exec_partResetComplete (p : Part) (s : State) :
    exec (.partResetComplete p) s = execPartResetComplete p s := rfl

/-- The DPS channels of the partition are off: its pages are zeroed and the requesters get their completions. -/
theorem partResetComplete_of_dps_off {s : State} {p : Part} (hr : (s.fnAt p.val).reset = 2)
    (hd : ∀ d, (s.dpsAt d).on = false) :
    let u : State := { s.rewrite (fun b => 64 * b / 2 ^ 36 == p.val) with
      mem.hbm := Memory.clear s.mem.hbm (fun k => k / 2 ^ 36 == p.val) }
    let v := u.updFn p.val (fun f => { f with reset := 3, resetBy := [] })
    exec (.partResetComplete p) s = .next
      (((s.fnAt p.val).resetBy.foldl (fun s x => s.complete x.1.val x.2 0x0006 .ok []) v).event (0x080 + p.val) [1]
        [.part p.val]) := by
  have hoff : (bitList (s.part p.val).dps).all (fun d => !(s.dpsAt d).on) = true := by simp [hd]
  rw [exec_partResetComplete, execPartResetComplete]
  exact congrArg _ (if_pos ⟨hr, hoff⟩)

theorem exec_resetAckTimeout (p : Part) (s : State) : exec (.resetAckTimeout p) s = execResetAckTimeout p s := rfl

/-- Without acknowledgement the reset escalates to a module reset where RESET_ESCALATE is 1 (14 R395). -/
theorem resetAckTimeout_escalates {s : State} {p : Part} (hr : (s.fnAt p.val).reset = 1) (hh : s.fw.hand = 0)
    (he : s.parN 0 0 0x001 = 1) :
    exec (.resetAckTimeout p) s = .next
      (({ s.moveTo ((s.fnAt p.val).resetAt + 50000000) with
        fw := { s.fw with escPart := some p } } : State).moduleReset 3) := by
  rw [exec_resetAckTimeout, execResetAckTimeout]
  exact congrArg _ ((if_pos ⟨hr, hh⟩).trans (if_pos he))

/-- Otherwise the partition stays RESETTING and its requesters are told TIMEOUT. -/
theorem resetAckTimeout_times_out {s : State} {p : Part} (hr : (s.fnAt p.val).reset = 1) (hh : s.fw.hand = 0)
    (he : s.parN 0 0 0x001 ≠ 1) :
    let v := (s.moveTo ((s.fnAt p.val).resetAt + 50000000)).updFn p.val (fun f => { f with reset := 4, resetBy := [] })
    exec (.resetAckTimeout p) s = .next
      (((s.fnAt p.val).resetBy.foldl (fun s x => s.complete x.1.val x.2 0x0006 .timeout []) v).event (0x080 + p.val) [3]
        [.part p.val]) := by
  rw [exec_resetAckTimeout, execResetAckTimeout]
  exact congrArg _ ((if_pos ⟨hr, hh⟩).trans (if_neg he))

/-! ## Module reset (14 R396; 15 R418) -/

theorem exec_modReset (p : Part) (key : Word) (s : State) : exec (.modReset p key) s = execModReset p key s := rfl

theorem modReset_of_wrong_key {p : Part} {key : Word} (s : State) (h : key.toNat ≠ 0x4D525354) :
    exec (.modReset p key) s = .next (s.fnErr p.val 2 0x0A4 0 0) := by
  rw [exec_modReset, execModReset, if_pos h]

/-- Only a die trip holds a requested module reset back (15 R427). -/
theorem requestReset_of_no_trip {s : State} (cause : Nat) (h : s.pwr.therm.dieTrip = false) :
    s.requestReset cause = s.moduleReset cause := by
  simp [State.requestReset, h]

theorem modReset_of_key {s : State} {p : Part} {key : Word} (hk : key.toNat = 0x4D525354)
    (hr : s.rightModReset p.val = true) (he : s.pwr.sup.eject = false) (ht : s.pwr.therm.dieTrip = false) :
    exec (.modReset p key) s = .next (s.moduleReset 2) := by
  rw [exec_modReset, execModReset]
  simp [hk, hr, he, requestReset_of_no_trip 2 ht]

/-- The load of the control stores changes engines alone. -/
theorem loadControl_host (s : State) (u : UImage) : (s.loadControl u).host = s.host := by
  have h : ∀ (l : List Nat) (t : State),
      (l.foldl (fun s e => s.updEng e (fun x => { x with ucode := u })) t).host = t.host := by
    intro l
    induction l with
    | nil => exact fun t => rfl
    | cons e l ih => exact fun t => ih _
  exact h _ _

/-- A module reset returns every function page to its reset value. -/
theorem moduleReset_fnAt (s : State) (cause k : Nat) : (s.moduleReset cause).fnAt k = {} := by
  unfold State.fnAt State.moduleReset
  rw [loadControl_host]
  rfl

end Sys2Proof
end

section
/-!
The statements about the registers and resets of a host function.
-/

namespace Sys2Proof

open Sys2Proof.Machine

/-- A read of an RL low word latches its companions for its own function and register alone. -/
theorem rlLowRead_latches {s : State} {p : Part} {reg : RlReg} {ws : List Nat} (h : s.rlWords p.val reg = some ws) :
    Answers (.rlLowRead p reg) s (fun t =>
      (∀ i, t.latchWord p.val reg i = ws[i]?.getD 0) ∧
      (∀ other i, other ≠ reg → t.latchWord p.val other i = s.latchWord p.val other i) ∧
      (∀ (q : Part) r i, q ≠ p → t.latchWord q.val r i = s.latchWord q.val r i) ∧
      t = { s with host.fn := t.host.fn }) := by
  refine ⟨_, rlLowRead_of_words h, fun i => ?_, fun other i ho => ?_, fun q r i hq => ?_, updFn_same s p.val _⟩
  · rw [State.latchWord, State.updFn_same, latched_setLatch_same]
  · rw [State.latchWord, State.updFn_same, latched_setLatch_other _ _ ho, State.latchWord]
  · exact latchWord_of_fnAt (State.updFn_other _ _ _ _ (Fin.val_ne_of_ne hq)) r i

/-- Settles O10: the latch laws for the read, and an empty latch in the function page after each reset. -/
theorem latchedCompanions : Obligations.LatchedCompanions := by
  intro s p
  refine ⟨fun _ _ => rlLowRead_latches, rfl, rfl, rfl, rfl, fun cause => ?_, fun hr hh hs => ?_⟩
  · exact latchWord_of_latch_nil (congrArg FnSt.latch (moduleReset_fnAt s cause p.val))
  · exact ⟨_, partResetAck_of_requested hr hh hs, latchWord_of_latch_nil (clearFn_latch _ p)⟩

/-- Settles O58: each clause is the equation of its row in the case that its hypotheses name. -/
theorem hostRegisterRows : Obligations.HostRegisterRows := by
  intro s p
  refine ⟨answers_of_updFn (exec_ferrClear p s) rfl, answers_of_updFn (exec_linkLostClear p s) rfl,
    fun _ _ => rlLowRead_of_words, fun _ => rlLowRead_of_none, fun offset value g hg => ⟨fun he => ?_, fun he => ?_⟩,
    fun k value hk => answers_of_updFn (registerWrite_scratch s p value hk) rfl,
    fun _ => partReset_of_wrong_key s, fun _ => partReset_of_key s, functionLevelReset_starts,
    partResetAck_of_requested, partResetComplete_of_dps_off, resetAckTimeout_escalates, resetAckTimeout_times_out,
    fun _ => modReset_of_wrong_key s, fun _ => modReset_of_key⟩
  · have hw := registerWrite_of_setRing hg
    rw [he, if_neg Bool.false_ne_true] at hw
    exact answers_of_updFn hw rfl
  · rw [registerWrite_of_setRing hg, he, if_pos rfl]

end Sys2Proof
end

section
/-!
SUPPORT. What the rows of the scheduler do: one equation per row and case (01 R22; 10 R281, R286, R288, R290, R295, R296,
R298 to R300).
-/

namespace Sys2Proof

open Sys2Proof.Machine

/-! ## Tokens (10 R281, R298, R299) -/

theorem exec_tokenArrival (scope : Site) (kind : Fin 7) (key : Nat) (result : BitVec 16) (s : State) :
    exec (.tokenArrival scope kind key result) s =
      .next (s.issueTok { scope, kind := kind.val, key, result := result.toNat }) := rfl

theorem exec_tokenOverflowDrain (s : State) :
    exec .tokenOverflowDrain s = .next (s.drainTok 64).drainHeld.wake := rfl

theorem exec_c1Stall (port : Port) (s : State) : exec (.c1Stall port) s = execC1Stall port s := rfl

/-- A token held at a port that has not told a stall yet is told 1 ms after it came. -/
theorem c1Stall_of_held {s : State} {port : Port} {x : TokIn} {t : Nat}
    (hheld : (s.portAt port.val).held = some (x, t)) (hstalled : (s.portAt port.val).stalled = false) :
    exec (.c1Stall port) s = .next
      (((s.moveTo (t + 1000000)).updPort port.val (fun x => { x with stalled := true })).event 0x5C6 [port.val]) := by
  rw [exec_c1Stall, execC1Stall, hheld]
  simp only [hstalled, if_neg Bool.false_ne_true]

/-! ## Tasks that wait (10 R286, R288, R290, R300) -/

theorem exec_waitTimeoutExpiry (i : TaskIx) (s : State) :
    exec (.waitTimeoutExpiry i) s = execWaitTimeoutExpiry i s := rfl

/-- At the expiry of its wait a task is dispatched where it can go in that clock, and ends TIMEOUT otherwise. -/
theorem waitTimeoutExpiry_of_task {s : State} {i : TaskIx} {t : TaskSt} (ht : s.taskAt i.val = some t)
    (hwait : 0 < t.desc.waitTimeout) :
    let u := s.moveTo (t.at_ + 1000 * t.desc.waitTimeout)
    exec (.waitTimeoutExpiry i) s = .next
      (if u.goesNow i.val t then u.tryDispatch i.val t
       else (u.endTask i.val t .timeout [] skippedRes).event 0x5C0 [t.desc.queue.val, i.val] [.site (homeOf t.desc)]) := by
  rw [exec_waitTimeoutExpiry, execWaitTimeoutExpiry, ht]
  simp only [if_pos hwait]

theorem exec_affPatienceExpiry (i : TaskIx) (s : State) :
    exec (.affPatienceExpiry i) s = execAffPatienceExpiry i s := rfl

theorem affPatienceExpiry_of_patience {s : State} {i : TaskIx} {t : TaskSt} {t0 : Nat} (ht : s.taskAt i.val = some t)
    (hp : t.patience = some t0) :
    exec (.affPatienceExpiry i) s = .next
      ((s.moveTo (t0 + 1000 * s.parN 9 (homeOf t.desc) 0x004)).tryDispatch i.val t) := by
  rw [exec_affPatienceExpiry, execAffPatienceExpiry, ht]
  simp only [hp]

theorem exec_admitPatienceExpiry (s : State) : exec .admitPatienceExpiry s = execAdmitPatienceExpiry s := rfl

/-- Open admission closes to all but the oldest task that failed it. -/
theorem admitPatienceExpiry_closes {s : State} {h : Nat} {u : TaskSt} (hhead : s.headTask = some (h, u))
    (hopen : s.sch.gov.closed = false) :
    exec .admitPatienceExpiry s = .next
      (({ s.moveTo ((u.failedAdmit.getD 0) + 1000000 * s.parN 9 0 0x015) with
          sch.gov := { s.sch.gov with head := some h, closed := true } } : State).event 0x5C1 [h, u.e]
            [.site (homeOf u.desc)]) := by
  rw [exec_admitPatienceExpiry, execAdmitPatienceExpiry, hhead]
  simp only [hopen, if_neg Bool.false_ne_true, State.moveTo]

theorem exec_msParity (i : TaskIx) (s : State) : exec (.msParity i) s = execMsParity i s := rfl

theorem msParity_of_task {s : State} {i : TaskIx} {t : TaskSt} (ht : s.taskAt i.val = some t) :
    exec (.msParity i) s = .next
      ((s.endTask i.val t .internal [] skippedRes).event 0x5C9 [i.val] [.part t.part.val]) := by
  rw [exec_msParity, execMsParity, ht]

/-! ## Linked sites (10 R295, R296) -/

theorem exec_linkTimeoutExpiry (r : Runner) (s : State) :
    exec (.linkTimeoutExpiry r) s = execLinkTimeoutExpiry r s := rfl

/-- A burst that still waits for its start trigger gives up with LATE_TRIGGER. -/
theorem linkTimeoutExpiry_of_waitTrig {s : State} {r : Runner} {b : Burst} (hb : s.burstAt r.val = some b)
    (hphase : b.phase = .waitTrig) :
    exec (.linkTimeoutExpiry r) s = .next
      (((s.moveTo (b.filledAt + 1000000 * s.parN 9 b.home.val 0x006)).giveUp r.val (invalidRes rLATE)).event 0x5C7
        [((s.siteAt b.home.val).defn.map (·.linkId)).getD 0] [.site b.home.val]) := by
  rw [exec_linkTimeoutExpiry, execLinkTimeoutExpiry, hb]
  simp only [if_pos hphase]

theorem exec_linkMemberLost (site : Site) (node : Nat) (s : State) :
    exec (.linkMemberLost site node) s = execLinkMemberLost site node s := rfl

/-- At the home node, a member without a result counts as INVALID(FENCE) 10 ms after the home part ended. -/
theorem linkMemberLost_of_no_result {s : State} {site : Site} {node : Nat} {d : SiteRec} {t : Nat}
    (hdef : (s.siteAt site.val).defn = some d) (hend : (s.linkAt d.linkId).endedAt = some t) (hlinked : d.linked = true)
    (hhome : d.home = s.node) (hnone : (s.linkAt d.linkId).results.any (fun x => x.1 == node) = false) :
    exec (.linkMemberLost site node) s = .next
      (((s.moveTo (t + 10000000)).event 0x5C8 [d.linkId, node] [.site site.val]).linkResult d.linkId node
        (invalidRes rFENCE).code (t + 10000000)) := by
  have hlost : d.linked = true ∧ d.home = s.node ∧
      ¬ ((s.linkAt d.linkId).results.any (fun x => x.1 == node) = true) := ⟨hlinked, hhome, Bool.eq_false_iff.1 hnone⟩
  rw [exec_linkMemberLost, execLinkMemberLost, hdef]
  simp only [hend, if_pos hlost]

/-! ## The budget (01 R22) -/

theorem exec_budgetRecompute (s : State) : exec .budgetRecompute s = .next s.recompute := rfl

end Sys2Proof
end

section
/-!
The statement about the rows of the scheduler.
-/

namespace Sys2Proof

open Sys2Proof.Machine

/-- Settles O39: each clause is the equation of its row in the case that its hypotheses name. -/
theorem schedulerRows : Obligations.SchedulerRows := by
  intro s
  refine ⟨fun scope kind key result => exec_tokenArrival scope kind key result s, exec_tokenOverflowDrain s,
    fun i t ht hwait => ⟨fun hstays => ?_, fun hgoes => ?_⟩,
    fun _ _ => admitPatienceExpiry_closes, fun _ _ _ => affPatienceExpiry_of_patience,
    fun _ _ => linkTimeoutExpiry_of_waitTrig, fun _ _ _ _ => linkMemberLost_of_no_result, exec_budgetRecompute s,
    fun _ _ _ => c1Stall_of_held, fun _ _ => msParity_of_task⟩
  · rw [waitTimeoutExpiry_of_task ht hwait, hstays, if_neg Bool.false_ne_true]
  · rw [waitTimeoutExpiry_of_task ht hwait, hgoes, if_pos rfl]

end Sys2Proof
end

section
/-!
SUPPORT. The word of a pattern instruction: its fields, and what the decoder reads back from them (02 R44).
-/

namespace Sys2Proof

/-! ## The fields of a word -/

theorem patWord_toNat {opcode mod operand : Nat} (hc : opcode < 2 ^ 6) (hm : mod < 2 ^ 10) (ho : operand < 2 ^ 48) :
    (patWord opcode mod operand).toNat = opcode * 2 ^ 58 + mod * 2 ^ 48 + operand := by
  rw [patWord, BitVec.toNat_ofNat, Nat.mod_eq_of_lt (by omega)]

theorem patWord_opcode {opcode mod operand : Nat} (hc : opcode < 2 ^ 6) (hm : mod < 2 ^ 10) (ho : operand < 2 ^ 48) :
    wordField (patWord opcode mod operand).toNat 63 58 = opcode := by
  rw [patWord_toNat hc hm ho, wordField]
  omega

theorem patWord_mod {opcode mod operand : Nat} (hc : opcode < 2 ^ 6) (hm : mod < 2 ^ 10) (ho : operand < 2 ^ 48) :
    wordField (patWord opcode mod operand).toNat 57 48 = mod := by
  rw [patWord_toNat hc hm ho, wordField]
  omega

theorem patWord_operand {opcode mod operand : Nat} (hc : opcode < 2 ^ 6) (hm : mod < 2 ^ 10) (ho : operand < 2 ^ 48) :
    wordField (patWord opcode mod operand).toNat 47 0 = operand := by
  rw [patWord_toNat hc hm ho, wordField]
  omega

/-- Two flags side by side are read back from their bits. -/
theorem flagPair_decodes (low high : Bool) :
    low.toNat + 2 * high.toNat < 4 ∧ ((low.toNat + 2 * high.toNat) % 2 == 1) = low ∧
      ((low.toNat + 2 * high.toNat) / 2 == 1) = high := by
  revert low high
  decide

/-- A flag above a field of four bits, and that field, are read back. -/
theorem flagAbove_decodes {n : Nat} (flag : Bool) (hn : n ≤ 8) :
    n + 16 * flag.toNat < 32 ∧ (n + 16 * flag.toNat) % 16 = n ∧ ((n + 16 * flag.toNat) / 16 == 1) = flag := by
  cases flag <;> exact ⟨by simp; omega, by simp; omega, by simp; omega⟩

theorem flag_decodes (flag : Bool) : flag.toNat < 2 ∧ (flag.toNat == 1) = flag := by
  revert flag
  decide

theorem toFin_of_mod {k n : Nat} (h : 0 < k) (v : Fin k) (hn : n % k = v.val) : toFin k n h = v := Fin.ext hn

/-! ## The operands of a well-formed instruction fit their fields -/

theorem okCount_iff (n : Nat) : okCount n = true ↔ 1 ≤ n ∧ n < 2 ^ 32 := by simp [okCount]
theorem okSegment_iff (n : Nat) : okSegment n = true ↔ n < 2 ^ 24 := by simp [okSegment]
theorem okLpop_iff (n : Nat) : okLpop n = true ↔ n ≤ 8 := by simp [okLpop]
theorem okWord_iff (n : Nat) : okWord n = true ↔ n < 2 ^ 32 := by simp [okWord]
theorem okByte_iff (n : Nat) : okByte n = true ↔ n < 256 := by simp [okByte]
theorem okSelector_lt {n : Nat} (h : okSelector n = true) : n < 4096 := of_decide_eq_true (Bool.and_eq_true_iff.1 h).1

theorem okJump_iff (seg lpop : Nat) : (okSegment seg && okLpop lpop) = true ↔ seg < 2 ^ 24 ∧ lpop ≤ 8 := by
  simp [okSegment_iff, okLpop_iff]

theorem matchLoop_wf_bounds {e : Eng} {seg maxIter : Nat} {sense toFail : Bool}
    (h : (Instr.matchLoop e seg maxIter sense toFail).wf = true) : seg < 2 ^ 24 ∧ maxIter < 2 ^ 24 := by
  obtain ⟨hs, hmax⟩ := Bool.and_eq_true_iff.1 h
  exact ⟨(okSegment_iff seg).1 (Bool.and_eq_true_iff.1 hs).1, of_decide_eq_true hmax⟩

/-! ## The decoder after the encoder -/

/-- The decoder reads OPCODE, MOD and OPERAND back, and from them the operands (02 R44). -/
theorem decodePat_encodePat {e : Eng} {i : Instr} (hown : ownEngine i = some e) (hwf : i.wf = true) :
    ∃ w, encodePat i = some w ∧ decodePat e w = some i := by
  cases i with
  | vec e n | rpt e n | loop e n =>
    cases hown
    have hn := ((okCount_iff n).1 hwf).2
    refine ⟨_, rfl, ?_⟩
    simp (disch := omega) only [decodePat, patWord_opcode, patWord_mod, patWord_operand]
    exact if_pos ⟨trivial, hn⟩
  | endl e | ret e | halt e =>
    cases hown
    refine ⟨_, rfl, ?_⟩
    simp (disch := omega) only [decodePat, patWord_opcode, patWord_mod, patWord_operand]
    exact if_pos ⟨trivial, trivial⟩
  | call e seg =>
    cases hown
    have hseg := (okSegment_iff seg).1 hwf
    refine ⟨_, rfl, ?_⟩
    simp (disch := omega) only [decodePat, patWord_opcode, patWord_mod, patWord_operand]
    exact if_pos ⟨trivial, hseg⟩
  | jmp e seg lpop =>
    cases hown
    obtain ⟨hseg, hlpop⟩ := (okJump_iff seg lpop).1 hwf
    refine ⟨_, rfl, ?_⟩
    simp (disch := omega) only [decodePat, patWord_opcode, patWord_mod, patWord_operand]
    exact if_pos ⟨by omega, hseg⟩
  | jf e seg lpop clr | jnf e seg lpop clr =>
    cases hown
    obtain ⟨hseg, hlpop⟩ := (okJump_iff seg lpop).1 hwf
    obtain ⟨hm, hlow, hflag⟩ := flagAbove_decodes clr hlpop
    refine ⟨_, rfl, ?_⟩
    simp (disch := omega) only [decodePat, patWord_opcode, patWord_mod, patWord_operand, hlow, hflag]
    exact if_pos ⟨hm, hseg⟩
  | matchLoop e seg maxIter sense toFail =>
    cases hown
    obtain ⟨hseg, hmax⟩ := matchLoop_wf_bounds hwf
    obtain ⟨hm, hlow, hhigh⟩ := flagPair_decodes sense toFail
    have hdiv : (seg + maxIter * 2 ^ 24) / 2 ^ 24 = maxIter := by omega
    have hmod : (seg + maxIter * 2 ^ 24) % 2 ^ 24 = seg := by omega
    refine ⟨_, rfl, ?_⟩
    simp (disch := omega) only [decodePat, patWord_opcode, patWord_mod, patWord_operand, hlow, hhigh, hdiv, hmod]
    exact if_pos hm
  | wait e ns n =>
    cases hown
    obtain ⟨hm, hflag⟩ := flag_decodes ns
    have hn : n < 2 ^ 48 := of_decide_eq_true (Bool.and_eq_true_iff.1 hwf).2
    refine ⟨_, rfl, ?_⟩
    simp (disch := omega) only [decodePat, patWord_opcode, patWord_mod, patWord_operand, hflag]
    exact if_pos hm
  | wtrg e trigger timeout latch toFail =>
    cases hown
    obtain ⟨hsel, htime⟩ := Bool.and_eq_true_iff.1 hwf
    have htime := (okWord_iff timeout).1 htime
    have hlt := okSelector_lt hsel
    obtain ⟨hm, hlow, hhigh⟩ := flagPair_decodes latch toFail
    have hdiv : (trigger + timeout * 2 ^ 16) / 2 ^ 16 = timeout := by omega
    have hmod : (trigger + timeout * 2 ^ 16) % 2 ^ 12 = trigger := by omega
    have hgap : wordField (trigger + timeout * 2 ^ 16) 15 12 = 0 := by rw [wordField]; omega
    refine ⟨_, rfl, ?_⟩
    simp (disch := omega) only [decodePat, patWord_opcode, patWord_mod, patWord_operand, hlow, hhigh, hdiv, hmod, hgap]
    exact if_pos ⟨hm, trivial, hsel⟩
  | mark e out act =>
    cases hown
    have hout : toFin 8 out.val (by decide) = out := toFin_of_mod _ out (by omega)
    have hact : toFin 4 act.val (by decide) = act := toFin_of_mod _ act (by omega)
    refine ⟨_, rfl, ?_⟩
    simp (disch := omega) only [decodePat, patWord_opcode, patWord_mod, patWord_operand, hout, hact]
    exact if_pos ⟨act.isLt, out.isLt⟩
  | signal e token =>
    cases hown
    have hn : token < 2 ^ 48 := of_decide_eq_true hwf
    refine ⟨_, rfl, ?_⟩
    simp (disch := omega) only [decodePat, patWord_opcode, patWord_mod, patWord_operand]
    exact if_pos trivial
  | tset e ts groups off =>
    cases hown
    have hg := groups.isLt
    obtain ⟨hm, hflag⟩ := flag_decodes off
    have hts : toFin 64 (ts.val + groups.toNat * 2 ^ 32) (by decide) = ts := toFin_of_mod _ ts (by omega)
    have hgroups : BitVec.ofNat 16 ((ts.val + groups.toNat * 2 ^ 32) / 2 ^ 32) = groups := by
      rw [show (ts.val + groups.toNat * 2 ^ 32) / 2 ^ 32 = groups.toNat by omega]
      exact BitVec.ofNat_toNat 16 groups
    have hgap : wordField (ts.val + groups.toNat * 2 ^ 32) 31 6 = 0 := by rw [wordField]; omega
    refine ⟨_, rfl, ?_⟩
    simp (disch := omega) only [decodePat, patWord_opcode, patWord_mod, patWord_operand, hflag, hts, hgroups, hgap]
    exact if_pos ⟨hm, trivial⟩
  | stream e value strm act =>
    cases hown
    obtain ⟨hvalue, hstrm⟩ := Bool.and_eq_true_iff.1 hwf
    have hvalue := (okWord_iff value).1 hvalue
    have hstrm := (okByte_iff strm).1 hstrm
    have hact : toFin 3 act.val (by decide) = act := toFin_of_mod _ act (by omega)
    have hdiv : (value + strm * 2 ^ 32) / 2 ^ 32 = strm := by omega
    have hmod : (value + strm * 2 ^ 32) % 2 ^ 32 = value := by omega
    refine ⟨_, rfl, ?_⟩
    simp (disch := omega) only [decodePat, patWord_opcode, patWord_mod, patWord_operand, hact, hdiv, hmod]
    exact if_pos ⟨act.isLt, by omega⟩
  | capon e config | capoff e config =>
    cases hown
    have hc := (okByte_iff config).1 hwf
    refine ⟨_, rfl, ?_⟩
    simp (disch := omega) only [decodePat, patWord_opcode, patWord_mod, patWord_operand]
    exact if_pos ⟨trivial, hc⟩
  | stamp e mset disarm =>
    cases hown
    have hn : mset < 4096 := of_decide_eq_true hwf
    obtain ⟨hm, hflag⟩ := flag_decodes disarm
    refine ⟨_, rfl, ?_⟩
    simp (disch := omega) only [decodePat, patWord_opcode, patWord_mod, patWord_operand, hflag]
    exact if_pos ⟨hm, hn⟩
  | inj e group conv =>
    cases hown
    have hc := (okByte_iff conv).1 hwf
    have hgroup : toFin 16 (group.val + conv * 2 ^ 8) (by decide) = group := toFin_of_mod _ group (by omega)
    have hdiv : (group.val + conv * 2 ^ 8) / 2 ^ 8 = conv := by omega
    have hgap : wordField (group.val + conv * 2 ^ 8) 7 4 = 0 := by rw [wordField]; omega
    refine ⟨_, rfl, ?_⟩
    simp (disch := omega) only [decodePat, patWord_opcode, patWord_mod, patWord_operand, hgroup, hdiv, hgap]
    exact if_pos ⟨trivial, trivial, by omega⟩
  | failstop e en =>
    cases hown
    obtain ⟨hm, hflag⟩ := flag_decodes en
    refine ⟨_, rfl, ?_⟩
    simp (disch := omega) only [decodePat, patWord_opcode, patWord_mod, patWord_operand, hflag]
    exact if_pos ⟨hm, trivial⟩
  | _ => cases hown

end Sys2Proof
end

section
/-!
SUPPORT. The fields and the parity of a microword (02 R70).
-/

namespace Sys2Proof

open Sys2Proof.Machine

theorem microParity_iff (w : Nat) : microParity w = true ↔ ((List.range 40).map (bit w)).sum % 2 = 0 := by
  rw [microParity, beq_iff_eq]

/-- A word is a microword when its parity is even and its operand field fits its micro-op. -/
theorem decodeMicro_eq_some_iff {w : Nat} {m : MicroWord} :
    decodeMicro w = some m ↔ microParity w = true ∧ bits w 38 27 = m.next ∧
      microOp (bits w 26 22) (bits w 21 0) = some m.op := by
  obtain ⟨next, op⟩ := m
  rw [decodeMicro]
  split_ifs with hp
  · simp [hp, and_comm]
  · simp [hp]

/-- The bits below a summand at bit `k` are those of the other summand. -/
theorem bit_add_high (v q : Nat) {i k : Nat} (h : i < k) : bit (v + q * 2 ^ k) i = bit v i := by
  obtain ⟨d, rfl⟩ := Nat.exists_eq_add_of_lt h
  rw [bit, bit, show q * 2 ^ (i + d + 1) = 2 * (q * 2 ^ d) * 2 ^ i by ring, Nat.add_mul_div_right _ _ (by positivity),
    Nat.add_mul_mod_self_left]

/-- The bits of a microword are those of its 39 low bits and the parity bit. -/
theorem sum_bits_add_parity {v q : Nat} (hv : v < 2 ^ 39) (hq : q < 2) :
    ((List.range 40).map (bit (v + q * 2 ^ 39))).sum = ((List.range 39).map (bit v)).sum + q := by
  have hlow : (List.range 39).map (bit (v + q * 2 ^ 39)) = (List.range 39).map (bit v) :=
    List.map_congr_left fun i hi => bit_add_high v q (List.mem_range.1 hi)
  have htop : bit (v + q * 2 ^ 39) 39 = q := by
    rw [bit]
    omega
  rw [List.range_succ, List.map_append, List.sum_append, hlow, List.map_singleton, List.sum_singleton, htop]

/-- The fields of a microword lie side by side, below its parity bit. -/
theorem decodeMicro_of_fields {next uop ops q : Nat} {op : MicroOp} (hnext : next < 2 ^ 12) (huop : uop < 2 ^ 5)
    (hops : ops < 2 ^ 22) (hop : microOp uop ops = some op) :
    let w := next * 2 ^ 27 + uop * 2 ^ 22 + ops + q * 2 ^ 39
    decodeMicro w = if microParity w then some { next, op } else none := by
  intro w
  have h1 : bits w 38 27 = next := by simp only [bits, w]; omega
  have h2 : bits w 26 22 = uop := by simp only [bits, w]; omega
  have h3 : bits w 21 0 = ops := by simp only [bits, w]; omega
  rw [decodeMicro, h1, h2, h3, hop]
  rfl

end Sys2Proof
end

section
/-!
The statements about the encodings of pattern instructions and microwords.
-/

namespace Sys2Proof

open Sys2Proof.Machine

/-- Settles O4, instruction by instruction. -/
theorem patternInstructionsDecodeAsEncoded : Obligations.PatternInstructionsDecodeAsEncoded :=
  fun _ _ => decodePat_encodePat

/-- Settles O5: the decoder is evaluated on each word. -/
theorem wordsOfTheSpecDecode : Obligations.WordsOfTheSpecDecode :=
  fun _ => ⟨rfl, rfl, rfl, rfl, rfl, rfl, rfl, rfl, rfl⟩

/-- Settles O6: the parity bit makes the sum of the 40 bits even, and the fields lie apart. -/
theorem microwordFields : Obligations.MicrowordFields := by
  refine ⟨fun w m _ hm => ?_, fun next uop ops op hnext huop hops hop => ?_⟩
  · obtain ⟨hparity, hnext, hop⟩ := decodeMicro_eq_some_iff.1 hm
    rw [bits, bits, Nat.pow_zero, Nat.div_one] at hop
    exact ⟨(microParity_iff w).1 hparity, hnext.symm, hop⟩
  · intro v p
    have hv : v < 2 ^ 39 := by omega
    have hp : p = ((List.range 39).map (bit v)).sum % 2 := rfl
    have heven : microParity (v + p * 2 ^ 39) = true := by
      rw [microParity_iff, sum_bits_add_parity hv (by omega)]
      omega
    have hodd : ¬ microParity (v + (1 - p) * 2 ^ 39) = true := by
      rw [microParity_iff, sum_bits_add_parity hv (by omega)]
      omega
    exact ⟨(decodeMicro_of_fields hnext huop hops hop).trans (if_pos heven),
      (decodeMicro_of_fields hnext huop hops hop).trans (if_neg hodd)⟩

end Sys2Proof
end

section
/-!
SUPPORT. What the instructions that nest and jump do to the burst of their engine (02 R49 to R54).
-/

namespace Sys2Proof

open Sys2Proof.Machine

/-! ## Effects on a burst -/

/-- An instruction that puts a new burst makes it the engine's. -/
theorem answers_of_putBurst {c : Instr} {s : State} {e : Eng} {i : Instr} {f : Burst → ImgSt → State → State}
    {b b' : Burst} {m : ImgSt} (he : exec c s = .next (s.pattern e i f)) (h : Fetches s e i b m)
    (hf : f b m (noted s e b.ip) = (noted s e b.ip).putBurst e.val b') :
    Answers c s (BurstBecomes s e m b.ip b') :=
  answers_of_pattern he h (hf ▸ putBurst_becomes s e m b.ip b')

/-- An instruction whose effect is known answers it, moved on. -/
theorem next_of_effect {c : Instr} {s u : State} {e : Eng} {i : Instr} {f : Burst → ImgSt → State → State}
    {b : Burst} {m : ImgSt} (he : exec c s = .next (s.pattern e i f)) (h : Fetches s e i b m)
    (hf : f b m (noted s e b.ip) = u) : exec c s = .next (movedOn u e m b.ip) :=
  hf ▸ next_of_pattern he h

/-- The engine that fetches has the burst that it fetches for. -/
theorem fetch_burstAt {s : State} {e : Eng} {b : Burst} {m : ImgSt} (h : s.fetch e = some (b, m)) :
    s.burstAt e.val = some b := by
  unfold State.fetch at h
  split at h
  · split_ifs at h
    obtain ⟨_, -, hpair⟩ := Option.map_eq_some_iff.1 h
    cases hpair
    assumption
  · cases h

theorem putBurst_putBurst (s : State) (k : Nat) (b b' : Burst) : (s.putBurst k b).putBurst k b' = s.putBurst k b' := by
  simp only [State.putBurst, Tbl.put_put]

/-- A burst under a runner is changed in place, and nothing else. -/
theorem updBurst_of_some {s : State} {k : Nat} {b : Burst} (f : Burst → Burst) (h : s.burstAt k = some b) :
    s.updBurst k f = s.putBurst k (f b) := by
  rw [State.updBurst, h]

theorem updBurst_putBurst (s : State) (k : Nat) (b : Burst) (f : Burst → Burst) :
    (s.putBurst k b).updBurst k f = s.putBurst k (f b) :=
  (updBurst_of_some f (State.putBurst_same s k b)).trans (putBurst_putBurst s k b (f b))

/-! ## LOOP, ENDL, CALL, RET -/

theorem exec_loop (e : Eng) (n : Nat) (s : State) : exec (.loop e n) s = execLoop e n s := rfl
theorem exec_endl (e : Eng) (s : State) : exec (.endl e) s = execEndl e s := rfl
theorem exec_call (e : Eng) (seg : Nat) (s : State) : exec (.call e seg) s = execCall e seg s := rfl
theorem exec_ret (e : Eng) (s : State) : exec (.ret e) s = execRet e s := rfl

section
variable {s : State} {e : Eng} {b : Burst} {m : ImgSt}

theorem loop_pushes {n : Nat} (h : Fetches s e (.loop e n) b m) (hl : b.loops.length < 8) :
    let next := m.img.after b.ip b.vp
    Answers (.loop e n) s (BurstBecomes s e m b.ip
      { b with loops := { count := n, ip := next.1, vp := next.2 } :: b.loops, ip := next.1, vp := next.2 }) :=
  answers_of_putBurst (exec_loop e n s) h (if_neg (Nat.not_le.2 hl))

theorem loop_overflows {n : Nat} (h : Fetches s e (.loop e n) b m) (hl : 8 ≤ b.loops.length) :
    exec (.loop e n) s = .next (movedOn ((noted s e b.ip).machineCheck e.val 2) e m b.ip) :=
  next_of_effect (exec_loop e n s) h (if_pos hl)

theorem endl_repeats {l : LoopEnt} {r : List LoopEnt} (h : Fetches s e (.endl e) b m) (hl : b.loops = l :: r)
    (hc : 1 < l.count) : Answers (.endl e) s (BurstBecomes s e m b.ip
      { b with loops := { l with count := l.count - 1 } :: r, ip := l.ip, vp := l.vp }) :=
  answers_of_putBurst (exec_endl e s) h (by simp only [hl, if_pos hc])

theorem endl_leaves {l : LoopEnt} {r : List LoopEnt} (h : Fetches s e (.endl e) b m) (hl : b.loops = l :: r)
    (hc : l.count ≤ 1) :
    let next := m.img.after b.ip b.vp
    Answers (.endl e) s (BurstBecomes s e m b.ip { b with loops := r, ip := next.1, vp := next.2 }) :=
  answers_of_putBurst (exec_endl e s) h (by simp only [hl, if_neg (Nat.not_lt.2 hc)]; rfl)

theorem endl_underflows (h : Fetches s e (.endl e) b m) (hl : b.loops = []) :
    exec (.endl e) s = .next (movedOn ((noted s e b.ip).machineCheck e.val 2) e m b.ip) :=
  next_of_effect (exec_endl e s) h (by simp only [hl])

theorem call_enters {seg i v : Nat} (h : Fetches s e (.call e seg) b m) (hr : b.rets.length < 8)
    (hs : m.img.enter seg = some (i, v)) :
    let next := m.img.after b.ip b.vp
    Answers (.call e seg) s (BurstBecomes s e m b.ip
      { b with rets := { ip := next.1, vp := next.2 } :: b.rets, ip := i, vp := v }) :=
  answers_of_putBurst (exec_call e seg s) h (by simp only [if_neg (Nat.not_le.2 hr), hs])

theorem call_overflows {seg : Nat} (h : Fetches s e (.call e seg) b m) (hr : 8 ≤ b.rets.length) :
    exec (.call e seg) s = .next (movedOn ((noted s e b.ip).machineCheck e.val 2) e m b.ip) :=
  next_of_effect (exec_call e seg s) h (if_pos hr)

theorem call_of_no_segment {seg : Nat} (h : Fetches s e (.call e seg) b m) (hr : b.rets.length < 8)
    (hs : m.img.enter seg = none) :
    exec (.call e seg) s = .next (movedOn ((noted s e b.ip).machineCheck e.val 1) e m b.ip) :=
  next_of_effect (exec_call e seg s) h (by simp only [if_neg (Nat.not_le.2 hr), hs])

theorem ret_resumes {x : RetEnt} {r : List RetEnt} (h : Fetches s e (.ret e) b m) (hr : b.rets = x :: r) :
    Answers (.ret e) s (BurstBecomes s e m b.ip { b with rets := r, ip := x.ip, vp := x.vp }) :=
  answers_of_putBurst (exec_ret e s) h (by simp only [hr])

theorem ret_underflows (h : Fetches s e (.ret e) b m) (hr : b.rets = []) :
    exec (.ret e) s = .next (movedOn ((noted s e b.ip).machineCheck e.val 2) e m b.ip) :=
  next_of_effect (exec_ret e s) h (by simp only [hr])

/-! ## JMP, JF, JNF -/

theorem transfer_enters {img : Image} {seg lpop i v : Nat} (s : State) (hl : lpop ≤ b.loops.length)
    (hs : img.enter seg = some (i, v)) :
    s.transfer e img b seg lpop = s.putBurst e.val { b with ip := i, vp := v, loops := b.loops.drop lpop } := by
  simp only [State.transfer, if_neg (Nat.not_lt.2 hl), hs]

theorem transfer_underflows {img : Image} {seg lpop : Nat} (s : State) (hl : b.loops.length < lpop) :
    s.transfer e img b seg lpop = s.machineCheck e.val 2 := if_pos hl

theorem transfer_of_no_segment {img : Image} {seg lpop : Nat} (s : State) (hl : lpop ≤ b.loops.length)
    (hs : img.enter seg = none) : s.transfer e img b seg lpop = s.machineCheck e.val 1 := by
  simp only [State.transfer, if_neg (Nat.not_lt.2 hl), hs]

theorem exec_jmp (e : Eng) (seg lpop : Nat) (s : State) : exec (.jmp e seg lpop) s = execJmp e seg lpop s := rfl
theorem exec_jf (e : Eng) (seg lpop : Nat) (clr : Bool) (s : State) :
    exec (.jf e seg lpop clr) s = execJf e seg lpop clr s := rfl
theorem exec_jnf (e : Eng) (seg lpop : Nat) (clr : Bool) (s : State) :
    exec (.jnf e seg lpop clr) s = execJnf e seg lpop clr s := rfl

/-- The burst once JF or JNF has tested its flag (02 R54). -/
def flagTested (b : Burst) (clr : Bool) : Burst := if clr then b.jfClear b.horizon else b

theorem flagTested_loops (b : Burst) (clr : Bool) : (flagTested b clr).loops = b.loops := by cases clr <;> rfl

theorem jumpFail_waits {seg lpop : Nat} (s : State) (img : Image) (clr onFail : Bool)
    (hf : b.finalTo b.horizon = false) : s.jumpFail e img b seg lpop clr onFail = s := by
  simp [State.jumpFail, hf]

theorem jumpFail_goes_on {seg lpop : Nat} {onFail : Bool} (s : State) (img : Image) (clr : Bool)
    (hf : b.finalTo b.horizon = true) (ht : b.jfTest b.horizon ≠ onFail) :
    s.jumpFail e img b seg lpop clr onFail = s.putBurst e.val ((flagTested b clr).step img) := by
  simp [State.jumpFail, hf, ht, flagTested]

theorem jumpFail_transfers {seg lpop i v : Nat} {onFail : Bool} {img : Image} (s : State) (clr : Bool)
    (hf : b.finalTo b.horizon = true) (ht : b.jfTest b.horizon = onFail) (hl : lpop ≤ b.loops.length)
    (hs : img.enter seg = some (i, v)) :
    s.jumpFail e img b seg lpop clr onFail =
      s.putBurst e.val { flagTested b clr with ip := i, vp := v, loops := b.loops.drop lpop } := by
  have hl' : lpop ≤ (flagTested b clr).loops.length := (flagTested_loops b clr).symm ▸ hl
  have ht' : s.jumpFail e img b seg lpop clr onFail =
      (s.putBurst e.val (flagTested b clr)).transfer e img (flagTested b clr) seg lpop := by
    simp [State.jumpFail, hf, ht, flagTested]
  rw [ht', transfer_enters _ hl' hs, putBurst_putBurst, flagTested_loops]

/-- The burst of an engine that waits in JF or JNF stays as it is, moved on. -/
theorem answers_of_waiting {c i : Instr} {f : Burst → ImgSt → State → State} (he : exec c s = .next (s.pattern e i f))
    (h : Fetches s e i b m) (hf : f b m (noted s e b.ip) = noted s e b.ip) :
    Answers c s (BurstBecomes s e m b.ip b) := by
  refine answers_of_pattern he h ?_
  have hb : (noted s e b.ip).burstAt e.val = some b := fetch_burstAt (s := s) h.1
  rw [hf, movedOn, updBurst_of_some _ hb]
  refine ⟨State.putBurst_same _ _ _, ?_, rfl⟩
  change ((noted s e b.ip).engAt e.val).micro.lastIp = b.ip
  rw [noted, State.updEng_same]

end

end Sys2Proof
end

section
/-!
The statements about the instructions that nest and jump.
-/

namespace Sys2Proof

open Sys2Proof.Machine

/-- Settles O31, case by case of the two stacks. -/
theorem nestingInstructions : Obligations.NestingInstructions := by
  intro e s b m fails next
  exact ⟨fun _ h => ⟨loop_pushes h, loop_overflows h⟩,
    fun h => ⟨fun _ _ => endl_repeats h, fun _ _ => endl_leaves h, endl_underflows h⟩,
    fun _ h => ⟨fun _ _ => call_enters h, call_overflows h, call_of_no_segment h⟩,
    fun h => ⟨fun _ _ => ret_resumes h, ret_underflows h⟩⟩

/-- Settles O32: JMP is the transfer, JF and JNF wait, go on or transfer by the flag that they test. -/
theorem jumpInstructions : Obligations.JumpInstructions := by
  intro e s b m seg lpop fails
  refine ⟨fun h => ⟨fun i v hl hs => ?_, fun hl => ?_, fun hl hs => ?_⟩,
    fun clr h => ⟨fun hf => ?_, fun hf ht => ?_, fun i v hf ht hl hs => ?_⟩,
    fun clr h => ⟨fun hf => ?_, fun hf ht => ?_, fun i v hf ht hl hs => ?_⟩⟩
  · exact answers_of_putBurst (exec_jmp e seg lpop s) h (transfer_enters _ hl hs)
  · exact next_of_effect (exec_jmp e seg lpop s) h (transfer_underflows _ hl)
  · exact next_of_effect (exec_jmp e seg lpop s) h (transfer_of_no_segment _ hl hs)
  · exact answers_of_waiting (exec_jf e seg lpop clr s) h (jumpFail_waits _ _ _ _ hf)
  · exact answers_of_putBurst (exec_jf e seg lpop clr s) h (jumpFail_goes_on _ _ _ hf (by simp [ht]))
  · exact answers_of_putBurst (exec_jf e seg lpop clr s) h (jumpFail_transfers _ _ hf ht hl hs)
  · exact answers_of_waiting (exec_jnf e seg lpop clr s) h (jumpFail_waits _ _ _ _ hf)
  · exact answers_of_putBurst (exec_jnf e seg lpop clr s) h (jumpFail_goes_on _ _ _ hf (by simp [ht]))
  · exact answers_of_putBurst (exec_jnf e seg lpop clr s) h (jumpFail_transfers _ _ hf ht hl hs)

end Sys2Proof
end

section
/-!
SUPPORT. The micro-sequencer from outside: the routine of an instruction, the traps, the scrub (02 R70 to R82).
-/

namespace Sys2Proof

open Sys2Proof.Machine

/-- Every instruction of an engine executes through the sequencer of that engine. -/
theorem exec_of_ownEngine {i : Instr} {e : Eng} (s : State) (h : ownEngine i = some e) :
    ∃ f, exec i s = .next (s.pattern e i f) := by
  cases i with
  | vec | rpt | loop | endl | call | ret | jmp | jf | jnf | matchLoop | wait | wtrg | mark | signal | tset | stream
  | capon | capoff | stamp | inj | failstop | halt =>
    cases h
    exact ⟨_, rfl⟩
  | _ => cases h

/-- An engine with microwords runs the routine of the instruction that it interprets. -/
theorem exec_of_interprets {s : State} {e : Eng} {i : Instr} {b : Burst} {m : ImgSt} {ir : Nat} {w : IWord}
    (hown : ownEngine i = some e) (h : Interprets s e i b m ir w) :
    exec i s = .next (movedOn (s.microRun e m b ir w) e m ir) := by
  obtain ⟨f, hf⟩ := exec_of_ownEngine s hown
  rw [hf, pattern_interprets h]

/-- At no commit point, a routine starts at the dispatch entry of its opcode with nothing staged; a stall undoes it, a
check is a machine check at the address reached (02 R75 to R78). -/
theorem microRun_of_dispatch {s : State} {e : Eng} {m : ImgSt} {b : Burst} {ir : Nat} {w : IWord}
    (hpc : (s.engAt e.val).micro.pc = none) :
    let r := MRun.run e m w (s.engAt e.val).ucode.words 25 (w.toNat / 2 ^ 58)
      { b, m := { (s.engAt e.val).micro with ir, lastIp := ir }, ip := ir + 1, moved := false }
    (r.2 = .stall → s.microRun e m b ir w = s) ∧
    (∀ off, r.2 = .check off →
      s.microRun e m b ir w = s.machineCheck e.val off (some (r.1, 0x10 + e.val, if off = 0 then 3 else 2))) := by
  intro r
  have hmid : (s.engAt e.val).micro.pc.isSome = false := hpc ▸ rfl
  have hentry : (s.engAt e.val).micro.pc.getD (w.toNat / 2 ^ 58) = w.toNat / 2 ^ 58 := hpc ▸ rfl
  refine ⟨fun hr => ?_, fun off hr => ?_⟩ <;>
    · unfold State.microRun
      simp only [hmid, hentry, Bool.false_and, Bool.false_eq_true, if_false]
      rw [hr]

/-! ## Traps and the scrub -/

theorem exec_illegalOpcodeTrap (e : Eng) (op : Nat) (s : State) :
    exec (.illegalOpcodeTrap e op) s = execIllegalOpcodeTrap e op s := rfl

theorem illegalOpcodeTrap_of_released {s : State} {e : Eng} {op : Nat} {x : Burst × ImgSt} (hx : s.fetch e = some x)
    (hop : reservedOpcode op = true) (hw : (s.engAt e.val).ucode.words = []) :
    exec (.illegalOpcodeTrap e op) s = .next (s.machineCheck e.val 1 (some (op, 0x10 + e.val, 2))) := by
  rw [exec_illegalOpcodeTrap, execIllegalOpcodeTrap, hx]
  simp [hop, hw]

theorem illegalOpcodeTrap_of_words {s : State} {e : Eng} {op : Nat} {b : Burst} {m : ImgSt}
    (hx : s.fetch e = some (b, m)) (hop : reservedOpcode op = true) (hw : (s.engAt e.val).ucode.words ≠ []) :
    exec (.illegalOpcodeTrap e op) s = .next (s.microRun e m b b.ip (patWord op 0 0)) := by
  rw [exec_illegalOpcodeTrap, execIllegalOpcodeTrap, hx]
  simp [hop, hw]

theorem exec_controlStoreScrub (e : Eng) (parityError : Bool) (a : Nat) (s : State) :
    exec (.controlStoreScrub e parityError a) s = execControlStoreScrub e parityError a s := rfl

theorem controlStoreScrub_of_error {s : State} {e : Eng} (a : Nat) (h : (s.engAt e.val).mode ≠ .fenced) :
    exec (.controlStoreScrub e true a) s = .next (s.machineCheck e.val 0 (some (a, 0x10 + e.val, 3))) := by
  rw [exec_controlStoreScrub, execControlStoreScrub]
  simp [h]

theorem controlStoreScrub_of_good (s : State) (e : Eng) (a : Nat) :
    exec (.controlStoreScrub e false a) s = .next s := rfl

/-! ## Control descriptors (02 R62) -/

theorem exec_controlDescriptorAct (r : Runner) (s : State) :
    exec (.controlDescriptorAct r) s = execControlDescriptorAct r s := rfl

theorem controlDescriptorAct_of_ended {s : State} {r : Runner} {b : Burst} (hb : s.burstAt r.val = some b)
    (he : b.ended = true) (hp : b.phase = .running) :
    exec (.controlDescriptorAct r) s = .next (s.actRest r.val b) := by
  rw [exec_controlDescriptorAct, execControlDescriptorAct, hb]
  simp [he, hp]

theorem controlDescriptorAct_of_due {s : State} {r : Runner} {b : Burst} {m : ImgSt} {c : Column} {cs : List Column}
    (hb : s.burstAt r.val = some b) (hm : s.imgOf b = some m) (he : b.ended = false) (hcan : b.canEmit = true)
    (hc : b.cols = c :: cs) :
    exec (.controlDescriptorAct r) s = .next (s.actDue r.val m.img c) := by
  rw [exec_controlDescriptorAct, execControlDescriptorAct, hb]
  simp [he, hcan, hc, hm]

/-- One descriptor that is due takes effect alone. -/
theorem actDue_of_one {s : State} {r : Nat} {b : Burst} {d : CtlDesc} (img : Image) (c : Column)
    (hb : s.burstAt r = some b) (hd : b.ctls = [d]) (hpos : d.pos ≤ b.emitted) :
    let len := s.cycleLen b (s.posPeriod { b with tso := b.tsoNext } img c.vec)
    s.actDue r img c = (s.putBurst r { b with ctls := [] }).actCtl r b b.nextStart (b.nextStart + len) d := by
  have hdue : b.ctls.filter (fun d => decide (d.pos ≤ b.emitted)) = b.ctls := by simp [hd, hpos]
  have hleft : b.ctls.filter (fun d => !decide (d.pos ≤ b.emitted)) = [] := by simp [hd, hpos]
  rw [State.actDue, hb]
  simp only [hdue, hleft]
  exact congrArg (List.foldl _ _) hd

/-- A measurement set that STAMP arms, of a site of the burst, is no set that the instruction passes over. -/
theorem stamp_acts {s : State} {b : Burst} {n : Nat} {k : Site} (hk : k ∈ b.sites) (hp : s.msPar n 0x00B = 0)
    (hn : s.msPar n 0x001 = k.val) :
    ¬ (s.msPar n 0x00B ≠ 0 ∨ b.sites.all (fun k => k.val != s.msPar n 0x001) = true) := by
  rw [not_or, not_not, Bool.not_eq_true, List.all_eq_false]
  exact ⟨hp, k, hk, by simp [hn]⟩

end Sys2Proof
end

section
/-!
The statements about the micro-sequencer and the control descriptors.
-/

namespace Sys2Proof

open Sys2Proof.Machine

/-- Settles O34: the routine of the instruction, its stall and its check, the traps, the scrub, the last descriptors. -/
theorem sequencerUnits : Obligations.SequencerUnits := by
  intro e s
  refine ⟨fun _ _ _ _ _ => exec_of_interprets, fun b m ir w at_ hpc hr => ?_, fun b m ir w at_ off hpc hr => ?_,
    fun _ _ => illegalOpcodeTrap_of_released, fun _ _ _ => illegalOpcodeTrap_of_words, controlStoreScrub_of_error,
    controlStoreScrub_of_good s e, fun _ _ => controlDescriptorAct_of_ended⟩
  · exact (microRun_of_dispatch hpc).1 (congrArg Prod.snd hr)
  · rw [(microRun_of_dispatch hpc).2 off (congrArg Prod.snd hr), hr]

/-- Settles O30: the one descriptor that is due acts in the cycle of its position, by its kind. -/
theorem descriptorsAct : Obligations.DescriptorsAct := by
  intro r s b m c cs d hb hm he hcan hc hd hpos u q len
  have hact : exec (.controlDescriptorAct r) s = .next (u.actCtl r.val b q (q + len) d) := by
    rw [controlDescriptorAct_of_due hb hm he hcan hc, actDue_of_one m.img c hb hd hpos]
  refine ⟨fun out act h => ?_, fun k h => ?_, fun ts g off h => ?_, fun v n act h => ?_, fun x h => ?_, fun x h => ?_,
    fun n k h hk hp hn => ?_, fun n k h hk hp hn => ?_, fun g x h => ?_, fun en h => ?_⟩ <;>
    rw [hact, State.actCtl, h]
  · exact congrArg _ (updBurst_putBurst s _ _ _)
  · exact congrArg _ ((if_neg (stamp_acts hk hp hn)).trans (if_neg Bool.false_ne_true))
  · exact congrArg _ ((if_neg (stamp_acts hk hp hn)).trans (if_pos rfl))
  · exact congrArg _ (updBurst_putBurst s _ _ _)

end Sys2Proof
end

section
/-!
SUPPORT. What the rows of a running burst do: one equation per row and case (02 R42, R43, R83; 03 R102 to R112; 06 R187).
-/

namespace Sys2Proof

open Sys2Proof.Machine

/-! ## Granules (03 R102, R103; 11 R312) -/

theorem exec_granuleDelivered (e : Eng) (ecc : Ecc) (x : Pc) (gran : Nat) (s : State) :
    exec (.granuleDelivered e ecc x gran) s = execGranuleDelivered e ecc x gran s := rfl

/-- The granule that a burst asked for first on a pseudo-channel in service acts by its ECC outcome. -/
theorem granuleDelivered_of_awaited {s : State} {b : Burst} {m : ImgSt} {e : Eng} {x : Pc} {gran : Nat}
    (hb : s.burstAt e.val = some b) (hm : s.imgOf b = some m)
    (hawaits : b.strm.awaits (fun g => m.pcOf g == x.val) = true) (hmode : (s.mcAt (x.val / 2)).mode ≠ 3)
    (hfirst : (b.strm.out.find? (fun r => m.pcOf r.gran == x.val)).map (·.gran) = some gran) :
    let ok (g : Nat) : Bool := m.pcOf g == x.val
    exec (.granuleDelivered e .good x gran) s = .next (s.delivered e.val ok) ∧
    exec (.granuleDelivered e .corrected x gran) s =
      .next ((s.drawFree.eccCorr x.val s.freeAddr).delivered e.val ok) ∧
    exec (.granuleDelivered e .uncorrectable x gran) s =
      .next (s.streamUe e.val b x.val ((b.strm.out.find? (fun r => ok r.gran)).map (fun r => b.needs r.sq))) := by
  have hmode' := beq_eq_false_iff_ne.2 hmode
  refine ⟨?_, ?_, ?_⟩ <;>
    · rw [exec_granuleDelivered, execGranuleDelivered, hb]
      simp only [hm, hawaits, hfirst, hmode', bne_self_eq_false, Bool.not_true, Bool.or_self, Bool.false_eq_true, if_false]

/-! ## Positions (02 R43, R83; 04 R120; 09 R259) -/

theorem exec_positionEmitted (r : Runner) (ls : Ecc) (s : State) :
    exec (.positionEmitted r ls) s = execPositionEmitted r ls s := rfl

theorem positionEmitted_good {s : State} {r : Runner} (h : s.tryRelease r.val = s) :
    exec (.positionEmitted r .good) s = .next (s.emit r.val) := by
  rw [exec_positionEmitted, execPositionEmitted]
  simp only [ite_self]
  exact congrArg _ (congrArg (State.emit · r.val) h)

/-- The loop store is read for a position that an engine emits. -/
theorem positionEmitted_reads {s : State} {r : Runner} {b : Burst} (hr : r.val < 32) (hb : s.burstAt r.val = some b)
    (hcan : b.canEmit = true) :
    (decide (r.val < 32) && (s.burstAt r.val).any (fun b => b.canEmit)) = true := by
  simp [hr, hb, hcan]

theorem positionEmitted_corrected {s : State} {r : Runner} {b : Burst} (hr : r.val < 32)
    (hb : s.burstAt r.val = some b) (hcan : b.canEmit = true) :
    exec (.positionEmitted r .corrected) s = .next
      ((((s.updEng r.val (fun x => { x with lsCorr := satAdd x.lsCorr 1 0xFFFFFFFF })).event (0x103 + 8 * r.val)).tryRelease
        r.val).emit r.val) := by
  rw [exec_positionEmitted, execPositionEmitted, positionEmitted_reads hr hb hcan]
  rfl

theorem positionEmitted_uncorrectable {s : State} {r : Runner} {b : Burst} (hr : r.val < 32)
    (hb : s.burstAt r.val = some b) (hcan : b.canEmit = true) :
    exec (.positionEmitted r .uncorrectable) s = .next
      (s.drawFree.machineCheck r.val 4 (some (s.freeVal % 2 ^ 20, 0x10 + r.val, 3))) := by
  rw [exec_positionEmitted, execPositionEmitted, positionEmitted_reads hr hb hcan]
  rfl

/-- Without a control descriptor the next position of a pattern burst is emitted at once. -/
theorem emit_of_column {s : State} {r : Nat} {b : Burst} {m : ImgSt} {c : Column} {rest : List Column}
    (hb : s.burstAt r = some b) (hm : s.imgOf b = some m) (hraster : b.raster = false) (hcan : b.canEmit = true)
    (hc : b.cols = c :: rest) (hctls : b.ctls = []) :
    s.emit r = (s.putBurst r { b with ctls := [] }).emitVec r m.img { b with ctls := [] } c rest := by
  have hdue : s.actDue r m.img c = s.putBurst r { b with ctls := [] } := by
    rw [State.actDue, hb]
    simp [hctls]
  rw [State.emit, hb]
  simp [hcan, hraster, hc, hm, hdue]

theorem emit_of_raster {s : State} {r : Nat} {b : Burst} (hb : s.burstAt r = some b) (hraster : b.raster = true)
    (hhalted : b.halted = false) (hcan : b.canEmit = true) : s.emit r = s.emitRaster r b := by
  rw [State.emit, hb]
  simp [hcan, hraster, hhalted]

/-! ## Missing positions (03 R108 to R112) -/

theorem exec_positionMissing (r : Runner) (c : Short) (mc : Option Mc) (s : State) :
    exec (.positionMissing r c mc) s = execPositionMissing r c mc s := rfl

/-- The burst lacks `l` for its next position in cycle `b.cycle`, and the cause `c` fits that. -/
structure Misses (s : State) (b : Burst) (m : ImgSt) (c : Short) (l : Lack) : Prop where
  lacks   : b.lacks m = some l
  fits    : s.causeFits m c l = true
  pattern : b.raster = false
  running : b.phase = .running
  waiting : b.waiting = false
  paused  : b.paused = none
  before  : b.before b.cycle = true
  spent   : b.spent = false
  empty   : b.cols = []

/-- A missing position pauses a pausable burst, unless the channel is fenced; the first pause is told (03 R110 to
R112, R116). -/
theorem positionMissing_of_misses {s : State} {b : Burst} {m : ImgSt} {r : Runner} {c : Short} {l : Lack} {mc : Option Mc}
    (hb : s.burstAt r.val = some b) (hm : s.imgOf b = some m) (h : Misses s b m c l) (hmc : l.mc m = mc.map (·.val)) :
    let u := s.moveTo (nsOf b.nextStart)
    let w := b.shortWords r.val m c l
    let t := u.putBurst r.val { b with
      paused := some { cause := c, gran := l.gran, mc := l.mc m, words := w }, stretched := true }
    exec (.positionMissing r c mc) s = .next
      (if b.pausable && c != .fence then
        if b.stretched then t else t.event 0x5D1 w (b.sites.map (fun k => .site k.val))
      else State.underrun raiseTop u r.val b w) := by
  obtain ⟨hlacks, hfits, hraster, hphase, hwaiting, hpaused, hbefore, hspent, hcols⟩ := h
  have hmc' : mc.map (·.val) = s.lackedMc r.val := by simp [State.lackedMc, hb, hm, hlacks, hmc]
  rw [exec_positionMissing, execPositionMissing, if_pos hmc', State.missing, hb]
  simp [hm, hlacks, hfits, hraster, hphase, hwaiting, hpaused, hbefore, hspent, hcols]

/-! ## Pauses (03 R111, R112) -/

theorem exec_pauseResume (r : Runner) (s : State) : exec (.pauseResume r) s = .next (s.resume r.val) := rfl

/-- Without a stretch limit a pause ends 48 cycles after the islands are full again. -/
theorem pauseResume_of_refilled {s : State} {b : Burst} {r : Runner} {c : Pause} (hb : s.burstAt r.val = some b)
    (hp : b.paused = some c) (hfull : b.refilled = true) (hspent : b.spent = false) :
    let at_ := max b.cycle (b.cycleAt (4000 * s.now))
    b.before (at_ + 48) = true → s.stretchMax b = none →
    exec (.pauseResume r) s = .next (s.holdCycles r.val b (at_ + 48)
      (fun x => { x with paused := none, holds := x.holds + (at_ + 48 - b.cycle) })) := by
  intro at_ hbefore hmax
  rw [exec_pauseResume, State.resume, hb]
  simp only [hp, hmax, hfull, hspent]
  exact congrArg _ (if_neg (by simpa using hbefore))

theorem exec_stretchLimitReached (r : Runner) (s : State) :
    exec (.stretchLimitReached r) s = .next (s.stretchEnd r.val) := rfl

theorem stretchLimitReached_ends {s : State} {b : Burst} {r : Runner} {c : Pause} {k : Nat}
    (hb : s.burstAt r.val = some b) (hp : b.paused = some c) (hmax : s.stretchMax b = some k)
    (hbefore : b.before (b.cycle + (k - b.holds)) = true) :
    let b' := { s.holdTo b (b.cycle + (k - b.holds)) with holds := b.holds + (k - b.holds) }
    exec (.stretchLimitReached r) s =
      .next (State.underrun raiseTop (s.moveTo (nsOf b'.nextStart)) r.val b' c.words) := by
  rw [exec_stretchLimitReached, State.stretchEnd, hb]
  simp only [hp, hmax, hbefore, if_true]

/-! ## Compare results (06 R187) -/

theorem exec_compareResultFinal (r : Runner) (seen : List (Chan × List Cmp)) (s : State) :
    exec (.compareResultFinal r seen) s = .next (s.finalResult r.val seen) := rfl

theorem compareResultFinal_judges {s : State} {b : Burst} {r : Runner} {x : Flight} {l : List Flight} {ended : Bool}
    (seen : List (Chan × List Cmp)) (hold : s.oldest r.val = some (ended, b)) (hflight : b.flight = x :: l)
    (hdue : ended = true ∨ b.dueFinal x = true) :
    let y := x.cut b.maskFrom
    let u := (s.moveTo (nsOf (y.start + 32 * b.period))).judge r.val ended b y (y.fails seen)
    exec (.compareResultFinal r seen) s = .next (((u.capture b y seen).owedRecs { b with flight := l }).updOldest r.val
      ended (fun c => Burst.owedKept { c with flight := l })) := by
  rw [exec_compareResultFinal, State.finalResult, hold]
  simp only [hflight, Bool.or_eq_true, hdue, if_true]

end Sys2Proof
end

section
/-!
The statement about the emission of a burst.
-/

namespace Sys2Proof

open Sys2Proof.Machine

/-- Settles O37: each clause is the equation of its row in the case that its hypotheses name. -/
theorem burstEmission : Obligations.BurstEmission := by
  intro s b m
  refine ⟨fun e x gran hb hm hawaits hmode hfirst => ?_, fun r c rest hrel hb hm hraster hcan hc hctls => ?_,
    fun r hrel hb hraster hhalted hcan => ?_, fun r hr hb hcan =>
      ⟨positionEmitted_corrected hr hb hcan, positionEmitted_uncorrectable hr hb hcan⟩,
    fun r c l mc hb hm hlacks hmc hfits hraster hphase hwaiting hpaused hbefore hspent hcols => ?_,
    fun r c => pauseResume_of_refilled, fun r c k => stretchLimitReached_ends,
    fun r seen x l ended => compareResultFinal_judges seen⟩
  · obtain ⟨hgood, hcorrected, huncorrectable⟩ := granuleDelivered_of_awaited hb hm hawaits hmode hfirst
    refine ⟨⟨_, hgood, ?_, ?_⟩, hcorrected, huncorrectable⟩
    · rw [State.delivered, updBurst_of_some _ hb, State.putBurst_same]
    · rw [State.delivered, updBurst_of_some _ hb]
      rfl
  · rw [positionEmitted_good hrel, emit_of_column hb hm hraster hcan hc hctls]
  · rw [positionEmitted_good hrel, emit_of_raster hb hraster hhalted hcan]
  · have hmiss : Misses s b m c l :=
      ⟨hlacks, hfits, hraster, hphase, hwaiting, hpaused, hbefore, hspent, hcols⟩
    have h := positionMissing_of_misses hb hm hmiss hmc
    refine ⟨fun hp hf hs => ?_, fun hp hf hs => ?_, fun hend => ?_⟩
    · rw [h, hp, hs]
      simp [hf]
    · rw [h, hp, hs]
      simp [hf]
    · have hends : ¬ (b.pausable && c != .fence) = true := by
        rcases hend with hp | hf
        · simp [hp]
        · simp [hf]
      rw [h, if_neg hends]

end Sys2Proof
end

section
/-!
SUPPORT. How a burst ends: early, at its run limit, after its last position, with its final result (02 R64 to R67;
06 R187).
-/

namespace Sys2Proof

open Sys2Proof.Machine

/-! ## What leaves the bursts alone -/

/-- A fold of updates that keep a field keeps it. -/
theorem foldl_keeps_ve {α : Type} {f : State → α → State} (hf : ∀ s a, (f s a).ve = s.ve) (l : List α) (s : State) :
    (l.foldl f s).ve = s.ve := by
  induction l generalizing s with
  | nil => rfl
  | cons a l ih => rw [List.foldl_cons, ih, hf]

/-- Deferred thermal corrections concern lanes. -/
theorem tcApply_ve (s : State) (b : Burst) : (s.tcApply b).ve = s.ve := by
  refine foldl_keeps_ve (fun s c => ?_) _ s
  dsimp only
  split
  · rfl
  · rfl

theorem tcApply_burstAt (s : State) (b : Burst) (k : Nat) : (s.tcApply b).burstAt k = s.burstAt k := by
  rw [State.burstAt, tcApply_ve, State.burstAt]

/-! ## Early ends (02 R65, R67) -/

theorem exec_asyncEventAct (r : Runner) (s : State) : exec (.asyncEventAct r) s = .next (s.asyncAct r.val) := rfl

/-- The cycle of the first early end is there: the burst stops, its sites take the safe or the stop state, or keep
theirs. -/
theorem asyncEventAct_of_firstAct {s : State} {b : Burst} {r : Runner} {u : Term} (hb : s.burstAt r.val = some b)
    (hfirst : b.firstAct = some u) (hgoes : b.goesOn = true)
    (hdue : u.act ≤ b.cycle ∨ b.waiting = true ∨ b.paused.isSome = true) :
    let n := if b.paused.isSome then u.act - b.cycle else 0
    let end_ := (s.holdTo b u.act).nextStart
    let v := (s.holdCycles r.val b u.act (fun x => Burst.stopNow { x with holds := x.holds + n })).moveTo (nsOf end_)
    let w := b.sites.foldl (fun s k =>
      if b.terms.any (fun x => x.way == .safe && decide (x.act ≤ u.act)) then
        ((s.safeSite k.val).dischargeSite k.val).updSite k.val (fun x => { x with safe := true })
      else if u.way = .keep then s
      else s.stopSiteAt end_ k.val) v
    exec (.asyncEventAct r) s = .next ((if u.way = .keep then w.lanesMode b .hold else w).earlySets b) := by
  have hdue' : (b.goesOn && (decide (u.act ≤ b.cycle) || b.waiting || b.paused.isSome)) = true := by
    simpa [hgoes, or_assoc] using hdue
  rw [exec_asyncEventAct, State.asyncAct, hb]
  simp only [hfirst, hdue', if_true]

theorem exec_runLimitExpiry (r : Runner) (s : State) : exec (.runLimitExpiry r) s = .next (s.runLimit r.val) := rfl

/-- The run limit adds one early end, at its own time. -/
theorem runLimitExpiry_adds {s : State} {b : Burst} {r : Runner} {t0 : Nat} (hb : s.burstAt r.val = some b)
    (hstart : b.startTick = some t0) (hlimit : 0 < b.runLimit) (hlive : b.live = true)
    (hnew : ∀ x ∈ b.terms, x.result ≠ invalidRes rOVERTIME) :
    Answers (.runLimitExpiry r) s (fun t => (t.burstAt r.val).map (fun c => c.terms.map (·.result)) =
      some (b.terms.map (·.result) ++ [invalidRes rOVERTIME]) ∧ t.now = max s.now (t0 + 1000 * b.runLimit)) := by
  have hnone : b.terms.any (fun t => decide (t.result = invalidRes rOVERTIME)) = false := by simpa using hnew
  refine ⟨_, exec_runLimitExpiry r s, ?_⟩
  rw [State.runLimit, hb]
  simp [hstart, hlimit, hlive, hnone, State.moveTo]

/-! ## The end (02 R64) -/

theorem exec_burstEnd (r : Runner) (s : State) : exec (.burstEnd r) s = .next (s.endOf r.val) := rfl

theorem burstEnd_of_going_on {s : State} {b : Burst} {r : Runner} (hb : s.burstAt r.val = some b)
    (he : b.ended = false) : exec (.burstEnd r) s = .next s := by
  rw [exec_burstEnd, State.endOf, hb]
  simp [he]

/-- A burst that stopped early leaves its runner with the sets published. -/
theorem burstEnd_of_draining {s : State} {b : Burst} {r : Runner} (hb : s.burstAt r.val = some b)
    (hphase : b.phase = .draining) (hstarted : b.isStarted = true) (hraster : b.raster = false) :
    let u := b.sites.foldl (fun s k => s.updSite k.val (fun t => { t with ebMin := b.minFill k.val }))
      ((s.tcApply b).earlySets b)
    exec (.burstEnd r) s = .next
      (({ u.delBurst r.val with ve.drain := u.ve.drain ++ [(r.val, b)] } : State).applyPend) := by
  have he : b.ended = true := by simp [Burst.ended, hphase]
  have hb' : (s.tcApply b).burstAt r.val = some b := (tcApply_burstAt s b r.val).trans hb
  rw [exec_burstEnd, State.endOf, hb]
  simp [he, hphase, hb', hstarted, hraster]

/-- A burst that emitted its last position leaves its runner, its sets wait for late edges. -/
theorem burstEnd_after_last {s : State} {b c : Burst} {r : Runner} (hb : s.burstAt r.val = some b)
    (he : b.ended = true) (hphase : b.phase = .running) :
    let v := (((s.actRest r.val b).lanesMode b .hold).moveTo (nsOf b.nextStart)).tcApply b
    v.burstAt r.val = some c → c.raster = false →
    let d : Burst := { c with ctls := [], terms := c.terms.filter (fun t => t.way == .atEnd) }
    let u : State := d.sites.foldl (fun (s : State) k =>
        s.updSite k.val (fun t => if d.isStarted then { t with ebMin := d.minFill k.val } else t))
      ((v.stampSets d).foldl (fun (s : State) m => s.updMs m (fun x => { x with upto := some (d.lastSeen * 16) })) v)
    exec (.burstEnd r) s = .next
      (({ u.delBurst r.val with ve.drain := u.ve.drain ++ [(r.val, d)] } : State).applyPend) := by
  intro v hc hraster
  have hearly : decide (b.phase = .draining) = false := by simp [hphase]
  rw [exec_burstEnd, State.endOf, hb]
  simp only [he, hearly, Bool.not_true, Bool.false_eq_true, if_false]
  rw [show State.burstAt _ r.val = some c from hc]
  simp only [hraster, Bool.false_eq_true, if_false]
  rfl

/-! ## The final result (06 R187; 14 R399) -/

theorem exec_burstResultFinal (r : Runner) (s : State) : exec (.burstResultFinal r) s = .next (s.finalOf r.val) := rfl

/-- The final result of an ended burst reaches the sites of one that had started, and its task completes. -/
theorem burstResultFinal_completes {s : State} {b : Burst} {r : Runner} {k : Nat}
    (hdrain : s.ve.drain.find? (fun x => x.1 == r.val) = some (k, b)) (hflight : b.flight = [])
    (hchecked : s.allChecked r.val b = true) :
    let u : State := { s with ve.drain := s.ve.drain.eraseP (fun x => x.1 == r.val) }
    let v := if b.isStarted then
        b.sites.foldl (fun s k => s.siteResult b (b.resultOf k) k.val)
          ((u.endingSets b).foldl (fun s m => s.disarmSet m false false) u)
      else u
    exec (.burstResultFinal r) s = .next ((v.reportTask b (b.words r.val b.result.code) b.result.code).applyPend) := by
  rw [exec_burstResultFinal, State.finalOf, hdrain]
  simp only [hflight, hchecked, List.isEmpty_nil, Bool.and_self, if_true]

end Sys2Proof
end

section
/-!
The statement about the ends of a burst.
-/

namespace Sys2Proof

open Sys2Proof.Machine

/-- Settles O38: each clause is the equation of its row in the case that its hypotheses name. -/
theorem burstEnds : Obligations.BurstEnds := by
  intro s b r
  refine ⟨fun u hb hfirst hgoes hdue => ?_, fun t0 => runLimitExpiry_adds, burstEnd_of_draining,
    fun c hb he hphase => burstEnd_after_last hb he hphase, burstEnd_of_going_on,
    fun k hdrain hflight hchecked hstarted => ?_, fun k hdrain hflight hchecked hstarted => ?_⟩
  · have h := asyncEventAct_of_firstAct hb hfirst hgoes hdue
    refine ⟨fun hsafe hway => ?_, fun hsafe hway => ?_, fun hsafe hway => ?_⟩
    · simpa only [hsafe, hway, if_true, if_false] using h
    · simpa only [hsafe, hway, Bool.false_eq_true, if_false] using h
    · simpa only [hsafe, hway, Bool.false_eq_true, if_true, if_false, List.foldl_fixed] using h
  · have h := burstResultFinal_completes hdrain hflight hchecked
    rwa [hstarted] at h
  · have h := burstResultFinal_completes hdrain hflight hchecked
    rwa [hstarted] at h

end Sys2Proof
end

section
/-!
SUPPORT. What the commands of pattern images and microcode do: one lemma per command and case (02 R80, R81; 03 R95 to R98).
-/

namespace Sys2Proof

open Sys2Proof.Machine

/-! ## What a completion leaves alone -/

theorem ve_of_sameButHost {s t : State} (h : SameButHost s t) : t.ve = s.ve := by rw [h]

theorem complete_imageAt (s : State) (p tag : Nat) (op : BitVec 16) (st : Status) (r : List Nat) (k : Nat) :
    (s.complete p tag op st r).imageAt k = s.imageAt k := by
  rw [State.imageAt, ve_of_sameButHost (complete_same s p tag op st r []), State.imageAt]

theorem refuseCmd_imageAt (s : State) (p tag : Nat) (op : BitVec 16) (st : Status) (r : List Nat) (k : Nat) :
    (s.refuseCmd p tag op st r).imageAt k = s.imageAt k := by
  rw [State.imageAt, ve_of_sameButHost (refuseCmd_same s p tag op st r), State.imageAt]

theorem leaveLow_imageAt (s : State) (k : Nat) : s.leaveLow.imageAt k = s.imageAt k := by
  rw [State.imageAt, leaveLow_ve, State.imageAt]

/-- A new image, pseudo-channels that wake and a completion change nothing else. -/
theorem putImage_then_host (s : State) {k : Nat} {x : ImgSt} {t : State} (h : SameButHost (s.putImage k x).leaveLow t) :
    t = { s with host.fn := t.host.fn, ve.images := t.ve.images, mem.pc := t.mem.pc } := by
  have hlow := leaveLow_same (s.putImage k x)
  generalize (s.putImage k x).leaveLow = l at h hlow
  rw [h, hlow]
  rfl

/-! ## Images (03 R95 to R98) -/

section
variable {s : State} {p : Part} {tag : Nat}

theorem exec_veImageLoad (p : Part) (tag : Nat) (image : Image) (s : State) :
    exec (.veImageLoad p tag image) s = execVeImageLoad p tag image s := rfl

/-- A load is accepted with the handle that is free. -/
theorem veImageLoad_accepts {image : Image} {h : Nat} (hpass : Passes s p tag 0x0101) (hfree : s.freeHandle p = some h) :
    Answers (.veImageLoad p tag image) s (fun t => Posted t p tag 0x0101 .accepted [h] ∧
      (t.imageAt (imgKey p h)).map (fun x => (x.mode, x.img, x.tag)) = some (.loading, image, tag) ∧
      t = { s with host.fn := t.host.fn, ve.images := t.ve.images, mem.pc := t.mem.pc }) := by
  have hfree' : (taken s p tag 0x0101).freeHandle p = some h := hfree
  refine answers_of_command (exec_veImageLoad p tag image s) hpass rfl (by simp [hfree]) ?_
  simp only [hfree']
  refine ⟨complete_posted _ _ _ _ _ _ _, ?_, ?_⟩
  · rw [complete_imageAt, leaveLow_imageAt, State.putImage_same]
    rfl
  · exact putImage_then_host (taken s p tag 0x0101) (complete_same _ _ _ _ _ _ _)

theorem exec_imageLoadDone (p : Part) (h : Handle) (s : State) :
    exec (.imageLoadDone p h) s = execImageLoadDone p h s := rfl

theorem imageLoadDone_of_good {h : Handle} {x : ImgSt} (hx : s.imageAt (imgKey p h.val) = some x)
    (hmode : x.mode = .loading) (hgood : s.loadBad p x = none) :
    Answers (.imageLoadDone p h) s (fun t => Posted t p x.tag 0x0101 .ok [] ∧
      t.imageAt (imgKey p h.val) = some { x with mode := .ready, resident := x.img.residentSet
                                                 size := x.img.setBytes x.img.residentSet } ∧
      t = { s with host.fn := t.host.fn, ve.images := t.ve.images }) := by
  refine ⟨_, exec_imageLoadDone p h s, ?_⟩
  simp only [hx, hmode, hgood, ne_eq, not_true_eq_false, if_false]
  refine ⟨complete_posted _ _ _ _ _ _ _, ?_, ?_⟩
  · rw [complete_imageAt, State.putImage_same]
  · rw [complete_same]
    rfl

theorem imageLoadDone_of_bad {h : Handle} {x : ImgSt} {st : Status} {ws : List Nat}
    (hx : s.imageAt (imgKey p h.val) = some x) (hmode : x.mode = .loading) (hbad : s.loadBad p x = some (st, ws)) :
    Answers (.imageLoadDone p h) s (fun t => Posted t p x.tag 0x0101 st ws ∧ t.imageAt (imgKey p h.val) = none ∧
      t = { s with host.fn := t.host.fn, ve.images := t.ve.images }) := by
  refine ⟨_, exec_imageLoadDone p h s, ?_⟩
  simp only [hx, hmode, hbad, ne_eq, not_true_eq_false, if_false]
  refine ⟨refuseCmd_posted _ _ _ _ _ _, ?_, ?_⟩
  · rw [refuseCmd_imageAt, State.delImage_same]
  · rw [refuseCmd_same]
    rfl

theorem exec_veImageUnload (p : Part) (tag handle : Nat) (s : State) :
    exec (.veImageUnload p tag handle) s = execVeImageUnload p tag handle s := rfl

theorem veImageUnload_unloads {handle : Nat} {x : ImgSt} (hpass : Passes s p tag 0x0102)
    (hx : s.ownImage p handle = some x) (hmode : x.mode ≠ .loading) (hused : s.imageUsed p handle = false) :
    Answers (.veImageUnload p tag handle) s (fun t => Posted t p tag 0x0102 .ok [] ∧ t.imageAt (imgKey p handle) = none ∧
      t = { s with host.fn := t.host.fn, ve.images := t.ve.images, ve.eng := t.ve.eng }) := by
  refine answers_of_command (exec_veImageUnload p tag handle s) hpass rfl (by simp [hx, hmode, hused]) ?_
  refine ⟨complete_posted _ _ _ _ _ _ _, ?_, ?_⟩
  · rw [complete_imageAt]
    exact State.delImage_same _ _
  · rw [complete_same]
    rfl

theorem exec_veImageInfo (p : Part) (tag handle entry : Nat) (s : State) :
    exec (.veImageInfo p tag handle entry) s = execVeImageInfo p tag handle entry s := rfl

theorem veImageInfo_tells {handle entry : Nat} {x : ImgSt} (hpass : Passes s p tag 0x0103)
    (hx : s.ownImage p handle = some x) (hentry : entry < x.img.segments.length) :
    Answers (.veImageInfo p tag handle entry) s (fun t => Posted t p tag 0x0103 .ok
      (if x.mode = .loading then [0, 0, 0]
       else [x.mode.code, x.size, (x.img.demand x.resident (s.infoPeriod p) entry).getD 0xFFFFFFFF]) ∧
      SameButHost s t) := by
  have hx' : (taken s p tag 0x0103).ownImage p handle = some x := hx
  refine answers_of_command (exec_veImageInfo p tag handle entry s) hpass rfl (by simp [hx, hentry]) ?_
  simp only [hx']
  exact ⟨complete_posted _ _ _ _ _ _ _, (taken_same s p tag 0x0103).trans (complete_same _ _ _ _ _ _ _)⟩

/-! ## Microcode (02 R80, R81) -/

theorem exec_veUcodeLoad (p : Part) (tag : Nat) (verified : Bool) (image : UImage) (s : State) :
    exec (.veUcodeLoad p tag verified image) s = execVeUcodeLoad p tag verified image s := rfl

theorem veUcodeLoad_acts {image : UImage} (verified : Bool) (hpass : Passes s p tag 0x0104)
    (hright : s.rightConfig p = true) (hidle : s.fw.ucodeCmd = none) :
    let u := taken s p tag 0x0104
    exec (.veUcodeLoad p tag verified image) s = .next
      (if verified then
        (({ u with fw := { s.fw with
            ucode := image, ucodeCmd := some (p, tag)
            ucodeTodo := (List.range 32).filter (fun e => (s.engAt e).mode != .fenced) } } : State).complete
          p tag 0x0104 .accepted []).ucodeDone
      else (u.refuseCmd p tag 0x0104 .deniedWorld []).event 0x091) := by
  rw [next_of_command (exec_veUcodeLoad p tag verified image s) hpass hright (by simp [hidle])]
  cases verified <;> rfl

theorem exec_ucodeEngineLoad (e : Eng) (ok : Bool) (s : State) :
    exec (.ucodeEngineLoad e ok) s = execUcodeEngineLoad e ok s := rfl

/-- An engine that waits for the load and has no burst is passed over when fenced, loaded when it reads back well, tried
once more and then fenced when it does not. -/
theorem ucodeEngineLoad_of_todo {e : Eng} (ok : Bool) (htodo : s.fw.ucodeTodo.contains e.val = true)
    (hfree : s.burstAt e.val = none) :
    let out : State := { s with fw := { s.fw with ucodeTodo := s.fw.ucodeTodo.filter (· != e.val) } }
    exec (.ucodeEngineLoad e ok) s = .next
      (if (s.engAt e.val).mode = .fenced then out.ucodeDone
      else if ok then
        (out.updEng e.val (fun x => { x with mode := .idle, ucode := s.fw.ucode, retried := false })).ucodeDone
      else if (s.engAt e.val).retried then
        ((out.updEng e.val (fun x => { x with mode := .idle, retried := false })).event (0x100 + 8 * e.val)).ucodeDone
      else s.updEng e.val (fun x => { x with mode := .loading, retried := true })) := by
  rw [exec_ucodeEngineLoad, execUcodeEngineLoad]
  exact congrArg _ (if_neg (by rw [htodo, hfree]; simp))

end

end Sys2Proof
end

section
/-!
The statement about the commands of images and microcode.
-/

namespace Sys2Proof

open Sys2Proof.Machine

/-- Settles O13: each clause is what its command does in the case that its hypotheses name. -/
theorem imageCommandsComplete : Obligations.ImageCommandsComplete := by
  intro p tag s
  refine ⟨fun image h => veImageLoad_accepts, fun h x => imageLoadDone_of_good, fun h x st ws => imageLoadDone_of_bad,
    fun handle x => veImageUnload_unloads, fun handle entry x => veImageInfo_tells, fun image => veUcodeLoad_acts true,
    fun image => veUcodeLoad_acts false, fun e htodo hfree => ?_⟩
  have h (ok : Bool) := ucodeEngineLoad_of_todo ok htodo hfree
  refine ⟨fun hmode ok => ?_, fun hmode => ?_, fun hmode hretried => ?_, fun hmode hretried => ?_⟩
  · rw [h ok, if_pos hmode]
  · rw [h true, if_neg hmode, if_pos rfl]
  · rw [h false, if_neg hmode, if_neg Bool.false_ne_true, hretried, if_neg Bool.false_ne_true]
  · rw [h false, if_neg hmode, if_neg Bool.false_ne_true, hretried, if_pos rfl]

end Sys2Proof
end

section
/-!
SUPPORT. What the rows before a burst starts do: one equation per row and case (03 R99; 04 R121, R122; 11 R312).
-/

namespace Sys2Proof

open Sys2Proof.Machine

section
variable {s : State} {b : Burst}

/-! ## The loop store (03 R99; 11 R312) -/

theorem exec_loopStoreFillDone (e : Eng) (ecc : Ecc) (x : Pc) (s : State) :
    exec (.loopStoreFillDone e ecc x) s = execLoopStoreFillDone e ecc x s := rfl

/-- A fill read without error puts the resident set of the burst's image first in the loop store; pre-fill begins. -/
theorem loopStoreFillDone_good {e : Eng} (x : Pc) (hb : s.burstAt e.val = some b) (hphase : b.phase = .filling) :
    exec (.loopStoreFillDone e .good x) s = .next
      ((s.updEng e.val (fun n => { n with
        ls := { part := b.part.val, handle := b.handle, bytes := ((s.imgOf b).map (·.size)).getD 0 } :: n.ls })).putBurst
          e.val { b with phase := .prefill }) := by
  rw [exec_loopStoreFillDone, execLoopStoreFillDone, hb]
  exact congrArg _ (if_pos hphase)

theorem loopStoreFillDone_uncorrectable {e : Eng} (x : Pc) (hb : s.burstAt e.val = some b) (hphase : b.phase = .filling) :
    exec (.loopStoreFillDone e .uncorrectable x) s = .next (s.fillUe e.val b x.val) := by
  rw [exec_loopStoreFillDone, execLoopStoreFillDone, hb]
  exact congrArg _ (if_pos hphase)

theorem putBurst_engAt (s : State) (k i : Nat) (b : Burst) : (s.putBurst k b).engAt i = s.engAt i := rfl

/-! ## The islands (04 R121, R122) -/

theorem exec_islandFilled (r : Runner) (g : Grp) (s : State) : exec (.islandFilled r g) s = execIslandFilled r g s := rfl

/-- The burst with the island of a group among those filled. -/
def withFilled (b : Burst) (g : Grp) : Burst := if b.filled.contains g then b else { b with filled := b.filled ++ [g] }

theorem withFilled_groups (b : Burst) (g : Grp) : (withFilled b g).groups = b.groups := by
  unfold withFilled
  split <;> rfl

/-- An island of a burst in pre-fill counts as filled once; with the last one the start tick is chosen. -/
theorem islandFilled_of_prefill {r : Runner} {g : Grp} (hb : s.burstAt r.val = some b) (hphase : b.phase = .prefill)
    (hready : b.fillReady = true) (hgroup : b.groups.contains g = true ∨ b.groups = []) :
    exec (.islandFilled r g) s = .next
      (if b.groups.all (fun x => (withFilled b g).filled.contains x) then s.allFilled r.val (withFilled b g)
      else s.putBurst r.val (withFilled b g)) := by
  have hguard : (decide (b.phase = .prefill) && b.fillReady && (b.groups.contains g || b.groups.isEmpty)) = true := by
    rw [Bool.and_eq_true, Bool.and_eq_true, Bool.or_eq_true, decide_eq_true_iff, List.isEmpty_iff]
    exact ⟨⟨hphase, hready⟩, hgroup⟩
  rw [exec_islandFilled, execIslandFilled, hb, ← withFilled_groups b g]
  exact congrArg _ (if_pos hguard)

/-! ## The start tick (04 R121) -/

theorem exec_burstStartTick (r : Runner) (s : State) : exec (.burstStartTick r) s = execBurstStartTick r s := rfl

/-- The start tick waits for the final results of the last burst of each of its sites alone. -/
theorem burstStartTick_of_started {r : Runner} {tick : Nat} (hb : s.burstAt r.val = some b) (hphase : b.phase = .started)
    (htick : b.startTick = some tick) (hdrain : ∀ x ∈ s.ve.drain, ∀ k ∈ x.2.sites, k ∉ b.sites) :
    exec (.burstStartTick r) s = .next (s.startBurst r.val b tick) := by
  have hfinal : ¬ s.ve.drain.any (fun x => x.2.sites.any (fun k => b.sites.contains k)) = true := by
    simpa only [List.any_eq_true, List.contains_iff_mem, not_exists, not_and] using hdrain
  rw [exec_burstStartTick, execBurstStartTick, hb]
  simp only [hphase, htick]
  exact congrArg _ (if_neg hfinal)

theorem startBurst_phase (s : State) (r : Nat) (b : Burst) (tick : Nat) :
    ((s.startBurst r b tick).burstAt r).map (·.phase) = some .running := by
  rw [State.startBurst, State.putBurst_same]
  rfl

end

end Sys2Proof
end

section
/-!
The statement about the preparation of a burst.
-/

namespace Sys2Proof

open Sys2Proof.Machine

/-- Settles O36: each clause is the equation of its row in the case that its hypotheses name. -/
theorem burstPreparation : Obligations.BurstPreparation := by
  intro s b
  refine ⟨fun e x hb hphase => ⟨_, loopStoreFillDone_good x hb hphase, State.putBurst_same _ _ _, ?_⟩,
    fun e x => loopStoreFillDone_uncorrectable x, fun r g hb hphase hready hgroup => ?_,
    fun r tick hb hphase htick hdrain => ?_⟩
  · rw [putBurst_engAt, State.updEng_same]
  · have h := islandFilled_of_prefill hb hphase hready hgroup
    exact ⟨fun hall => h.trans (congrArg _ (if_pos hall)), fun hmissing =>
      ⟨_, h.trans (congrArg _ (if_neg (ne_true_of_eq_false hmissing))), State.putBurst_same _ _ _, rfl⟩⟩
  · have h := burstStartTick_of_started hb hphase htick hdrain
    exact ⟨h, _, h, startBurst_phase s r.val b tick⟩

end Sys2Proof
end

section
/-!
SUPPORT. What the commands of block TMG do: one lemma per command and case (04 R126 to R129, R133, R136, R142, R143).
-/

namespace Sys2Proof

open Sys2Proof.Machine

/-! ## Staging and the commit (04 R127, R136; 14 R391) -/

/-- A completion leaves the sets and rate tables staged as they are. -/
theorem complete_staged (s : State) (p tag : Nat) (op : BitVec 16) (st : Status) (r : List Nat) (d : List Int) :
    ((s.complete p tag op st r d).fnAt p).stagedTs = (s.fnAt p).stagedTs ∧
      ((s.complete p tag op st r d).fnAt p).stagedRate = (s.fnAt p).stagedRate := by
  obtain ⟨-, hts, hrate, -⟩ :=
    post_staged s p { tag, status := st, opcode := op, final := st != .accepted, result := r, data := d }
  exact ⟨hts, hrate⟩

/-- A command that stages without a commit ends OK, with what it staged in its function page. -/
theorem stagedDone_stages (s : State) (p : Part) (tag : Nat) (op : BitVec 16) (f : FnSt → FnSt) :
    let t := (s.updFn p f).stagedDone p tag op false
    Posted t p tag op .ok [] ∧ (t.fnAt p).stagedTs = (f (s.fnAt p)).stagedTs ∧
      (t.fnAt p).stagedRate = (f (s.fnAt p)).stagedRate ∧ SameButHost s t := by
  obtain ⟨hts, hrate⟩ := complete_staged (s.updFn p f) p tag op .ok [] []
  rw [State.updFn_same] at hts hrate
  exact ⟨complete_posted _ _ _ _ _ _ _, hts, hrate, (updFn_same s p f).trans (complete_same _ _ _ _ _ _ _)⟩

/-- A command whose commit passes ends OK with the words of the commit. -/
theorem stagedDone_commits {s u : State} {p : Part} {ws : List Nat} (tag : Nat) (op : BitVec 16)
    (h : s.commit p = (.ok, ws, u)) :
    Posted (s.stagedDone p tag op true) p tag op .ok ws ∧ SameButHost u (s.stagedDone p tag op true) := by
  have hdone : s.stagedDone p tag op true = u.complete p tag op .ok ws := by
    simp only [State.stagedDone, h, if_true]
  rw [hdone]
  exact ⟨complete_posted _ _ _ _ _ _ _, complete_same _ _ _ _ _ _ _⟩

section
variable {s : State} {p : Part} {tag : Nat}

/-! ## Timing sets (04 R126 to R129) -/

theorem exec_tmgSet (p : Part) (tag : Nat) (recs : List TsRec) (commit : Bool) (s : State) :
    exec (.tmgSet p tag recs commit) s = execTmgSet p tag recs commit s := rfl

/-- Records that pass every check are staged together, then committed when asked. -/
theorem tmgSet_stages {recs : List TsRec} (commit : Bool) (hpass : Passes s p tag 0x0201)
    (howns : ∀ r ∈ recs, r.group < 16 → r.ts < 64 → s.ownsTs p r.group r.ts = true) (hmin : 1 ≤ recs.length)
    (hmax : recs.length ≤ 1024) (hgood : s.recsFault p recs = none) :
    exec (.tmgSet p tag recs commit) s = .next (((taken s p tag 0x0201).updFn p (fun f =>
      { f with stagedTs := recs.foldl stageTs f.stagedTs })).stagedDone p tag 0x0201 commit) := by
  refine next_of_command (exec_tmgSet p tag recs commit s) hpass ?_ ?_
  · simpa using howns
  · simp [hgood, Nat.not_lt.2 hmax, List.length_pos_iff.1 hmin]

theorem exec_tmgGet (p : Part) (tag : Nat) (group : Grp) (ts : Fin 64) (s : State) :
    exec (.tmgGet p tag group ts) s = execTmgGet p tag group ts s := rfl

theorem tmgGet_reads {group : Grp} {ts : Fin 64} (hpass : Passes s p tag 0x0202)
    (howns : s.ownsTs p group.val ts.val = true) :
    Answers (.tmgGet p tag group ts) s (fun t => lastCpl t p = some
      { tag, status := .ok, opcode := 0x0202, final := true, result := [], data := s.tsWords p group.val ts.val } ∧
      SameButHost s t) :=
  answers_of_command (exec_tmgGet p tag group ts s) hpass howns rfl
    ⟨post_last _ _ _, (taken_same s p tag 0x0202).trans (complete_same _ _ _ _ _ _ _)⟩

/-! ## The check of a list of sets (04 R133) -/

/-- Result words of tmg.check: the first set that is not defined, else the first edges out of order, else 0. -/
def checkWords (s : State) (site group : Nat) (l : List Nat) : List Nat :=
  match l.find? (fun n => (s.tsNow group n).isNone) with
  | some n => [tsRes group n, n + 256 * n]
  | none => match s.edgeBad site group l with
    | some (lane, a, b) => [resId 2 lane 2, a + 256 * b]
    | none => [0]

theorem checkWords_of_undefined {site group n : Nat} {l : List Nat}
    (h : l.find? (fun n => (s.tsNow group n).isNone) = some n) :
    checkWords s site group l = [tsRes group n, n + 256 * n] := by
  rw [checkWords, h]

theorem checkWords_of_edgeBad {site group lane a b : Nat} {l : List Nat}
    (h : l.find? (fun n => (s.tsNow group n).isNone) = none) (hedge : s.edgeBad site group l = some (lane, a, b)) :
    checkWords s site group l = [resId 2 lane 2, a + 256 * b] := by
  rw [checkWords, h]
  simp only [hedge]

theorem checkWords_of_good {site group : Nat} {l : List Nat}
    (h : l.find? (fun n => (s.tsNow group n).isNone) = none) (hedge : s.edgeBad site group l = none) :
    checkWords s site group l = [0] := by
  rw [checkWords, h]
  simp only [hedge]

theorem exec_tmgCheck (p : Part) (tag : Nat) (site : Site) (group : Grp) (sets : BitVec 64) (s : State) :
    exec (.tmgCheck p tag site group sets) s = execTmgCheck p tag site group sets s := rfl

theorem tmgCheck_tells {site : Site} {group : Grp} (sets : BitVec 64) (hpass : Passes s p tag 0x0203)
    (howns : (s.part p).sites.getLsbD site.val = true) (hdefn : (s.siteAt site.val).defn.isSome = true) :
    Answers (.tmgCheck p tag site group sets) s (fun t => SameButHost s t ∧
      Posted t p tag 0x0203 .ok (checkWords s site.val group.val (bitList sets))) := by
  have hnone : (s.siteAt site.val).defn.isNone = false := Option.isNone_eq_false_iff.2 hdefn
  exact answers_of_command (exec_tmgCheck p tag site group sets s) hpass howns (by simp [hnone])
    ⟨(taken_same s p tag 0x0203).trans (complete_same _ _ _ _ _ _ _), complete_posted _ _ _ _ _ _ _⟩

/-! ## Rate tables (04 R136) -/

theorem exec_tmgRateSet (p : Part) (tag : Nat) (rec : RateRec) (commit : Bool) (s : State) :
    exec (.tmgRateSet p tag rec commit) s = execTmgRateSet p tag rec commit s := rfl

/-- A rate table that passes every check is staged in place of the one staged for its group, then committed when asked. -/
theorem tmgRateSet_stages {rec : RateRec} (commit : Bool) (hpass : Passes s p tag 0x0204)
    (howns : s.ownsRate p rec.group = true) (hrsvd : rec.rsvd = false) (hmode : rec.mode ≤ 1) (hgroup : rec.group < 16)
    (hmin : 1 ≤ rec.entries.length) (hmax : rec.entries.length ≤ 64)
    (howner : ∀ n, (s.grpAt rec.group).rateOwner ≠ some (.inr n)) (hgood : s.rateFault rec = none) :
    exec (.tmgRateSet p tag rec commit) s = .next (((taken s p tag 0x0204).updFn p (fun f =>
      { f with stagedRate := f.stagedRate.filter (fun r => r.group != rec.group) ++ [rec] })).stagedDone
        p tag 0x0204 commit) := by
  refine next_of_command (exec_tmgRateSet p tag rec commit s) hpass ?_ ?_
  · simp [howns]
  · have hfree : (s.grpAt rec.group).rateOwner = none ∨ ∃ q, (s.grpAt rec.group).rateOwner = some (.inl q) :=
      match ho : (s.grpAt rec.group).rateOwner with
      | none => .inl rfl
      | some (.inl q) => .inr ⟨q, rfl⟩
      | some (.inr n) => absurd ho (howner n)
    obtain hfree | ⟨q, hfree⟩ := hfree <;>
      simp [hgood, hfree, hrsvd, Nat.not_lt.2 hmode, Nat.not_le.2 hgroup, Nat.not_lt.2 hmax, List.length_pos_iff.1 hmin]

/-! ## The spare lane (04 R142, R143) -/

theorem exec_tmgRemap (p : Part) (tag : Nat) (g : Grp) (pos : Fin 32) (s : State) :
    exec (.tmgRemap p tag g pos) s = execTmgRemap p tag g pos s := rfl

/-- The channel at a position moves onto L32, or is there already. -/
theorem tmgRemap_acts {g : Grp} {pos : Fin 32} (hpass : Passes s p tag 0x0205) (hright : s.rightConfig p = true)
    (htask : (s.chanSite (32 * g.val + pos.val)).any s.siteTasked = false)
    (hcal : s.cal.run.running.any (fun x => isGroup g.val x.1) = false) (href : (s.grpAt g.val).refState = 1)
    (hl32 : (s.grpAt g.val).l32.any (· != pos.val) = false) :
    let u := taken s p tag 0x0205
    exec (.tmgRemap p tag g pos) s = .next ((if (s.grpAt g.val).l32.isSome then u else
      ((((u.moveLane (32 * g.val + pos.val) (33 * g.val + pos.val) (33 * g.val + 32)).updLane
        (33 * g.val + pos.val) (fun l => { l with vacated := true })).updGrp g.val
          (fun x => { x with l32 := some pos.val })).event (0x205 + 16 * g.val))).complete p tag 0x0205 .ok []) :=
  next_of_command (exec_tmgRemap p tag g pos s) hpass hright (by simp [State.l32Checks, htask, hcal, href, hl32])

theorem exec_tmgUnremap (p : Part) (tag : Nat) (g : Grp) (s : State) :
    exec (.tmgUnremap p tag g) s = execTmgUnremap p tag g s := rfl

/-- The channel that L32 carries returns to its home lane. -/
theorem tmgUnremap_returns {g : Grp} {k : Nat} (hpass : Passes s p tag 0x0206) (hright : s.rightConfig p = true)
    (hl32 : (s.grpAt g.val).l32 = some k) (htask : (s.chanSite (32 * g.val + k)).any s.siteTasked = false)
    (hcal : s.cal.run.running.any (fun x => isGroup g.val x.1) = false) (href : (s.grpAt g.val).refState = 1) :
    exec (.tmgUnremap p tag g) s = .next
      ((((((taken s p tag 0x0206).moveLane (32 * g.val + k) (33 * g.val + 32) (33 * g.val + k)).updLane (33 * g.val + k)
        (fun l => if l.fenced then { l.open_ with vacated := false } else { l with vacated := false })).updGrp g.val
          (fun x => { x with l32 := none })).event (0x205 + 16 * g.val)).complete p tag 0x0206 .ok []) := by
  have hl32' : ((taken s p tag 0x0206).grpAt g.val).l32 = some k := hl32
  rw [next_of_command (exec_tmgUnremap p tag g s) hpass hright (by simp [State.l32Checks, hl32, htask, hcal, href])]
  simp only [hl32']

end

end Sys2Proof
end

section
/-!
The statement about the commands of block TMG.
-/

namespace Sys2Proof

open Sys2Proof.Machine

/-- Settles O14: each clause is what its command does in the case that its hypotheses name. -/
theorem timingCommandsComplete : Obligations.TimingCommandsComplete := by
  intro p tag s
  refine ⟨fun recs hpass howns hmin hmax hgood => ?_, fun recs ws u hpass howns hmin hmax hgood hcommit =>
      ⟨_, tmgSet_stages true hpass howns hmin hmax hgood, stagedDone_commits tag _ hcommit⟩,
    fun group ts => tmgGet_reads, fun site group sets hpass howns hdefn => ?_,
    fun rec hpass howns hrsvd hmode hgroup hmin hmax howner hgood => ?_,
    fun rec ws u hpass howns hrsvd hmode hgroup hmin hmax howner hgood hcommit =>
      ⟨_, tmgRateSet_stages true hpass howns hrsvd hmode hgroup hmin hmax howner hgood, stagedDone_commits tag _ hcommit⟩,
    fun g pos hpass hright htask hcal href => ?_,
    fun g k hpass hright hl32 htask hcal href => tmgUnremap_returns hpass hright hl32 htask hcal href⟩
  · obtain ⟨hposted, hts, -, hsame⟩ := stagedDone_stages (taken s p tag 0x0201) p tag 0x0201
      (fun f => { f with stagedTs := recs.foldl stageTs f.stagedTs })
    rw [taken, State.updFn_same] at hts
    exact ⟨_, tmgSet_stages false hpass howns hmin hmax hgood, hposted, hts, hsame⟩
  · obtain ⟨t, hnext, hsame, hposted⟩ := tmgCheck_tells sets hpass howns hdefn
    refine ⟨t, hnext, hsame, fun n hn => ?_, fun hdef => ⟨fun lane a b hedge => ?_, fun hedge => ?_⟩⟩
    · rwa [checkWords_of_undefined hn] at hposted
    · rwa [checkWords_of_edgeBad hdef hedge] at hposted
    · rwa [checkWords_of_good hdef hedge] at hposted
  · obtain ⟨hposted, -, hrate, hsame⟩ := stagedDone_stages (taken s p tag 0x0204) p tag 0x0204
      (fun f => { f with stagedRate := f.stagedRate.filter (fun r => r.group != rec.group) ++ [rec] })
    rw [taken, State.updFn_same] at hrate
    exact ⟨_, tmgRateSet_stages false hpass howns hrsvd hmode hgroup hmin hmax howner hgood, hposted, hrate, hsame⟩
  · refine ⟨fun hl32 => ?_, fun hl32 => ?_⟩
    · rw [tmgRemap_acts hpass hright htask hcal href (by rw [hl32]; rfl), hl32]
      rfl
    · refine ⟨_, tmgRemap_acts hpass hright htask hcal href (by simp [hl32]), ?_⟩
      rw [hl32]
      exact ⟨complete_posted _ _ _ _ _ _ _, (taken_same s p tag 0x0205).trans (complete_same _ _ _ _ _ _ _)⟩

end Sys2Proof
end

section
/-!
SUPPORT. What the rows of a timing island do: one equation per row and case (04 R118, R119, R124, R138, R140, R146).
-/

namespace Sys2Proof

open Sys2Proof.Machine

section
variable {s : State}

/-! ## The PLL (04 R118, R119) -/

theorem exec_pllLock (g : Grp) (s : State) : exec (.pllLock g) s = execPllLock g s := rfl

theorem pllLock_locks {g : Grp} (hpll : (s.grpAt g.val).pll = .locking) (hdead : (s.grpAt g.val).dead = false) :
    exec (.pllLock g) s = .next (s.updGrp g.val (fun x => { x with pll := .locked })) := by
  rw [exec_pllLock, execPllLock, if_pos ⟨hpll, hdead⟩]

theorem exec_pllUnlock (g : Grp) (s : State) : exec (.pllUnlock g) s = execPllUnlock g s := rfl

theorem pllUnlock_of_locked {g : Grp} (hpll : (s.grpAt g.val).pll = .locked) :
    exec (.pllUnlock g) s = .next (s.event (0x200 + 16 * g.val)) := by
  rw [exec_pllUnlock, execPllUnlock, if_pos hpll]
  rfl

theorem exec_pllRelock (g : Grp) (ok : Bool) (s : State) : exec (.pllRelock g ok) s = execPllRelock g ok s := rfl

/-- A fenced group relocks, or counts one more failure in a row; the third is its last. -/
theorem pllRelock_of_fenced {g : Grp} (ok : Bool) (hpll : (s.grpAt g.val).pll = .fenced)
    (hdead : (s.grpAt g.val).dead = false) :
    exec (.pllRelock g ok) s = .next
      (if ok then (s.updGrp g.val (fun x => { x with pll := .locked, relockFails := 0 })).event (0x200 + 16 * g.val + 6)
      else s.updGrp g.val (fun x =>
        { x with relockFails := x.relockFails + 1, dead := decide (3 ≤ x.relockFails + 1) })) := by
  rw [exec_pllRelock]
  exact congrArg _ (if_pos ⟨hpll, hdead⟩)

theorem pllRelock_fails {g : Grp} (hpll : (s.grpAt g.val).pll = .fenced) (hdead : (s.grpAt g.val).dead = false) :
    Answers (.pllRelock g false) s (fun t =>
      (t.grpAt g.val).relockFails = (s.grpAt g.val).relockFails + 1 ∧ (t.grpAt g.val).pll = .fenced ∧
      ((t.grpAt g.val).dead = true ↔ 2 ≤ (s.grpAt g.val).relockFails) ∧
      t = { s with pf.grp := t.pf.grp }) := by
  refine ⟨_, (pllRelock_of_fenced false hpll hdead).trans (congrArg _ (if_neg Bool.false_ne_true)), ?_⟩
  simp only [State.updGrp_same]
  exact ⟨trivial, hpll, decide_eq_true_iff.trans Nat.succ_le_succ_iff, rfl⟩

/-! ## Memories and temperature (04 R124, R138, R146) -/

theorem exec_ebFault (g : Grp) (s : State) : exec (.ebFault g) s = .next (s.event (0x200 + 16 * g.val + 1)) := rfl

theorem exec_tsParity (g : Grp) (s : State) : exec (.tsParity g) s = .next (s.event (0x200 + 16 * g.val + 2)) := rfl

theorem exec_islandTempRead (g : Grp) (temp : Int) (s : State) :
    exec (.islandTempRead g temp) s = .next ((s.updGrp g.val (fun x => { x with tIsl := temp })).retarget g.val) := rfl

/-! ## One step toward a target (04 R138, R140) -/

theorem stepTo_sub_natAbs {a b : Int} (h : a ≠ b) : (stepTo a b - a).natAbs = 1 := by
  unfold stepTo
  split_ifs <;> omega

theorem exec_tcStep (l : Lane) (s : State) : exec (.tcStep l) s = execTcStep l s := rfl

theorem tcStep_at_target {l : Lane} (h : (s.laneAt l.val).tc = (s.laneAt l.val).tcTarget) :
    exec (.tcStep l) s = .next s := by
  rw [exec_tcStep]
  exact congrArg _ (if_pos (.inl h))

/-- A lane at a step of its temperature correction: applied at once when idle, else left for the next cycle start. -/
def tcStepped (idle : Bool) (t : Nat) (x : LaneSt) : LaneSt :=
  { x with tc := if idle then stepTo x.tc x.tcTarget else x.tc, tcPend := !idle, tcAt := t }

theorem tcStepped_idle {x : LaneSt} (t : Nat) (h : x.tcPend = false) :
    tcStepped true t x = { x with tc := stepTo x.tc x.tcTarget, tcAt := t } := by
  rw [tcStepped, if_pos rfl, Bool.not_true, ← h]

theorem tcStepped_busy (t : Nat) (x : LaneSt) : tcStepped false t x = { x with tcPend := true, tcAt := t } := rfl

theorem tcStep_off_target {l : Lane} (hoff : (s.laneAt l.val).tc ≠ (s.laneAt l.val).tcTarget)
    (hpend : (s.laneAt l.val).tcPend = false) :
    let u := s.moveTo ((s.laneAt l.val).tcAt + 100000)
    exec (.tcStep l) s = .next (u.updLane l.val (tcStepped (s.laneBetween l.val) u.now)) := by
  rw [exec_tcStep]
  exact congrArg _ (if_neg (not_or.2 ⟨hoff, ne_true_of_eq_false hpend⟩))

theorem tcStep_moves {l : Lane} (hoff : (s.laneAt l.val).tc ≠ (s.laneAt l.val).tcTarget)
    (hpend : (s.laneAt l.val).tcPend = false) :
    Answers (.tcStep l) s (fun t =>
      let x := s.laneAt l.val
      t.now = max s.now (x.tcAt + 100000) ∧
      (s.laneBetween l.val = true → t.laneAt l.val = { x with tc := stepTo x.tc x.tcTarget, tcAt := t.now }) ∧
      (s.laneBetween l.val = false → t.laneAt l.val = { x with tcPend := true, tcAt := t.now }) ∧
      (stepTo x.tc x.tcTarget - x.tc).natAbs = 1 ∧ t = { s with now := t.now, pf.lane := t.pf.lane }) := by
  refine ⟨_, tcStep_off_target hoff hpend, rfl, fun hidle => ?_, fun hbusy => ?_, stepTo_sub_natAbs hoff, rfl⟩
  · rw [State.updLane_same, hidle]
    exact tcStepped_idle _ hpend
  · rw [State.updLane_same, hbusy]
    exact tcStepped_busy _ _

theorem exec_statDeskewStep (l : Lane) (drive : Bool) (s : State) :
    exec (.statDeskewStep l drive) s = execStatDeskewStep l drive s := rfl

/-- A lane after a step of the statistical deskew of its driver, or of its comparator. -/
def deskewStepped (drive : Bool) (t : Nat) (x : LaneSt) : LaneSt :=
  if drive then { x with statD := stepTo x.statD x.targetD, statAt := t }
  else { x with statC := stepTo x.statC x.targetC, statAt := t }

/-- A group after a step of the statistical deskew of one of its lanes. -/
def deskewCounted (t : Nat) (x : GrpSt) : GrpSt :=
  { x with statCount := satAdd x.statCount 1 0xFFFFFFFF, statLast := t }

theorem statDeskewStep_off_target {l : Lane} {drive : Bool} (hidle : s.laneBetween l.val = true)
    (hdrive : (s.laneAt l.val).statD ≠ (s.laneAt l.val).targetD ∨ drive = false)
    (hcmp : (s.laneAt l.val).statC ≠ (s.laneAt l.val).targetC ∨ drive = true) :
    let u := s.moveTo ((s.laneAt l.val).statAt + 10000000)
    exec (.statDeskewStep l drive) s = .next
      ((u.updLane l.val (deskewStepped drive u.now)).updGrp (l.val / 33) (deskewCounted u.now)) := by
  have hdue : ((if drive then decide ((s.laneAt l.val).statD ≠ (s.laneAt l.val).targetD)
      else decide ((s.laneAt l.val).statC ≠ (s.laneAt l.val).targetC)) && s.laneBetween l.val) = true := by
    cases drive
    case false => simpa [hidle] using hcmp
    case true => simpa [hidle] using hdrive
  rw [exec_statDeskewStep]
  exact congrArg _ (if_pos hdue)

theorem updGrp_laneAt (s : State) (k i : Nat) (f : GrpSt → GrpSt) : (s.updGrp k f).laneAt i = s.laneAt i := rfl

theorem statDeskewStep_moves {l : Lane} {drive : Bool} (hidle : s.laneBetween l.val = true)
    (hdrive : (s.laneAt l.val).statD ≠ (s.laneAt l.val).targetD ∨ drive = false)
    (hcmp : (s.laneAt l.val).statC ≠ (s.laneAt l.val).targetC ∨ drive = true) :
    Answers (.statDeskewStep l drive) s (fun t =>
      let x := s.laneAt l.val
      t.now = max s.now (x.statAt + 10000000) ∧
      (drive = true → t.laneAt l.val = { x with statD := stepTo x.statD x.targetD, statAt := t.now }) ∧
      (drive = false → t.laneAt l.val = { x with statC := stepTo x.statC x.targetC, statAt := t.now }) ∧
      (t.grpAt (l.val / 33)).statCount = satAdd (s.grpAt (l.val / 33)).statCount 1 0xFFFFFFFF ∧
      t = { s with now := t.now, pf.lane := t.pf.lane, pf.grp := t.pf.grp }) := by
  refine ⟨_, statDeskewStep_off_target hidle hdrive hcmp, rfl, fun htrue => ?_, fun hfalse => ?_, ?_, rfl⟩
  · rw [updGrp_laneAt, State.updLane_same, htrue]
    rfl
  · rw [updGrp_laneAt, State.updLane_same, hfalse]
    rfl
  · rw [State.updGrp_same]
    rfl

end

end Sys2Proof
end

section
/-!
The statement about the rows of a timing island.
-/

namespace Sys2Proof

open Sys2Proof.Machine

/-- Settles O53: each clause is what its row does in the case that its hypotheses name. -/
theorem timingIslandRows : Obligations.TimingIslandRows := by
  intro s g
  exact ⟨pllLock_locks, pllUnlock_of_locked,
    fun hpll hdead => ⟨pllRelock_of_fenced true hpll hdead, pllRelock_fails hpll hdead⟩,
    exec_ebFault g s, exec_tsParity g s, fun temp => exec_islandTempRead g temp s,
    fun l => ⟨tcStep_at_target, tcStep_moves⟩, fun l drive => statDeskewStep_moves⟩

end Sys2Proof
end

section
/-!
SUPPORT. What the rows of a power sequence do: one equation per row and case (05 R163, R171, R173 to R175, R178).
-/

namespace Sys2Proof

open Sys2Proof.Machine

/-! ## The step in progress (05 R173, R174) -/

section
variable {s : State} {k d : Nat} {r : SeqRun} {x : SeqStep}

/-- A site with a step in progress runs a sequence. -/
theorem curStep_seqRun (h : s.curStep k = some (r, x)) : (s.siteAt k).seqRun = some r := by
  unfold State.curStep at h
  split at h
  · obtain ⟨_, -, hpair⟩ := Option.map_eq_some_iff.1 h
    cases hpair
    assumption
  · cases h

theorem stepOf_updDps (s : State) (i d : Nat) (f : DpsSt → DpsSt) : (s.updDps i f).stepOf d = s.stepOf d := rfl

theorem stepOf_moveTo (s : State) (t d : Nat) : (s.moveTo t).stepOf d = s.stepOf d := rfl

theorem rampsDown_of_stepOf (h : s.stepOf d = some (k, r, x)) : s.rampsDown d = !r.up := by
  rw [State.rampsDown, h]

theorem rampsDown_of_no_step (h : s.stepOf d = none) : s.rampsDown d = false := by
  rw [State.rampsDown, h]

theorem seqPhase_seqRun (phase : SeqPhase) (due : Nat) (h : (s.siteAt k).seqRun = some r) :
    ((s.seqPhase k phase due).siteAt k).seqRun = some { r with phase, due } := by
  rw [State.seqPhase, State.updSite_same, h]
  rfl

/-- A step that is not the last one of its record is followed by its DELAY. -/
theorem stepDone_waits {q : SeqRec} (hseq : (s.siteAt k).seq = some q) (hmore : r.step + 1 < q.steps.length) :
    s.stepDone k r x = s.seqPhase k .delay (s.now + 1000 * x.delay) := by
  rw [State.stepDone, hseq]
  exact if_neg (Nat.not_le.2 hmore)

/-- The last step of a record completes the power-up. -/
theorem stepDone_completes {q : SeqRec} (hseq : (s.siteAt k).seq = some q) (hlast : q.steps.length ≤ r.step + 1) :
    s.stepDone k r x = ((s.updSite k (fun t => { t with seqRun := none, safe := false, shed := false })).settledTok
      k 0).complete r.part.val r.tag 0x0402 .ok [] := by
  rw [State.stepDone, hseq]
  exact if_pos hlast

end

/-! ## Admission and the seed sweep (05 R163, R174) -/

section
variable {s : State}

/-- A parameter other than a multiplexer setting is stored and nothing else. -/
theorem setPar_of_no_mux {id : Nat} (v : Int) (h : pidNum id ≠ 0x010) :
    s.setPar id v = { s with host.params := Tbl.put s.host.params id v } := by
  simp [State.setPar, h]

theorem pidNum_voutSet (d : Nat) : pidNum (pid 4 d 0x002) ≠ 0x010 := by
  rw [pidNum, pid]
  omega

/-- A DPS channel whose seed sweep begins: admitted at a demand, at 0 V, its comparators not known yet. -/
def sweepBegun (demand due : Nat) (y : DpsSt) : DpsSt :=
  { y with
    mode := .sweep, demand, due, known := false, blanked := true, settled := false, hi := false, lo := false
    cur := false, vout := 0, outSince := none, inSince := none, localSense := false, limited := false }

theorem exec_dpsStepAdmitted (site : Site) (s : State) :
    exec (.dpsStepAdmitted site) s = execDpsStepAdmitted site s := rfl

section
variable {site : Site} {r : SeqRun} {x : SeqStep} (hstep : s.curStep site.val = some (r, x)) (hup : r.up = true)
  (hphase : r.phase = .waitAdmit) (hadmit : s.admitStep (dpsDemand x.channel x.vout (s.parN 4 x.channel 0x003)) = true)
  (hcal : s.dpsInCal x.channel = false) (hoff : (s.dpsAt x.channel).mode = .off)
include hstep hup hphase hadmit hcal hoff

theorem dpsStepAdmitted_of_admitted :
    exec (.dpsStepAdmitted site) s = .next
      (((s.setPar (pid 4 x.channel 0x002) x.vout).seqPhase site.val .sweep (s.now + 10000)).updDps x.channel
        (sweepBegun (dpsDemand x.channel x.vout (s.parN 4 x.channel 0x003)) (s.now + 10000))) := by
  rw [exec_dpsStepAdmitted, execDpsStepAdmitted, hstep]
  simp only [hup, hphase, hadmit, hcal, hoff]
  rfl

/-- The step's VOUT becomes VOUT_SET and its channel sweeps for 10 us. -/
theorem dpsStepAdmitted_sweeps :
    Answers (.dpsStepAdmitted site) s (fun t =>
      (t.dpsAt x.channel).mode = .sweep ∧ (t.dpsAt x.channel).due = s.now + 10000 ∧
      (t.siteAt site.val).seqRun = some { r with phase := .sweep, due := s.now + 10000 } ∧
      t = { s with
        host.params := Tbl.put s.host.params (pid 4 x.channel 0x002) x.vout
        pf.dps := t.pf.dps
        pf.site := t.pf.site }) := by
  refine ⟨_, dpsStepAdmitted_of_admitted hstep hup hphase hadmit hcal hoff, ?_, ?_, ?_, ?_⟩
  · rw [State.updDps_same]
    rfl
  · rw [State.updDps_same]
    rfl
  · exact seqPhase_seqRun (s := s.setPar _ _) _ _ (curStep_seqRun (s := s) hstep)
  · rw [setPar_of_no_mux _ (pidNum_voutSet x.channel)]
    rfl

end

/-- A DPS channel whose comparators are known and whose output ramps up from 0 V. -/
def rampBegun (hi lo cur : Bool) (due vout : Nat) (y : DpsSt) : DpsSt :=
  { y with mode := .ramping, hi, lo, cur, known := true, due, vout }

theorem exec_dpsSeedSweepEnd (d : Dps) (hi lo cur : Bool) (s : State) :
    exec (.dpsSeedSweepEnd d hi lo cur) s = execDpsSeedSweepEnd d hi lo cur s := rfl

/-- The sweep ends in the ramp to VOUT; a step of the channel goes to its ramp phase with it. -/
theorem dpsSeedSweepEnd_of_sweep {d : Dps} (hi lo cur : Bool) (hsweep : (s.dpsAt d.val).mode = .sweep) :
    let u := s.moveTo (s.dpsAt d.val).due
    let due := u.now + rampNs d.val 0 (s.parN 4 d.val 0x002) (s.parN 4 d.val 0x006)
    let v := u.updDps d.val (rampBegun hi lo cur due (s.parN 4 d.val 0x002))
    (∀ k r x, s.stepOf d.val = some (k, r, x) →
      exec (.dpsSeedSweepEnd d hi lo cur) s = .next (v.seqPhase k .ramp (v.dpsAt d.val).due)) ∧
    (s.stepOf d.val = none → exec (.dpsSeedSweepEnd d hi lo cur) s = .next v) := by
  refine ⟨fun k r x hstep => ?_, fun hstep => ?_⟩ <;>
    · rw [exec_dpsSeedSweepEnd, execDpsSeedSweepEnd, if_pos hsweep]
      simp only [stepOf_updDps, stepOf_moveTo, hstep]
      rfl

theorem dpsSeedSweepEnd_ramps {d : Dps} (hi lo cur : Bool) (hsweep : (s.dpsAt d.val).mode = .sweep) :
    let u := s.moveTo (s.dpsAt d.val).due
    Answers (.dpsSeedSweepEnd d hi lo cur) s (fun t =>
      t.dpsAt d.val = { u.dpsAt d.val with
        mode := .ramping, hi, lo, cur, known := true
        due := u.now + rampNs d.val 0 (s.parN 4 d.val 0x002) (s.parN 4 d.val 0x006)
        vout := s.parN 4 d.val 0x002 } ∧
      t = { u with pf.dps := t.pf.dps, pf.site := t.pf.site }) := by
  intro u
  obtain ⟨hin_step, halone⟩ := dpsSeedSweepEnd_of_sweep hi lo cur hsweep
  match hstep : s.stepOf d.val with
  | some (k, r, x) => exact ⟨_, hin_step k r x hstep, State.updDps_same u _ _, rfl⟩
  | none => exact ⟨_, halone hstep, State.updDps_same u _ _, rfl⟩

/-! ## The end of a ramp, settling (05 R171, R174) -/

theorem exec_dpsRampEnd (d : Dps) (s : State) : exec (.dpsRampEnd d) s = execDpsRampEnd d s := rfl

/-- A channel at the end of its ramp: unblanked, its time in or out of window counts from then on. -/
def rampEnded (now : Nat) (y : DpsSt) : DpsSt :=
  { y with
    mode := .settling, blanked := false, outSince := if y.out then some now else none
    inSince := if y.out then none else some now }

section
variable {d : Dps} (hramp : (s.dpsAt d.val).mode = .ramping)
include hramp

/-- The ramp of a power-up step ends: the step settles with WAIT_SETTLE, completes without. -/
theorem dpsRampEnd_of_step {k : Nat} {r : SeqRun} {x : SeqStep} (hstep : s.stepOf d.val = some (k, r, x))
    (hup : r.up = true) :
    let u := (s.moveTo (s.dpsAt d.val).due).updDps d.val (rampEnded (max s.now (s.dpsAt d.val).due))
    exec (.dpsRampEnd d) s = .next
      (if x.waitSettle then u.seqPhase k .settle (u.now + 1000000 * s.parN 4 d.val 0x00B)
      else (u.updDps d.val (fun y => { y with mode := .on })).stepDone k r x) := by
  have hends : (decide ((s.dpsAt d.val).mode = .ramping) && !s.rampsDown d.val) = true := by
    simp [hramp, rampsDown_of_stepOf hstep, hup]
  rw [exec_dpsRampEnd, execDpsRampEnd, if_pos hends]
  simp only [stepOf_updDps, stepOf_moveTo, hstep]
  rfl

theorem dpsRampEnd_of_no_step (hstep : s.stepOf d.val = none) :
    exec (.dpsRampEnd d) s = .next
      ((s.moveTo (s.dpsAt d.val).due).updDps d.val (rampEnded (max s.now (s.dpsAt d.val).due))) := by
  have hends : (decide ((s.dpsAt d.val).mode = .ramping) && !s.rampsDown d.val) = true := by
    simp [hramp, rampsDown_of_no_step hstep]
  rw [exec_dpsRampEnd, execDpsRampEnd, if_pos hends]
  simp only [stepOf_updDps, stepOf_moveTo, hstep]
  rfl

end

theorem exec_dpsSettled (d : Dps) (s : State) : exec (.dpsSettled d) s = execDpsSettled d s := rfl

/-- A channel in window for SETTLE_TIME is settled; a step that settles completes. -/
theorem dpsSettled_of_in_window {d : Dps} {t0 : Nat} (hmode : (s.dpsAt d.val).mode = .settling)
    (hin : (s.dpsAt d.val).inSince = some t0) :
    let u := (s.moveTo (t0 + 1000 * s.parN 4 d.val 0x00A)).updDps d.val (fun y => { y with mode := .on, settled := true })
    (∀ k r x, s.stepOf d.val = some (k, r, x) → r.phase = .settle →
      exec (.dpsSettled d) s = .next (u.stepDone k r x)) ∧
    (s.stepOf d.val = none → exec (.dpsSettled d) s = .next u) := by
  rw [exec_dpsSettled, execDpsSettled, hmode, hin]
  simp only [stepOf_updDps, stepOf_moveTo]
  refine ⟨fun k r x hstep hphase => ?_, fun hstep => ?_⟩
  · rw [hstep]
    exact congrArg _ (if_pos hphase)
  · rw [hstep]

/-! ## Waits and time-outs (05 R174, R175) -/

theorem exec_seqDelayExpiry (site : Site) (s : State) : exec (.seqDelayExpiry site) s = execSeqDelayExpiry site s := rfl

theorem seqDelayExpiry_of_delay {site : Site} {r : SeqRun} (hrun : (s.siteAt site.val).seqRun = some r)
    (hphase : r.phase = .delay) :
    exec (.seqDelayExpiry site) s = .next
      (if r.up then (s.moveTo r.due).updSite site.val (fun t =>
        { t with seqRun := some { r with step := r.step + 1, phase := .waitAdmit } })
      else if r.step = 0 then (s.moveTo r.due).downDone site.val r
      else (s.moveTo r.due).downStep site.val (r.step - 1)) := by
  rw [exec_seqDelayExpiry, execSeqDelayExpiry, hrun]
  exact congrArg _ (if_pos hphase)

theorem exec_seqTimeout (site : Site) (s : State) : exec (.seqTimeout site) s = execSeqTimeout site s := rfl

/-- A power-up whose step does not settle stops, tells it and completes TIMEOUT. -/
theorem seqTimeout_of_settling {site : Site} {r : SeqRun} {x : SeqStep} (hstep : s.curStep site.val = some (r, x))
    (hup : r.up = true) (hphase : r.phase = .settle) :
    let u := ((s.moveTo r.due).updSite site.val (fun t => { t with seqRun := none })).event 0x534 [site.val, x.channel]
      [.site site.val, .dps x.channel]
    exec (.seqTimeout site) s = .next
      ((u.settledTok site.val (invalidRes rSUPPLY).code).complete r.part.val r.tag 0x0402 .timeout []) := by
  have hwaits : (r.up && decide (r.phase = .settle)) = true := by simp [hup, hphase]
  rw [exec_seqTimeout, execSeqTimeout, hstep]
  exact congrArg _ (if_pos hwaits)

/-! ## Switching off (05 R175, R178) -/

theorem exec_dpsOffLevelReached (d : Dps) (s : State) :
    exec (.dpsOffLevelReached d) s = execDpsOffLevelReached d s := rfl

theorem exec_dischSlow (d : Dps) (s : State) : exec (.dischSlow d) s = execDischSlow d s := rfl

section
variable {d : Dps} {k : Nat} {r : SeqRun} {x : SeqStep}

theorem dpsOffLevelReached_of_step (hstep : s.stepOf d.val = some (k, r, x)) (hdown : r.up = false)
    (hphase : r.phase = .ramp) : exec (.dpsOffLevelReached d) s = .next (s.downOff k d.val x) := by
  have hramps : (!r.up && decide (r.phase = .ramp)) = true := by simp [hdown, hphase]
  rw [exec_dpsOffLevelReached, execDpsOffLevelReached, hstep]
  exact congrArg _ (if_pos hramps)

/-- A power-down step that does not reach the off level in its time switches its channel off and tells it. -/
theorem dischSlow_of_step (hstep : s.stepOf d.val = some (k, r, x)) (hdown : r.up = false) (hphase : r.phase = .ramp) :
    exec (.dischSlow d) s =
      .next (((s.moveTo r.due).downOff k d.val x).event 0x535 [d.val, k] [.dps d.val, .site k]) := by
  have hramps : (!r.up && decide (r.phase = .ramp)) = true := by simp [hdown, hphase]
  rw [exec_dischSlow, execDischSlow, hstep]
  exact congrArg _ (if_pos hramps)

end

theorem dpsOffLevelReached_of_discharge {d : Dps} (hstep : s.stepOf d.val = none)
    (hmode : (s.dpsAt d.val).mode = .discharging) :
    exec (.dpsOffLevelReached d) s = .next (s.updDps d.val DpsSt.turnOff) := by
  rw [exec_dpsOffLevelReached, execDpsOffLevelReached, hstep]
  exact congrArg _ (if_pos hmode)

/-- A discharge that lasts longer than 100 ms is told once and goes on. -/
theorem dischSlow_of_discharge {d : Dps} {t0 : Nat} (hstep : s.stepOf d.val = none)
    (hmode : (s.dpsAt d.val).mode = .discharging) (hat : (s.dpsAt d.val).dischAt = some t0)
    (hslow : (s.dpsAt d.val).slow = false) :
    exec (.dischSlow d) s = .next
      (((s.moveTo (t0 + 100000000)).updDps d.val (fun y => { y with slow := true })).event 0x535
        [d.val, (s.dpsSite d.val).getD 0xFFFF] [.dps d.val]) := by
  rw [exec_dischSlow, execDischSlow, hstep]
  simp only [hmode, hat, hslow, Bool.false_eq_true, if_false]

end

end Sys2Proof
end

section
/-!
The statement about the steps of a power sequence.
-/

namespace Sys2Proof

open Sys2Proof.Machine

/-- Settles O40: each clause is the equation of its row in the case that its hypotheses name. -/
theorem powerSequenceRows : Obligations.PowerSequenceRows := by
  intro s
  refine ⟨fun site r x => dpsStepAdmitted_sweeps, fun d hi lo cur => dpsSeedSweepEnd_ramps hi lo cur,
    fun d hramp =>
      ⟨fun k r x hstep hup hwait => ?_, fun k r x hstep hup hwait => ?_, dpsRampEnd_of_no_step hramp⟩,
    fun d t0 => dpsSettled_of_in_window,
    fun k r x q hseq => ⟨stepDone_waits hseq, stepDone_completes hseq⟩,
    fun site r hrun hphase => ⟨fun hup => ?_, fun hdown hfirst => ?_, fun hdown hlater => ?_⟩,
    fun site r x => seqTimeout_of_settling,
    fun d k r x hstep hdown hphase =>
      ⟨dpsOffLevelReached_of_step hstep hdown hphase, dischSlow_of_step hstep hdown hphase⟩,
    fun d t0 hstep hmode => ⟨dpsOffLevelReached_of_discharge hstep hmode, dischSlow_of_discharge hstep hmode⟩⟩
  · exact (dpsRampEnd_of_step hramp hstep hup).trans (congrArg _ (if_pos hwait))
  · exact (dpsRampEnd_of_step hramp hstep hup).trans (congrArg _ (if_neg (ne_true_of_eq_false hwait)))
  · rw [seqDelayExpiry_of_delay hrun hphase, if_pos hup]
  · rw [seqDelayExpiry_of_delay hrun hphase, if_neg (ne_true_of_eq_false hdown), if_pos hfirst]
  · rw [seqDelayExpiry_of_delay hrun hphase, if_neg (ne_true_of_eq_false hdown), if_neg (Nat.ne_of_gt hlater)]

end Sys2Proof
end

section
/-!
SUPPORT. What the commands of DUT power do: one lemma per command (05 R173 to R175).
-/

namespace Sys2Proof

open Sys2Proof.Machine

/-! ## What a completion leaves alone -/

theorem complete_siteAt (s : State) (p tag : Nat) (op : BitVec 16) (st : Status) (r : List Nat) (k : Nat) :
    (s.complete p tag op st r).siteAt k = s.siteAt k := by
  rw [complete_same s p tag op st r []]
  rfl

/-- A command that changes one site and completes changes sites and host functions alone. -/
theorem updSite_then_host (s : State) {p : Part} {tag k : Nat} {op : BitVec 16} {f : SiteSt → SiteSt} {t : State}
    (h : SameButHost ((taken s p tag op).updSite k f) t) :
    t = { s with host.fn := t.host.fn, pf.site := t.pf.site } := by
  rw [h]
  rfl

/-! ## dps.seq_set, dps.power_up, dps.power_down -/

section
variable {s : State} {p : Part} {tag : Nat} {site : Site} {rec : SeqRec}

theorem exec_dpsSeqSet (p : Part) (tag : Nat) (rec : SeqRec) (s : State) :
    exec (.dpsSeqSet p tag rec) s = execDpsSeqSet p tag rec s := rfl

/-- A record that passes every check is taken whole. -/
theorem dpsSeqSet_takes (hpass : Passes s p tag 0x0401) (howns : s.ownsSite p rec.site = true)
    (hgood : seqMalformed rec = false) (hrange : seqInRange rec = true) (hfree : s.seqConflict rec.site rec.steps = none)
    (hoff : s.siteOn rec.site = false) (hidle : (s.siteAt rec.site).seqRun = none) :
    Answers (.dpsSeqSet p tag rec) s (fun t => Posted t p tag 0x0401 .ok [] ∧ (t.siteAt rec.site).seq = some rec ∧
      t = { s with host.fn := t.host.fn, pf.site := t.pf.site }) := by
  refine answers_of_command (exec_dpsSeqSet p tag rec s) hpass (by simp [howns])
    (by simp [hgood, hrange, hfree, hoff, hidle]) ⟨complete_posted _ _ _ _ _ _ _, ?_, ?_⟩
  · rw [complete_siteAt, State.updSite_same]
  · exact updSite_then_host s (complete_same _ _ _ _ _ _ _)

theorem seqSteps_of_seq {k : Nat} (hseq : (s.siteAt k).seq = some rec) : s.seqSteps k = rec.steps := by
  rw [State.seqSteps, hseq]

theorem exec_dpsPowerUp (p : Part) (tag : Nat) (site : Site) (s : State) :
    exec (.dpsPowerUp p tag site) s = execDpsPowerUp p tag site s := rfl

/-- A power-up that passes every check is accepted and waits for the admission of its first step. -/
theorem dpsPowerUp_waits (hpass : Passes s p tag 0x0402) (howns : s.ownsSite p site.val = true)
    (hfatal : s.evt.fatal = false) (hseq : (s.siteAt site.val).seq = some rec)
    (hfree : s.seqConflict site.val rec.steps = none) (hfence : ∀ x ∈ rec.steps, (s.dpsAt x.channel).mode ≠ .fenced)
    (hoff : s.siteOn site.val = false) (hidle : (s.siteAt site.val).seqRun = none) :
    Answers (.dpsPowerUp p tag site) s (fun t => Posted t p tag 0x0402 .accepted [] ∧
      (t.siteAt site.val).seqRun = some { up := true, step := 0, phase := .waitAdmit, part := p, tag, due := s.now } ∧
      t = { s with host.fn := t.host.fn, pf.site := t.pf.site }) := by
  have hunfenced : rec.steps.any (fun x => decide ((s.dpsAt x.channel).mode = .fenced)) = false := by simpa using hfence
  refine answers_of_command (exec_dpsPowerUp p tag site s) hpass howns ?_ ⟨complete_posted _ _ _ _ _ _ _, ?_, ?_⟩
  · simp [hfatal, hseq, seqSteps_of_seq hseq, hfree, hunfenced, hoff, hidle]
  · rw [complete_siteAt, State.updSite_same]
    rfl
  · exact updSite_then_host s (complete_same _ _ _ _ _ _ _)

theorem exec_dpsPowerDown (p : Part) (tag : Nat) (site : Site) (s : State) :
    exec (.dpsPowerDown p tag site) s = execDpsPowerDown p tag site s := rfl

/-- A power-down that passes every check is accepted and begins with the last step of the record. -/
theorem dpsPowerDown_begins (hpass : Passes s p tag 0x0403) (howns : s.ownsSite p site.val = true)
    (hseq : (s.siteAt site.val).seq = some rec) (hbusy : s.siteBusy site.val = false)
    (hidle : (s.siteAt site.val).seqRun = none) :
    exec (.dpsPowerDown p tag site) s = .next
      ((((taken s p tag 0x0403).complete p tag 0x0403 .accepted []).updSite site.val (fun t => { t with
        seqRun := some { up := false, step := rec.steps.length - 1, phase := .ramp, part := p, tag, due := s.now } })).downStep
        site.val (rec.steps.length - 1)) := by
  have hsteps : (taken s p tag 0x0403).seqSteps site.val = rec.steps := seqSteps_of_seq (s := s) hseq
  rw [next_of_command (exec_dpsPowerDown p tag site s) hpass howns (by simp [hseq, hbusy, hidle])]
  simp only [hsteps]
  rfl

end

end Sys2Proof
end

section
/-!
The statement about the commands of DUT power.
-/

namespace Sys2Proof

open Sys2Proof.Machine

/-- Settles O15: each clause is what its command does where no check refuses it. -/
theorem powerCommandsComplete : Obligations.PowerCommandsComplete :=
  fun _ _ _ => ⟨fun _ => dpsSeqSet_takes, fun _ _ => dpsPowerUp_waits, fun _ _ => dpsPowerDown_begins⟩

end Sys2Proof
end

section
/-!
SUPPORT. What the window monitor and the stage of a DPS channel do: one equation per row and case (05 R168 to R172).
-/

namespace Sys2Proof

open Sys2Proof.Machine

section
variable {s : State} {d : Dps}

/-! ## The window monitor (05 R170 to R172) -/

theorem exec_windowFault (d : Dps) (s : State) : exec (.windowFault d) s = execWindowFault d s := rfl

/-- An on channel whose known, unblanked states are out of window faults WIN_DWELL after the break began. -/
theorem windowFault_of_out {t0 : Nat} (hout : (s.dpsAt d.val).outSince = some t0) (hon : (s.dpsAt d.val).on = true)
    (hknown : (s.dpsAt d.val).known = true) (hblanked : (s.dpsAt d.val).blanked = false) :
    let x := s.dpsAt d.val
    exec (.windowFault d) s = .next
      (((s.moveTo (t0 + 1000 * s.parN 4 d.val 0x014)).updDps d.val (fun y => { y with outSince := none })).event
        (0x510 + 2 * d.val) [b2n x.hi + 2 * b2n x.lo + 4 * b2n x.cur] ((s.dpsSite d.val).toList.map Elem.site)) := by
  have hwatched : ((s.dpsAt d.val).on && (s.dpsAt d.val).known && !(s.dpsAt d.val).blanked) = true := by
    simp [hon, hknown, hblanked]
  rw [exec_windowFault, execWindowFault]
  simp only [hout, if_pos hwatched]
  rfl

theorem exec_winStateChange (d : Dps) (hi lo cur : Bool) (t0 : Nat) (s : State) :
    exec (.winStateChange d hi lo cur t0) s = execWinStateChange d hi lo cur t0 s := rfl

/-- A change of state of a channel whose states are known is noted with the time since it is out of, or in, window. -/
theorem winStateChange_notes (hi lo cur : Bool) (t0 : Nat) (hknown : (s.dpsAt d.val).known = true) :
    Answers (.winStateChange d hi lo cur t0) s (fun t =>
      let x := s.dpsAt d.val
      let now := max s.now t0
      t.dpsAt d.val = { x with
        hi, lo, cur
        outSince := if x.blanked || !(hi || lo || cur) then none else if x.out then x.outSince else some now
        inSince := if x.blanked || (hi || lo || cur) then none else if x.out then some now else x.inSince } ∧
      t = { s with now, pf.dps := t.pf.dps }) := by
  refine ⟨_, (exec_winStateChange d hi lo cur t0 s).trans (congrArg Host.Outcome.next (if_pos hknown)), ?_, rfl⟩
  rw [State.updDps_same]
  rfl

theorem winStateChange_of_unknown (hi lo cur : Bool) (t0 : Nat) (hknown : (s.dpsAt d.val).known = false) :
    exec (.winStateChange d hi lo cur t0) s = .next s :=
  (exec_winStateChange d hi lo cur t0 s).trans (congrArg Host.Outcome.next (if_neg (ne_true_of_eq_false hknown)))

/-! ## The stage (05 R168, R169) -/

theorem exec_senseOpen (d : Dps) (s : State) : exec (.senseOpen d) s = execSenseOpen d s := rfl

/-- An on channel that regulates at its open sense pair falls back to local sense, once. -/
theorem senseOpen_falls_back (hsense : s.parN 4 d.val 0x018 = 1) (hon : (s.dpsAt d.val).on = true)
    (hremote : (s.dpsAt d.val).localSense = false) :
    exec (.senseOpen d) s = .next
      ((s.updDps d.val (fun y => { y with localSense := true })).event (0x511 + 2 * d.val) [3]) := by
  rw [exec_senseOpen, execSenseOpen, if_pos ⟨hsense, hon, hremote⟩]

theorem exec_dpsStageTrip (d : Dps) (loopFault : Bool) (s : State) :
    exec (.dpsStageTrip d loopFault) s = execDpsStageTrip d loopFault s := rfl

theorem dpsStageTrip_tells (loopFault : Bool) (hmode : (s.dpsAt d.val).mode ≠ .fenced) :
    exec (.dpsStageTrip d loopFault) s = .next (s.event (0x511 + 2 * d.val) [if loopFault then 2 else 1]) := by
  rw [exec_dpsStageTrip, execDpsStageTrip, if_neg hmode]

end

end Sys2Proof
end

section
/-!
The statement about the monitors and the stage of a DPS channel.
-/

namespace Sys2Proof

open Sys2Proof.Machine

/-- Settles O41: each clause is the equation of its row in the case that its hypotheses name. -/
theorem supplyMonitorRows : Obligations.SupplyMonitorRows :=
  fun _ _ => ⟨fun _ => windowFault_of_out, senseOpen_falls_back, dpsStageTrip_tells, winStateChange_notes,
    winStateChange_of_unknown⟩

end Sys2Proof
end

section
/-!
SUPPORT. What the rows of the pin electronics do: one equation per row and case (05 R151, R154, R156, R160 to R163, R166).
-/

namespace Sys2Proof

open Sys2Proof.Machine

section
variable {s : State}

theorem chanOf_updLane (s : State) (k l : Nat) (f : LaneSt → LaneSt) : (s.updLane k f).chanOf l = s.chanOf l := rfl

theorem parN_updLane (s : State) (k blk el num : Nat) (f : LaneSt → LaneSt) :
    (s.updLane k f).parN blk el num = s.parN blk el num := rfl

/-! ## The lanes (05 R151, R154, R156, R163) -/

theorem exec_laneOvercurrent (l : Lane) (s : State) : exec (.laneOvercurrent l) s = execLaneOvercurrent l s := rfl

theorem laneOvercurrent_of_limit {l : Lane} (hlimit : (s.laneAt l.val).limit = true) :
    exec (.laneOvercurrent l) s = .next (s.event (0x300 + l.val) [1]) := by
  rw [exec_laneOvercurrent, execLaneOvercurrent, if_pos hlimit]

theorem exec_laneOvervoltage (l : Lane) (s : State) : exec (.laneOvervoltage l) s = execLaneOvervoltage l s := rfl

theorem laneOvervoltage_of_closed {l : Lane} (hmode : (s.laneAt l.val).mode ≠ .opened) :
    exec (.laneOvervoltage l) s = .next (s.event (0x300 + l.val) [4]) := by
  rw [exec_laneOvervoltage, execLaneOvervoltage, if_neg hmode]

theorem exec_laneSeedSweepEnd (l : Lane) (ok : Bool) (s : State) :
    exec (.laneSeedSweepEnd l ok) s = execLaneSeedSweepEnd l ok s := rfl

section
variable {l : Lane} (hsweep : (s.laneAt l.val).sweep = true)
include hsweep

theorem laneSeedSweepEnd_fails :
    exec (.laneSeedSweepEnd l false) s = .next
      ((s.updLane l.val (fun x => { x with sweep := false })).event (0x300 + l.val) [3]) := by
  rw [exec_laneSeedSweepEnd, execLaneSeedSweepEnd, if_pos hsweep]
  rfl

/-- A good sweep of an opened lane whose channel has CONN = 1 ends in the idle state. -/
theorem laneSeedSweepEnd_idles {c : Nat} (hchan : s.chanOf l.val = some c) (hmode : (s.laneAt l.val).mode = .opened)
    (hconn : s.parN 3 c 0x00A = 1) (hfence : (s.laneAt l.val).fenced = false) :
    exec (.laneSeedSweepEnd l true) s = .next
      ((s.updLane l.val (fun x => { x with sweep := false })).idleLane c) := by
  rw [exec_laneSeedSweepEnd, execLaneSeedSweepEnd, if_pos hsweep]
  simp only [chanOf_updLane, hchan, State.updLane_same, Bool.not_true, Bool.false_eq_true, if_false]
  exact congrArg _ (if_pos ⟨hmode, hconn, hfence⟩)

/-- A good sweep of a lane that is in a pin state already leaves it there. -/
theorem laneSeedSweepEnd_of_closed (hmode : (s.laneAt l.val).mode ≠ .opened) :
    exec (.laneSeedSweepEnd l true) s = .next (s.updLane l.val (fun x => { x with sweep := false })) := by
  rw [exec_laneSeedSweepEnd, execLaneSeedSweepEnd, if_pos hsweep]
  simp only [chanOf_updLane, State.updLane_same, hmode, false_and, Bool.not_true, Bool.false_eq_true, if_false]
  cases s.chanOf l.val <;> rfl

end

/-! ## A change of connection (05 R160, R162) -/

theorem exec_connChangeComplete (done : ConnDone) (s : State) :
    exec (.connChangeComplete done) s = execConnChangeComplete done s := rfl

section
variable {ch : Chan} (hchanging : (s.laneAt (s.laneOf ch.val)).changing = true)
  (hfence : (s.laneAt (s.laneOf ch.val)).fenced = false)
include hchanging hfence

theorem connChangeComplete_fails :
    let k := s.laneOf ch.val
    exec (.connChangeComplete ⟨ch, false⟩) s = .next
      ((s.updLane k (fun l => { l with changing := false })).event (0x300 + k) [2]) := by
  rw [exec_connChangeComplete, execConnChangeComplete]
  exact congrArg _ (if_pos ⟨hchanging, hfence⟩)

/-- With CONN = 0 the output switch stays open. -/
theorem connChangeComplete_opens (hconn : s.parN 3 ch.val 0x00A = 0) :
    exec (.connChangeComplete ⟨ch, true⟩) s = .next
      (s.updLane (s.laneOf ch.val) (fun l => { l with changing := false })) := by
  rw [exec_connChangeComplete, execConnChangeComplete]
  simp only [hchanging, hfence, parN_updLane, hconn]
  rfl

/-- With CONN = 1 the lane sweeps and takes its idle state. -/
theorem connChangeComplete_sweeps (hconn : s.parN 3 ch.val 0x00A = 1) :
    let k := s.laneOf ch.val
    let u := s.updLane k (fun l => { l with changing := false })
    exec (.connChangeComplete ⟨ch, true⟩) s = .next
      ((u.updLane k (fun l => { l with mode := .hiz, sweep := true })).idleLane ch.val) := by
  rw [exec_connChangeComplete, execConnChangeComplete]
  simp only [hchanging, hfence, parN_updLane, hconn]
  rfl

/-- With CONN = 2 outside the safe state the PMU of the group takes the lane and settles. -/
theorem connChangeComplete_joins_pmu (hconn : s.parN 3 ch.val 0x00A = 2) (hsafe : s.pwr.safe = false)
    (hchan : s.chanSafe ch.val = false) :
    let k := s.laneOf ch.val
    let u := s.updLane k (fun l => { l with changing := false })
    exec (.connChangeComplete ⟨ch, true⟩) s = .next
      (((u.updLane k (fun l => { l with mode := .pmu })).updGrp (ch.val / 32) (fun x =>
        { x with pmuConn := some ch.val })).pmuChange (ch.val / 32)) := by
  have hunsafe : ¬ (s.pwr.safe || s.chanSafe ch.val) = true := by simp [hsafe, hchan]
  rw [exec_connChangeComplete, execConnChangeComplete]
  simp only [hchanging, hfence, parN_updLane, hconn]
  exact congrArg _ (if_neg hunsafe)

end

/-! ## The PMU and the limits (05 R151, R161, R162, R166) -/

theorem exec_pmuSettled (g : Grp) (s : State) : exec (.pmuSettled g) s = execPmuSettled g s := rfl

theorem pmuSettled_settles {g : Grp} (hon : (s.pmuOn g.val).isSome = true)
    (hnew : (s.grpAt g.val).pmuSettled = false) :
    exec (.pmuSettled g) s = .next
      ((s.moveTo (s.grpAt g.val).pmuAt).updGrp g.val (fun x => { x with pmuSettled := true })) := by
  have hdue : ((s.pmuOn g.val).isSome && !(s.grpAt g.val).pmuSettled) = true := by simp [hon, hnew]
  rw [exec_pmuSettled, execPmuSettled]
  exact congrArg _ (if_pos hdue)

theorem exec_currentLimit (unit : LimitAt) (enters : Bool) (s : State) :
    exec (.currentLimit unit enters) s = execCurrentLimit unit enters s := rfl

theorem currentLimit_of_stage {d : Dps} (enters : Bool) (hon : (s.dpsAt d.val).on = true) :
    exec (.currentLimit (.stage d) enters) s = .next (s.updDps d.val (fun y => { y with limited := enters })) := by
  rw [exec_currentLimit, execCurrentLimit]
  exact congrArg _ (if_pos hon)

theorem currentLimit_of_driver {l : Lane} (enters : Bool) (hmode : (s.laneAt l.val).mode ≠ .opened) :
    exec (.currentLimit (.driver l) enters) s = .next (s.updLane l.val (fun x => { x with limit := enters })) := by
  rw [exec_currentLimit, execCurrentLimit]
  exact congrArg _ (if_neg hmode)

/-- The clamp of a PMU marks the conversion that runs on it when it is entered. -/
theorem currentLimit_of_clamp {g : Grp} (enters : Bool) (hon : (s.pmuOn g.val).isSome = true) :
    exec (.currentLimit (.clamp g) enters) s = .next
      ((s.updGrp g.val (fun x => { x with pmuClamp := enters })).updPadc g.val (fun c =>
        { c with running := c.running.map (fun r => { r with clamped := r.clamped || enters }) })) := by
  rw [exec_currentLimit, execCurrentLimit]
  exact congrArg _ (if_pos hon)

end

end Sys2Proof
end

section
/-!
The statement about the pin electronics.
-/

namespace Sys2Proof

open Sys2Proof.Machine

/-- Settles O42: each clause is the equation of its row in the case that its hypotheses name. -/
theorem pinElectronicsRows : Obligations.PinElectronicsRows := by
  intro s
  exact ⟨fun _ => laneOvercurrent_of_limit, fun _ => laneOvervoltage_of_closed,
    fun _ hsweep => ⟨laneSeedSweepEnd_fails hsweep, fun _ => laneSeedSweepEnd_idles hsweep,
      laneSeedSweepEnd_of_closed hsweep⟩,
    fun _ hchanging hfence => ⟨connChangeComplete_fails hchanging hfence, connChangeComplete_opens hchanging hfence,
      connChangeComplete_sweeps hchanging hfence, connChangeComplete_joins_pmu hchanging hfence⟩,
    fun _ => pmuSettled_settles, fun _ => currentLimit_of_stage, fun _ => currentLimit_of_driver,
    fun _ => currentLimit_of_clamp⟩

end Sys2Proof
end

section
/-!
SUPPORT. What the commands of acquisition do, and how a transfer to host memory ends: one lemma per command and case
(06 R194, R199, R201, R205; 11 R307, R312; 14 R389).
-/

namespace Sys2Proof

open Sys2Proof.Machine

section
variable {s : State} {p : Part} {tag : Nat}

/-! ## cap.log_read, cap.log_release, cap.capture_read (06 R194, R199) -/

/-- A transfer of data to the host is accepted and in progress; of the memory, pseudo-channels alone change. The state
`u` in which it starts has the memory and the transfers of `s`. -/
theorem startXfer_accepts {s u : State} (hmem : u.mem = s.mem) (hxfers : u.host.xfers = s.host.xfers) (p : Part)
    (tag : Nat) (op : BitVec 16) (a : Nat) (d : List Int) (r : List (Nat × Nat)) :
    let t := u.startXfer p tag op a d none r
    Posted t p tag op .accepted [] ∧ t.host.xfers = s.host.xfers ++ [⟨p, tag, op, d, none, a, r⟩] ∧
      t.mem = { s.mem with pc := t.mem.pc } := by
  have hdoes := startXfer_does u p tag op a d none r
  revert hdoes
  generalize u.startXfer p tag op a d none r = t
  rintro ⟨hposted, hjoined, hframe⟩
  rw [← hmem, ← hxfers]
  exact ⟨hposted, hjoined, congrArg State.mem hframe⟩

theorem taken_hbmWords (s : State) (p : Part) (tag : Nat) (op : BitVec 16) (q a n : Nat) :
    (taken s p tag op).hbmWords q a n = s.hbmWords q a n := rfl

theorem taken_sampleWords (s : State) (p : Part) (tag : Nat) (op : BitVec 16) (q : Nat) (c : CuSt) (n : Nat) :
    (taken s p tag op).sampleWords q c n = s.sampleWords q c n := rfl

theorem drawFree_sampleWords (s : State) (q : Nat) (c : CuSt) (n : Nat) :
    s.drawFree.sampleWords q c n = s.sampleWords q c n := rfl

theorem taken_parN (s : State) (p : Part) (tag : Nat) (op : BitVec 16) (blk el num : Nat) :
    (taken s p tag op).parN blk el num = s.parN blk el num := rfl

theorem exec_capLogRead (p : Part) (tag : Nat) (site : Site) (first count : Nat) (s : State) :
    exec (.capLogRead p tag site first count) s = execCapLogRead p tag site first count s := rfl

theorem capLogRead_accepts {site : Site} {first count : Nat} (hpass : Passes s p tag 0x0501)
    (howns : s.ownsSite p site.val = true) (hbusy : s.siteBusy site.val = false) (hsome : 1 ≤ count)
    (hrange : first + count ≤ s.parN 5 site.val 0x012 * 128) :
    let a := s.parN 5 site.val 0x011 * 4096 + 32 * first
    Answers (.capLogRead p tag site first count) s (fun t => Posted t p tag 0x0501 .accepted [] ∧
      t.host.xfers = s.host.xfers ++ [⟨p, tag, 0x0501, s.hbmWords p a (8 * count), none, a, [(a, 32 * count)]⟩] ∧
      t.mem = { s.mem with pc := t.mem.pc }) := by
  have hchecks : ¬ (count < 1) ∧ ¬ (s.parN 5 site.val 0x012 * 128 < first + count) := by omega
  refine answers_of_command (exec_capLogRead p tag site first count s) hpass howns (by simp [hbusy, hchecks]) ?_
  simp only [taken_parN, taken_hbmWords]
  exact startXfer_accepts rfl rfl p tag _ _ _ _

theorem exec_capLogRelease (p : Part) (tag : Nat) (site : Site) (s : State) :
    exec (.capLogRelease p tag site) s = execCapLogRelease p tag site s := rfl

theorem capLogRelease_releases {site : Site} (hpass : Passes s p tag 0x0502) (howns : s.ownsSite p site.val = true) :
    Answers (.capLogRelease p tag site) s (fun t => Posted t p tag 0x0502 .ok [] ∧
      (t.siteAt site.val).log.held = false ∧ t = { s with host.fn := t.host.fn, pf.site := t.pf.site }) := by
  refine answers_of_command (exec_capLogRelease p tag site s) hpass howns rfl ⟨complete_posted _ _ _ _ _ _ _, ?_, ?_⟩
  · rw [complete_siteAt, State.updSite_same]
  · exact updSite_then_host s (complete_same _ _ _ _ _ _ _)

theorem exec_capCaptureRead (p : Part) (tag : Nat) (u : Cu) (first count : Nat) (s : State) :
    exec (.capCaptureRead p tag u first count) s = execCapCaptureRead p tag u first count s := rfl

/-- The header and the kept samples of the range move; a capture without a trigger draws the value that its header
leaves open. -/
theorem capCaptureRead_accepts {u : Cu} {first count : Nat} (hpass : Passes s p tag 0x0503)
    (howns : (s.part p).units.getLsbD u.val = true)
    (hidle : 128 ≤ s.parN 5 u.val 0x040 ∨ s.siteBusy (s.parN 5 u.val 0x040) = false)
    (hrange : first + count ≤ (s.cuAt u.val).samples.length) :
    let c := s.cuAt u.val
    let kept := (c.samples.drop first).take count
    Answers (.capCaptureRead p tag u first count) s (fun t => Posted t p tag 0x0503 .accepted [] ∧
      t.mem = { s.mem with pc := t.mem.pc } ∧ t.host.xfers = s.host.xfers ++ [{
        part := p, tag, opcode := 0x0503, write := none, addr := c.base,
        data := (c.header u.val s.freeVal).map (fun (n : Nat) => (n : Int)) ++
          kept.flatMap (fun x => s.sampleWords p c x.2),
        reads := kept.map (fun x => (c.sampleAt x.2, 4 * c.sampleLen)) }]) := by
  have hbusy : (decide (s.parN 5 u.val 0x040 < 128) && s.siteBusy (s.parN 5 u.val 0x040)) = false := by
    simpa [imp_iff_not_or] using hidle
  have hin : ¬ ((s.cuAt u.val).samples.length < first + count) := by omega
  refine answers_of_command (exec_capCaptureRead p tag u first count s) hpass howns (by simp [hbusy, hin]) ?_
  cases (s.cuAt u.val).trig.isNone
  · simp only [Bool.false_eq_true, if_false, taken_sampleWords]
    exact (startXfer_accepts rfl rfl p tag 0x0503 _ _ _).imp_right And.symm
  · simp only [if_true, drawFree_sampleWords, taken_sampleWords]
    exact (startXfer_accepts rfl rfl p tag 0x0503 _ _ _).imp_right And.symm

/-! ## cap.trigger, cap.stream_open, cap.stream_close (06 R201, R205, R209) -/

theorem exec_capTrigger (p : Part) (tag : Nat) (t : Trg) (s : State) :
    exec (.capTrigger p tag t) s = execCapTrigger p tag t s := rfl

theorem capTrigger_occurs {t : Trg} (hpass : Passes s p tag 0x0504)
    (howns : (s.part p).capTriggers.getLsbD t.val = true) :
    let u := taken s p tag 0x0504
    let k := s.parN 5 t.val 0x060
    exec (.capTrigger p tag t) s = .next
      ((if k < 128 then u.occurAt k (4000 * s.now) ((s.trgsOf k 1 (fun _ => true)).filter (· == t.val)) none false
        else u).complete p tag 0x0504 .ok []) :=
  next_of_command (exec_capTrigger p tag t s) hpass howns rfl

theorem exec_capStreamOpen (p : Part) (tag : Nat) (d : StreamDesc) (s : State) :
    exec (.capStreamOpen p tag d) s = execCapStreamOpen p tag d s := rfl

theorem capStreamOpen_opens {d : StreamDesc} (hpass : Passes s p tag 0x0505)
    (howns : (s.part p).streams.getLsbD d.stream = true) (hrsvd : d.rsvd = false) (hrange : streamInRange d = true)
    (hclosed : (s.hsAt d.stream).mode = .closed) :
    exec (.capStreamOpen p tag d) s = .next
      (((taken s p tag 0x0505).updHs d.stream (fun _ =>
        ({ mode := .open_, desc := some d } : HsSt).append s.now s.epochNow)).complete p tag 0x0505 .ok []) :=
  next_of_command (exec_capStreamOpen p tag d s) hpass (by simp [howns]) (by simp [hrsvd, hrange, hclosed])

theorem exec_capStreamClose (p : Part) (tag : Nat) (h : Hs) (s : State) :
    exec (.capStreamClose p tag h) s = execCapStreamClose p tag h s := rfl

theorem capStreamClose_closes {h : Hs} (hpass : Passes s p tag 0x0506)
    (howns : (s.part p).streams.getLsbD h.val = true) (hidle : s.streamBusy h.val = false) :
    let u := (taken s p tag 0x0506).streamWrite h.val (s.now + capDelay)
    exec (.capStreamClose p tag h) s = .next
      ((u.updHs h.val (fun x => { x with mode := .closed, prodOut := x.prod })).complete p tag 0x0506 .ok []) :=
  next_of_command (exec_capStreamClose p tag h s) hpass howns (by simp [hidle])

end

/-! ## The end of a transfer (11 R307, R312; 14 R389) -/

/-- `x` is the first of the transfers in progress with its partition and its tag, and none of that partition writes to
memory. -/
structure ReadsOnly (s : State) (x : Xfer) : Prop where
  found : (s.host.xfers.filter (fun y => y.part == x.part)).find? (fun y => y.tag == x.tag) = some x
  noWrite : ∀ y ∈ s.host.xfers, y.part = x.part → y.write = none

/-- The same state with these transfers in progress. -/
def withXfers (s : State) (xs : List Xfer) : State := { s with host.xfers := xs }

theorem withXfers_mem (s : State) (xs : List Xfer) : (withXfers s xs).mem = s.mem := rfl

theorem withXfers_spoil_mem (s : State) (xs : List Xfer) (k : Nat) :
    ((withXfers s xs).spoil k).mem = (s.spoil k).mem := by
  rw [State.spoil, State.spoil, withXfers_mem]
  split <;> rfl

theorem complete_mem (s : State) (p tag : Nat) (op : BitVec 16) (st : Status) (r : List Nat) (d : List Int) :
    (s.complete p tag op st r d).mem = s.mem := by
  rw [complete_same s p tag op st r d]

theorem dmaFail_mem (s : State) (p tag : Nat) (op : BitVec 16) (a : Nat) : (s.dmaFail p tag op a).mem = s.mem := by
  rw [dmaFail_same s p tag op a]

theorem mem_of_mem_upToTag {tag : Nat} {x : Xfer} : ∀ {l : List Xfer}, x ∈ upToTag tag l → x ∈ l
  | [], h => h
  | y :: r, h => by
    rw [upToTag] at h
    split at h
    · exact List.mem_cons.2 (.inl (List.mem_singleton.1 h))
    · exact List.mem_cons.2 ((List.mem_cons.1 h).imp_right mem_of_mem_upToTag)

/-- Transfers that write nothing put nothing. -/
theorem foldl_putXfer_of_no_write {l : List Xfer} (h : ∀ x ∈ l, x.write = none) (s : State) :
    l.foldl State.putXfer s = s := by
  induction l with
  | nil => rfl
  | cons x r ih =>
    have hput : s.putXfer x = s := by rw [State.putXfer, h x List.mem_cons_self]
    rw [List.foldl_cons, hput]
    exact ih (fun y hy => h y (List.mem_cons_of_mem _ hy))

section
variable {s : State} {x : Xfer} {a : Nat}

theorem endXfer_of_fencedPage (hpage : s.fencedPage x.part.val x.addr x.memLen = some a) :
    s.endXfer x = s.complete x.part.val x.tag x.opcode .fenced [a % 2 ^ 32] := by
  rw [State.endXfer, hpage]

theorem endXfer_of_badWord (hpage : s.fencedPage x.part.val x.addr x.memLen = none)
    (hbad : x.reads.findSome? (fun r => s.badIn x.part.val r.1 r.2) = some a) :
    s.endXfer x = s.complete x.part.val x.tag x.opcode .internal [a % 2 ^ 32] := by
  rw [State.endXfer, hpage]
  simp only [hbad]

theorem endXfer_of_sound (hpage : s.fencedPage x.part.val x.addr x.memLen = none)
    (hsound : x.reads.findSome? (fun r => s.badIn x.part.val r.1 r.2) = none) :
    s.endXfer x = s.complete x.part.val x.tag x.opcode .ok [] x.data := by
  rw [State.endXfer, hpage]
  simp only [hsound]

/-- What becomes of a read from memory at its end, by what its bus says. -/
def endRead (s : State) (x : Xfer) : XferEnd → State
  | .good => s.endXfer x
  | .uncorrectable a =>
    (s.spoil (hbmKey x.part.val a / 64)).complete x.part.val x.tag x.opcode .internal [a % 2 ^ 32]
  | .dmaError a => s.dmaFail x.part.val x.tag x.opcode a

theorem exec_hostTransferDone (p : Part) (tag : Nat) (how : XferEnd) (s : State) :
    exec (.hostTransferDone p tag how) s = execHostTransferDone p tag how s := rfl

section
variable (h : ReadsOnly s x)
include h

theorem ReadsOnly.write_eq : x.write = none := by
  obtain ⟨hmem, hpart⟩ := List.mem_filter.1 (List.mem_of_find?_eq_some h.found)
  exact h.noWrite x hmem (eq_of_beq hpart)

/-- Whatever of the partition's transfers is due, it puts nothing. -/
theorem ReadsOnly.put_eq (tag : Nat) (due : Xfer → Bool) :
    ((upToTag tag (s.host.xfers.filter (fun y => y.part == x.part))).filter due).foldl State.putXfer s = s := by
  refine foldl_putXfer_of_no_write (fun y hy => ?_) s
  obtain ⟨hmem, hpart⟩ := List.mem_filter.1 (mem_of_mem_upToTag (List.mem_filter.1 hy).1)
  exact h.noWrite y hmem (eq_of_beq hpart)

/-- A read that ends leaves the list of the transfers in progress; nothing is put. -/
theorem hostTransferDone_ends (how : XferEnd) :
    ∃ xs, exec (.hostTransferDone x.part x.tag how) s = .next (endRead (withXfers s xs) x how) := by
  rw [exec_hostTransferDone]
  unfold execHostTransferDone
  simp only [h.found, h.put_eq, h.write_eq]
  cases how <;> exact ⟨_, rfl⟩

/-- Data that has moved from sound memory is told with its words. -/
theorem hostTransferDone_good (hpage : s.fencedPage x.part.val x.addr x.memLen = none)
    (hsound : x.reads.findSome? (fun r => s.badIn x.part.val r.1 r.2) = none) :
    Answers (.hostTransferDone x.part x.tag .good) s (fun t => lastCpl t x.part = some
      { tag := x.tag, status := .ok, opcode := x.opcode, final := true, result := [], data := x.data } ∧
      t.mem = s.mem) := by
  obtain ⟨xs, hexec⟩ := hostTransferDone_ends h .good
  rw [endRead, endXfer_of_sound (s := withXfers s xs) hpage hsound] at hexec
  exact ⟨_, hexec, post_last _ _ _, complete_mem _ _ _ _ _ _ _⟩

theorem hostTransferDone_of_fencedPage (hpage : s.fencedPage x.part.val x.addr x.memLen = some a) :
    Answers (.hostTransferDone x.part x.tag .good) s (fun t =>
      Posted t x.part x.tag x.opcode .fenced [a % 2 ^ 32] ∧ t.mem = s.mem) := by
  obtain ⟨xs, hexec⟩ := hostTransferDone_ends h .good
  rw [endRead, endXfer_of_fencedPage (s := withXfers s xs) hpage] at hexec
  exact ⟨_, hexec, complete_posted _ _ _ _ _ _ _, complete_mem _ _ _ _ _ _ _⟩

theorem hostTransferDone_of_badWord (hpage : s.fencedPage x.part.val x.addr x.memLen = none)
    (hbad : x.reads.findSome? (fun r => s.badIn x.part.val r.1 r.2) = some a) :
    Answers (.hostTransferDone x.part x.tag .good) s (fun t =>
      Posted t x.part x.tag x.opcode .internal [a % 2 ^ 32] ∧ t.mem = s.mem) := by
  obtain ⟨xs, hexec⟩ := hostTransferDone_ends h .good
  rw [endRead, endXfer_of_badWord (s := withXfers s xs) hpage hbad] at hexec
  exact ⟨_, hexec, complete_posted _ _ _ _ _ _ _, complete_mem _ _ _ _ _ _ _⟩

/-- A word that cannot be corrected spoils its block. -/
theorem hostTransferDone_of_uncorrectable (a : Nat) :
    Answers (.hostTransferDone x.part x.tag (.uncorrectable a)) s (fun t =>
      Posted t x.part x.tag x.opcode .internal [a % 2 ^ 32] ∧ t.mem = (s.spoil (hbmKey x.part a / 64)).mem) := by
  obtain ⟨xs, hexec⟩ := hostTransferDone_ends h (.uncorrectable a)
  exact ⟨_, hexec, complete_posted _ _ _ _ _ _ _, (complete_mem _ _ _ _ _ _ _).trans (withXfers_spoil_mem _ _ _)⟩

theorem hostTransferDone_of_dmaError (a : Nat) :
    Answers (.hostTransferDone x.part x.tag (.dmaError a)) s (fun t =>
      Posted t x.part x.tag x.opcode .internal [] ∧ t.mem = s.mem) := by
  obtain ⟨xs, hexec⟩ := hostTransferDone_ends h (.dmaError a)
  exact ⟨_, hexec, dmaFail_posted _ _ _ _ _, dmaFail_mem _ _ _ _ _⟩

end

end

end Sys2Proof
end

section
/-!
The statement about the commands of acquisition.
-/

namespace Sys2Proof

open Sys2Proof.Machine

/-- Settles O16: each clause is what its command, or the end of its transfer, does in the case that its hypotheses
name. -/
theorem captureCommandsComplete : Obligations.CaptureCommandsComplete := by
  intro p tag s
  refine ⟨fun _ _ _ => capLogRead_accepts, fun _ => capLogRelease_releases, fun _ _ _ => capCaptureRead_accepts,
    fun _ => capTrigger_occurs, fun _ => capStreamOpen_opens, fun _ => capStreamClose_closes,
    fun x hfound hnoWrite => ?_⟩
  obtain rfl : x.part = p := by simpa using (List.mem_filter.1 (List.mem_of_find?_eq_some hfound)).2
  obtain rfl : x.tag = tag := by simpa using List.find?_some hfound
  have h : ReadsOnly s x := ⟨hfound, hnoWrite⟩
  exact ⟨hostTransferDone_good h, fun _ => hostTransferDone_of_fencedPage h, fun _ => hostTransferDone_of_badWord h,
    hostTransferDone_of_uncorrectable h, hostTransferDone_of_dmaError h⟩

end Sys2Proof
end

section
/-!
SUPPORT. What the rows of acquisition do: one equation per row and case (06 R197, R198, R201, R206, R209, R212).
-/

namespace Sys2Proof

open Sys2Proof.Machine

section
variable {s : State}

/-! ## External triggers (06 R201) -/

theorem exec_xtrigEdge (i : Fin 2) (falling : Bool) (t0 : Nat) (s : State) :
    exec (.xtrigEdge i falling t0) s = execXtrigEdge i falling t0 s := rfl

/-- An edge at an input that no site owns lets its 48 ns pass. -/
theorem xtrigEdge_of_no_site {i : Fin 2} {falling : Bool} {t0 : Nat} (hsite : 128 ≤ s.parN 5 i.val 0x0A2) :
    exec (.xtrigEdge i falling t0) s = .next (s.moveTo (t0 + 48)) := by
  rw [exec_xtrigEdge, execXtrigEdge]
  exact congrArg _ (if_neg (Nat.not_lt.2 hsite))

/-- An edge occurs for the triggers of its site, and is sampled in the cycle of the site's burst. -/
theorem xtrigEdge_samples {i : Fin 2} {falling : Bool} {t0 r : Nat} {b : Burst} (hsite : s.parN 5 i.val 0x0A2 < 128) :
    let k := s.parN 5 i.val 0x0A2
    let q := 4000 * (t0 + 48)
    let u := (s.moveTo (t0 + 48)).occurAt k q
      ((s.moveTo (t0 + 48)).trgsOf k 6 (fun a => a == i.val + 256 * b2n falling)) none false
    u.siteRunner k = some r → u.burstAt r = some b → b.isStarted = true → b.phase ≠ .draining →
    exec (.xtrigEdge i falling t0) s = .next (u.sample r (0x100 * (1 + i.val) + b2n falling) (b.cycleAt q)) := by
  dsimp only
  intro hrunner hburst hstarted hphase
  have hlive : (b.isStarted && decide (b.phase ≠ .draining)) = true := by simp [hstarted, hphase]
  rw [exec_xtrigEdge, execXtrigEdge]
  refine congrArg _ ((if_pos hsite).trans ?_)
  simp only [hrunner, hburst, if_pos hlive]

/-! ## Ring captures (06 R197, R198) -/

theorem exec_captureRingEnd (u : Cu) (s : State) : exec (.captureRingEnd u) s = execCaptureRingEnd u s := rfl

section
variable {u : Cu} {t0 : Nat} (hmode : (s.cuAt u.val).mode = 1) (hring : s.parN 5 u.val 0x045 = 1)
  (htrig : (s.cuAt u.val).trig = some t0)
include hmode hring htrig

/-- A unit that records every position is done CU_POST positions after its trigger. -/
theorem captureRingEnd_of_positions (hall : s.parN 5 u.val 0x046 = 0)
    (hdone : t0 + s.parN 5 u.val 0x04A < (s.cuAt u.val).first + (s.cuAt u.val).taken) :
    exec (.captureRingEnd u) s = .next (s.endCapture u.val false) := by
  rw [exec_captureRingEnd, execCaptureRingEnd]
  simp [hmode, hring, htrig, hall, hdone]

/-- A unit that selects positions is done CU_POST samples after its trigger. -/
theorem captureRingEnd_of_samples (hsel : s.parN 5 u.val 0x046 ≠ 0)
    (hdone : s.parN 5 u.val 0x04A < (s.cuAt u.val).post) :
    exec (.captureRingEnd u) s = .next (s.endCapture u.val false) := by
  rw [exec_captureRingEnd, execCaptureRingEnd]
  simp [hmode, hring, htrig, hsel, hdone]

end

/-! ## Host streams (06 R206, R209, R212) -/

/-- What is due of stream `h` is written, and its producer count told. -/
def prodTold (s : State) (h : Nat) : State := (s.streamWrite h s.now).updHs h (fun x => { x with prodOut := x.prod })

theorem exec_streamProdUpdate (h : Hs) (s : State) :
    exec (.streamProdUpdate h) s = execStreamProdUpdate h s := rfl

section
variable {h : Hs} (hrun : (s.hsAt h.val).running = true) (hup : s.streamDown h.val = false)
include hrun hup

theorem streamProdUpdate_of_none_held (hwait : (s.hsAt h.val).wait = []) :
    exec (.streamProdUpdate h) s = .next (prodTold s h.val) := by
  rw [exec_streamProdUpdate, execStreamProdUpdate]
  simp [hrun, hup, hwait, prodTold]

/-- With a count to tell, the row does not wait for the record that is held. -/
theorem streamProdUpdate_of_untold {x : StrmRec} {l : List StrmRec} (hwait : (s.hsAt h.val).wait = x :: l)
    (hnew : (s.hsAt h.val).prod ≠ (s.hsAt h.val).prodOut) :
    exec (.streamProdUpdate h) s = .next (prodTold s h.val) := by
  rw [exec_streamProdUpdate, execStreamProdUpdate]
  simp [hrun, hup, hwait, hnew, prodTold]

/-- With nothing to tell, the row comes when the first record that is held is due. -/
theorem streamProdUpdate_of_told {x : StrmRec} {l : List StrmRec} (hwait : (s.hsAt h.val).wait = x :: l)
    (hold : (s.hsAt h.val).prod = (s.hsAt h.val).prodOut) :
    exec (.streamProdUpdate h) s = .next (prodTold (s.moveTo (x.time + capDelay)) h.val) := by
  rw [exec_streamProdUpdate, execStreamProdUpdate]
  simp [hrun, hup, hwait, hold, prodTold]

end

theorem exec_streamConsRead (h : Hs) (cons : Nat) (s : State) :
    exec (.streamConsRead h cons) s = execStreamConsRead h cons s := rfl

theorem streamConsRead_takes {h : Hs} {cons : Nat} (hrun : (s.hsAt h.val).running = true)
    (hlow : (s.hsAt h.val).cons ≤ cons) (hhigh : cons ≤ (s.hsAt h.val).prod) :
    exec (.streamConsRead h cons) s = .next ((s.updHs h.val (fun x => { x with cons })).streamRecover h.val) := by
  have htaken : ((s.hsAt h.val).running && decide ((s.hsAt h.val).cons ≤ cons) &&
      decide (cons ≤ (s.hsAt h.val).prod)) = true := by simp [hrun, hlow, hhigh]
  rw [exec_streamConsRead, execStreamConsRead]
  exact congrArg _ (if_pos htaken)

/-- A count behind the last one read, or beyond what is produced, changes nothing. -/
theorem streamConsRead_ignores {h : Hs} {cons : Nat}
    (hbad : cons < (s.hsAt h.val).cons ∨ (s.hsAt h.val).prod < cons) : exec (.streamConsRead h cons) s = .next s := by
  have hrefused : ¬ ((s.hsAt h.val).running && decide ((s.hsAt h.val).cons ≤ cons) &&
      decide (cons ≤ (s.hsAt h.val).prod)) = true := by
    simp only [Bool.and_eq_true, decide_eq_true_eq]
    omega
  rw [exec_streamConsRead, execStreamConsRead]
  exact congrArg _ (if_neg hrefused)

theorem exec_epochDue (s : State) : exec .epochDue s = execEpochDue s := rfl

theorem exec_streamError (h : Hs) (addr : Nat) (s : State) :
    exec (.streamError h addr) s = execStreamError h addr s := rfl

section
variable {h : Hs} (addr : Nat) (hrun : (s.hsAt h.val).running = true)
include hrun

/-- A DMA error puts the stream in ERROR and is noted in the first-error record of its owner. -/
theorem streamError_of_owner {p : Nat}
    (howner : (s.updHs h.val (fun x => { x with mode := .error })).ownerBy
      (fun r => r.streams.getLsbD h.val) = some p) :
    let u := s.updHs h.val (fun x => { x with mode := .error })
    exec (.streamError h addr) s = .next
      ((u.fnErr p 5 h.val (addr % 2 ^ 32) (addr / 2 ^ 32 % 2 ^ 32)).event 0x543 [h.val] [.stream h.val]) := by
  rw [exec_streamError, execStreamError, if_pos hrun]
  simp only [howner]

theorem streamError_of_no_owner
    (howner : (s.updHs h.val (fun x => { x with mode := .error })).ownerBy
      (fun r => r.streams.getLsbD h.val) = none) :
    exec (.streamError h addr) s = .next
      ((s.updHs h.val (fun x => { x with mode := .error })).event 0x543 [h.val] [.stream h.val]) := by
  rw [exec_streamError, execStreamError, if_pos hrun]
  simp only [howner]

end

end

end Sys2Proof
end

section
/-!
The statement about the rows of acquisition.
-/

namespace Sys2Proof

open Sys2Proof.Machine

/-- Settles O43: each clause is the equation of its row in the case that its hypotheses name. -/
theorem captureRows : Obligations.CaptureRows := by
  intro s
  exact ⟨fun _ _ _ => xtrigEdge_of_no_site, fun _ _ _ _ _ => xtrigEdge_samples,
    fun _ _ hmode hring htrig =>
      ⟨captureRingEnd_of_positions hmode hring htrig, captureRingEnd_of_samples hmode hring htrig⟩,
    fun _ hrun hup => ⟨streamProdUpdate_of_none_held hrun hup, fun _ _ => streamProdUpdate_of_untold hrun hup,
      fun _ _ => streamProdUpdate_of_told hrun hup⟩,
    fun _ _ hrun => ⟨streamConsRead_takes hrun, streamConsRead_ignores⟩, exec_epochDue s,
    fun _ addr hrun => ⟨fun _ => streamError_of_owner addr hrun, streamError_of_no_owner addr hrun⟩⟩

end Sys2Proof
end

section
/-!
SUPPORT. A checked frame whose record makes a GAP of its stream due: where STREAM_GAP is FATAL, the module stops
(06 R212; 09 R271; 16 R433).
-/

namespace Sys2Proof

open Sys2Proof.Machine

/-- Three frames on raster engine 3, started. -/
def gapRun : Burst :=
  { task := 0, part := 0, tag := 5, sites := [0], home := 0, handle := 0, entry := 3, phase := .running
    startTick := some 0, period := 2500, raster := true }

/-- Its records go to local stream 0 of site 0, bound to host stream 0; a GAP that ends a loss of that stream has been
held for CAP_DELAY. EVT_CFG gives STREAM_GAP the reaction FATAL. Channel 0 checks; no rectangle is enabled. -/
def gapDue : State :=
  { State.reset with
    now := 1500
    ve.bursts := [(35, gapRun)]
    pf.site := [(0, { started := 1 })]
    acq.hs := [(0, { mode := .losing, lost := 1, gapRecs := 1
                     desc := some { stream := 0, msix := 0, base := 0, size := 65536, prodAddr := 0, consAddr := 8,
                                    watermark := 32, rsvd := false }
                     wait := [{ type := tGAP, source := 0xFF, rflags := 0, time := 0, len := 2, words := [] }] })]
    host.params := [(pid 6 0 0x030, 15), (pid 6 3 0x008, 0), (pid 5 0 0x020, 0), (pid 13 0x542 0x100, 5)] }

theorem gapDue_checks_frame : gapDue.parN 6 3 0x00B + (gapDue.rseAt 3).checked < gapRun.entry := by decide +kernel

theorem gapDue_checks_channel : 0 ∈ gapDue.rseChans 3 ∧ bit (gapDue.parN 6 0 0x030) 2 = 1 := by decide +kernel

theorem gapDue_no_rect : ∀ r < 16, gapDue.parN 6 (16 * 3 + r) 0x021 = 0 := by decide +kernel

/-- The record of the frame releases the GAP, and its event cuts every burst of the module. -/
theorem gapDue_frame_stops_burst :
    ∃ t, exec (.rseFrameChecked 3 [] 0 false) gapDue = .next t ∧
      (t.burstAt 35).map (fun b => b.phase) = some .draining := ⟨_, rfl, by decide +kernel⟩

end Sys2Proof
end

section
/-!
The statement about the rows of the raster engines.
-/

namespace Sys2Proof

open Sys2Proof.Machine

/-- Refutes O46: a checked frame without a mismatch does not leave the bursts alone where its record makes a GAP of its
stream due and EVT_CFG has raised STREAM_GAP to FATAL. -/
theorem not_rasterRows : ¬ Obligations.RasterRows := by
  intro h
  obtain ⟨-, hchecked, -⟩ := h gapDue 3
  obtain ⟨hgood, -⟩ := hchecked gapRun [] 0 false rfl rfl rfl rfl gapDue_checks_frame ⟨0, gapDue_checks_channel⟩
  obtain ⟨t, hexec, -, -, hve⟩ := hgood (fun ⟨r, hr, hrect, _⟩ => hrect (gapDue_no_rect r hr))
  obtain ⟨u, hexec', hdraining⟩ := gapDue_frame_stops_burst
  obtain rfl : t = u := Host.Outcome.next.inj (hexec.symm.trans hexec')
  rw [State.burstAt, hve] at hdraining
  exact absurd hdraining (by decide)

end Sys2Proof
end

section
/-!
SUPPORT. What the commands of time measurement and of the parametric converters do: one lemma per command (07 R222 to
R224, R230; 08 R246, R252).
-/

namespace Sys2Proof

open Sys2Proof.Machine

section
variable {s : State} {p : Part} {tag : Nat} {m : MSet} {ref : Nat} {c : Conv}

/-! ## tmu.arm, tmu.disarm, tmu.result -/

theorem exec_tmuArm (p : Part) (tag : Nat) (m : MSet) (ref : Nat) (s : State) :
    exec (.tmuArm p tag m ref) s = execTmuArm p tag m ref s := rfl

/-- A set that passes every check is armed; a reference of 0, or one that has passed, is the arrival, and the second of
these is late. -/
theorem tmuArm_arms (ref : Nat) (hpass : Passes s p tag 0x0701) (howns : s.ownsSet p m.val = true)
    (hhost : s.msPar m.val 0x00B = 1) (hfence : (s.msAt m.val).fenced = false) (hconn : s.msOff m.val = none) :
    exec (.tmuArm p tag m ref) s = .next
      (((taken s p tag 0x0701).armSet m.val
        (nsPs (if ref = 0 || (decide (0 < ref) && decide (ref < s.now)) then s.now else ref))
        (decide (0 < ref) && decide (ref < s.now))).complete p tag 0x0701 .ok []) :=
  next_of_command (exec_tmuArm p tag m ref s) hpass howns (by simp [hhost, hfence, hconn])

theorem exec_tmuDisarm (p : Part) (tag : Nat) (m : MSet) (s : State) :
    exec (.tmuDisarm p tag m) s = execTmuDisarm p tag m s := rfl

theorem tmuDisarm_disarms (hpass : Passes s p tag 0x0702) (howns : s.ownsSet p m.val = true) :
    exec (.tmuDisarm p tag m) s = .next
      (((taken s p tag 0x0702).disarmSet m.val false false).complete p tag 0x0702 .ok []) :=
  next_of_command (exec_tmuDisarm p tag m s) hpass howns rfl

theorem exec_tmuResult (p : Part) (tag : Nat) (m : MSet) (s : State) :
    exec (.tmuResult p tag m) s = execTmuResult p tag m s := rfl

/-- The record of the latest result is the data of the completion; nothing but host functions changes. -/
theorem tmuResult_reads (hpass : Passes s p tag 0x0703) (howns : s.ownsSet p m.val = true) :
    Answers (.tmuResult p tag m) s (fun t => lastCpl t p = some
      { tag, status := .ok, opcode := 0x0703, final := true, result := [], data := s.msRecord m.val } ∧
      SameButHost s t) :=
  answers_of_command (exec_tmuResult p tag m s) hpass howns rfl
    ⟨post_last _ _ _, (taken_same s p tag 0x0703).trans (complete_same _ _ _ _ _ _ _)⟩

/-! ## padc.convert, padc.selfcal -/

theorem exec_padcConvert (p : Part) (tag : Nat) (c : Conv) (s : State) :
    exec (.padcConvert p tag c) s = execPadcConvert p tag c s := rfl

/-- A conversion asked for in SINGLE is one more request, which starts where the converter is free. -/
theorem padcConvert_requests (hpass : Passes s p tag 0x0801) (hgroup : c.val < 16) (howns : s.ownsPmu p c.val = true)
    (hfence : (s.padcAt c.val).fenced = false) (hsingle : s.parN 8 c.val 0x010 = 1) :
    exec (.padcConvert p tag c) s = .next
      ((((taken s p tag 0x0801).updPadc c.val (fun x => { x with singles := x.singles + 1 })).startSingle
        c.val).complete p tag 0x0801 .ok []) :=
  next_of_command (exec_padcConvert p tag c s) hpass (by simp [hgroup, howns]) (by simp [hfence, hsingle])

theorem exec_padcSelfcal (p : Part) (tag : Nat) (c : Conv) (s : State) :
    exec (.padcSelfcal p tag c) s = execPadcSelfcal p tag c s := rfl

/-- A warm converter that neither calibrates nor waits to accepts a self-calibration. -/
theorem padcSelfcal_accepts (hpass : Passes s p tag 0x0802) (howns : s.ownsConv p c.val = true)
    (hfence : (s.padcAt c.val).fenced = false) (hwarm : (s.padcAt c.val).warmed = true)
    (hrun : (s.padcAt c.val).calRun = false) (hwait : (s.padcAt c.val).calWait = false) :
    exec (.padcSelfcal p tag c) s = .next
      (((((taken s p tag 0x0802).complete p tag 0x0802 .accepted []).updPadc c.val
        (fun x => { x with calCmd := some (p, tag) })).askCal c.val false).runCal c.val) :=
  next_of_command (exec_padcSelfcal p tag c s) hpass howns (by simp [hfence, hwarm, hrun, hwait])

end

end Sys2Proof
end

section
/-!
The statement about the commands of time measurement and of the converters.
-/

namespace Sys2Proof

open Sys2Proof.Machine

/-- Settles O17: each clause is what its command does where no check refuses it; the reference of an armed set is the
arrival when it is 0 or has passed. -/
theorem measurementCommandsComplete : Obligations.MeasurementCommandsComplete := by
  intro p tag s
  refine ⟨fun m ref hpass howns hhost hfence hconn => ?_, fun _ => tmuDisarm_disarms, fun _ => tmuResult_reads,
    fun _ => padcConvert_requests, fun _ => padcSelfcal_accepts⟩
  have harm := tmuArm_arms ref hpass howns hhost hfence hconn
  refine ⟨fun hzero => ?_, fun hpos hpast => ?_, fun hpos hahead => ?_⟩
  · simpa [hzero] using harm
  · simpa [hpos, hpast] using harm
  · simpa [hpos, Nat.ne_of_gt hpos, Nat.not_lt.2 hahead] using harm

end Sys2Proof
end

section
/-!
SUPPORT. What the rows of time measurement and of the time base do: one lemma per row and case (07 R218 to R220, R224 to
R226, R233, R235, R236, R239).
-/

namespace Sys2Proof

open Sys2Proof.Machine

section
variable {s : State}

/-! ## Edges (07 R218 to R220) -/

theorem exec_stampEdge (l : Lane) (vcl rising : Bool) (raw : Nat) (s : State) :
    exec (.stampEdge l vcl rising raw) s = execStampEdge l vcl rising raw s := rfl

/-- A stamp falls into the dead time after the last one of its lane. -/
def deadAfter (last : Option Nat) (stamp : Nat) : Bool :=
  last.any (fun t => decide (t ≤ stamp) && decide (stamp < t + deadStamps))

theorem deadAfter_of_within {last : Option Nat} {t0 stamp : Nat} (hlast : last = some t0) (hle : t0 ≤ stamp)
    (hlt : stamp < t0 + deadStamps) : deadAfter last stamp = true := by
  simp [deadAfter, hlast, hle, hlt]

theorem deadAfter_of_past {last : Option Nat} {stamp : Nat}
    (h : last = none ∨ ∃ t0, last = some t0 ∧ t0 + deadStamps ≤ stamp) : deadAfter last stamp = false := by
  rcases h with hnone | ⟨t0, hlast, hpast⟩
  · simp [deadAfter, hnone]
  · simp [deadAfter, hlast, hpast]

section
variable {l : Lane} {raw c : Nat} (vcl rising : Bool) (hchan : s.chanOf l.val = some c)
  (hstamps : s.stamps l.val c = true)
include hchan hstamps

/-- An edge of a lane that stamps is one that every set takes or misses; the lane notes a selected stamp past its dead
time. -/
theorem stampEdge_of_stamps :
    let stamp := s.stampOf c raw
    let u := s.moveTo (stampNs stamp)
    let missed := deadAfter (s.laneAt l.val).lastStamp stamp
    exec (.stampEdge l vcl rising raw) s = .next
      (((if s.selected c vcl rising && !missed then u.updLane l.val (fun x => { x with lastStamp := some stamp })
        else u).toSets c stamp vcl rising missed).statStamp l.val c rising stamp) := by
  rw [exec_stampEdge, execStampEdge, hchan]
  exact congrArg _ (if_pos hstamps)

theorem stampEdge_missed {t0 : Nat} (hlast : (s.laneAt l.val).lastStamp = some t0) (hle : t0 ≤ s.stampOf c raw)
    (hlt : s.stampOf c raw < t0 + deadStamps) :
    exec (.stampEdge l vcl rising raw) s = .next
      (((s.moveTo (stampNs (s.stampOf c raw))).toSets c (s.stampOf c raw) vcl rising true).statStamp l.val c rising
        (s.stampOf c raw)) := by
  simpa [deadAfter_of_within hlast hle hlt] using stampEdge_of_stamps (raw := raw) vcl rising hchan hstamps

theorem stampEdge_stamped
    (hpast : (s.laneAt l.val).lastStamp = none ∨
      ∃ t0, (s.laneAt l.val).lastStamp = some t0 ∧ t0 + deadStamps ≤ s.stampOf c raw) :
    let stamp := s.stampOf c raw
    let u := s.moveTo (stampNs stamp)
    (s.selected c vcl rising = true → exec (.stampEdge l vcl rising raw) s = .next
      (((u.updLane l.val (fun x => { x with lastStamp := some stamp })).toSets c stamp vcl rising false).statStamp
        l.val c rising stamp)) ∧
    (s.selected c vcl rising = false → exec (.stampEdge l vcl rising raw) s = .next
      ((u.toSets c stamp vcl rising false).statStamp l.val c rising stamp)) := by
  have hedge := stampEdge_of_stamps (raw := raw) vcl rising hchan hstamps
  simp only [deadAfter_of_past hpast] at hedge
  exact ⟨fun hselected => by simpa [hselected] using hedge, fun hother => by simpa [hother] using hedge⟩

end

/-! ## Records, time-outs and gates of a set (07 R224, R226, R233) -/

section
variable {m : MSet}

theorem exec_rawRecordClose (m : MSet) (s : State) : exec (.rawRecordClose m) s = execRawRecordClose m s := rfl

theorem rawRecordClose_closes (hopen : (s.msAt m.val).raw ≠ []) :
    exec (.rawRecordClose m) s = .next ((s.moveTo ((s.msAt m.val).rawAt + 1000)).closeRaw m.val) := by
  rw [exec_rawRecordClose, execRawRecordClose, if_neg (by simpa using hopen)]

theorem exec_msTimeout (m : MSet) (s : State) : exec (.msTimeout m) s = execMsTimeout m s := rfl

theorem closeGates_of_none {k : Nat} (hgates : (s.msAt k).gates = []) : s.closeGates k = s := by
  rw [State.closeGates, hgates, List.foldl_nil]

theorem msTimeout_publishes (hgates : (s.msAt m.val).gates = []) (harmed : (s.msAt m.val).armed = true)
    (hfence : (s.msAt m.val).fenced = false) (hlimit : 0 < s.msPar m.val 0x00A) :
    exec (.msTimeout m) s = .next
      (((s.moveTo ((s.msAt m.val).lastVal + 1000 * s.msPar m.val 0x00A)).publishSet m.val true true false false).event
        0x560 [m.val] [.set m.val]) := by
  rw [exec_msTimeout, execMsTimeout, closeGates_of_none hgates]
  exact congrArg _ (if_pos (by simp [harmed, hfence, hlimit]))

theorem exec_freqGateClose (m : MSet) (stamp edges : Nat) (s : State) :
    exec (.freqGateClose m stamp edges) s = execFreqGateClose m stamp edges s := rfl

theorem closeGate_adds {k edges dt e1 : Nat} {l : List (Nat × Nat × Nat)}
    (hgates : (s.msAt k).gates = (edges, dt, e1) :: l) (harmed : (s.msAt k).armed = true) :
    s.closeGate k = (s.updMs k (fun x => { x with gates := l })).addValue k (gateValue edges dt : Nat) false e1 := by
  rw [State.closeGate, hgates]
  exact if_pos harmed

theorem freqGateClose_adds {edges dt e1 : Nat} {l : List (Nat × Nat × Nat)}
    (hgates : (s.msAt m.val).gates = (edges, dt, e1) :: l) (harmed : (s.msAt m.val).armed = true) :
    exec (.freqGateClose m e1 edges) s = .next
      ((s.updMs m.val (fun x => { x with gates := l })).addValue m.val (gateValue edges dt : Nat) false e1) := by
  rw [exec_freqGateClose, execFreqGateClose, hgates, ← closeGate_adds hgates harmed]
  exact congrArg _ (if_pos ⟨rfl, rfl⟩)

end

/-! ## The oscillator (07 R235, R236) -/

theorem clampInt_le {lim : Int} (v : Int) (h : 0 ≤ lim) : clampInt lim v ≤ lim := by
  unfold clampInt
  split_ifs <;> omega

theorem neg_le_clampInt {lim : Int} (v : Int) (h : 0 ≤ lim) : -lim ≤ clampInt lim v := by
  unfold clampInt
  split_ifs <;> omega

theorem exec_oscTcompUpdate (temp : Int) (s : State) : exec (.oscTcompUpdate temp) s = execOscTcompUpdate temp s := rfl

/-- The oscillator with the correction of an oven temperature, at the next time of the correction. -/
def compensated (temp : Int) (s : State) : State :=
  let u := s.moveTo (s.acq.osc.tcompAt + 100000000)
  { u with acq.osc := { s.acq.osc with temp, tcomp := clampInt 100000 (oscInterp temp), tcompAt := u.now } }

/-- The correction takes effect; where it reaches the limit, and did not stand there, a fault is told. -/
theorem oscTcompUpdate_compensates (temp : Int) :
    exec (.oscTcompUpdate temp) s = .next
      (if (clampInt 100000 (oscInterp temp)).natAbs = 100000 ∧ s.acq.osc.tcomp.natAbs ≠ 100000 then
        (compensated temp s).event 0x564
      else compensated temp s) := by
  rw [exec_oscTcompUpdate, execOscTcompUpdate]
  simp only [Bool.and_eq_true, decide_eq_true_eq]
  rfl

theorem exec_oscAgeingStep (s : State) : exec .oscAgeingStep s = execOscAgeingStep s := rfl

theorem oscAgeingStep_at_goal (h : s.acq.osc.ageing = s.par (pid 7 0 0x101)) : exec .oscAgeingStep s = .next s := by
  rw [exec_oscAgeingStep, execOscAgeingStep, if_pos h]

/-- The oscillator with its ageing one step nearer to its goal, at the next time of a step. -/
def aged (s : State) : State :=
  let u := s.moveTo (s.acq.osc.ageAt + 10000000)
  { u with acq.osc := { s.acq.osc with
      ageing := s.acq.osc.ageing + clampInt 100 (s.par (pid 7 0 0x101) - s.acq.osc.ageing), ageAt := u.now } }

/-- The ageing moves; where it reaches the limit, a fault is told. -/
theorem oscAgeingStep_ages (h : s.acq.osc.ageing ≠ s.par (pid 7 0 0x101)) :
    exec .oscAgeingStep s = .next
      (if (aged s).acq.osc.ageing.natAbs = 1000000 then (aged s).event 0x564 else aged s) := by
  rw [exec_oscAgeingStep, execOscAgeingStep, if_neg h]
  rfl

theorem exec_oscWarm (s : State) : exec .oscWarm s = execOscWarm s := rfl

theorem oscWarm_warms (hcold : s.acq.osc.state = 0) :
    exec .oscWarm s = .next
      (({ s with acq.osc := { s.acq.osc with state := s.oscFollow } } : State).event 0x563) := by
  rw [exec_oscWarm, execOscWarm, if_pos hcold]

theorem exec_oscFault (s : State) : exec .oscFault s = execOscFault s := rfl

theorem oscFault_faults (hwarm : s.acq.osc.state ≠ 0) (hsound : s.acq.osc.state ≠ 4) :
    exec .oscFault s = .next (({ s with acq.osc := { s.acq.osc with state := 4 } } : State).event 0x564) := by
  rw [exec_oscFault, execOscFault, if_neg (not_or.2 ⟨hwarm, hsound⟩)]

/-! ## Faults of a stamper or a set (07 R239) -/

theorem exec_tmuFault_lane (l : Lane) (s : State) :
    exec (.tmuFault (some l) none) s = .next ((s.event 0x562 [l.val] [.lane l.val]).publishFenced) := rfl

theorem exec_tmuFault_set (m : MSet) (s : State) :
    exec (.tmuFault none (some m)) s = .next ((s.event 0x562 [m.val] [.set m.val]).publishFenced) := rfl

end

end Sys2Proof
end

section
/-!
The statement about the rows of time measurement.
-/

namespace Sys2Proof

open Sys2Proof.Machine

/-- Settles O44: each clause is the equation of its row in the case that its hypotheses name. -/
theorem timeMeasurementRows : Obligations.TimeMeasurementRows := by
  intro s
  refine ⟨fun _ => rawRecordClose_closes,
    fun _ vcl rising _ _ hchan hstamps => ⟨fun _ => stampEdge_missed vcl rising hchan hstamps,
      stampEdge_stamped vcl rising hchan hstamps⟩,
    fun _ => msTimeout_publishes, fun _ _ _ _ _ => freqGateClose_adds,
    fun temp => ⟨clampInt_le _ (by decide), neg_le_clampInt _ (by decide), fun hinside => ?_, fun hlimit hnew => ?_⟩,
    ⟨oscAgeingStep_at_goal, fun hoff hinside => ?_, fun hoff hlimit => ?_⟩,
    oscWarm_warms, oscFault_faults, fun l => exec_tmuFault_lane l s, fun m => exec_tmuFault_set m s⟩
  · rw [oscTcompUpdate_compensates, if_neg (by omega)]
    rfl
  · rw [oscTcompUpdate_compensates, if_pos ⟨hlimit, hnew⟩]
    rfl
  · exact (oscAgeingStep_ages hoff).trans (congrArg _ (if_neg hinside))
  · exact (oscAgeingStep_ages hoff).trans (congrArg _ (if_pos hlimit))

end Sys2Proof
end

section
/-!
SUPPORT. What an event that fences nothing leaves of a converter and its site: one lemma per operation of the event
fabric (16 R432 to R446).
-/

namespace Sys2Proof

open Sys2Proof.Machine

/-- `t` has converter `c` as `s` has it, with the same owner and at the same time, and bursts of no further sites. -/
structure SparesConv (c : Nat) (s t : State) : Prop where
  now : t.now = s.now
  padc : t.padcAt c = s.padcAt c
  site : t.convSite c = s.convSite c
  bursts : ∀ x ∈ t.ve.bursts, ∃ y ∈ s.ve.bursts, y.2.sites = x.2.sites

section
variable {c : Nat} {s t u : State}

theorem convSite_congr (c : Nat) (hparams : t.host.params = s.host.params) (hga : t.pwr.sup.ga = s.pwr.sup.ga)
    (hdefn : ∀ k, (t.siteAt k).defn = (s.siteAt k).defn) : t.convSite c = s.convSite c := by
  have hpar : t.par = s.par := by
    funext id
    rw [State.par, hparams, hga, State.par]
  have hchan : t.chanSite = s.chanSite := by
    funext ch
    simp only [State.chanSite, hdefn]
  rw [State.convSite, State.pmuChan, hpar, hchan, State.convSite, State.pmuChan]

/-- What the owner of a converter and the converter itself are read from is the same. -/
theorem SparesConv.of_eq (hnow : t.now = s.now := by rfl) (hacq : t.acq = s.acq := by rfl)
    (hparams : t.host.params = s.host.params := by rfl) (hga : t.pwr.sup.ga = s.pwr.sup.ga := by rfl)
    (hsite : t.pf.site = s.pf.site := by rfl) (hbursts : t.ve.bursts = s.ve.bursts := by rfl) : SparesConv c s t where
  now := hnow
  padc := by rw [State.padcAt, hacq, State.padcAt]
  site := convSite_congr c hparams hga fun k => by rw [State.siteAt, hsite, State.siteAt]
  bursts x hx := ⟨x, hbursts ▸ hx, rfl⟩

theorem SparesConv.refl (c : Nat) (s : State) : SparesConv c s s := .of_eq

theorem SparesConv.trans (h : SparesConv c s t) (k : SparesConv c t u) : SparesConv c s u where
  now := k.now.trans h.now
  padc := k.padc.trans h.padc
  site := k.site.trans h.site
  bursts x hx := by
    obtain ⟨y, hy, hyx⟩ := k.bursts x hx
    obtain ⟨z, hz, hzy⟩ := h.bursts y hy
    exact ⟨z, hz, hzy.trans hyx⟩

theorem SparesConv.ite {p : Prop} [Decidable p] (h : SparesConv c s t) (k : SparesConv c s u) :
    SparesConv c s (if p then t else u) := by
  split
  · exact h
  · exact k

theorem SparesConv.foldl {α : Type} {g : State → α → State} {l : List α}
    (hg : ∀ v a, SparesConv c s v → SparesConv c s (g v a)) (h : SparesConv c s t) :
    SparesConv c s (l.foldl g t) := by
  induction l generalizing t with
  | nil => exact h
  | cons a l ih => exact ih (hg t a h)

theorem SparesConv.of_sameButHost (h : SameButHost s t) : SparesConv c s t := by
  rw [h]
  exact .of_eq

theorem complete_spares (s : State) (p tag : Nat) (op : BitVec 16) (st : Status) (r : List Nat) :
    SparesConv c s (s.complete p tag op st r) := .of_sameButHost (complete_same _ _ _ _ _ _ _)

/-! ## The site of a converter -/

theorem siteBusy_iff (s : State) (k : Nat) :
    s.siteBusy k = true ↔ ∃ x ∈ s.ve.bursts, x.2.sites.any (fun a => a.val == k) = true := by
  rw [State.siteBusy, State.siteRunner, Option.isSome_map, List.find?_isSome]

theorem convIdle_iff (s : State) (c : Nat) :
    s.convIdle c = true ↔ ∀ k, s.convSite c = some k → s.siteBusy k = false := by
  unfold State.convIdle
  split <;> simp_all

theorem SparesConv.convIdle (h : SparesConv c s t) (hidle : s.convIdle c = true) : t.convIdle c = true := by
  rw [convIdle_iff] at hidle ⊢
  intro k hk
  refine Bool.eq_false_iff.2 fun hbusy => ?_
  obtain ⟨x, hx, hxk⟩ := (siteBusy_iff t k).1 hbusy
  obtain ⟨y, hy, hyx⟩ := h.bursts x hx
  have hsbusy : s.siteBusy k = true := (siteBusy_iff s k).2 ⟨y, hy, hyx ▸ hxk⟩
  rw [hidle k (h.site ▸ hk)] at hsbusy
  exact Bool.false_ne_true hsbusy

/-! ## Bursts -/

theorem mem_of_tblFind {α : Type} {k : Nat} {v : α} : ∀ {l : Tbl α}, Tbl.find l k = some v → (k, v) ∈ l
  | [], h => nomatch h
  | (j, w) :: l, h => by
    rw [Tbl.find] at h
    split at h
    next hjk => exact List.mem_cons.2 (.inl (by rw [hjk, Option.some.inj h]))
    next => exact List.mem_cons.2 (.inr (mem_of_tblFind h))

theorem mem_of_mem_tblPut {α : Type} {k : Nat} {v : α} {x : Nat × α} :
    ∀ {l : Tbl α}, x ∈ Tbl.put l k v → x = (k, v) ∨ x ∈ l
  | [], h => .inl (List.mem_singleton.1 h)
  | (j, w) :: l, h => by
    rw [Tbl.put] at h
    split_ifs at h
    · exact List.mem_cons.1 h
    · exact (List.mem_cons.1 h).imp_right (List.mem_cons_of_mem _)
    · rcases List.mem_cons.1 h with rfl | hput
      · exact .inr List.mem_cons_self
      · exact (mem_of_mem_tblPut hput).imp_right (List.mem_cons_of_mem _)

theorem putBurst_spares {r : Nat} {b b' : Burst} (hb : s.burstAt r = some b) (hsites : b'.sites = b.sites) :
    SparesConv c s (s.putBurst r b') where
  now := rfl
  padc := rfl
  site := rfl
  bursts x hx := by
    rcases mem_of_mem_tblPut hx with rfl | hold
    · exact ⟨(r, b), mem_of_tblFind hb, hsites.symm⟩
    · exact ⟨x, hold, rfl⟩

theorem updBurst_spares (s : State) (r : Nat) {f : Burst → Burst} (hf : ∀ b, (f b).sites = b.sites) :
    SparesConv c s (s.updBurst r f) := by
  unfold State.updBurst
  split
  next b hb => exact putBurst_spares hb (hf b)
  next => exact .refl c s

theorem interrupt_spares (s : State) (r : Nat) (way : EndWay) : SparesConv c s (s.interrupt r way) := by
  unfold State.interrupt
  split
  next =>
    split
    · exact .refl c s
    · exact .of_eq
  next => exact .refl c s

theorem cutBurst_spares (s : State) (r : Nat) (result : SiteResult) (src : Nat) :
    SparesConv c s (s.cutBurst r result src) :=
  (interrupt_spares s r .c0).trans (updBurst_spares _ r fun _ => rfl)

/-! ## The safe state (01 R26) and the calibrations it abandons (17 R466) -/

theorem updSite_spares (s : State) (k : Nat) {f : SiteSt → SiteSt} (hf : ∀ x, (f x).defn = x.defn) :
    SparesConv c s (s.updSite k f) where
  now := rfl
  padc := rfl
  site := convSite_congr c rfl rfl fun i => by
    by_cases h : i = k
    · rw [h, State.updSite_same, hf]
    · rw [State.updSite_other _ _ _ _ h]
  bursts x hx := ⟨x, hx, rfl⟩

theorem dropSeq_spares (s : State) (k : Nat) : SparesConv c s (s.dropSeq k) := by
  unfold State.dropSeq
  split
  next =>
    have hrun : SparesConv c s (s.updSite k (fun t => { t with seqRun := none })) := updSite_spares s k fun _ => rfl
    exact hrun.trans (complete_spares ..)
  next => exact .refl c s

theorem calDone_spares (s : State) (u : CalUnit) (how : CalHow) (own : Option (Part × Nat)) :
    SparesConv c s (s.calDone u how own) :=
  .foldl (fun _ _ h => h.trans (complete_spares ..)) .of_eq

theorem calLane_spares (s : State) (l : Nat) : SparesConv c s (s.calLane l) := by
  unfold State.calLane
  split
  next => exact .refl c s
  next => exact .of_eq

theorem calRelease_spares (s : State) (u : CalUnit) : SparesConv c s (s.calRelease u) := by
  cases u with
  | group g => exact .foldl (fun _ l h => h.trans (calLane_spares _ l)) .of_eq
  | dps d => exact .refl c s

theorem calDropAll_spares (l : List (CalUnit × Option (Part × Nat))) (s : State) :
    SparesConv c s (calDropAll l s) := by
  induction l generalizing s with
  | nil => exact .refl c s
  | cons x l ih =>
    have hrest : SparesConv c s ({ s with cal.run := { s.cal.run with queue := l } } : State) := .of_eq
    exact (hrest.trans (calDone_spares _ x.1 .abandoned x.2)).trans (ih _)

theorem calAbandon_spares (s : State) (f : CalUnit → Bool) (all : Bool) : SparesConv c s (s.calAbandon f all) := by
  unfold State.calAbandon
  split
  next => exact .refl c s
  next unit _ _ =>
    dsimp only
    have hended : SparesConv c s
        ({ s with cal.run := { s.cal.run with running := none, runOwn := none } } : State) := .of_eq
    have hdone := (hended.trans (calRelease_spares _ unit)).trans (calDone_spares _ unit .abandoned s.cal.run.runOwn)
    split_ifs
    · exact .refl c s
    · exact hdone.trans (calDropAll_spares _ _)
    · exact hdone

theorem safeAllLanes_spares (s : State) : SparesConv c s s.safeAllLanes := by
  unfold State.safeAllLanes
  exact .foldl (fun _ _ h => h.trans .of_eq) (.refl c s)

theorem dischargeAll_spares (s : State) : SparesConv c s s.dischargeAll := by
  unfold State.dischargeAll
  exact .foldl (fun _ _ h => h.trans .of_eq) (.refl c s)

theorem safeState_spares (s : State) (reason src : Nat) : SparesConv c s (s.safeState reason src) := by
  have hcut : SparesConv c s (s.ve.bursts.foldl (fun s x => s.cutBurst x.1 (invalidRes reason) src) s) :=
    .foldl (fun _ _ h => h.trans (cutBurst_spares ..)) (.refl c s)
  have hdrop := hcut.foldl (g := State.dropSeq) (l := List.range 128) fun _ _ h => h.trans (dropSeq_spares ..)
  have hlanes := (hdrop.trans (safeAllLanes_spares _)).trans (dischargeAll_spares _)
  have hsafe (v : State) : SparesConv c v ({ v with pwr.safe := true } : State) := .of_eq
  unfold State.safeState
  exact (hlanes.trans (hsafe _)).trans (calAbandon_spares ..)

theorem enterFatal_spares (s : State) (src : Nat) : SparesConv c s (s.enterFatal src) := .of_eq

theorem hardware_spares (o : Occ) (s : State) : SparesConv c s (s.hardware o) := by
  unfold State.hardware
  split
  · exact .of_eq
  · exact .of_eq
  · exact .of_eq
  · exact .of_eq
  · exact .refl c s

/-! ## Records (16 R437 to R439) -/

theorem deliver_spares (s : State) (p : Nat) (r : EvRec) : SparesConv c s (s.deliver p r) := by
  unfold State.deliver
  split
  next => exact .of_eq
  next =>
    split
    · exact .of_eq
    · exact .refl c s
  next => exact .of_eq
  next => exact .of_eq

/-- An occurrence of a source that names no unit to fence and ends no burst of its own (16 R433, R435). -/
structure FencesNothing (o : Occ) : Prop where
  chapter : o.fences = []
  unit : srcUnit o.src = none
  window : isWindow o.src = false

theorem fencesNothing_evtDrop (p : Nat) : FencesNothing { src := 0x054, payload := [p] } := ⟨rfl, rfl, rfl⟩
theorem fencesNothing_c3Drop : FencesNothing { src := 0x0F6 } := ⟨rfl, rfl, rfl⟩
theorem fencesNothing_injDrop (payload : List Nat) (names : List Elem) :
    FencesNothing { src := 0x570, payload, names } := ⟨rfl, rfl, rfl⟩

theorem react_spares (rz : Occ → State → State) {o : Occ} (ho : FencesNothing o) (eff primary : Nat) (s : State) :
    SparesConv c s (s.react rz o eff primary) := by
  have hfatal : SparesConv c s (((s.hardware o).safeState (fatalReason o.src) o.src).enterFatal o.src) :=
    ((hardware_spares o s).trans (safeState_spares ..)).trans (enterFatal_spares ..)
  simpa [State.react, ho.chapter, ho.unit, ho.window] using hfatal.ite (.refl c s)

section
variable {rz : Occ → State → State} (hrz : ∀ o s, FencesNothing o → SparesConv c s (rz o s))
include hrz

theorem queueC3_spares (dst : Nat) (f : Frame) (s : State) : SparesConv c s (s.queueC3 rz dst f) := by
  unfold State.queueC3
  split
  next => exact .of_eq
  next =>
    dsimp only
    split_ifs
    · exact .of_eq
    · exact SparesConv.trans .of_eq (hrz _ _ fencesNothing_c3Drop)
    · exact .of_eq

theorem sendLog_spares (r : EvRec) (s : State) : SparesConv c s (s.sendLog rz r) := by
  unfold State.sendLog
  dsimp only
  split_ifs
  · exact queueC3_spares hrz _ _ s
  · exact .refl c s

theorem writeRecord_spares (ps : List Nat) (r : EvRec) (s : State) : SparesConv c s (s.writeRecord rz ps r) := by
  have hshares : SparesConv c s
      (ps.foldl (fun s p => s.deliver p { r with payload := r.payload.set 1 (s.shareOf p) }) s) :=
    .foldl (fun _ _ h => h.trans (deliver_spares ..)) (.refl c s)
  have hall : SparesConv c s (s.deliverAll ps r) := .foldl (fun _ _ h => h.trans (deliver_spares ..)) (.refl c s)
  have hsent {p : Prop} [Decidable p] {v : State} (h : SparesConv c s v) :
      SparesConv c s (if p then v.sendLog rz r else v) := .ite (h.trans (sendLog_spares hrz r v)) h
  unfold State.writeRecord
  exact .ite (hsent (.ite hshares hall))
    (.foldl (fun _ p h => h.trans (hrz _ _ (fencesNothing_evtDrop p))) (hsent (.ite hshares hall)))

/-! ## One occurrence -/

theorem raiseWith_spares {o : Occ} (ho : FencesNothing o) (s : State) : SparesConv c s (s.raiseWith rz o) := by
  have hcounted : SparesConv c s
      ({ s with evt.count := Tbl.upd s.evt.count 0 o.src (satAdd · 1 0xFFFFFFFF) } : State) := .of_eq
  have halarm {p : Prop} [Decidable p] {v : State} (h : SparesConv c s v) :
      SparesConv c s (if p then v.alarm o else v) := .ite (h.trans .of_eq) h
  have hwindow (v : State) (wins : List Win) (conseq : Tbl Nat) :
      SparesConv c v ({ v with evt.wins := wins, evt.conseq := conseq } : State) := .of_eq
  unfold State.raiseWith
  dsimp only
  split
  next =>
    exact ((halarm hcounted).trans (hwindow _ _ _)).trans (react_spares rz ho _ _ _)
  next =>
    exact (SparesConv.ite (halarm hcounted) ((halarm hcounted).trans (writeRecord_spares hrz _ _ _))).trans
      (react_spares rz ho _ _ _)

end

theorem raiseN_spares (n : Nat) (o : Occ) (s : State) (ho : FencesNothing o) : SparesConv c s (raiseN n o s) := by
  induction n generalizing o s with
  | zero => exact .refl c s
  | succ n ih => exact raiseWith_spares (fun o s ho => ih o s ho) ho s

theorem injDrop_spares (s : State) (payload : List Nat) (names : List Elem) :
    SparesConv c s (s.event 0x570 payload names) := raiseN_spares 4 _ s (fencesNothing_injDrop payload names)

end

end Sys2Proof
end

section
/-!
SUPPORT. What the rows of the parametric converters do: one lemma per row and case (08 R246 to R255).
-/

namespace Sys2Proof

open Sys2Proof.Machine

section
variable {s : State} {c : Conv}

theorem updPadc_updPadc (s : State) (k : Nat) (f g : PadcSt → PadcSt) :
    (s.updPadc k f).updPadc k g = s.updPadc k (fun x => g (f x)) := by
  simp [State.updPadc, Tbl.upd]

theorem updPadc_congr {k : Nat} {f g : PadcSt → PadcSt} (h : f (s.padcAt k) = g (s.padcAt k)) :
    s.updPadc k f = s.updPadc k g := by
  rw [State.padcAt] at h
  rw [State.updPadc, State.updPadc, Tbl.upd, Tbl.upd, h]

/-! ## Regular and injected conversions (08 R246, R247) -/

/-- The conversion that starts on a converter, as the PMU of its group stands. -/
def startedConv (s : State) (c : Nat) (injected : Bool) (setting pos start : Nat) : ConvRun :=
  { injected, setting, pos, start
    settled := (s.pmuOn c).isSome && (s.grpAt c).pmuSettled
    clamped := (s.pmuOn c).isSome && (s.grpAt c).pmuClamp }

theorem startConv_eq (s : State) (c : Nat) (injected : Bool) (setting pos start : Nat) :
    s.startConv c injected setting pos start =
      s.updPadc c (fun x => { x with running := some (startedConv s c injected setting pos start) }) := rfl

theorem exec_regIntervalDue (c : Conv) (s : State) : exec (.regIntervalDue c) s = execRegIntervalDue c s := rfl

/-- The next due time of a regular conversion. -/
def dueAgain (s : State) (c : Nat) (x : PadcSt) : PadcSt :=
  { x with nextDue := x.nextDue + 1000 * s.parN 8 c 0x012 }

section
variable (hgroup : c.val < 16) (hmode : s.parN 8 c.val 0x010 = 2) (hfence : (s.padcAt c.val).fenced = false)
include hgroup hmode hfence

theorem regIntervalDue_skips (hbusy : (s.padcAt c.val).busy = true) :
    exec (.regIntervalDue c) s = .next ((s.moveTo (s.padcAt c.val).nextDue).updPadc c.val (fun x =>
      dueAgain s c.val { x with skipped := satAdd x.skipped 1 0xFFFFFFFF })) := by
  rw [exec_regIntervalDue, execRegIntervalDue]
  dsimp only
  rw [if_pos ⟨hgroup, hmode, hfence⟩, if_pos hbusy, updPadc_updPadc]
  rfl

theorem regIntervalDue_starts (hfree : (s.padcAt c.val).busy = false) :
    let u := s.moveTo (s.padcAt c.val).nextDue
    exec (.regIntervalDue c) s = .next (u.updPadc c.val (fun x => dueAgain s c.val
      { x with running := some (startedConv s c.val false (s.parN 8 c.val 0x011) noPos (gridUp u.now)) })) := by
  rw [exec_regIntervalDue, execRegIntervalDue]
  dsimp only
  rw [if_pos ⟨hgroup, hmode, hfence⟩, if_neg (ne_true_of_eq_false hfree), startConv_eq, updPadc_updPadc]
  rfl

end

theorem exec_injConversionStart (c : Conv) (s : State) :
    exec (.injConversionStart c) s = execInjConversionStart c s := rfl

theorem injConversionStart_starts {setting pos t0 : Nat} (hpending : (s.padcAt c.val).pending = some (setting, pos, t0))
    (hfence : (s.padcAt c.val).fenced = false) (hidle : (s.padcAt c.val).running = none) :
    exec (.injConversionStart c) s = .next ((s.moveTo t0).updPadc c.val (fun x =>
      { x with pending := none, running := some (startedConv s c.val true setting pos t0) })) := by
  rw [exec_injConversionStart, execInjConversionStart, hpending]
  dsimp only
  rw [if_neg (by simp [hfence, hidle]), startConv_eq, updPadc_updPadc]
  rfl

/-! ## Results (08 R249 to R251) -/

/-- A filter output lies outside the code limits (08 R245). -/
def overranged (outputs : List Int) : Bool :=
  outputs.any (fun y => decide (y < -8388608) || decide (8388607 < y))

theorem clampCode_ne (y : Int) : (clampCode y != y) = (decide (y < -8388608) || decide (8388607 < y)) := by
  unfold clampCode
  split_ifs with habove hbelow
  · have hne : (8388607 : Int) ≠ y := by omega
    simp [habove, hne]
  · have hne : (-8388608 : Int) ≠ y := by omega
    simp [hbelow, hne]
  · simp [habove, hbelow]

theorem any_clampCode_ne (outputs : List Int) : outputs.any (fun y => clampCode y != y) = overranged outputs := by
  simp only [clampCode_ne, overranged]

/-- The mean of the corrected outputs (08 R244, R251). -/
def meanResult (x : PadcSt) (n : Nat) (outputs : List Int) : Int :=
  roundAway ((outputs.map (fun y => x.correct (clampCode y))).sum) n

/-- The words of the result of a conversion. -/
def resultWords (s : State) (c : Nat) (r : ConvRun) (outputs : List Int) : List Nat :=
  (s.padcAt c).words c r (meanResult (s.padcAt c) (s.csPar c r.setting 0x023) outputs) (overranged outputs)

/-- The converter has published a result. -/
def published (words : List Nat) (x : PadcSt) : PadcSt :=
  { x with running := none, seq := x.seq + 1, result := words }

theorem exec_conversionEnd (c : Conv) (outputs : List Int) (clamp ovr : Bool) (s : State) :
    exec (.conversionEnd c outputs clamp ovr) s = execConversionEnd c outputs clamp ovr s := rfl

section
variable {r : ConvRun} {outputs : List Int} (hrun : (s.padcAt c.val).running = some r)
  (hlen : outputs.length = s.csPar c.val r.setting 0x023)
include hrun hlen

theorem conversionEnd_of_no_site (hsite : s.convSite c.val = none) :
    exec (.conversionEnd c outputs r.clamped (overranged outputs)) s = .next
      (((s.moveTo (r.start + s.convNs c.val r.setting)).updPadc c.val
        (published (resultWords s c.val r outputs))).startSingle c.val) := by
  rw [exec_conversionEnd, execConversionEnd, hrun]
  dsimp only
  rw [if_neg (by simp [hlen, any_clampCode_ne]), hlen]
  split
  next k hk => exact absurd (hsite.symm.trans hk) (Option.some_ne_none k).symm
  next => rfl

theorem conversionEnd_of_site {k : Nat} (hsite : s.convSite c.val = some k) :
    let words := resultWords s c.val r outputs
    exec (.conversionEnd c outputs r.clamped (overranged outputs)) s = .next
      (((((s.moveTo (r.start + s.convNs c.val r.setting)).updPadc c.val (published words)).sitePush k
        (s.csPar c.val r.setting 0x025)
        { type := tPADC, source := 0xFF, rflags := 0, time := r.start, len := 1, words }).issueTok
          { scope := toFin 128 k (by decide), kind := 3, key := c.val, result := 0 }).startSingle c.val) := by
  dsimp only
  rw [exec_conversionEnd, execConversionEnd, hrun]
  dsimp only
  rw [if_neg (by simp [hlen, any_clampCode_ne]), hlen]
  split
  next j hj =>
    obtain rfl : j = k := Option.some.inj (hj.symm.trans hsite)
    rfl
  next hnone => exact absurd (hsite.symm.trans hnone) (Option.some_ne_none k)

end

/-! ## The start of a self-calibration (08 R252) -/

/-- The converter calibrates from a time on. -/
def calStarted (now : Nat) (x : PadcSt) : PadcSt := { x with calWait := false, calRun := true, calAt := now }

theorem startCal_starts {k : Nat} (hwait : (s.padcAt k).calWait = true) (hidle : (s.padcAt k).running = none)
    (hcal : (s.padcAt k).calRun = false) (hmay : (s.padcAt k).calAuto = false ∨ s.convIdle k = true) :
    s.startCal k =
      { s.updPadc k (calStarted s.now) with acq.hkStale := s.acq.hkStale || k == 16 } := by
  have hmay' : (!(s.padcAt k).calAuto || s.convIdle k) = true := by
    rcases hmay with hasked | hfree
    · simp [hasked]
    · simp [hfree]
  rw [State.startCal]
  exact if_pos (by simp [hwait, hidle, hcal, hmay'])

theorem startCal_of_no_wait {k : Nat} (hwait : (s.padcAt k).calWait = false) : s.startCal k = s := by
  simp [State.startCal, hwait]

theorem startCal_of_group {k : Nat} (hgroup : k < 16) (hwait : (s.padcAt k).calWait = true)
    (hidle : (s.padcAt k).running = none) (hcal : (s.padcAt k).calRun = false)
    (hmay : (s.padcAt k).calAuto = false ∨ s.convIdle k = true) : s.startCal k = s.updPadc k (calStarted s.now) := by
  rw [startCal_starts hwait hidle hcal hmay, beq_false_of_ne (Nat.ne_of_lt hgroup), Bool.or_false]
  rfl

theorem runCal_of_group {k : Nat} (hgroup : k < 16) : s.runCal k = s.startCal k := if_neg (Nat.ne_of_lt hgroup)

/-- A calibration waits for the converter. -/
def calWaits (auto : Bool) (x : PadcSt) : PadcSt := { x with calWait := true, calAuto := auto }

/-- The converter as a calibration is asked for: a request that is pending is dropped. -/
def calAsked (auto : Bool) (x : PadcSt) : PadcSt :=
  if x.pending.isSome then PadcSt.drop 3 { calWaits auto x with pending := none } else calWaits auto x

theorem calAsked_pending (auto : Bool) (x : PadcSt) : (calAsked auto x).pending = none := by
  unfold calAsked
  split
  next => rfl
  next h => exact Option.not_isSome_iff_eq_none.1 h

theorem calAsked_dropCal (auto : Bool) {x : PadcSt} (h : x.pending.isSome = true) :
    (calAsked auto x).dropCal = satAdd x.dropCal 1 0xFFFFFFFF := by
  rw [calAsked, if_pos h]
  rfl

theorem calAsked_waits (auto : Bool) (x : PadcSt) :
    (calAsked auto x).calWait = true ∧ (calAsked auto x).running = x.running ∧
      (calAsked auto x).calRun = x.calRun := by
  unfold calAsked
  split
  · exact ⟨rfl, rfl, rfl⟩
  · exact ⟨rfl, rfl, rfl⟩

/-- The drop is told once for its burst; other pending requests of it are marked as told. -/
theorem injDropEvent_spares {k : Nat} (r reason : Nat) (hnone : (s.padcAt k).pending = none) :
    SparesConv k s (s.injDropEvent r k reason) := by
  unfold State.injDropEvent
  split
  next b hb =>
    split
    · exact .refl k s
    · have htold := (putBurst_spares (c := k) (b' := { b with injDropped := true }) hb rfl).trans
        (injDrop_spares _ [k, reason] [.conv k, .site b.home.val])
      refine htold.foldl fun v i hv => ?_
      split
      next hpending =>
        have hother : k ≠ i := by
          rintro rfl
          simp [hv.padc, hnone] at hpending
        exact hv.trans { SparesConv.refl k v with padc := State.updPadc_other _ _ _ _ hother }
      next => exact hv
  next => exact .refl k s

theorem drop_pending (reason : Nat) (x : PadcSt) : (PadcSt.drop reason x).pending = x.pending := by
  unfold PadcSt.drop
  split
  · rfl
  · rfl
  · rfl

theorem dropPending_spares {k : Nat} (hpending : (s.padcAt k).pending.isSome = true) (reason : Nat) :
    SparesConv k (s.updPadc k (fun x => PadcSt.drop reason { x with pending := none })) (s.dropPending k reason) := by
  have hnone : ((s.updPadc k (fun x => PadcSt.drop reason { x with pending := none })).padcAt k).pending = none := by
    rw [State.updPadc_same, drop_pending]
  rw [State.dropPending]
  dsimp only
  rw [if_neg (by simpa using Option.isSome_iff_ne_none.1 hpending)]
  split
  next b _ => exact injDropEvent_spares b.1 reason hnone
  next => exact .ite (.refl k _) (injDrop_spares _ _ _)

theorem askCal_spares (s : State) (k : Nat) (auto : Bool) :
    SparesConv k (s.updPadc k (calAsked auto)) (s.askCal k auto) := by
  have hsame : ((s.updPadc k (calWaits auto)).padcAt k).pending = (s.padcAt k).pending := by
    rw [State.updPadc_same, calWaits]
  by_cases hpending : (s.padcAt k).pending.isSome = true
  · have hdrop := dropPending_spares (hsame.symm ▸ hpending) 3
    rw [updPadc_updPadc, ← updPadc_congr (f := calAsked auto) (by rw [calAsked, if_pos hpending])] at hdrop
    exact hdrop
  · have hkept : s.askCal k auto = s.updPadc k (calWaits auto) := by
      rw [State.askCal, State.dropPending]
      exact if_pos (Option.isNone_iff_eq_none.2 (hsame.trans (Option.not_isSome_iff_eq_none.1 hpending)))
    rw [hkept, updPadc_congr (g := calWaits auto) (by rw [calAsked, if_neg hpending])]
    exact .refl k _

/-- A group's converter whose site has no burst starts a calibration that PADC_AUTOCAL asks for. -/
theorem startCal_askCal {k : Nat} (hgroup : k < 16) (hidle : (s.padcAt k).running = none)
    (hcal : (s.padcAt k).calRun = false) (hfree : s.convIdle k = true) :
    ((s.askCal k true).startCal k).padcAt k = calStarted s.now (calAsked true (s.padcAt k)) := by
  have hasked := askCal_spares s k true
  have hpadc : (s.askCal k true).padcAt k = calAsked true (s.padcAt k) := by
    rw [hasked.padc, State.updPadc_same]
  obtain ⟨hwaits, hrunning, hcalRun⟩ := calAsked_waits true (s.padcAt k)
  rw [startCal_of_group hgroup (by rw [hpadc, hwaits]) (by rw [hpadc, hrunning, hidle]) (by rw [hpadc, hcalRun, hcal])
    (.inr (hasked.convIdle hfree)), State.updPadc_same, hasked.now, hpadc]
  rfl

theorem exec_selfcalStart (c : Conv) (s : State) : exec (.selfcalStart c) s = execSelfcalStart c s := rfl

section
variable (hfence : (s.padcAt c.val).fenced = false) (hcal : (s.padcAt c.val).calRun = false)
  (hwarm : (s.padcAt c.val).warmed = true) (hgroup : c.val < 16) (hidle : (s.padcAt c.val).running = none)
include hfence hcal hwarm hgroup hidle

theorem selfcalStart_of_waiting (hwait : (s.padcAt c.val).calWait = true)
    (hmay : (s.padcAt c.val).calAuto = false ∨ s.convIdle c.val = true) :
    exec (.selfcalStart c) s = .next (s.updPadc c.val (calStarted s.now)) := by
  rw [exec_selfcalStart, execSelfcalStart]
  dsimp only
  rw [if_neg (by simp [hfence, hcal, hwarm]), if_pos hwait, runCal_of_group hgroup,
    startCal_of_group hgroup hwait hidle hcal hmay]

/-- PADC_AUTOCAL finds the group more than 5.0 °C from the temperature of the last calibration. -/
theorem selfcalStart_of_drift (hwait : (s.padcAt c.val).calWait = false) (hauto : s.parN 8 c.val 0x006 = 1)
    (hfree : s.convIdle c.val = true) (hdrift : 500 < ((s.grpAt c.val).tIsl - (s.padcAt c.val).calTemp).natAbs) :
    Answers (.selfcalStart c) s (fun t => t.padcAt c.val = calStarted s.now (calAsked true (s.padcAt c.val))) := by
  have hasks : s.autocal c.val = true := by
    simp [State.autocal, State.convTemp, hauto, hgroup, hfree, hdrift]
  refine ⟨(s.askCal c.val true).startCal c.val, ?_, startCal_askCal hgroup hidle hcal hfree⟩
  rw [exec_selfcalStart, execSelfcalStart]
  dsimp only
  rw [if_neg (by simp [hfence, hcal, hwarm]), if_neg (ne_true_of_eq_false hwait), if_pos hasks, runCal_of_group hgroup]

end

/-! ## The end of a self-calibration, and the power-up (08 R251 to R253) -/

theorem exec_selfcalEnd (c : Conv) (zero ref : Int) (s : State) :
    exec (.selfcalEnd c zero ref) s = execSelfcalEnd c zero ref s := rfl

/-- PADC_GAIN that a calibration of a converter gives. -/
def newGain (s : State) (c : Nat) (zero ref : Int) : Int :=
  gainOf ((s.padcAt c).ref.getD (Config.padcRef c)) zero ref

/-- New factors are accepted. -/
def calAccepted (zero gain temp : Int) (x : PadcSt) : PadcSt :=
  { x with calRun := false, calCmd := none, ofs := zero, gain, accepted := true, calTemp := temp
           calCount := satAdd x.calCount 1 0xFFFFFFFF }

/-- The previous factors are kept. -/
def calKept (x : PadcSt) : PadcSt := { x with calRun := false, calCmd := none }

section
variable {zero ref : Int} (hcal : (s.padcAt c.val).calRun = true) (hgroup : c.val < 16)
include hcal hgroup

theorem selfcalEnd_accepts (hok : factorsOk zero (newGain s c.val zero ref) = true)
    (hcmd : (s.padcAt c.val).calCmd = none) :
    exec (.selfcalEnd c zero ref) s = .next
      ((((s.moveTo ((s.padcAt c.val).calAt + 110000000)).updPadc c.val
        (calAccepted zero (newGain s c.val zero ref) (s.grpAt c.val).tIsl)).event 0x571 [c.val]
          [.conv c.val]).startSingle c.val) := by
  rw [newGain] at hok
  rw [exec_selfcalEnd, execSelfcalEnd]
  simp only [hcal, hok, hcmd, if_true, if_neg (Nat.ne_of_lt hgroup), State.convTemp, if_pos hgroup]
  rfl

theorem selfcalEnd_rejects (hbad : factorsOk zero (newGain s c.val zero ref) = false)
    (hcmd : (s.padcAt c.val).calCmd = none) :
    exec (.selfcalEnd c zero ref) s = .next
      ((((s.moveTo ((s.padcAt c.val).calAt + 110000000)).updPadc c.val calKept).event 0x572 [c.val]
        [.conv c.val]).startSingle c.val) := by
  rw [newGain] at hbad
  rw [exec_selfcalEnd, execSelfcalEnd]
  simp only [hcal, hbad, hcmd, if_true, if_neg (Nat.ne_of_lt hgroup), Bool.false_eq_true, if_false]
  rfl

theorem selfcalEnd_fails {p : Part} {tag : Nat} (hbad : factorsOk zero (newGain s c.val zero ref) = false)
    (hcmd : (s.padcAt c.val).calCmd = some (p, tag)) :
    exec (.selfcalEnd c zero ref) s = .next
      (((((s.moveTo ((s.padcAt c.val).calAt + 110000000)).updPadc c.val calKept).complete p.val tag 0x0802 .internal
        []).event 0x572 [c.val] [.conv c.val]).startSingle c.val) := by
  rw [newGain] at hbad
  rw [exec_selfcalEnd, execSelfcalEnd]
  simp only [hcal, hbad, hcmd, if_true, if_neg (Nat.ne_of_lt hgroup), Bool.false_eq_true, if_false]
  rfl

end

theorem exec_padcPowerupWarm (c : Conv) (s : State) : exec (.padcPowerupWarm c) s = execPadcPowerupWarm c s := rfl

theorem padcPowerupWarm_calibrates (hcold : (s.padcAt c.val).warmed = false) (hfence : (s.padcAt c.val).fenced = false)
    (hreleased : s.pwr.sup.released = true) :
    exec (.padcPowerupWarm c) s = .next ((s.moveTo s.acq.warmAt).updPadc c.val (fun x =>
      { x with warmed := true, calRun := true, calWait := false, calAt := s.acq.warmAt })) := by
  rw [exec_padcPowerupWarm, execPadcPowerupWarm, if_neg (by simp [hcold, hfence, hreleased])]

/-! ## Housekeeping slots and faults (08 R252, R254, R255) -/

theorem exec_hkSlotEnd (v : Int) (s : State) : exec (.hkSlotEnd v) s = execHkSlotEnd v s := rfl

theorem hkSlotEnd_rests (v : Int)
    (h : (s.padcAt 16).fenced = true ∨ (s.padcAt 16).calRun = true ∨ (s.padcAt 16).warmed = false) :
    exec (.hkSlotEnd v) s = .next s := by
  rw [exec_hkSlotEnd, execHkSlotEnd]
  exact congrArg _ (if_pos (by simpa [or_assoc] using h))

/-- The reading of a slot, an output voltage or a current, with the time of the slot's start. -/
def slotRead (slot at_ : Nat) (v : Int) (y : DpsSt) : DpsSt :=
  if slot % 2 = 0 then { y with hkV := v, hkVAt := at_ } else { y with hkI := v, hkIAt := at_ }

/-- The scan holds the reading of its slot and goes on to the next one. -/
def slotEnded (s : State) (v : Int) : State :=
  let u := (s.moveTo (s.acq.hkAt + 400000)).updDps (s.acq.hkSlot / 2) (slotRead s.acq.hkSlot s.acq.hkAt v)
  { u with acq.hkSlot := (s.acq.hkSlot + 1) % 36, acq.hkAt := u.now }

theorem hkSlotEnd_reads (v : Int) (hfence : (s.padcAt 16).fenced = false) (hcal : (s.padcAt 16).calRun = false)
    (hwarm : (s.padcAt 16).warmed = true) : exec (.hkSlotEnd v) s = .next ((slotEnded s v).startCal 16) := by
  rw [exec_hkSlotEnd, execHkSlotEnd]
  exact congrArg _ (if_neg (by simp [hfence, hcal, hwarm]))

theorem slotEnded_dpsAt (s : State) (v : Int) : (slotEnded s v).dpsAt (s.acq.hkSlot / 2) =
    slotRead s.acq.hkSlot s.acq.hkAt v (s.dpsAt (s.acq.hkSlot / 2)) :=
  State.updDps_same (s.moveTo (s.acq.hkAt + 400000)) _ _

/-- A calibration of PADC16 that was asked for starts at the end of the slot; the readings are stale from then on. -/
theorem startCal_slotEnded (v : Int) (hwait : (s.padcAt 16).calWait = true) (hidle : (s.padcAt 16).running = none)
    (hcal : (s.padcAt 16).calRun = false) (hasked : (s.padcAt 16).calAuto = false) :
    let t := (slotEnded s v).startCal 16
    t.padcAt 16 = calStarted (s.moveTo (s.acq.hkAt + 400000)).now (s.padcAt 16) ∧ t.acq.hkStale = true := by
  have hpadc : (slotEnded s v).padcAt 16 = s.padcAt 16 := rfl
  dsimp only
  rw [startCal_starts (hpadc ▸ hwait) (hpadc ▸ hidle) (hpadc ▸ hcal) (.inl (hpadc ▸ hasked))]
  exact ⟨State.updPadc_same (slotEnded s v) 16 _, Bool.or_true _⟩

theorem exec_padcFault (c : Conv) (s : State) :
    exec (.padcFault c) s = .next ((s.convDrop c.val).event 0x573 [c.val] [.conv c.val]) := rfl

theorem convDrop_of_group {k : Nat} (hgroup : k < 16) (hcmd : (s.padcAt k).calCmd = none) :
    s.convDrop k =
      s.updPadc k (fun x => { x with calCmd := none, calRun := false, calWait := false, singles := 0 }) := by
  rw [State.convDrop, hcmd]
  exact if_neg (Nat.ne_of_lt hgroup)

end

end Sys2Proof
end

section
/-!
The statement about the converters.
-/

namespace Sys2Proof

open Sys2Proof.Machine

/-- Settles O45: each clause is the equation of its row in the case that its hypotheses name. A calibration of
PADC_AUTOCAL starts although the event of the request that it drops may react on the module: that event fences nothing,
so it leaves the converter as it is and its site idle. -/
theorem converterRows : Obligations.ConverterRows := by
  intro s c
  refine ⟨fun hgroup hmode hfence => ?_, fun setting pos t0 hpending hfence hidle => ?_,
    fun r outputs hrun hsite hlen => conversionEnd_of_no_site hrun hlen hsite,
    fun r outputs k hrun hsite hlen => conversionEnd_of_site hrun hlen hsite,
    fun hfence hcal hwarm hgroup hidle hwait hmay => ?_,
    fun hfence hcal hwarm hgroup hidle hwait hauto hfree hdrift => ?_,
    fun zero ref hcal hgroup => ⟨selfcalEnd_accepts hcal hgroup, selfcalEnd_rejects hcal hgroup,
      fun _ _ => selfcalEnd_fails hcal hgroup⟩,
    padcPowerupWarm_calibrates, hkSlotEnd_rests,
    fun v hfence hcal hwarm => ⟨fun hwait => ?_, fun hwait hasked hidle => ?_⟩,
    fun hcmd hgroup => ?_⟩
  · by_cases hbusy : (s.padcAt c.val).busy = true
    · refine ⟨_, regIntervalDue_skips hgroup hmode hfence hbusy, ?_⟩
      dsimp only
      rw [State.updPadc_same]
      exact ⟨rfl, fun _ => rfl, fun hfree => absurd hbusy (ne_true_of_eq_false hfree), rfl⟩
    · refine ⟨_, regIntervalDue_starts hgroup hmode hfence (eq_false_of_ne_true hbusy), ?_⟩
      dsimp only
      rw [State.updPadc_same]
      exact ⟨rfl, fun hbusy' => absurd hbusy' hbusy, fun _ => rfl, rfl⟩
  · refine ⟨_, injConversionStart_starts hpending hfence hidle, ?_, rfl⟩
    rw [State.updPadc_same]
    rfl
  · exact selfcalStart_of_waiting hfence hcal hwarm hgroup hidle hwait (hmay.imp_right (convIdle_iff s c.val).2)
  · obtain ⟨t, hexec, hpadc⟩ := selfcalStart_of_drift hfence hcal hwarm hgroup hidle hwait hauto
      ((convIdle_iff s c.val).2 hfree) hdrift
    refine ⟨t, hexec, ?_⟩
    dsimp only
    rw [hpadc]
    exact ⟨rfl, rfl, calAsked_pending true _, calAsked_dropCal true⟩
  · have hread := hkSlotEnd_reads v hfence hcal hwarm
    rw [startCal_of_no_wait (s := slotEnded s v) hwait] at hread
    refine ⟨_, hread, fun heven => ?_, fun hodd => ?_, rfl, rfl⟩
    · rw [slotEnded_dpsAt, slotRead, if_pos heven]
    · rw [slotEnded_dpsAt, slotRead, if_neg (by omega)]
  · obtain ⟨hpadc, hstale⟩ := startCal_slotEnded v hwait hidle hcal hasked
    refine ⟨_, hkSlotEnd_reads v hfence hcal hwarm, ?_⟩
    dsimp only
    rw [hpadc]
    exact ⟨rfl, rfl, hstale⟩
  · rw [exec_padcFault, convDrop_of_group hgroup hcmd]

end Sys2Proof
end

section
/-!
SUPPORT. What the commands of the scheduler do where no check refuses them: one lemma per command (10 R274, R277, R280 to
R282, R300).
-/

namespace Sys2Proof

open Sys2Proof.Machine

section
variable {s : State} {p : Part} {tag : Nat}

/-! ## Sites (10 R274) -/

theorem exec_schSiteDefine (p : Part) (tag : Nat) (rec : SiteRec) (s : State) :
    exec (.schSiteDefine p tag rec) s = execSchSiteDefine p tag rec s := rfl

/-- The range check of a site record: its number, and 2 to 255 members where it is linked. -/
theorem siteRange_good {rec : SiteRec} (hsite : rec.site < 128)
    (hmembers : rec.linked = true → 2 ≤ rec.members ∧ rec.members ≤ 255) :
    (decide (128 ≤ rec.site) || (rec.linked && (decide (rec.members < 2) || decide (255 < rec.members)))) = false := by
  rw [decide_eq_false (Nat.not_le.2 hsite), Bool.false_or]
  cases hlinked : rec.linked
  · rfl
  · obtain ⟨hlow, hhigh⟩ := hmembers hlinked
    rw [decide_eq_false (Nat.not_lt.2 hlow), decide_eq_false (Nat.not_lt.2 hhigh)]
    rfl

theorem schSiteDefine_defines {rec : SiteRec} (hpass : Passes s p tag 0x0901) (howns : s.ownsSiteRec p rec = true)
    (hgood : siteMalformed rec = false) (hsite : rec.site < 128)
    (hmembers : rec.linked = true → 2 ≤ rec.members ∧ rec.members ≤ 255) (hfree : s.siteConflict rec = none)
    (htasked : s.siteTasked rec.site = false) (hoff : s.siteOn rec.site = false) :
    Answers (.schSiteDefine p tag rec) s (fun t => Posted t p tag 0x0901 .ok [] ∧
      (t.siteAt rec.site).defn = (if rec.define then some rec else none) ∧
      t = { s with host.fn := t.host.fn, pf.site := t.pf.site }) := by
  refine answers_of_command (exec_schSiteDefine p tag rec s) hpass howns ?_ ⟨complete_posted _ _ _ _ _ _ _, ?_, ?_⟩
  · rw [siteRange_good hsite hmembers, hgood, hfree, htasked, hoff]
    rfl
  · rw [complete_siteAt, State.updSite_same]
  · exact updSite_then_host s (complete_same _ _ _ _ _ _ _)

/-! ## Tasks (10 R277, R282, R300) -/

theorem exec_schSubmit (p : Part) (tag : Nat) (d : TaskDesc) (s : State) :
    exec (.schSubmit p tag d) s = execSchSubmit p tag d s := rfl

/-- A submission that passes the checks of R277 is accepted with the entry that its task enters. -/
theorem schSubmit_enters {d : TaskDesc} (hpass : Passes s p tag 0x0902) (howns : s.ownsTask p d = true)
    (hfatal : s.evt.fatal = false) (hgood : s.submitBad p d = false)
    (hloaded : ∀ x, s.descImage p d = some x → x.mode ≠ .loading) (hfree : s.submitConflict p d = none)
    (hrange : s.submitRange p d = false) (hcredit : s.submitFull p d = false) (hentry : s.freeEntry.isSome = true) :
    let u := taken s p tag 0x0902
    let i := u.freeEntry.getD 0
    let v := (u.complete p tag 0x0902 .accepted [i]).putTask i
      { desc := d, part := p, tag, order := s.sch.nextOrder, at_ := s.now, e := u.estimate p d }
    exec (.schSubmit p tag d) s = .next ({ v with sch.nextOrder := v.sch.nextOrder + 1 } : State).wake := by
  have hnone : s.freeEntry.isNone = false := by rw [Option.isNone_eq_false_iff, hentry]
  have hready : ((s.descImage p d).map (fun i => i.mode == .loading)).getD false = false := by
    cases himage : s.descImage p d with
    | none => rfl
    | some x => exact beq_false_of_ne (hloaded x himage)
  refine next_of_command (exec_schSubmit p tag d s) hpass howns ?_
  rw [hfatal, hgood, hready, hfree, hrange, hcredit, hnone]
  rfl

theorem exec_schAbort (p : Part) (tag : Nat) (what : AbortOf) (s : State) :
    exec (.schAbort p tag what) s = execSchAbort p tag what s := rfl

theorem schAbort_aborts {what : AbortOf} (hpass : Passes s p tag 0x0903) (howns : s.ownsAbort p what = true) :
    Answers (.schAbort p tag what) s (fun t => Posted t p tag 0x0903 .ok [] ∧
      SameButHost ((taken s p tag 0x0903).abortOf what) t) :=
  answers_of_command (exec_schAbort p tag what s) hpass howns rfl
    ⟨complete_posted _ _ _ _ _ _ _, complete_same _ _ _ _ _ _ _⟩

theorem exec_schTaskInfo (p : Part) (tag : Nat) (i : TaskIx) (s : State) :
    exec (.schTaskInfo p tag i) s = execSchTaskInfo p tag i s := rfl

theorem schTaskInfo_tells {i : TaskIx} {ws : List Nat} (hpass : Passes s p tag 0x0906)
    (howns : s.ownsIndex p i.val = true) (hws : s.taskWords i.val = some ws) :
    Answers (.schTaskInfo p tag i) s (fun t => Posted t p tag 0x0906 .ok ws ∧ SameButHost s t) := by
  have hws' : (taken s p tag 0x0906).taskWords i.val = some ws := hws
  refine answers_of_command (exec_schTaskInfo p tag i s) hpass howns ?_ ?_
  · rw [hws]
    rfl
  · rw [hws']
    exact ⟨complete_posted _ _ _ _ _ _ _, (taken_same s p tag 0x0906).trans (complete_same _ _ _ _ _ _ _)⟩

/-! ## Tokens (10 R280, R281) -/

theorem exec_schToken (p : Part) (tag : Nat) (slot : Slot) (node : Nat) (remote : Bool) (s : State) :
    exec (.schToken p tag slot node remote) s = execSchToken p tag slot node remote s := rfl

/-- A USER token is issued here, or sent where another node is named. -/
theorem schToken_issues {slot : Slot} {node : Nat} (remote : Bool) (hpass : Passes s p tag 0x0904)
    (howns : s.ownsSite p slot.scope.val = true) (hrsvd : slot.rsvd = false) (hkind : slot.tkind = 0)
    (hkey : slot.key < 2 ^ 48) (hnode : node < 2 ^ 14) :
    Answers (.schToken p tag slot node remote) s (fun t => Posted t p tag 0x0904 .ok [] ∧
      SameButHost (if remote && decide (node ≠ s.node)
        then (taken s p tag 0x0904).sendC1 node (.token node s.node (slotTok slot))
        else (taken s p tag 0x0904).issueTok (slotTok slot)) t) := by
  have hgood : (slot.rsvd || decide (slot.tkind ≠ 0) || decide (2 ^ 48 ≤ slot.key) || decide (2 ^ 14 ≤ node)) = false := by
    rw [hrsvd, hkind, decide_eq_false (Nat.not_le.2 hkey), decide_eq_false (Nat.not_le.2 hnode)]
    rfl
  refine answers_of_command (exec_schToken p tag slot node remote s) hpass howns ?_
    ⟨complete_posted _ _ _ _ _ _ _, complete_same _ _ _ _ _ _ _⟩
  rw [hgood]
  rfl

theorem exec_schTokenClear (p : Part) (tag : Nat) (slot : Slot) (all : Bool) (s : State) :
    exec (.schTokenClear p tag slot all) s = execSchTokenClear p tag slot all s := rfl

/-- What `sch.token_clear` leaves in the token table. -/
def tokensKept (slot : Slot) (all : Bool) (l : List Tok) : List Tok :=
  l.filter (fun t => !(if all then t.scope == slot.scope else t.is slot.scope.val slot.tkind slot.key))

theorem scope_ne_of_mem_tokensKept {slot : Slot} {l : List Tok} {x : Tok} (h : x ∈ tokensKept slot true l) :
    x.scope ≠ slot.scope := by
  simpa using (List.mem_filter.1 h).2

theorem is_eq_false_of_mem_tokensKept {slot : Slot} {l : List Tok} {x : Tok} (h : x ∈ tokensKept slot false l) :
    x.is slot.scope.val slot.tkind slot.key = false := by
  simpa using (List.mem_filter.1 h).2

/-- Tokens of other sites stay. -/
theorem mem_tokensKept_of_scope_ne {slot : Slot} {l : List Tok} {x : Tok} (all : Bool) (hx : x ∈ l)
    (hscope : x.scope ≠ slot.scope) : x ∈ tokensKept slot all l := by
  refine List.mem_filter.2 ⟨hx, ?_⟩
  cases all
  · simp [Tok.is, Fin.val_ne_of_ne hscope]
  · simpa using hscope

theorem schTokenClear_clears {slot : Slot} {all : Bool} (hpass : Passes s p tag 0x0905)
    (howns : s.ownsSite p slot.scope.val = true) (hrsvd : slot.rsvd = false) (hkind : all = true ∨ slot.tkind < 7) :
    Answers (.schTokenClear p tag slot all) s (fun t => Posted t p tag 0x0905 .ok [] ∧
      t.sch.tokens = tokensKept slot all s.sch.tokens ∧
      t = { s with host.fn := t.host.fn, sch.tokens := t.sch.tokens }) := by
  have hgood : (slot.rsvd || (!all && decide (7 ≤ slot.tkind))) = false := by
    rw [hrsvd]
    rcases hkind with hall | hkind
    · rw [hall]
      rfl
    · rw [decide_eq_false (Nat.not_le.2 hkind), Bool.and_false]
      rfl
  refine answers_of_command (exec_schTokenClear p tag slot all s) hpass howns ?_ ⟨complete_posted _ _ _ _ _ _ _, ?_, ?_⟩
  · rw [hgood]
    rfl
  · rw [complete_same]
    rfl
  · rw [complete_same]
    rfl

end

end Sys2Proof
end

section
/-!
The statement about the commands of the scheduler.
-/

namespace Sys2Proof

open Sys2Proof.Machine

/-- Settles O19: each clause is what its command does in the case that its hypotheses name. -/
theorem schedulerCommandsComplete : Obligations.SchedulerCommandsComplete := by
  intro p tag s
  refine ⟨fun _ => schSiteDefine_defines, fun _ => schSubmit_enters, fun _ => schAbort_aborts,
    fun slot node remote hpass howns hrsvd hkind hkey hnode => ?_, fun slot all hpass howns hrsvd hkind => ?_,
    fun _ _ => schTaskInfo_tells⟩
  · have hissues := schToken_issues remote hpass howns hrsvd hkind hkey hnode
    refine ⟨fun hhere => ?_, fun hremote haway => ?_⟩
    · have hlocal : (remote && decide (node ≠ s.node)) = false := by
        rcases hhere with hlocal | hsame
        · rw [hlocal, Bool.false_and]
        · rw [hsame, decide_eq_false (not_not_intro rfl), Bool.and_false]
      rwa [hlocal, if_neg Bool.false_ne_true] at hissues
    · have haway' : (remote && decide (node ≠ s.node)) = true := by simp [hremote, haway]
      rwa [haway', if_pos rfl] at hissues
  · obtain ⟨t, hexec, hposted, htokens, hframe⟩ := schTokenClear_clears hpass howns hrsvd hkind
    refine ⟨t, hexec, hposted, fun hall x hx => ?_, fun hone x hx => ?_, fun x hx hscope => ?_, hframe⟩
    · rw [htokens, hall] at hx
      exact scope_ne_of_mem_tokensKept hx
    · rw [htokens, hone] at hx
      exact is_eq_false_of_mem_tokensKept hx
    · rw [htokens]
      exact mem_tokensKept_of_scope_ne all hx hscope

end Sys2Proof
end

section
/-!
SUPPORT. What a try to dispatch a task does: one lemma per verdict of the checks (10 R284; 14 R387).
-/

namespace Sys2Proof

open Sys2Proof.Machine

theorem exec_taskDispatch (i : TaskIx) (s : State) : exec (.taskDispatch i) s = execTaskDispatch i s := rfl

theorem taskDispatch_of_task {i : TaskIx} {t : TaskSt} {s : State} (ht : s.taskAt i.val = some t) :
    exec (.taskDispatch i) s = .next (s.tryDispatch i.val t) := by
  rw [exec_taskDispatch, execTaskDispatch, ht]

/-! ## Verdicts -/

section
variable {i : Nat} {t : TaskSt} {s : State}

/-- The task is eligible and fewer than 512 completions of its partition are held. -/
theorem not_heldBack (helig : s.eligible t = true) (hheld : (s.fnAt t.part.val).cplHeld.length < 512) :
    ¬ (!s.eligible t || decide (512 ≤ (s.fnAt t.part.val).cplHeld.length)) = true := by
  rw [helig, decide_eq_false (Nat.not_le.2 hheld)]
  exact Bool.false_ne_true

theorem tryDispatch_of_go {r d e : Nat} (helig : s.eligible t = true)
    (hheld : (s.fnAt t.part.val).cplHeld.length < 512) (hgo : s.verdict i t = .go r d e)
    (hnext : s.isNext i t = true) : s.tryDispatch i t = s.dispatch i t r d e := by
  rw [State.tryDispatch, if_neg (not_heldBack helig hheld), hgo]
  exact if_pos hnext

theorem tryDispatch_of_refuse {st : Status} {ws : List Nat} (helig : s.eligible t = true)
    (hheld : (s.fnAt t.part.val).cplHeld.length < 512) (hrefuse : s.verdict i t = .refuse st ws) :
    s.tryDispatch i t = s.endTask i t st ws skippedRes := by
  rw [State.tryDispatch, if_neg (not_heldBack helig hheld), hrefuse]

theorem tryDispatch_of_stale (helig : s.eligible t = true) (hheld : (s.fnAt t.part.val).cplHeld.length < 512)
    (hstale : s.verdict i t = .stale) :
    s.tryDispatch i t = s.endTask i t .ok (notRun t.raster (invalidRes rCAL)) skippedRes := by
  rw [State.tryDispatch, if_neg (not_heldBack helig hheld), hstale]

theorem tryDispatch_of_wait (helig : s.eligible t = true) (hheld : (s.fnAt t.part.val).cplHeld.length < 512)
    (hwait : s.verdict i t = .wait) : s.tryDispatch i t = s := by
  rw [State.tryDispatch, if_neg (not_heldBack helig hheld), hwait]

/-! ## The dispatch (03 R99) -/

theorem leaveLow_sch (s : State) : s.leaveLow.sch = s.sch := by rw [leaveLow_same]

theorem leaveLow_burstAt (s : State) (r : Nat) : s.leaveLow.burstAt r = s.burstAt r := by
  rw [State.burstAt, leaveLow_ve, State.burstAt]

theorem leaveLow_taskAt (s : State) (i : Nat) : s.leaveLow.taskAt i = s.taskAt i := by
  rw [State.taskAt, leaveLow_sch, State.taskAt]

theorem freeTask_taskAt (s : State) (i : Nat) : (s.freeTask i).taskAt i = none := by
  unfold State.freeTask
  dsimp only
  split
  · exact State.delTask_same s i
  · exact State.delTask_same s i

/-- A dispatch puts a burst on its runner. -/
theorem dispatch_burstAt (s : State) (i : Nat) (t : TaskSt) (r d e : Nat) :
    ((s.dispatch i t r d e).burstAt r).isSome = true := by
  unfold State.dispatch
  dsimp only
  rw [leaveLow_burstAt]
  exact congrArg Option.isSome (State.putBurst_same _ r _)

/-- A dispatched task has left the matching store. -/
theorem dispatch_taskAt (s : State) (i : Nat) (t : TaskSt) (r d e : Nat) :
    (s.dispatch i t r d e).taskAt i = none := by
  unfold State.dispatch
  dsimp only
  rw [leaveLow_taskAt]
  exact freeTask_taskAt _ i

end

end Sys2Proof
end

section
/-!
The statement about the try to dispatch a ready task.
-/

namespace Sys2Proof

open Sys2Proof.Machine

/-- Settles O35: each clause is the try to dispatch under its verdict. -/
theorem taskDispatchFollowsItsVerdict : Obligations.TaskDispatchFollowsItsVerdict := by
  intro i t s ht helig hheld
  refine ⟨fun r d e hgo hnext => ?_, fun st ws hrefuse => ?_, fun hstale => ?_, fun hwait => ?_⟩
  · have hexec : exec (.taskDispatch i) s = .next (s.dispatch i.val t r d e) := by
      rw [taskDispatch_of_task ht, tryDispatch_of_go helig hheld hgo hnext]
    exact ⟨hexec, _, hexec, dispatch_burstAt .., dispatch_taskAt ..⟩
  · rw [taskDispatch_of_task ht, tryDispatch_of_refuse helig hheld hrefuse]
  · rw [taskDispatch_of_task ht, tryDispatch_of_stale helig hheld hstale]
  · rw [taskDispatch_of_task ht, tryDispatch_of_wait helig hheld hwait]

end Sys2Proof
end

section
/-!
SUPPORT. What the rows of sensors and thermal stages do: one equation per row and case (10 R292; 15 R420 to R427).
-/

namespace Sys2Proof

open Sys2Proof.Machine

section
variable {s : State} {n : Sensor}

/-! ## Readings (15 R421) -/

theorem exec_sensorRead (n : Sensor) (reading second : Option Int) (s : State) :
    exec (.sensorRead n reading second) s = execSensorRead n reading second s := rfl

/-- No reading for 10 ms breaks a sensor. -/
theorem sensorRead_none_of_stale (hstale : (s.snsAt n.val).lastRead + 10000000 < s.now) :
    exec (.sensorRead n none none) s = .next (s.breakSensor n.val 2) := by
  rw [exec_sensorRead, execSensorRead]
  exact congrArg _ (if_pos hstale)

theorem sensorRead_none_of_fresh (hfresh : s.now ≤ (s.snsAt n.val).lastRead + 10000000) :
    exec (.sensorRead n none none) s = .next s := by
  rw [exec_sensorRead, execSensorRead]
  exact congrArg _ (if_neg (Nat.not_lt.2 hfresh))

/-- The state that holds a reading of a sensor. -/
def heldReading (s : State) (n : Sensor) (v : Int) : State :=
  s.updSns n.val (fun x => { x with raw := some v, lastRead := s.now })

theorem sensorRead_out_of_range {v : Int} (second : Option Int) (hrange : v < -4000 ∨ 15000 < v) :
    exec (.sensorRead n (some v) second) s = .next ((heldReading s n v).breakSensor n.val 1).cooled := by
  rw [exec_sensorRead, execSensorRead]
  exact congrArg (fun t : State => (.next t.cooled : Out)) (if_pos hrange)

/-- A sensor without a neighbour is compared with its second element. -/
theorem sensorRead_in_range {v : Int} (second : Option Int) (hlow : -4000 ≤ v) (hhigh : v ≤ 15000)
    (hn : neighbour n.val = none) :
    exec (.sensorRead n (some v) second) s = .next ((heldReading s n v).compareSns n.val v second).cooled := by
  rw [exec_sensorRead, execSensorRead]
  dsimp only
  rw [hn]
  exact congrArg (fun t : State => (.next t.cooled : Out)) (if_neg (not_or.2 ⟨not_lt.2 hlow, not_lt.2 hhigh⟩))

theorem compareSns_none (s : State) (k : Nat) (v : Int) : s.compareSns k v none = s.goodReading k := rfl

theorem compareSns_of_near {v w : Int} (s : State) (k : Nat) (hnear : (v - w).natAbs ≤ 1500) :
    s.compareSns k v (some w) = s.goodReading k := if_neg (Nat.not_lt.2 hnear)

theorem exec_sensorRestore (n : Sensor) (s : State) : exec (.sensorRestore n) s = execSensorRestore n s := rfl

/-- A broken sensor that is not latched comes back 1 s after its readings became good. -/
theorem sensorRestore_of_good {t0 : Nat} (hgood : (s.snsAt n.val).goodSince = some t0)
    (hbroken : (s.snsAt n.val).broken ≠ 0) (hlatched : (s.snsAt n.val).latched = false) :
    let u := (s.moveTo (t0 + 1000000000)).updSns n.val (fun x =>
      { x with broken := 0, fencing := x.fencing && decide (20 ≤ n.val) && decide (n.val < 28), goodSince := none })
    let v := (u.liftSensor n.val).event (0x010 + n.val) [4]
    exec (.sensorRestore n) s = .next ((v.stages n.val).followStop (0x010 + n.val)).recompute := by
  rw [exec_sensorRestore, execSensorRestore]
  dsimp only
  rw [hgood]
  exact congrArg _ (if_pos ⟨hbroken, hlatched⟩)

/-! ## Stages (15 R423, R424) -/

theorem exec_throttleDwellComplete (stack : Option Stack) (s : State) :
    exec (.throttleDwellComplete stack) s = execThrottleDwellComplete stack s := rfl

theorem throttleDwellComplete_of_die {t0 : Nat} {temp : Int} (hdwell : s.pwr.therm.dieDwell = some t0)
    (htemp : s.hotValid (List.range 24) = some temp) :
    let u := s.moveTo (t0 + 49000000)
    exec (.throttleDwellComplete none) s = .next
      ((({ u with pwr.therm := { u.pwr.therm with dieThrottle := true, dieDwell := none } } : State).event 0x040
        [word32 temp]).recompute) := by
  rw [exec_throttleDwellComplete, execThrottleDwellComplete, hdwell, htemp]

theorem throttleDwellComplete_of_stack {k : Stack} {t0 : Nat}
    (hdwell : Tbl.find s.pwr.therm.hbmDwell k.val = some t0) :
    let u := s.moveTo (t0 + 49000000)
    let v : State := { u with pwr.therm := { u.pwr.therm with hbmDwell := Tbl.del s.pwr.therm.hbmDwell k.val } }
    exec (.throttleDwellComplete (some k)) s = .next
      ((v.updStack k.val (fun x => { x with throttle := true })).event 0x043 [k.val]) := by
  rw [exec_throttleDwellComplete, execThrottleDwellComplete, hdwell]
  rfl

/-! ## Trips (15 R423, R427) -/

theorem exec_thermalTrip (n : Sensor) (s : State) : exec (.thermalTrip n) s = execThermalTrip n s := rfl

/-- A sensor that is neither broken nor latched trips the die or the input converter. -/
theorem thermalTrip_of_valid (hbroken : (s.snsAt n.val).broken = 0) (hlatched : (s.snsAt n.val).latched = false) :
    exec (.thermalTrip n) s = .next
      (if n.val < 24 then s.event 0x042 [n.val] else if n.val = 46 then s.event 0x046 else s) := by
  have hvalid : ¬ ((s.snsAt n.val).broken ≠ 0 ∨ (s.snsAt n.val).latched = true) := by simp [hbroken, hlatched]
  rw [exec_thermalTrip, execThermalTrip]
  exact congrArg _ (if_neg hvalid)

theorem exec_inconvShutdown (s : State) : exec .inconvShutdown s = execInconvShutdown s := rfl

/-- The input converter stops 2 ms after its trip; the trip and the reading of its sensor stay. -/
theorem inconvShutdown_of_trip (htrip : s.pwr.therm.inTrip = true) (hreleased : s.pwr.sup.released = true) :
    let u := (s.moveTo (s.pwr.therm.tripAt + 2000000)).supplyResetBy true 3
    exec .inconvShutdown s = .next
      (({ u with pwr.therm := { u.pwr.therm with inTrip := true } } : State).updSns 46 (fun x =>
        { x with raw := (s.snsAt 46).raw })) := by
  rw [exec_inconvShutdown, execInconvShutdown]
  exact congrArg _ (if_pos ⟨htrip, hreleased⟩)

/-! ## The orderly stop (10 R292) -/

theorem exec_stopGraceExpiry (s : State) : exec .stopGraceExpiry s = execStopGraceExpiry s := rfl

theorem stopGraceExpiry_of_stop {t0 : Nat} (hstop : s.pwr.therm.stop = some t0) :
    let u := s.moveTo (t0 + 1000000 * s.parN 9 0 0x016)
    exec .stopGraceExpiry s = .next
      ((u.runnersBy (fun b => b.live)).foldl (fun s r => s.endBurst r .stop (invalidRes rTHERMAL)) u) := by
  rw [exec_stopGraceExpiry, execStopGraceExpiry, hstop]

theorem stopGraceExpiry_of_no_stop (hstop : s.pwr.therm.stop = none) : exec .stopGraceExpiry s = .next s := by
  rw [exec_stopGraceExpiry, execStopGraceExpiry, hstop]

end

end Sys2Proof
end

section
/-!
The statement about sensors and thermal stages.
-/

namespace Sys2Proof

open Sys2Proof.Machine

/-- Settles O55: each clause is the equation of its row in the case that its hypotheses name. -/
theorem thermalRows : Obligations.ThermalRows := by
  intro s
  refine ⟨fun _ => sensorRead_none_of_stale, fun _ => sensorRead_none_of_fresh,
    fun n v second => ⟨sensorRead_out_of_range second, fun hlow hhigh hn hsecond => ?_,
      fun w hlow hhigh hn hsecond hnear => ?_⟩,
    fun _ _ => sensorRestore_of_good, fun _ _ => throttleDwellComplete_of_die,
    fun _ _ => throttleDwellComplete_of_stack, fun n hbroken hlatched => ⟨fun hdie => ?_, fun hconv => ?_⟩,
    inconvShutdown_of_trip, fun _ => stopGraceExpiry_of_stop, stopGraceExpiry_of_no_stop⟩
  · rw [sensorRead_in_range second hlow hhigh hn, hsecond, compareSns_none, heldReading]
  · rw [sensorRead_in_range second hlow hhigh hn, hsecond, compareSns_of_near _ _ hnear, heldReading]
  · rw [thermalTrip_of_valid hbroken hlatched, if_pos hdie]
  · rw [thermalTrip_of_valid hbroken hlatched, if_neg (by omega), if_pos hconv]

end Sys2Proof
end

section
/-!
SUPPORT. What a port that is up does with what arrives: one lemma per check of a block or frame, one equation per row and
case (10 R294, R296, R298; 12 R327 to R352; 16 R438).
-/

namespace Sys2Proof

open Sys2Proof.Machine

/-! ## Blocks (12 R330, R332) -/

section
variable {s : State} {p : Nat} {act : State → State}

theorem takeBlock_of_good {bits : Nat} {crc : BitVec 8} (hcrc : crc = crc8 bits) :
    s.takeBlock p bits crc act = act s := if_pos hcrc

/-- Bad copies are counted; the block acts unless both are bad. -/
theorem takeC0_eq (s : State) (p : Nat) (bits : Nat → Nat) (crcs : BitVec 8 × BitVec 8) (act : State → State)
    {bad0 bad1 : Bool} (h0 : decide (crcs.1 ≠ crc8 (bits 0)) = bad0) (h1 : decide (crcs.2 ≠ crc8 (bits 1)) = bad1) :
    s.takeC0 p bits crcs act =
      if bad0 && bad1 then s.blockErrors p (b2n bad0 + b2n bad1) else act (s.blockErrors p (b2n bad0 + b2n bad1)) := by
  rw [State.takeC0, h0, h1]

theorem takeC0_of_good {bits : Nat → Nat} {crcs : BitVec 8 × BitVec 8} (h0 : crcs.1 = crc8 (bits 0))
    (h1 : crcs.2 = crc8 (bits 1)) : s.takeC0 p bits crcs act = act s :=
  takeC0_eq s p bits crcs act (bad0 := false) (bad1 := false) (by simp [h0]) (by simp [h1])

theorem takeC0_of_first_good {bits : Nat → Nat} {crcs : BitVec 8 × BitVec 8} (h0 : crcs.1 = crc8 (bits 0))
    (h1 : crcs.2 ≠ crc8 (bits 1)) : s.takeC0 p bits crcs act = act (s.blockErrors p 1) :=
  takeC0_eq s p bits crcs act (bad0 := false) (bad1 := true) (by simp [h0]) (by simp [h1])

theorem takeC0_of_second_good {bits : Nat → Nat} {crcs : BitVec 8 × BitVec 8} (h0 : crcs.1 ≠ crc8 (bits 0))
    (h1 : crcs.2 = crc8 (bits 1)) : s.takeC0 p bits crcs act = act (s.blockErrors p 1) :=
  takeC0_eq s p bits crcs act (bad0 := true) (bad1 := false) (by simp [h0]) (by simp [h1])

theorem takeC0_of_bad {bits : Nat → Nat} {crcs : BitVec 8 × BitVec 8} (h0 : crcs.1 ≠ crc8 (bits 0))
    (h1 : crcs.2 ≠ crc8 (bits 1)) : s.takeC0 p bits crcs act = s.blockErrors p 2 :=
  takeC0_eq s p bits crcs act (bad0 := true) (bad1 := true) (by simp [h0]) (by simp [h1])

end

/-! ## Frames (12 R333, R336) -/

/-- The port has received the C1 frame that it expected. -/
def tookC1 (s : State) (p : Nat) : State :=
  s.updPort p (fun x => { x with rxSeq := (x.rxSeq + 1) % 4096, lastRx := x.rxSeq })

/-- The port has received the C2 frame that it expected. -/
def tookC2 (s : State) (p : Nat) : State :=
  s.updPort p (fun x => { x with rxSeq2 := (x.rxSeq2 + 1) % 4096, lastRx := x.rxSeq2 })

section
variable {s : State} {p : Nat} {h : FrameHdr} {f : Frame} {act : State → State}

theorem takeFrame_of_good (hgood : frameGood h f = true) (hcls : f.cls ≠ 3) :
    s.takeFrame p h f act =
      if h.seq = (s.portAt p).nextSeq f.cls then act (s.updPort p (fun x => x.gotSeq f.cls))
      else if ((s.portAt p).nextSeq f.cls + 4096 - h.seq) % 4096 ≤ 32 then s.sendFlow p 0
      else s.sendNak p := by
  rw [State.takeFrame, hgood, Bool.not_true, if_neg Bool.false_ne_true, if_neg hcls]

/-- A bad C1 frame is counted and asked for again. -/
theorem takeFrame_of_badC1 (hbad : frameGood h f = false) (hcls : f.cls = 1) :
    s.takeFrame p h f act = (s.blockErrors p 1).sendNak p := by
  rw [State.takeFrame, hbad, Bool.not_false, if_pos rfl]
  exact if_neg (by omega)

/-- A C1 frame in order acts. -/
theorem takeFrame_of_nextC1 (hgood : frameGood h f = true) (hcls : f.cls = 1) (hseq : h.seq = (s.portAt p).rxSeq) :
    s.takeFrame p h f act = act (tookC1 s p) := by
  rw [takeFrame_of_good hgood (by omega), hcls]
  exact if_pos hseq

/-- A C1 frame that has come before is acknowledged again. -/
theorem takeFrame_of_pastC1 (hgood : frameGood h f = true) (hcls : f.cls = 1) (hseq : h.seq ≠ (s.portAt p).rxSeq)
    (hpast : ((s.portAt p).rxSeq + 4096 - h.seq) % 4096 ≤ 32) : s.takeFrame p h f act = s.sendFlow p 0 := by
  rw [takeFrame_of_good hgood (by omega), hcls]
  exact (if_neg hseq).trans (if_pos hpast)

/-- Before a C1 frame out of order one is missing. -/
theorem takeFrame_of_gapC1 (hgood : frameGood h f = true) (hcls : f.cls = 1) (hseq : h.seq ≠ (s.portAt p).rxSeq)
    (hgap : 32 < ((s.portAt p).rxSeq + 4096 - h.seq) % 4096) : s.takeFrame p h f act = s.sendNak p := by
  rw [takeFrame_of_good hgood (by omega), hcls]
  exact (if_neg hseq).trans (if_neg (Nat.not_le.2 hgap))

/-- A C2 frame in order acts. -/
theorem takeFrame_of_nextC2 (hgood : frameGood h f = true) (hcls : f.cls = 2) (hseq : h.seq = (s.portAt p).rxSeq2) :
    s.takeFrame p h f act = act (tookC2 s p) := by
  rw [takeFrame_of_good hgood (by omega), hcls]
  exact if_pos hseq

/-- Frames of C3 are in no order. -/
theorem takeFrame_of_C3 (hgood : frameGood h f = true) (hcls : f.cls = 3) : s.takeFrame p h f act = act s := by
  rw [State.takeFrame, hgood, Bool.not_true, if_neg Bool.false_ne_true, if_pos hcls]

end

theorem not_portDown {s : State} {p : Nat} (hup : s.portUp p = true) : ¬ (!s.portUp p) = true := by
  rw [hup]
  exact Bool.false_ne_true

section
variable {s : State} {port : Port}

/-! ## Triggers and stops (12 R330, R348, R351) -/

theorem exec_c0TriggerReceive (rx : C0Rx) (dom : Dom) (number : NTrg) (tShort t : Nat) (s : State) :
    exec (.c0TriggerReceive rx dom number tShort t) s = execC0TriggerReceive rx dom number tShort t s := rfl

/-- What a trigger that arrives on a port does: it goes on to the other ports, and acts here. -/
def triggerCame (port : Port) (dom : Dom) (number : NTrg) (tShort : Nat) (s : State) : State :=
  let full := nearest (2 ^ 32) (s.domTime dom.val) tShort
  let v := s.broadcast (some port.val) (fun s p => s.queueC0 p (.trig dom number full))
  v.receiveTrig number (if v.isMaster dom.val then full else v.toModule dom.val full) v.now

theorem c0TriggerReceive_of_up (dom : Dom) (number : NTrg) (tShort : Nat) (crcs : BitVec 8 × BitVec 8) (t : Nat)
    (hup : s.portUp port.val = true) :
    exec (.c0TriggerReceive ⟨port, crcs⟩ dom number tShort t) s = .next
      ((s.moveTo t).takeC0 port.val (trigBits dom.val number.val tShort) crcs (triggerCame port dom number tShort)) := by
  rw [exec_c0TriggerReceive, execC0TriggerReceive]
  exact congrArg _ (if_pos hup)

theorem exec_c0StopReceive (rx : C0Rx) (all : Bool) (linkId : Nat) (cause : StopCause) (node : Nat) (s : State) :
    exec (.c0StopReceive rx all linkId cause node) s = execC0StopReceive rx all linkId cause node s := rfl

theorem c0StopReceive_of_up (all : Bool) (linkId result reason node : Nat) (crcs : BitVec 8 × BitVec 8)
    (hup : s.portUp port.val = true) :
    exec (.c0StopReceive ⟨port, crcs⟩ all linkId ⟨result, reason⟩ node) s = .next
      (s.takeC0 port.val (stopBits all linkId result reason node) crcs (fun s =>
        (s.broadcast (some port.val) (fun s p => s.queueC0 p (.stop all linkId result reason node))).stopAct all linkId
          (stopResult result reason))) := by
  rw [exec_c0StopReceive, execC0StopReceive]
  exact congrArg _ (if_pos hup)

/-! ## Link delay (12 R332, R340) -/

theorem exec_echoSend (port : Port) (s : State) : exec (.echoSend port) s = execEchoSend port s := rfl

theorem echoSend_of_up (hup : s.portUp port.val = true) :
    let u := s.moveTo (s.portAt port.val).echoDue
    exec (.echoSend port) s = .next
      ((u.updPort port.val (fun x => { x with echoDue := u.now + 100000 })).queueC0 port.val (.echoReq u.now)) := by
  rw [exec_echoSend, execEchoSend]
  exact congrArg _ (if_pos hup)

theorem exec_echoRequestReceive (rx : BlockRx) (sendTime t : Nat) (s : State) :
    exec (.echoRequestReceive rx sendTime t) s = execEchoRequestReceive rx sendTime t s := rfl

theorem echoRequestReceive_of_good {sent t0 : Nat} {crc : BitVec 8} (hup : s.portUp port.val = true)
    (hcrc : crc = crc8 (echoBits false sent)) :
    exec (.echoRequestReceive ⟨port, crc⟩ sent t0) s = .next ((s.moveTo t0).queueC0 port.val (.echoReply t0)) := by
  rw [exec_echoRequestReceive, execEchoRequestReceive]
  exact congrArg _ ((if_pos hup).trans (takeBlock_of_good hcrc))

theorem exec_echoReplyReceive (rx : BlockRx) (t1 t4 turn : Nat) (s : State) :
    exec (.echoReplyReceive rx t1 t4 turn) s = execEchoReplyReceive rx t1 t4 turn s := rfl

/-- One exchange in units of 2^-16 ns: half the round trip and the calibration constant of the port. -/
def echoExchange (s : State) (p t1 t4 turn : Nat) : Int :=
  (((t4 : Int) - t1 - turn) * 128 + s.par (pid 11 p 0x012)) / 2

/-- Before 64 exchanges the mean is not valid and tells nothing. -/
theorem echoReplyReceive_before_valid {t1 t4 turn : Nat} {crc : BitVec 8} (hup : s.portUp port.val = true)
    (hcrc : crc = crc8 (echoBits true turn)) (hvalid : (s.portAt port.val).delayValid = false)
    (hfew : (s.portAt port.val).echoes.length < 63) :
    let l := echoExchange s port.val t1 t4 turn :: (s.portAt port.val).echoes
    exec (.echoReplyReceive ⟨port, crc⟩ t1 t4 turn) s = .next
      (s.updPort port.val (fun x => { x with echoes := l, delay := meanDelay l, delayValid := false })) := by
  have hlength : (echoExchange s port.val t1 t4 turn :: (s.portAt port.val).echoes).length < 64 := Nat.succ_lt_succ hfew
  have htake := List.take_of_length_le hlength.le
  have hshort := decide_eq_false hlength.ne
  rw [exec_echoReplyReceive, execEchoReplyReceive]
  refine congrArg _ ((if_pos hup).trans ((takeBlock_of_good hcrc).trans ?_))
  unfold echoExchange at htake hshort ⊢
  dsimp only
  rw [htake, hshort, hvalid]
  rfl

/-! ## Flow control (12 R332, R335, R336) -/

theorem exec_flowReceive (rx : BlockRx) (xoff : Bool) (credits ack : Nat) (nak : Bool) (s : State) :
    exec (.flowReceive rx xoff credits ack nak) s = execFlowReceive rx xoff credits ack nak s := rfl

/-- Acknowledged frames without an alarm free no source. -/
theorem freeAlarms_of_no_alarm {l : List (Nat × Frame)} (hl : ∀ f ∈ l, f.2.isAlarm = false) (s : State) :
    s.freeAlarms l = s := by
  unfold State.freeAlarms
  induction l generalizing s with
  | nil => rfl
  | cons x l ih =>
    obtain ⟨hx, hrest⟩ := List.forall_mem_cons.1 hl
    obtain ⟨seq, f⟩ := x
    rw [List.foldl_cons]
    cases f with
    | alarm => cases hx
    | _ => exact ih hrest s

/-- An acknowledgement of no frame of the replay buffer leaves it. -/
theorem ackFrames_of_absent {ack : Nat} {l : List (Nat × Frame)} (hl : ∀ f ∈ l, f.1 ≠ ack) : ackFrames ack l = ([], l) := by
  have hnone : l.findIdx? (fun x => x.1 == ack) = none :=
    List.findIdx?_eq_none_iff.2 fun f hf => beq_false_of_ne (hl f hf)
  rw [ackFrames, hnone]

/-- What a FLOW block tells of XOFF, credits and acknowledged frames. -/
def flowTold (xoff : Bool) (credits now : Nat) (done left : List (Nat × Frame)) (x : PortSt) : PortSt :=
  { x with
    xoffIn := xoff, credits := min 16 (x.credits + credits), replay := left
    ackDue := if done.isEmpty then x.ackDue else now + 10000 }

/-- A FLOW block that starts no XOFF and acknowledges no alarm changes its port alone. -/
theorem flowReceive_of_good {xoff : Bool} {credits ack : Nat} {nak : Bool} {crc : BitVec 8} {done left : List (Nat × Frame)}
    (hup : s.portUp port.val = true) (hcrc : crc = crc8 (flowBits xoff credits ack nak))
    (hxoff : xoff = false ∨ (s.portAt port.val).xoffIn = true)
    (hack : ackFrames ack (s.portAt port.val).replay = (done, left)) (hdone : ∀ f ∈ done, f.2.isAlarm = false) :
    let u := s.updPort port.val (flowTold xoff credits s.now done left)
    exec (.flowReceive ⟨port, crc⟩ xoff credits ack nak) s = .next
      (if nak && !left.isEmpty then u.replay port.val else u) := by
  have hstays : ¬ (xoff = true ∧ (s.portAt port.val).xoffIn = false) := by
    rcases hxoff with hx | hx <;> simp [hx]
  rw [exec_flowReceive, execFlowReceive]
  refine congrArg _ ((if_pos hup).trans ((takeBlock_of_good hcrc).trans ?_))
  dsimp only
  rw [hack]
  dsimp only
  rw [if_neg hstays, freeAlarms_of_no_alarm hdone]
  rfl

theorem exec_c1ReplayTimeout (port : Port) (s : State) : exec (.c1ReplayTimeout port) s = execC1ReplayTimeout port s := rfl

theorem c1ReplayTimeout_of_replay (hup : s.portUp port.val = true) (hreplay : (s.portAt port.val).replay ≠ []) :
    let u := s.moveTo (s.portAt port.val).ackDue
    exec (.c1ReplayTimeout port) s = .next
      (u.updPort port.val (fun x => { x with sent := x.sent ++ x.replay, ackDue := u.now + 10000 })) := by
  have hdue : (s.portUp port.val && !(s.portAt port.val).replay.isEmpty) = true := by simp [hup, hreplay]
  rw [exec_c1ReplayTimeout, execC1ReplayTimeout, if_pos hdue]
  rfl

/-! ## Tokens (10 R298; 12 R333) -/

theorem exec_tokenFrame (port : Port) (h : FrameHdr) (scope : Site) (kind : Fin 7) (key : Nat) (result : BitVec 16)
    (s : State) : exec (.tokenFrame port h scope kind key result) s = execTokenFrame port h scope kind key result s := rfl

/-- A token for this module is placed where it fits; it is held at the port, without its credit, where it does not. -/
def tokenCame (s : State) (p : Nat) (t : TokIn) : State :=
  if s.tokFits t then (s.placeTok t).wake.returnCredit p else s.updPort p (fun x => { x with held := some (t, s.now) })

section
variable {h : FrameHdr}

/-- What a token frame taken in order does: it goes on toward its node, or its token comes; a LINK token comes to the
local site of its LINK_ID. -/
def tokenTaken (p : Nat) (h : FrameHdr) (t : TokIn) (s : State) : State :=
  if h.dst ≠ s.node then s.passC1 p h.dst (.token h.dst h.src t)
  else if t.kind = 6 then
    match s.linkSite t.key with
    | some (k, _) => tokenCame s p { t with scope := toFin 128 k (by decide) }
    | none => s.returnCredit p
  else tokenCame s p t

/-- A port that holds no token takes the next token frame in order. -/
theorem tokenFrame_of_next {scope : Site} {kind : Fin 7} {key : Nat} {result : BitVec 16}
    (hup : s.portUp port.val = true) (hheld : (s.portAt port.val).held = none)
    (hgood : frameGood h (.token h.dst h.src { scope, kind := kind.val, key, result := result.toNat }) = true)
    (hseq : h.seq = (s.portAt port.val).rxSeq) :
    exec (.tokenFrame port h scope kind key result) s = .next
      (tokenTaken port.val h { scope, kind := kind.val, key, result := result.toNat } (tookC1 s port.val)) := by
  have hfree : ¬ (!s.portUp port.val || (s.portAt port.val).held.isSome) = true := by simp [hup, hheld]
  rw [exec_tokenFrame, execTokenFrame]
  exact congrArg _ ((if_neg hfree).trans (takeFrame_of_nextC1 hgood rfl hseq))

variable {p : Nat} {t : TokIn}

theorem tokenTaken_of_other_node (hdst : h.dst ≠ s.node) :
    tokenTaken p h t s = s.passC1 p h.dst (.token h.dst h.src t) := if_pos hdst

theorem tokenTaken_of_this_node (hdst : h.dst = s.node) (hkind : t.kind ≠ 6) : tokenTaken p h t s = tokenCame s p t := by
  rw [tokenTaken, if_neg (not_not_intro hdst), if_neg hkind]

theorem tokenTaken_places (hdst : h.dst = s.node) (hkind : t.kind ≠ 6) (hfits : s.tokFits t = true) :
    tokenTaken p h t s = (s.placeTok t).wake.returnCredit p := by
  rw [tokenTaken_of_this_node hdst hkind, tokenCame, if_pos hfits]

theorem tokenTaken_holds (hdst : h.dst = s.node) (hkind : t.kind ≠ 6) (hfits : s.tokFits t = false) :
    tokenTaken p h t s = s.updPort p (fun x => { x with held := some (t, s.now) }) := by
  rw [tokenTaken_of_this_node hdst hkind, tokenCame, hfits, if_neg Bool.false_ne_true]

theorem tokenTaken_of_unknown_link (hdst : h.dst = s.node) (hkind : t.kind = 6) (hlink : s.linkSite t.key = none) :
    tokenTaken p h t s = s.returnCredit p := by
  rw [tokenTaken, if_neg (not_not_intro hdst), if_pos hkind, hlink]

/-! ## READY and results of members (10 R294, R296) -/

theorem exec_linkReadyFrame (port : Port) (ends : FrameEnds) (fcs : FrameSeal) (linkId : Nat) (s : State) :
    exec (.linkReadyFrame port ends fcs linkId) s = execLinkReadyFrame port ends fcs linkId s := rfl

theorem linkReadyFrame_of_up (h : FrameHdr) (linkId : Nat) (hup : s.portUp port.val = true) :
    exec (.linkReadyFrame port h.toFrameEnds h.toFrameSeal linkId) s = .next
      (s.takeFrame port.val h (.linkReady h.dst h.src linkId) (fun s =>
        if h.dst ≠ s.node then s.passC1 port.val h.dst (.linkReady h.dst h.src linkId)
        else (s.linkReady linkId h.src).returnCredit port.val)) := by
  rw [exec_linkReadyFrame, execLinkReadyFrame]
  exact congrArg _ (if_neg (not_portDown hup))

theorem exec_linkResultFrame (port : Port) (ends : FrameEnds) (fcs : FrameSeal) (linkId : Nat) (result : BitVec 16)
    (s : State) : exec (.linkResultFrame port ends fcs linkId result) s =
      execLinkResultFrame port ends fcs linkId result s := rfl

theorem linkResultFrame_of_up (h : FrameHdr) (linkId : Nat) (result : BitVec 16) (hup : s.portUp port.val = true) :
    exec (.linkResultFrame port h.toFrameEnds h.toFrameSeal linkId result) s = .next
      (s.takeFrame port.val h (.linkResult h.dst h.src linkId result.toNat) (fun s =>
        if h.dst ≠ s.node then s.passC1 port.val h.dst (.linkResult h.dst h.src linkId result.toNat)
        else (s.linkResult linkId h.src result.toNat s.now).returnCredit port.val)) := by
  rw [exec_linkResultFrame, execLinkResultFrame]
  exact congrArg _ (if_neg (not_portDown hup))

/-! ## Announcements (12 R327) -/

theorem exec_announce (rx : FrameRx) (addr : Nat) (withdraw : Bool) (s : State) :
    exec (.announce rx addr withdraw) s = execAnnounce rx addr withdraw s := rfl

theorem announce_of_next {addr : Nat} {withdraw : Bool} (hup : s.portUp port.val = true) (hport : 2 ≤ port.val)
    (hgood : frameGood h (.announce h.dst h.src addr withdraw) = true) (hseq : h.seq = (s.portAt port.val).rxSeq) :
    exec (.announce ⟨port, h⟩ addr withdraw) s = .next
      (((tookC1 s port.val).returnCredit port.val).announced port.val addr withdraw) := by
  have hd : ¬ (!s.portUp port.val || decide (port.val < 2)) = true := by
    rw [hup, decide_eq_false (Nat.not_lt.2 hport)]
    exact Bool.false_ne_true
  rw [exec_announce, execAnnounce]
  exact congrArg _ ((if_neg hd).trans (takeFrame_of_nextC1 hgood rfl hseq))

theorem announced_new {addr : Nat} (hroute : Tbl.find s.ngl.route addr = none) (haddr : addr ≠ s.node) :
    s.announced p addr false =
      ({ s with ngl.route := Tbl.put s.ngl.route addr p } : State).toParent addr false := by
  rw [State.announced, if_neg Bool.false_ne_true, hroute]
  exact if_neg haddr

theorem announced_conflict {addr q : Nat} (hroute : Tbl.find s.ngl.route addr = some q) (hq : q ≠ p) :
    s.announced p addr false = s.event (0x0C5 + 8 * p) := by
  rw [State.announced, if_neg Bool.false_ne_true, hroute]
  exact if_neg hq

theorem announced_withdrawn {addr : Nat} (hroute : Tbl.find s.ngl.route addr = some p) :
    s.announced p addr true = ({ s with ngl.route := Tbl.del s.ngl.route addr } : State).toParent addr true := by
  rw [State.announced, if_pos rfl, if_pos hroute]

/-! ## Times and labels (12 R343, R352) -/

theorem exec_timeSet (rx : FrameRx) (dom : Dom) (master hops time : Nat) (s : State) :
    exec (.timeSet rx dom master hops time) s = execTimeSet rx dom master hops time s := rfl

/-- What a TIME_SET on the port of its domain does once its credit has gone back. -/
def timeSetTaken (p : Nat) (dom : Dom) (master hops time : Nat) (s : State) : State :=
  if s.nglMode = 1 ∧ s.parN 11 0 0x003 < 2 * hops then (s.event 0x0F8).c0Cond p 2
  else
    let v := s.updDom dom.val (fun x => { x with master, hops })
    if v.ngl.tm.joined = true ∨ (v.portAt p).delayValid = false then v else v.joinTime dom.val time

theorem timeSet_of_next {dom : Dom} {master hops time : Nat} (hup : s.portUp port.val = true)
    (hdom : s.domPort dom.val = port.val) (hgood : frameGood h (.timeSet h.dst h.src dom master hops time) = true)
    (hseq : h.seq = (s.portAt port.val).rxSeq) :
    exec (.timeSet ⟨port, h⟩ dom master hops time) s = .next
      (timeSetTaken port.val dom master hops time ((tookC1 s port.val).returnCredit port.val)) := by
  have hon : ¬ ((tookC1 s port.val).returnCredit port.val).domPort dom.val ≠ port.val := not_not_intro hdom
  rw [exec_timeSet, execTimeSet]
  refine congrArg _ ((if_neg (not_portDown hup)).trans ((takeFrame_of_nextC1 hgood rfl hseq).trans ?_))
  exact if_neg hon

section
variable {dom : Dom} {master hops : Nat} (time : Nat)

theorem timeSetTaken_too_deep (hmode : s.nglMode = 1) (hhops : s.parN 11 0 0x003 < 2 * hops) :
    timeSetTaken p dom master hops time s = (s.event 0x0F8).c0Cond p 2 := if_pos ⟨hmode, hhops⟩

theorem timeSetTaken_joined (hmode : s.nglMode ≠ 1)
    (hjoined : (s.updDom dom.val (fun x => { x with master, hops })).ngl.tm.joined = true) :
    timeSetTaken p dom master hops time s = s.updDom dom.val (fun x => { x with master, hops }) := by
  rw [timeSetTaken, if_neg fun hdeep => hmode hdeep.1]
  exact if_pos (.inl hjoined)

theorem timeSetTaken_joins (hmode : s.nglMode ≠ 1)
    (hjoined : (s.updDom dom.val (fun x => { x with master, hops })).ngl.tm.joined = false)
    (hvalid : ((s.updDom dom.val (fun x => { x with master, hops })).portAt p).delayValid = true) :
    timeSetTaken p dom master hops time s =
      (s.updDom dom.val (fun x => { x with master, hops })).joinTime dom.val time := by
  rw [timeSetTaken, if_neg fun hdeep => hmode hdeep.1]
  exact if_neg (by simp [hjoined, hvalid])

end

theorem exec_timeLabel (rx : FrameRx) (dom : Dom) (seconds t : Nat) (s : State) :
    exec (.timeLabel rx dom seconds t) s = execTimeLabel rx dom seconds t s := rfl

theorem timeLabel_of_next {dom : Dom} {seconds t0 : Nat} (hup : s.portUp port.val = true)
    (hgood : frameGood h (.timeLabel h.src dom seconds t0) = true) (hseq : h.seq = (s.portAt port.val).rxSeq) :
    let u := ((tookC1 s port.val).returnCredit port.val).broadcast (some port.val) (fun s p =>
      s.queueC1 p (.timeLabel h.src dom seconds t0))
    exec (.timeLabel ⟨port, h⟩ dom seconds t0) s = .next (u.label seconds (u.toModule dom.val t0)) := by
  rw [exec_timeLabel, execTimeLabel]
  exact congrArg _ ((if_pos hup).trans (takeFrame_of_nextC1 hgood rfl hseq))

/-! ## Alarms and logs at the sink (16 R438) -/

theorem exec_alarmFrame (port : Port) (ends : FrameEnds) (fcs : FrameSeal) (event : Src) (count time : Nat) (s : State) :
    exec (.alarmFrame port ends fcs event count time) s = execAlarmFrame port ends fcs event count time s := rfl

theorem alarmFrame_at_sink {event : Src} {count time : Nat} (hup : s.portUp port.val = true)
    (hgood : frameGood h (.alarm h.dst h.src event count time) = true) (hseq : h.seq = (s.portAt port.val).rxSeq2)
    (hdst : h.dst = s.node) :
    exec (.alarmFrame port h.toFrameEnds h.toFrameSeal event count time) s = .next
      (((tookC2 s port.val).sendFlow port.val 0).remote
        { source := event.val, react := 2, coalesced := true, remote := true, count, time, node := h.src
          firstShort := shortTime time }) := by
  have hhere : ¬ h.dst ≠ ((tookC2 s port.val).sendFlow port.val 0).node := not_not_intro hdst
  rw [exec_alarmFrame, execAlarmFrame]
  refine congrArg _ ((if_neg (not_portDown hup)).trans ((takeFrame_of_nextC2 hgood rfl hseq).trans ?_))
  exact if_neg hhere

theorem exec_logFrame (port : Port) (ends : FrameEnds) (fcs : FrameSeal) (rec : WireRec) (s : State) :
    exec (.logFrame port ends fcs rec) s = execLogFrame port ends fcs rec s := rfl

theorem logFrame_at_sink {rec : WireRec} (hup : s.portUp port.val = true)
    (hgood : frameGood h (.log h.dst h.src rec) = true) (hdst : h.dst = s.node) :
    exec (.logFrame port h.toFrameEnds h.toFrameSeal rec) s = .next
      (s.remote { wireToRec rec with remote := true, node := h.src }) := by
  rw [exec_logFrame, execLogFrame]
  refine congrArg _ ((if_neg (not_portDown hup)).trans ((takeFrame_of_C3 hgood rfl).trans ?_))
  exact if_neg (not_not_intro hdst)

theorem exec_logDrop (port : Port) (ends : FrameEnds) (fcs : FrameSeal) (count : Nat) (s : State) :
    exec (.logDrop port ends fcs count) s = execLogDrop port ends fcs count s := rfl

theorem logDrop_at_sink {count : Nat} (hup : s.portUp port.val = true)
    (hgood : frameGood h (.logDrop h.dst h.src count) = true) (hdst : h.dst = s.node) :
    exec (.logDrop port h.toFrameEnds h.toFrameSeal count) s = .next
      (s.remote { source := 0x7FF, react := 0, lost := true, remote := true, count, time := s.now, node := h.src
                  firstShort := shortTime s.now }) := by
  rw [exec_logDrop, execLogDrop]
  refine congrArg _ ((if_neg (not_portDown hup)).trans ((takeFrame_of_C3 hgood rfl).trans ?_))
  exact if_neg (not_not_intro hdst)

end

end

end Sys2Proof
end

section
/-!
The statement about what arrives on a port that is up.
-/

namespace Sys2Proof

open Sys2Proof.Machine

section
variable {s : State} {port : Port}

/-- A port answers a row with its own change alone. -/
theorem answers_of_updPort {c : Instr} {p : Nat} {f : PortSt → PortSt} {x : PortSt}
    (hexec : exec c s = .next (s.updPort p f)) (hx : f (s.portAt p) = x) :
    Answers c s (fun t => t.portAt p = x ∧ t = { s with ngl.port := t.ngl.port }) :=
  ⟨_, hexec, (State.updPort_same s p f).trans hx, rfl⟩

/-- A FLOW block acknowledges frames that hold no alarm, and asks for none again. -/
theorem flowReceive_acknowledges {xoff : Bool} {credits ack : Nat} {nak : Bool} {crc : BitVec 8}
    {done left : List (Nat × Frame)} (hup : s.portUp port.val = true)
    (hcrc : crc = crc8 (flowBits xoff credits ack nak)) (hxoff : xoff = false ∨ (s.portAt port.val).xoffIn = true)
    (hack : ackFrames ack (s.portAt port.val).replay = (done, left)) (hdone : ∀ f ∈ done, f.2.isAlarm = false)
    (hnak : nak = false ∨ left = []) :
    let x := s.portAt port.val
    Answers (.flowReceive ⟨port, crc⟩ xoff credits ack nak) s (fun t =>
      t.portAt port.val = { x with
        xoffIn := xoff, credits := min 16 (x.credits + credits), replay := left
        ackDue := if done = [] then x.ackDue else s.now + 10000 } ∧
      t = { s with ngl.port := t.ngl.port }) := by
  have hquiet : ¬ (nak && !left.isEmpty) = true := by
    rcases hnak with hnak | hleft
    · simp [hnak]
    · simp [hleft]
  have hexec := flowReceive_of_good hup hcrc hxoff hack hdone
  dsimp only at hexec
  rw [if_neg hquiet] at hexec
  refine answers_of_updPort hexec ?_
  cases done with
  | nil => rfl
  | cons => rfl

/-- A FLOW block with NAK that acknowledges nothing sends the replay buffer again. -/
theorem flowReceive_replays {xoff : Bool} {credits ack : Nat} {crc : BitVec 8} (hup : s.portUp port.val = true)
    (hcrc : crc = crc8 (flowBits xoff credits ack true)) (hxoff : xoff = false ∨ (s.portAt port.val).xoffIn = true)
    (habsent : ∀ f ∈ (s.portAt port.val).replay, f.1 ≠ ack) (hreplay : (s.portAt port.val).replay ≠ []) :
    let x := s.portAt port.val
    Answers (.flowReceive ⟨port, crc⟩ xoff credits ack true) s (fun t =>
      t.portAt port.val = { x with
        xoffIn := xoff, credits := min 16 (x.credits + credits), sent := x.sent ++ x.replay, ackDue := s.now + 10000 } ∧
      t = { s with ngl.port := t.ngl.port }) := by
  have hagain : (true && !(s.portAt port.val).replay.isEmpty) = true := by simp [hreplay]
  have hexec := flowReceive_of_good hup hcrc hxoff (ackFrames_of_absent habsent) (List.forall_mem_nil _)
  dsimp only at hexec
  rw [if_pos hagain] at hexec
  refine ⟨_, hexec, ?_, rfl⟩
  rw [State.replay, State.updPort_same, State.updPort_same]
  rfl

end

/-- Settles O49: each clause is the equation of its row in the case that its hypotheses name. -/
theorem linkReceiveRows : Obligations.LinkReceiveRows := by
  intro s port hup
  refine ⟨fun dom number tShort crcs t0 => ?_, fun all linkId result reason node crcs => ?_, echoSend_of_up hup,
    fun _ _ _ => echoRequestReceive_of_good hup, fun t1 t4 turn crc hcrc hvalid hfew => ?_,
    fun _ _ _ _ _ _ _ => flowReceive_acknowledges hup, fun _ _ _ _ => flowReceive_replays hup,
    c1ReplayTimeout_of_replay hup, fun h linkId => ?_, fun h scope kind key result hheld hgood hseq => ?_,
    fun h linkId hgood hseq => ?_, fun h linkId result hgood hseq => ?_,
    fun h addr withdraw hport hgood hseq => ?_, fun h dom master hops time hdom hgood hseq => ?_,
    fun _ _ _ _ => timeLabel_of_next hup, fun _ _ _ _ => alarmFrame_at_sink hup, fun _ _ => logFrame_at_sink hup,
    fun _ _ => logDrop_at_sink hup⟩
  · have hexec := c0TriggerReceive_of_up dom number tShort crcs t0 hup
    exact ⟨fun h0 h1 => hexec.trans (congrArg _ (takeC0_of_good h0 h1)),
      fun h0 h1 => hexec.trans (congrArg _ (takeC0_of_first_good h0 h1)),
      fun h0 h1 => hexec.trans (congrArg _ (takeC0_of_second_good h0 h1)),
      fun h0 h1 => hexec.trans (congrArg _ (takeC0_of_bad h0 h1))⟩
  · have hexec := c0StopReceive_of_up all linkId result reason node crcs hup
    exact ⟨fun h0 h1 => hexec.trans (congrArg _ (takeC0_of_good h0 h1)),
      fun h0 h1 => hexec.trans (congrArg _ (takeC0_of_bad h0 h1))⟩
  · have hexec := echoReplyReceive_before_valid (t1 := t1) (t4 := t4) hup hcrc hvalid hfew
    obtain ⟨t, hexec, hx, hframe⟩ := answers_of_updPort hexec rfl
    exact ⟨t, hexec, congrArg PortSt.echoes hx, congrArg PortSt.delayValid hx, congrArg PortSt.delay hx, hframe⟩
  · have hexec := linkReadyFrame_of_up h linkId hup
    exact ⟨fun hbad => hexec.trans (congrArg _ (takeFrame_of_badC1 hbad rfl)),
      fun hgood hseq hpast => hexec.trans (congrArg _ (takeFrame_of_pastC1 hgood rfl hseq hpast)),
      fun hgood hseq hgap => hexec.trans (congrArg _ (takeFrame_of_gapC1 hgood rfl hseq hgap))⟩
  · have hexec := tokenFrame_of_next hup hheld hgood hseq
    refine ⟨fun hdst => ?_, fun hdst hkind hfits => ?_, fun hdst hkind hfits => ?_, fun hdst hkind hlink => ?_⟩
    · exact hexec.trans (congrArg _ (tokenTaken_of_other_node hdst))
    · exact hexec.trans (congrArg _ (tokenTaken_places hdst hkind hfits))
    · exact hexec.trans (congrArg _ (tokenTaken_holds hdst hkind hfits))
    · exact hexec.trans (congrArg _ (tokenTaken_of_unknown_link hdst hkind hlink))
  · have hexec := (linkReadyFrame_of_up h linkId hup).trans (congrArg _ (takeFrame_of_nextC1 hgood rfl hseq))
    exact ⟨fun hdst => hexec.trans (congrArg _ (if_neg (not_not_intro hdst))),
      fun hdst => hexec.trans (congrArg _ (if_pos hdst))⟩
  · have hexec := (linkResultFrame_of_up h linkId result hup).trans (congrArg _ (takeFrame_of_nextC1 hgood rfl hseq))
    exact ⟨fun hdst => hexec.trans (congrArg _ (if_neg (not_not_intro hdst))),
      fun hdst => hexec.trans (congrArg _ (if_pos hdst))⟩
  · have hexec := announce_of_next hup hport hgood hseq
    refine ⟨fun hstays hroute haddr => ?_, fun q hstays hroute hq => ?_, fun hgone hroute => ?_⟩
    · subst hstays
      exact hexec.trans (congrArg _ (announced_new hroute haddr))
    · subst hstays
      exact hexec.trans (congrArg _ (announced_conflict hroute hq))
    · subst hgone
      exact hexec.trans (congrArg _ (announced_withdrawn hroute))
  · have hexec := timeSet_of_next hup hdom hgood hseq
    refine ⟨fun hmode hhops => ?_, fun hmode => ⟨fun hjoined => ?_, fun hjoined hvalid => ?_⟩⟩
    · exact hexec.trans (congrArg _ (timeSetTaken_too_deep time hmode hhops))
    · exact hexec.trans (congrArg _ (timeSetTaken_joined time hmode hjoined))
    · exact hexec.trans (congrArg _ (timeSetTaken_joins time hmode hjoined hvalid))

end Sys2Proof
end

section
/-!
SUPPORT. What every command and every step keeps: the laws of Laws/ for the single meanings, put together over the
commands of the table.
-/

namespace Sys2Proof

open Sys2Proof.Machine

/-- Every command keeps the queue, the canonical form of the memory and the drawn free values. -/
theorem exec_keeps {z s : State} (hk : Keeps z s) : ∀ c : Instr, KeepsOut z (exec c s)
  | .vec e count => execVec_keeps e count s hk
  | .rpt e count => execRpt_keeps e count s hk
  | .loop e count => execLoop_keeps e count s hk
  | .endl e => execEndl_keeps e s hk
  | .call e segment => execCall_keeps e segment s hk
  | .ret e => execRet_keeps e s hk
  | .jmp e segment lpop => execJmp_keeps e segment lpop s hk
  | .jf e segment lpop clr => execJf_keeps e segment lpop clr s hk
  | .jnf e segment lpop clr => execJnf_keeps e segment lpop clr s hk
  | .matchLoop e segment maxIter sense toFail => execMatchLoop_keeps e segment maxIter sense toFail s hk
  | .matchDecide e => execMatchDecide_keeps e s hk
  | .wait e ns count => execWait_keeps e ns count s hk
  | .wtrg e trigger timeout latch toFail => execWtrg_keeps e trigger timeout latch toFail s hk
  | .wtrgTo e => execWtrgTo_keeps e s hk
  | .mark e output act => execMark_keeps e output act s hk
  | .signal e token => execSignal_keeps e token s hk
  | .tset e ts groups off => execTset_keeps e ts groups off s hk
  | .stream e value strm act => execStream_keeps e value strm act s hk
  | .capon e config => execCapon_keeps e config s hk
  | .capoff e config => execCapoff_keeps e config s hk
  | .stamp e mset disarm => execStamp_keeps e mset disarm s hk
  | .inj e group conv => execInj_keeps e group conv s hk
  | .failstop e en => execFailstop_keeps e en s hk
  | .halt e => execHalt_keeps e s hk
  | .controlDescriptorAct r => execControlDescriptorAct_keeps r s hk
  | .illegalOpcodeTrap e opcode => execIllegalOpcodeTrap_keeps e opcode s hk
  | .controlStoreScrub e parityError addr => execControlStoreScrub_keeps e parityError addr s hk
  | .taskDispatch ix => execTaskDispatch_keeps ix s hk
  | .loopStoreFillDone e ecc x => execLoopStoreFillDone_keeps e ecc x s hk
  | .islandFilled r g => execIslandFilled_keeps r g s hk
  | .burstStartTick r => execBurstStartTick_keeps r s hk
  | .granuleDelivered e ecc x gran => execGranuleDelivered_keeps e ecc x gran s hk
  | .positionMissing r cause mc => execPositionMissing_keeps r cause mc s hk
  | .pauseResume r => execPauseResume_keeps r s hk
  | .stretchLimitReached r => execStretchLimitReached_keeps r s hk
  | .compareResultFinal r seen => execCompareResultFinal_keeps r seen s hk
  | .asyncEventAct r => execAsyncEventAct_keeps r s hk
  | .runLimitExpiry r => execRunLimitExpiry_keeps r s hk
  | .burstEnd r => execBurstEnd_keeps r s hk
  | .burstResultFinal r => execBurstResultFinal_keeps r s hk
  | .tokenArrival scope kind key result => execTokenArrival_keeps scope kind key result s hk
  | .tokenOverflowDrain => execTokenOverflowDrain_keeps s hk
  | .waitTimeoutExpiry ix => execWaitTimeoutExpiry_keeps ix s hk
  | .admitPatienceExpiry => execAdmitPatienceExpiry_keeps s hk
  | .affPatienceExpiry ix => execAffPatienceExpiry_keeps ix s hk
  | .linkTimeoutExpiry r => execLinkTimeoutExpiry_keeps r s hk
  | .linkMemberLost site node => execLinkMemberLost_keeps site node s hk
  | .budgetRecompute => execBudgetRecompute_keeps s hk
  | .c1Stall port => execC1Stall_keeps port s hk
  | .dpsStepAdmitted site => execDpsStepAdmitted_keeps site s hk
  | .dpsSeedSweepEnd d hi lo cur => execDpsSeedSweepEnd_keeps d hi lo cur s hk
  | .dpsRampEnd d => execDpsRampEnd_keeps d s hk
  | .dpsSettled d => execDpsSettled_keeps d s hk
  | .seqDelayExpiry site => execSeqDelayExpiry_keeps site s hk
  | .seqTimeout site => execSeqTimeout_keeps site s hk
  | .dpsOffLevelReached d => execDpsOffLevelReached_keeps d s hk
  | .dischSlow d => execDischSlow_keeps d s hk
  | .windowFault d => execWindowFault_keeps d s hk
  | .senseOpen d => execSenseOpen_keeps d s hk
  | .dpsStageTrip d loopFault => execDpsStageTrip_keeps d loopFault s hk
  | .laneOvercurrent l => execLaneOvercurrent_keeps l s hk
  | .laneOvervoltage l => execLaneOvervoltage_keeps l s hk
  | .laneSeedSweepEnd l selfCheckOk => execLaneSeedSweepEnd_keeps l selfCheckOk s hk
  | .connChangeComplete done => execConnChangeComplete_keeps done s hk
  | .pmuSettled g => execPmuSettled_keeps g s hk
  | .xtrigEdge input falling t => execXtrigEdge_keeps input falling t s hk
  | .captureRingEnd u => execCaptureRingEnd_keeps u s hk
  | .streamProdUpdate h => execStreamProdUpdate_keeps h s hk
  | .streamConsRead h cons => execStreamConsRead_keeps h cons s hk
  | .epochDue => execEpochDue_keeps s hk
  | .streamError h addr => execStreamError_keeps h addr s hk
  | .rawRecordClose m => execRawRecordClose_keeps m s hk
  | .stampEdge l vcl rising stamp => execStampEdge_keeps l vcl rising stamp s hk
  | .msTimeout m => execMsTimeout_keeps m s hk
  | .freqGateClose m stamp edges => execFreqGateClose_keeps m stamp edges s hk
  | .oscTcompUpdate temp => execOscTcompUpdate_keeps temp s hk
  | .oscAgeingStep => execOscAgeingStep_keeps s hk
  | .oscWarm => execOscWarm_keeps s hk
  | .oscFault => execOscFault_keeps s hk
  | .regIntervalDue c => execRegIntervalDue_keeps c s hk
  | .injConversionStart c => execInjConversionStart_keeps c s hk
  | .conversionEnd c outputs clamp ovr => execConversionEnd_keeps c outputs clamp ovr s hk
  | .selfcalStart c => execSelfcalStart_keeps c s hk
  | .selfcalEnd c zeroMean refMean => execSelfcalEnd_keeps c zeroMean refMean s hk
  | .padcPowerupWarm c => execPadcPowerupWarm_keeps c s hk
  | .hkSlotEnd value => execHkSlotEnd_keeps value s hk
  | .rseVblank n => execRseVblank_keeps n s hk
  | .rseFrameChecked n crcs invalid syncLost => execRseFrameChecked_keeps n crcs invalid syncLost s hk
  | .rsePixelUnderrun n layer count => execRsePixelUnderrun_keeps n layer count s hk
  | .latTolReport n tol => execLatTolReport_keeps n tol s hk
  | .refreshDue x => execRefreshDue_keeps x s hk
  | .stackTempRead k reading => execStackTempRead_keeps k reading s hk
  | .retrainDue m => execRetrainDue_keeps m s hk
  | .retrainDeferExpiry m => execRetrainDeferExpiry_keeps m s hk
  | .retrainDone m good => execRetrainDone_keeps m good s hk
  | .parityAlert x sameCommandThird => execParityAlert_keeps x sameCommandThird s hk
  | .lpEntry x selfRefresh => execLpEntry_keeps x selfRefresh s hk
  | .lpExit x => execLpExit_keeps x s hk
  | .memRequestServed x cls write p addr ecc => execMemRequestServed_keeps x cls write p addr ecc s hk
  | .tickSend => execTickSend_keeps s hk
  | .tickReceive rx dom master usLo depart arrival => execTickReceive_keeps rx dom master usLo depart arrival s hk
  | .tickLoss dom => execTickLoss_keeps dom s hk
  | .timeLock => execTimeLock_keeps s hk
  | .domainRevert => execDomainRevert_keeps s hk
  | .c0TriggerReceive rx dom number tShort t => execC0TriggerReceive_keeps rx dom number tShort t s hk
  | .ngulosTriggerAct number => execNgulosTriggerAct_keeps number s hk
  | .c0StopReceive rx all linkId cause node => execC0StopReceive_keeps rx all linkId cause node s hk
  | .echoSend port => execEchoSend_keeps port s hk
  | .echoRequestReceive rx sendTime t => execEchoRequestReceive_keeps rx sendTime t s hk
  | .echoReplyReceive rx t1 t4 turnaround => execEchoReplyReceive_keeps rx t1 t4 turnaround s hk
  | .flowReceive rx xoff credits ackSeq nak => execFlowReceive_keeps rx xoff credits ackSeq nak s hk
  | .c1ReplayTimeout port => execC1ReplayTimeout_keeps port s hk
  | .tokenFrame port h scope kind key result => execTokenFrame_keeps port h scope kind key result s hk
  | .linkReadyFrame port ends fcs linkId => execLinkReadyFrame_keeps port ends fcs linkId s hk
  | .linkResultFrame port ends fcs linkId result => execLinkResultFrame_keeps port ends fcs linkId result s hk
  | .announce rx addr withdraw => execAnnounce_keeps rx addr withdraw s hk
  | .timeSet rx dom master hops t => execTimeSet_keeps rx dom master hops t s hk
  | .timeSetPeriodic => execTimeSetPeriodic_keeps s hk
  | .timeLabel rx dom seconds t => execTimeLabel_keeps rx dom seconds t s hk
  | .alarmFrame port ends fcs event count t => execAlarmFrame_keeps port ends fcs event count t s hk
  | .logFrame port ends fcs rec => execLogFrame_keeps port ends fcs rec s hk
  | .logDrop port ends fcs count => execLogDrop_keeps port ends fcs count s hk
  | .alarmSend event => execAlarmSend_keeps event s hk
  | .chimeEdge c => execChimeEdge_keeps c s hk
  | .trainBlockReceive rx phase standby refIndep farPort node rec =>
    execTrainBlockReceive_keeps rx phase standby refIndep farPort node rec s hk
  | .trainingComplete port ppm => execTrainingComplete_keeps port ppm s hk
  | .trainTimeoutExpiry port => execTrainTimeoutExpiry_keeps port s hk
  | .blockLockLoss port => execBlockLockLoss_keeps port s hk
  | .elasticOverflow port => execElasticOverflow_keeps port s hk
  | .activityDetect port => execActivityDetect_keeps port s hk
  | .fastExitFail port => execFastExitFail_keeps port s hk
  | .standbyCheckDue port ok => execStandbyCheckDue_keeps port ok s hk
  | .standbyReturn => execStandbyReturn_keeps s hk
  | .retryIntervalExpiry port => execRetryIntervalExpiry_keeps port s hk
  | .laneScanDone l counts incomplete => execLaneScanDone_keeps l counts incomplete s hk
  | .hostLinkDown h refclk => execHostLinkDown_keeps h refclk s hk
  | .hostLinkUp h rate width => execHostLinkUp_keeps h rate width s hk
  | .functionLevelReset p => execFunctionLevelReset_keeps p s hk
  | .vinMate vin => execVinMate_keeps vin s hk
  | .prechargeComplete => execPrechargeComplete_keeps s hk
  | .resetRelease ga => execResetRelease_keeps ga s hk
  | .supplyReset vinStayed => execSupplyReset_keeps vinStayed s hk
  | .vinWarn vinFilt => execVinWarn_keeps vinFilt s hk
  | .vinHigh => execVinHigh_keeps s hk
  | .vinOv vin => execVinOv_keeps vin s hk
  | .ovRecovery => execOvRecovery_keeps s hk
  | .inputLimit => execInputLimit_keeps s hk
  | .prsntNLoss => execPrsntNLoss_keeps s hk
  | .prsntNAssert => execPrsntNAssert_keeps s hk
  | .ejectNAssert => execEjectNAssert_keeps s hk
  | .ejectNRelease => execEjectNRelease_keeps s hk
  | .ejectGraceExpiry => execEjectGraceExpiry_keeps s hk
  | .ejectSafe => execEjectSafe_keeps s hk
  | .sensorRead n reading second => execSensorRead_keeps n reading second s hk
  | .sensorRestore n => execSensorRestore_keeps n s hk
  | .throttleDwellComplete stack => execThrottleDwellComplete_keeps stack s hk
  | .stopGraceExpiry => execStopGraceExpiry_keeps s hk
  | .thermalTrip n => execThermalTrip_keeps n s hk
  | .inconvShutdown => execInconvShutdown_keeps s hk
  | .pIdleMeasure power => execPIdleMeasure_keeps power s hk
  | .referenceCompUpdate => execReferenceCompUpdate_keeps s hk
  | .pllLock g => execPllLock_keeps g s hk
  | .pllUnlock g => execPllUnlock_keeps g s hk
  | .pllRelock g ok => execPllRelock_keeps g ok s hk
  | .ebFault g => execEbFault_keeps g s hk
  | .tsParity g => execTsParity_keeps g s hk
  | .islandTempRead g tIsl => execIslandTempRead_keeps g tIsl s hk
  | .tcStep l => execTcStep_keeps l s hk
  | .statDeskewStep l drive => execStatDeskewStep_keeps l drive s hk
  | .consequenceWindowClose => execConsequenceWindowClose_keeps s hk
  | .gongReadback => execGongReadback_keeps s hk
  | .fwWatchdog => execFwWatchdog_keeps s hk
  | .fabricParity => execFabricParity_keeps s hk
  | .sramUe => execSramUe_keeps s hk
  | .sramCorr => execSramCorr_keeps s hk
  | .firmwareBoot activeOk otherOk pprFailed => execFirmwareBoot_keeps activeOk otherOk pprFailed s hk
  | .bootTimeout => execBootTimeout_keeps s hk
  | .serviceLockExpiry => execServiceLockExpiry_keeps s hk
  | .msixCoalTimeout p evt => execMsixCoalTimeout_keeps p evt s hk
  | .cplDmaError p addr => execCplDmaError_keeps p addr s hk
  | .evtDmaError p addr => execEvtDmaError_keeps p addr s hk
  | .cmdTail p count written => execCmdTail_keeps p count written s hk
  | .cmdTake p => execCmdTake_keeps p s hk
  | .cmdEnable p enable => execCmdEnable_keeps p enable s hk
  | .ringStop p => execRingStop_keeps p s hk
  | .ringResume p => execRingResume_keeps p s hk
  | .cplCons p count => execCplCons_keeps p count s hk
  | .evtCons p count => execEvtCons_keeps p count s hk
  | .ferrClear p => execFerrClear_keeps p s hk
  | .linkLostClear p => execLinkLostClear_keeps p s hk
  | .partReset p key => execPartReset_keeps p key s hk
  | .modReset p key => execModReset_keeps p key s hk
  | .rlLowRead p reg => execRlLowRead_keeps p reg s hk
  | .registerWrite p offset value => execRegisterWrite_keeps p offset value s hk
  | .partResetAck p => execPartResetAck_keeps p s hk
  | .partResetComplete p => execPartResetComplete_keeps p s hk
  | .resetAckTimeout p => execResetAckTimeout_keeps p s hk
  | .sysNop p tag => execSysNop_keeps p tag s hk
  | .sysParamGet p tag ids list staged => execSysParamGet_keeps p tag ids list staged s hk
  | .sysParamSet p tag pairs commit list => execSysParamSet_keeps p tag pairs commit list s hk
  | .paramListDone p tag => execParamListDone_keeps p tag s hk
  | .sysParamCommit p tag => execSysParamCommit_keeps p tag s hk
  | .sysParamDiscard p tag => execSysParamDiscard_keeps p tag s hk
  | .sysResetPartition p tag target => execSysResetPartition_keeps p tag target s hk
  | .sysResetModule p tag => execSysResetModule_keeps p tag s hk
  | .sysServiceUnlock p tag seconds => execSysServiceUnlock_keeps p tag seconds s hk
  | .veImageLoad p tag image => execVeImageLoad_keeps p tag image s hk
  | .imageLoadDone p h => execImageLoadDone_keeps p h s hk
  | .veImageUnload p tag handle => execVeImageUnload_keeps p tag handle s hk
  | .veImageInfo p tag handle entry => execVeImageInfo_keeps p tag handle entry s hk
  | .veUcodeLoad p tag verified image => execVeUcodeLoad_keeps p tag verified image s hk
  | .ucodeEngineLoad e readBackOk => execUcodeEngineLoad_keeps e readBackOk s hk
  | .tmgSet p tag recs commit => execTmgSet_keeps p tag recs commit s hk
  | .tmgGet p tag group ts => execTmgGet_keeps p tag group ts s hk
  | .tmgCheck p tag site group sets => execTmgCheck_keeps p tag site group sets s hk
  | .tmgRateSet p tag rec commit => execTmgRateSet_keeps p tag rec commit s hk
  | .tmgRemap p tag group pos => execTmgRemap_keeps p tag group pos s hk
  | .tmgUnremap p tag group => execTmgUnremap_keeps p tag group s hk
  | .dpsSeqSet p tag rec => execDpsSeqSet_keeps p tag rec s hk
  | .dpsPowerUp p tag site => execDpsPowerUp_keeps p tag site s hk
  | .dpsPowerDown p tag site => execDpsPowerDown_keeps p tag site s hk
  | .capLogRead p tag site first count => execCapLogRead_keeps p tag site first count s hk
  | .capLogRelease p tag site => execCapLogRelease_keeps p tag site s hk
  | .capCaptureRead p tag u first count => execCapCaptureRead_keeps p tag u first count s hk
  | .hostTransferDone p tag how => execHostTransferDone_keeps p tag how s hk
  | .capTrigger p tag t => execCapTrigger_keeps p tag t s hk
  | .capStreamOpen p tag desc => execCapStreamOpen_keeps p tag desc s hk
  | .capStreamClose p tag h => execCapStreamClose_keeps p tag h s hk
  | .tmuArm p tag m ref => execTmuArm_keeps p tag m ref s hk
  | .tmuDisarm p tag m => execTmuDisarm_keeps p tag m s hk
  | .tmuResult p tag m => execTmuResult_keeps p tag m s hk
  | .padcConvert p tag c => execPadcConvert_keeps p tag c s hk
  | .padcSelfcal p tag c => execPadcSelfcal_keeps p tag c s hk
  | .schSiteDefine p tag rec => execSchSiteDefine_keeps p tag rec s hk
  | .schSubmit p tag desc => execSchSubmit_keeps p tag desc s hk
  | .schAbort p tag what => execSchAbort_keeps p tag what s hk
  | .schToken p tag slot node remote => execSchToken_keeps p tag slot node remote s hk
  | .schTokenClear p tag slot all => execSchTokenClear_keeps p tag slot all s hk
  | .schTaskInfo p tag ix => execSchTaskInfo_keeps p tag ix s hk
  | .memWrite p tag addr bytes => execMemWrite_keeps p tag addr bytes s hk
  | .memRead p tag addr len => execMemRead_keeps p tag addr len s hk
  | .memFence p tag m => execMemFence_keeps p tag m s hk
  | .memRemap p tag target => execMemRemap_keeps p tag target s hk
  | .memRepair p tag m => execMemRepair_keeps p tag m s hk
  | .nglConfig p tag => execNglConfig_keeps p tag s hk
  | .nglTrigger p tag number lead t => execNglTrigger_keeps p tag number lead t s hk
  | .nglStop p tag linkId all result reason => execNglStop_keeps p tag linkId all result reason s hk
  | .nglTimeLabel p tag seconds => execNglTimeLabel_keeps p tag seconds s hk
  | .nglChime p tag rec => execNglChime_keeps p tag rec s hk
  | .nglLaneScan p tag desc => execNglLaneScan_keeps p tag desc s hk
  | .nglPrbs p tag lane pattern mode inject => execNglPrbs_keeps p tag lane pattern mode inject s hk
  | .nglLaneRetrain p tag lane => execNglLaneRetrain_keeps p tag lane s hk
  | .supPartSet p tag rec => execSupPartSet_keeps p tag rec s hk
  | .supPartGet p tag target => execSupPartGet_keeps p tag target s hk
  | .supFwLoad p tag verified image minHandover => execSupFwLoad_keeps p tag verified image minHandover s hk
  | .supFwHandover p tag => execSupFwHandover_keeps p tag s hk
  | .handoverDrainDone => execHandoverDrainDone_keeps s hk
  | .handoverDrainTimeout => execHandoverDrainTimeout_keeps s hk
  | .handoverResume us => execHandoverResume_keeps us s hk
  | .handoverRevert => execHandoverRevert_keeps s hk
  | .hltForce p tag source payload => execHltForce_keeps p tag source payload s hk
  | .hltAlarmAck p tag => execHltAlarmAck_keeps p tag s hk
  | .hltFerrRead p tag block => execHltFerrRead_keeps p tag block s hk
  | .hltFerrClear p tag block => execHltFerrClear_keeps p tag block s hk
  | .hltUnfence p tag unit => execHltUnfence_keeps p tag unit s hk
  | .unfenceSelftestDone unit ok => execUnfenceSelftestDone_keeps unit ok s hk
  | .hltFwSelect p tag bankB => execHltFwSelect_keeps p tag bankB s hk
  | .calRun p tag groups dps => execCalRun_keeps p tag groups dps s hk
  | .calUnitStart => execCalUnitStart_keeps s hk
  | .calAttemptEnd u outcome => execCalAttemptEnd_keeps u outcome s hk
  | .calStore p tag => execCalStore_keeps p tag s hk
  | .storeIntervalExpiry => execStoreIntervalExpiry_keeps s hk
  | .storeStepVerified ok => execStoreStepVerified_keeps ok s hk
  | .calStatClear p tag g => execCalStatClear_keeps p tag g s hk
  | .help => execHelp_keeps s hk
  | .peek id => execPeek_keeps id s hk
  | .poke id value => execPoke_keeps id value s hk
  | .faults => execFaults_keeps s hk
  | .temps => execTemps_keeps s hk
  | .time => execTime_keeps s hk
  | .lanes => execLanes_keeps s hk
  | .fw => execFw_keeps s hk
  | .fwSelect bankB => execFwSelect_keeps bankB s hk
  | .rudimentReset => execRudimentReset_keeps s hk
  | .positionEmitted r ls => execPositionEmitted_keeps r ls s hk
  | .blockLockGain port => execBlockLockGain_keeps port s hk
  | .prbsCheckerLock l relock => execPrbsCheckerLock_keeps l relock s hk
  | .blockSend port => execBlockSend_keeps port s hk
  | .winStateChange d hi lo cur t => execWinStateChange_keeps d hi lo cur t s hk
  | .currentLimit at_ enters => execCurrentLimit_keeps at_ enters s hk
  | .vinHighClear => execVinHighClear_keeps s hk
  | .cmpFault g => execCmpFault_keeps g s hk
  | .tmuFault lane set => execTmuFault_keeps lane set s hk
  | .padcFault c => execPadcFault_keeps c s hk
  | .rseFault n => execRseFault_keeps n s hk
  | .msParity ix => execMsParity_keeps ix s hk

/-- A step keeps what its command keeps of the state with the rest of the queue; the tick of an empty queue moves time
alone. -/
theorem step_keeps {s t : State} (h : step s = .next t) : Keeps { s with pending := s.pending.tail } t := by
  unfold step at h
  cases hq : s.pending with
  | nil =>
    rw [hq] at h
    cases h
    exact (Keeps.refl _).of_mk rfl rfl rfl
  | cons c rest =>
    rw [hq] at h
    exact (exec_keeps (Keeps.refl _) c).keeps t h

end Sys2Proof
end

section
/-!
The statement about what every step keeps.
-/

namespace Sys2Proof

open Sys2Proof.Machine

/-- Settles O3: the three parts are those of `Keeps`, which holds between the state without its front command and the
next state. -/
theorem everyStepKeepsTheInvariant : Obligations.EveryStepKeepsTheInvariant := by
  intro s t hwf hstep
  obtain ⟨hqueue, hform, hfree⟩ := step_keeps hstep
  exact ⟨hform hwf, hqueue, hfree⟩

end Sys2Proof
end

section
/-!
SUPPORT. What the commands of the memory do, and how a write from host memory ends: one lemma per command and case (11
R307, R316 to R318).
-/

namespace Sys2Proof

open Sys2Proof.Machine

section
variable {s : State} {p : Part} {tag : Nat}

/-! ## mem.write, mem.read (R307) -/

/-- With no image that is LOADING or READY a range touches none, and no free value is drawn. -/
theorem touched_of_no_images (h : s.liveImages p = []) : s.touched p = (none, s) := by
  rw [State.touched, h]
  rfl

theorem memMove_starts {op : BitVec 16} {addr len : Nat} (himages : s.liveImages p = [])
    (hpage : s.fencedPage p addr len = none) (data : List Int) (write : Option (Nat × List (BitVec 8)))
    (reads : List (Nat × Nat)) :
    s.memMove p tag op addr len data write reads = s.startXfer p tag op addr data write reads := by
  rw [State.memMove, touched_of_no_images himages]
  simp only [hpage]

/-- A range that meets no image and no fenced page is moved: ACCEPTED is posted, the transfer joins those in progress;
of the memory, pseudo-channels alone change. -/
theorem memMove_accepts {op : BitVec 16} {addr len : Nat} (himages : s.liveImages p = [])
    (hpage : s.fencedPage p addr len = none) (data : List Int) (write : Option (Nat × List (BitVec 8)))
    (reads : List (Nat × Nat)) :
    let t := (taken s p tag op).memMove p tag op addr len data write reads
    Posted t p tag op .accepted [] ∧ t.host.xfers = s.host.xfers ++ [⟨p, tag, op, data, write, addr, reads⟩] ∧
      t.mem = { s.mem with pc := t.mem.pc } := by
  rw [memMove_starts (s := taken s p tag op) himages hpage]
  have hdoes := startXfer_does (taken s p tag op) p tag op addr data write reads
  revert hdoes
  generalize (taken s p tag op).startXfer p tag op addr data write reads = t
  rintro ⟨hposted, hjoined, hframe⟩
  exact ⟨hposted, hjoined, congrArg State.mem hframe⟩

theorem exec_memWrite (p : Part) (tag addr : Nat) (bytes : List (BitVec 8)) (s : State) :
    exec (.memWrite p tag addr bytes) s = execMemWrite p tag addr bytes s := rfl

theorem memWrite_accepts {addr : Nat} {bytes : List (BitVec 8)} (hpass : Passes s p tag 0x0A01)
    (hrange : s.rangeOk p addr bytes.length = true) (himages : s.liveImages p = [])
    (hpage : s.fencedPage p addr bytes.length = none) :
    Answers (.memWrite p tag addr bytes) s (fun t => Posted t p tag 0x0A01 .accepted [] ∧
      t.host.xfers = s.host.xfers ++ [⟨p, tag, 0x0A01, [], some (addr, bytes), addr, []⟩] ∧
      t.mem = { s.mem with pc := t.mem.pc }) :=
  answers_of_command (exec_memWrite p tag addr bytes s) hpass rfl (by simp [hrange])
    (memMove_accepts himages hpage _ _ _)

theorem exec_memRead (p : Part) (tag addr len : Nat) (s : State) :
    exec (.memRead p tag addr len) s = execMemRead p tag addr len s := rfl

theorem memRead_accepts {addr len : Nat} (hpass : Passes s p tag 0x0A02) (hrange : s.rangeOk p addr len = true)
    (himages : s.liveImages p = []) (hpage : s.fencedPage p addr len = none) :
    Answers (.memRead p tag addr len) s (fun t => Posted t p tag 0x0A02 .accepted [] ∧
      t.host.xfers = s.host.xfers ++ [⟨p, tag, 0x0A02, s.hbmWords p addr (len / 4), none, addr, [(addr, len)]⟩] ∧
      t.mem = { s.mem with pc := t.mem.pc }) :=
  answers_of_command (exec_memRead p tag addr len s) hpass rfl (by simp [hrange])
    (memMove_accepts himages hpage _ _ _)

/-! ## The end of a mem.write (R307) -/

/-- A write changes bytes, and which blocks are bad; nothing else. -/
theorem writeHbm_same (s : State) (q a : Nat) (bs : List (BitVec 8)) :
    s.writeHbm q a bs =
      { s with mem.hbm := (s.writeHbm q a bs).mem.hbm, mem.bad := (s.writeHbm q a bs).mem.bad } := by
  unfold State.writeHbm
  split <;> rfl

theorem writeBytes_same (s : State) (q a : Nat) (bs : List (BitVec 8)) :
    s.writeBytes q a bs =
      { s with mem.hbm := (s.writeBytes q a bs).mem.hbm, mem.bad := (s.writeBytes q a bs).mem.bad } := by
  unfold State.writeBytes
  generalize bs.zipIdx = l
  induction l generalizing s with
  | nil => rfl
  | cons x r ih =>
    rw [List.foldl_cons, ih, writeHbm_same]

/-- Bytes that are written move no page to another channel. -/
theorem writeBytes_fencedPage (s : State) (q a : Nat) (bs : List (BitVec 8)) (r b len : Nat) :
    (s.writeBytes q a bs).fencedPage r b len = s.fencedPage r b len := by
  rw [writeBytes_same]
  rfl

/-- The transfer of a mem.write. -/
def hostWrite (p : Part) (tag a : Nat) (bytes : List (BitVec 8)) : Xfer :=
  ⟨p, tag, 0x0A01, [], some (a, bytes), a, []⟩

/-- The one transfer in progress is a mem.write: its bytes are put, and none is in progress. -/
theorem hostTransferDone_puts {a : Nat} {bytes : List (BitVec 8)} (hxfers : s.host.xfers = [hostWrite p tag a bytes]) :
    exec (.hostTransferDone p tag .good) s =
      .next ((withXfers (s.writeBytes p a bytes) []).endXfer (hostWrite p tag a bytes)) := by
  have hkept : (s.writeBytes p a bytes).host.xfers = [hostWrite p tag a bytes] := by
    rw [writeBytes_same]
    exact hxfers
  rw [exec_hostTransferDone]
  simp [execHostTransferDone, hxfers, upToTag, State.putXfer, hkept, withXfers, hostWrite]

/-- A mem.write that meets no fenced page ends OK. -/
theorem hostTransferDone_writes {a : Nat} {bytes : List (BitVec 8)}
    (hxfers : s.host.xfers = [hostWrite p tag a bytes]) (hpage : s.fencedPage p a bytes.length = none) :
    Answers (.hostTransferDone p tag .good) s (fun t => Posted t p tag 0x0A01 .ok [] ∧
      t.mem.hbm = (s.writeBytes p a bytes).mem.hbm ∧ t.host.xfers = []) := by
  let u := withXfers (s.writeBytes p a bytes) []
  have hopen : u.fencedPage p a bytes.length = none := (writeBytes_fencedPage s p a bytes p a bytes.length).trans hpage
  have hexec := hostTransferDone_puts hxfers
  rw [endXfer_of_sound (s := u) (x := hostWrite p tag a bytes) hopen rfl] at hexec
  refine ⟨_, hexec, complete_posted _ _ _ _ _ _ _, ?_, ?_⟩
  · rw [complete_mem]
    rfl
  · rw [complete_same]
    rfl

/-! ## mem.fence, mem.remap, mem.repair (R316 to R318) -/

theorem exec_memFence (p : Part) (tag : Nat) (m : Mc) (s : State) :
    exec (.memFence p tag m) s = execMemFence p tag m s := rfl

/-- The fence of a channel is the event of a hardware fence; a fenced channel stays as it is. -/
theorem memFence_fences (m : Mc) (hpass : Passes s p tag 0x0A03) (hright : s.rightConfig p = true) :
    let u := taken s p tag 0x0A03
    exec (.memFence p tag m) s = .next
      ((if (s.mcAt m.val).mode = 3 then u else u.channelEvent (0x581 + 2 * m.val) m.val 6).complete
        p tag 0x0A03 .ok []) :=
  next_of_command (exec_memFence p tag m s) hpass hright rfl

theorem exec_memRemap (p : Part) (tag : Nat) (target : Part) (s : State) :
    exec (.memRemap p tag target) s = execMemRemap p tag target s := rfl

/-- A remap works on the memory alone, whatever stands in the host functions. -/
theorem remapPart_of_sameButHost {u : State} (h : SameButHost s u) (q : Nat) :
    u.remapPart q = { u with mem := (s.remapPart q).mem } := by
  rw [h]
  rfl

/-- A change of the memory between completions changes memory and host functions alone. -/
theorem mem_between_host {u t : State} {m : MemSt} (hu : SameButHost s u) (ht : SameButHost { u with mem := m } t) :
    t = { s with host.fn := t.host.fn, mem := t.mem } := by
  rw [ht, hu]

theorem memRemap_remaps {target : Part} (hpass : Passes s p tag 0x0A04) (hsys : s.isSystem p = true)
    (hidle : s.partBusy target = false) (hroom : s.poisonedPages target ≤ s.freePages) :
    Answers (.memRemap p tag target) s (fun t => Posted t p tag 0x0A04 .ok [] ∧
      t.mem = (s.remapPart target).mem ∧ t = { s with host.fn := t.host.fn, mem := t.mem }) := by
  have hsame : SameButHost s ((taken s p tag 0x0A04).complete p tag 0x0A04 .accepted []) :=
    (taken_same s p tag 0x0A04).trans (complete_same _ _ _ _ _ _ _)
  refine answers_of_command (exec_memRemap p tag target s) hpass hsys (by simp [hidle, Nat.not_lt.2 hroom])
    ⟨complete_posted _ _ _ _ _ _ _, ?_, ?_⟩
  · rw [complete_mem, remapPart_of_sameButHost hsame]
  · rw [remapPart_of_sameButHost hsame]
    exact mem_between_host hsame (complete_same _ _ _ _ _ _ _)

theorem exec_memRepair (p : Part) (tag : Nat) (m : Option Mc) (s : State) :
    exec (.memRepair p tag m) s = execMemRepair p tag m s := rfl

theorem memRepair_schedules (m : Mc) (hpass : Passes s p tag 0x0A05) (hright : s.rightConfig p = true) :
    Answers (.memRepair p tag (some m)) s (fun t => Posted t p tag 0x0A05 .ok [] ∧
      (t.mcAt m.val).sched = (s.mcAt m.val).cands ∧ t = { s with host.fn := t.host.fn, mem.mc := t.mem.mc }) := by
  refine answers_of_command (exec_memRepair p tag (some m) s) hpass hright rfl
    ⟨complete_posted _ _ _ _ _ _ _, ?_, ?_⟩
  · rw [State.mcAt, complete_mem]
    exact congrArg McSt.sched (State.updMc_same _ m.val _)
  · rw [complete_same]
    rfl

theorem memRepair_schedules_all (hpass : Passes s p tag 0x0A05) (hright : s.rightConfig p = true) :
    Answers (.memRepair p tag none) s (fun t => Posted t p tag 0x0A05 .ok [] ∧
      SameButHost ((List.range 32).foldl (fun s i => s.updMc i (fun c => { c with sched := c.cands }))
        (taken s p tag 0x0A05)) t) :=
  answers_of_command (exec_memRepair p tag none s) hpass hright rfl
    ⟨complete_posted _ _ _ _ _ _ _, complete_same _ _ _ _ _ _ _⟩

end

end Sys2Proof
end

section
/-!
The statement about the commands of the memory.
-/

namespace Sys2Proof

open Sys2Proof.Machine

/-- Settles O20: each clause is what its command does where no check refuses it; a fence spares the channel that is
fenced already. -/
theorem memoryCommandsComplete : Obligations.MemoryCommandsComplete := by
  intro p tag s
  refine ⟨fun _ _ => memWrite_accepts, fun _ _ => memRead_accepts, fun _ _ => hostTransferDone_writes,
    fun m hpass hright => ⟨fun hfenced => ?_, fun hopen => ?_⟩, fun _ => memRemap_remaps, memRepair_schedules,
    memRepair_schedules_all⟩
  · refine ⟨_, memFence_fences m hpass hright, complete_posted _ _ _ _ _ _ _, ?_⟩
    rw [if_pos hfenced]
    exact (taken_same s p tag 0x0A03).trans (complete_same _ _ _ _ _ _ _)
  · have hexec := memFence_fences m hpass hright
    dsimp only at hexec
    rwa [if_neg hopen] at hexec

end Sys2Proof
end

section
/-!
SUPPORT. What the rows of the memory channels do: one lemma per row and case (11 R309 to R319).
-/

namespace Sys2Proof

open Sys2Proof.Machine

section
variable {s : State}

theorem updPc_updPc (s : State) (k : Nat) (f g : PcSt → PcSt) :
    (s.updPc k f).updPc k g = s.updPc k (fun x => g (f x)) := by
  simp [State.updPc, Tbl.upd]

theorem updPc_congr {k : Nat} {f g : PcSt → PcSt} (h : f (s.pcAt k) = g (s.pcAt k)) : s.updPc k f = s.updPc k g := by
  rw [State.pcAt] at h
  rw [State.updPc, State.updPc, Tbl.upd, Tbl.upd, h]

theorem moveTo_now (s : State) : s.moveTo s.now = s := by
  rw [State.moveTo, Nat.max_self]

theorem catchEnd_of_no_catchUp {q : PcSt} (h : q.catchAt = none) : q.catchEnd = none := by
  rw [PcSt.catchEnd, h]
  rfl

/-- Without a catch-up under way there is none to settle. -/
theorem settle_of_no_catchUp {q : PcSt} (h : q.catchAt = none) (now : Nat) : q.settle now = q := by
  rw [PcSt.settle, catchEnd_of_no_catchUp h]

/-! ## Refresh (R313, R314) -/

/-- The state at the time when the next refresh of a pseudo-channel falls due. -/
def atRefresh (s : State) (x : Nat) : State :=
  s.moveTo ((s.pcAt x).lastRef + ((s.pcAt x).owed + 1) * s.tRefi (stackOf x))

theorem exec_refreshDue (x : Pc) (s : State) : exec (.refreshDue x) s = execRefreshDue x s := rfl

/-- Where no catch-up is under way, settling before and after time moves leaves the pseudo-channel as it is. -/
theorem settle_moveTo_settle {k : Nat} (h : (s.pcAt k).catchAt = none) (now later t : Nat) :
    ((s.updPc k (·.settle now)).moveTo t).updPc k (·.settle later) = (s.moveTo t).updPc k (fun q => q) := by
  refine (updPc_updPc (s.moveTo t) k _ _).trans (updPc_congr ?_)
  rw [settle_of_no_catchUp (q := (s.moveTo t).pcAt k) h]
  exact settle_of_no_catchUp h later

/-- A debt below 8 starts no catch-up; one that reaches 8 does. -/
theorem catchUp_of_owed {k : Nat} (howed : (s.pcAt k).owed < 8) : s.catchUp k = s := by
  rw [State.catchUp]
  exact if_pos (.inl howed)

theorem catchUp_starts {k : Nat} (howed : (s.pcAt k).owed = 8) (hcatch : (s.pcAt k).catchAt = none) :
    s.catchUp k = (s.updPc k (fun q => { q with catchAt := some s.now })).event (0x580 + 2 * (k / 2))
      [3 + k * 2 ^ 4, 0] := by
  rw [State.catchUp]
  exact if_neg (by simp [hcatch, howed])

section
variable {x : Pc} (hpower : (s.pcAt x.val).power ≠ 2) (hmode : (s.mcAt (x.val / 2)).mode ≠ 3)
  (hcatch : (s.pcAt x.val).catchAt = none)
include hpower hmode hcatch

/-- A refresh that falls due is issued while no burst streams, or adds to the debt. -/
theorem refreshDue_eq :
    let u := atRefresh s x.val
    exec (.refreshDue x) s = .next (if s.streamHeld = 0
      then u.updPc x.val (fun q => { q with owed := 0, lastRef := u.now })
      else (u.updPc x.val (fun q => { q with owed := q.owed + 1 })).catchUp x.val) := by
  rw [exec_refreshDue, execRefreshDue]
  dsimp only
  rw [if_neg (not_or.2 ⟨hpower, hmode⟩), settle_moveTo_settle hcatch, State.updPc_same, settle_of_no_catchUp hcatch,
    State.updPc_same, updPc_updPc, updPc_updPc]
  exact congrArg _ (if_congr (and_iff_left hcatch) rfl rfl)

theorem refreshDue_idle (hidle : s.streamHeld = 0) :
    let u := atRefresh s x.val
    exec (.refreshDue x) s = .next (u.updPc x.val (fun q => { q with owed := 0, lastRef := u.now })) :=
  (refreshDue_eq hpower hmode hcatch).trans (congrArg _ (if_pos hidle))

theorem refreshDue_owes (hbusy : s.streamHeld ≠ 0) (howed : (s.pcAt x.val).owed < 7) :
    let u := atRefresh s x.val
    exec (.refreshDue x) s = .next (u.updPc x.val (fun q => { q with owed := q.owed + 1 })) := by
  refine (refreshDue_eq hpower hmode hcatch).trans (congrArg _ ((if_neg hbusy).trans (catchUp_of_owed ?_)))
  rw [State.updPc_same]
  exact Nat.succ_lt_succ howed

/-- The eighth refresh owed starts a catch-up. -/
theorem refreshDue_catches_up (hbusy : s.streamHeld ≠ 0) (howed : (s.pcAt x.val).owed = 7) :
    let u := atRefresh s x.val
    exec (.refreshDue x) s = .next
      ((u.updPc x.val (fun q => { q with owed := 8, catchAt := some u.now })).event (0x580 + 2 * (x.val / 2))
        [3 + x.val * 2 ^ 4, 0]) := by
  have howed' : ((atRefresh s x.val).pcAt x.val).owed = 7 := howed
  refine (refreshDue_eq hpower hmode hcatch).trans (congrArg _ ((if_neg hbusy).trans ((catchUp_starts ?_ ?_).trans ?_)))
  · rw [State.updPc_same]
    exact congrArg Nat.succ howed
  · rw [State.updPc_same]
    exact hcatch
  · rw [updPc_updPc, State.updPc_now]
    exact congrArg (fun v : State => v.event _ _) (updPc_congr (by rw [howed']))

end

/-! ## The temperature of a stack (R314) -/

theorem exec_stackTempRead (k : Stack) (reading : Option Int) (s : State) :
    exec (.stackTempRead k reading) s = execStackTempRead k reading s := rfl

/-- A reading doubles refresh above 85 degrees and reverts it at 83. -/
theorem stackTempRead_of_reading (k : Stack) (t0 : Int) (s : State) :
    let u := s.updStack k.val (fun x => { x with temp := t0, missing := false, lastRead := s.now })
    exec (.stackTempRead k (some t0)) s = .next (if 8500 < t0 then u.setDoubled k.val true
      else if t0 ≤ 8300 then u.setDoubled k.val false else u) := rfl

theorem stackTempRead_missing {k : Stack} (h : (s.stackAt k.val).lastRead + 10000000 ≤ s.now) :
    exec (.stackTempRead k none) s = .next
      ((s.updStack k.val (fun x => { x with missing := true })).setDoubled k.val true) := by
  rw [exec_stackTempRead, execStackTempRead]
  exact congrArg _ (if_pos h)

/-! ## Training (R315, R316) -/

theorem exec_retrainDue (m : Mc) (s : State) : exec (.retrainDue m) s = execRetrainDue m s := rfl

/-- A channel whose stack has warmed or cooled by 5 degrees is deferred, or trains where its stack allows it. -/
theorem retrainDue_of_tempMoved {m : Mc} (hmode : (s.mcAt m.val).mode = 1) (hurgent : (s.mcAt m.val).urgent = false)
    (hmoved : s.tempMoved m.val = true) :
    exec (.retrainDue m) s = .next (if s.defersTraining then
        s.updMc m.val (fun c => { c with deferred := if c.deferred.isSome then c.deferred else some s.now })
      else if s.mayTrain m.val then s.startTrain m.val else s) := by
  rw [exec_retrainDue, execRetrainDue]
  simp only [hmode, hurgent, hmoved, ne_eq, not_true_eq_false, Bool.false_eq_true, if_false, if_true]

theorem exec_retrainDeferExpiry (m : Mc) (s : State) :
    exec (.retrainDeferExpiry m) s = execRetrainDeferExpiry m s := rfl

theorem retrainDeferExpiry_forces {m : Mc} {t0 : Nat} (hdeferred : (s.mcAt m.val).deferred = some t0)
    (hmay : s.mayTrain m.val = true) :
    exec (.retrainDeferExpiry m) s = .next
      (((s.moveTo (t0 + 1000000 * s.parN 10 0 0x00B)).startTrain m.val).channelEvent (0x580 + 2 * m.val) m.val 4) := by
  rw [exec_retrainDeferExpiry, execRetrainDeferExpiry, hdeferred]
  exact congrArg _ (if_pos hmay)

theorem exec_retrainDone (m : Mc) (good : Bool) (s : State) :
    exec (.retrainDone m good) s = execRetrainDone m good s := rfl

/-- A training that ends makes the channel active, or fences it. -/
theorem retrainDone_of_pause {m : Mc} (good : Bool) (hmode : (s.mcAt m.val).mode = 2) :
    exec (.retrainDone m good) s = .next (if good then
        (s.updMc m.val (fun c =>
          { c with mode := 1, lastTrain := s.now, trainTemp := (s.stackAt (m.val / 16)).temp })).channelEvent
          (0x580 + 2 * m.val) m.val 5
      else (s.updMc m.val (fun c => { c with trainFlag := true })).channelEvent (0x581 + 2 * m.val) m.val 2) := by
  rw [exec_retrainDone, execRetrainDone]
  exact congrArg _ (if_neg (fun h => h.2 hmode))

/-! ## Parity alerts (R311) -/

theorem exec_parityAlert (x : Pc) (third : Bool) (s : State) :
    exec (.parityAlert x third) s = execParityAlert x third s := rfl

/-- The channel after an alert: a replay is counted, the alerts of the last second are kept, and the event is told. -/
def alerted (s : State) (x : Nat) : State :=
  (s.updMc (x / 2) (fun c => { c with
    replay := satAdd c.replay 1 0xFFFFFFFF
    alerts := c.alerts.filter (fun t => decide (s.now < t + 1000000000)) ++ [s.now] })).event (0x580 + 2 * (x / 2))
      [2 + x * 2 ^ 4, 0]

/-- The channel that is to be retrained at once, as it is told. -/
def alarmed (s : State) (x : Nat) : State :=
  (s.updMc (x / 2) (fun c => { c with alerts := [], urgent := true })).event (0x581 + 2 * (x / 2)) [3 + x * 2 ^ 4, 0]

theorem parityAlert_eq {x : Pc} (third : Bool) (hmode : (s.mcAt (x.val / 2)).mode ≠ 3) :
    let u := alerted s x.val
    let v := alarmed u x.val
    exec (.parityAlert x third) s = .next (if third ∨ 64 < (u.mcAt (x.val / 2)).alerts.length then
      (if v.mayTrain (x.val / 2) then v.startTrain (x.val / 2) else v) else u) := by
  rw [exec_parityAlert, execParityAlert]
  exact congrArg _ (if_neg hmode)

/-- An alert alone is a replay. -/
theorem parityAlert_replays {x : Pc} {third : Bool} (hmode : (s.mcAt (x.val / 2)).mode ≠ 3) (hfirst : third = false)
    (hfew : ((alerted s x.val).mcAt (x.val / 2)).alerts.length ≤ 64) :
    exec (.parityAlert x third) s = .next (alerted s x.val) :=
  (parityAlert_eq third hmode).trans (congrArg _ (if_neg (by simp [hfirst, Nat.not_lt.2 hfew])))

/-- The third alert of a command, or too many, retrain the channel where its stack allows it. -/
theorem parityAlert_retrains {x : Pc} {third : Bool} (hmode : (s.mcAt (x.val / 2)).mode ≠ 3)
    (hagain : third = true ∨ 64 < ((alerted s x.val).mcAt (x.val / 2)).alerts.length) :
    let v := alarmed (alerted s x.val) x.val
    exec (.parityAlert x third) s = .next (if v.mayTrain (x.val / 2) then v.startTrain (x.val / 2) else v) :=
  (parityAlert_eq third hmode).trans (congrArg _ (if_pos hagain))

/-! ## Low-power states (R319) -/

theorem exec_lpEntry (x : Pc) (selfRefresh : Bool) (s : State) :
    exec (.lpEntry x selfRefresh) s = execLpEntry x selfRefresh s := rfl

theorem lpEntry_powers_down {x : Pc} (hmode : (s.mcAt (x.val / 2)).mode = 1) (hon : s.parN 10 0 0x011 = 1)
    (htol : s.tolerates 1000 = true) (hpower : (s.pcAt x.val).power = 0) :
    exec (.lpEntry x false) s = .next
      ((s.moveTo ((s.pcAt x.val).idleAt + 1000)).updPc x.val (fun q => { q with power := 1 })) := by
  rw [exec_lpEntry, execLpEntry]
  simp [hmode, hon, htol, hpower]

theorem lpEntry_self_refreshes {x : Pc} (hmode : (s.mcAt (x.val / 2)).mode = 1) (hon : s.parN 10 0 0x011 = 1)
    (hstop : s.stopRefresh (stackOf x.val) = false) (htol : s.tolerates 20000 = true)
    (hpower : (s.pcAt x.val).power ≠ 2) :
    exec (.lpEntry x true) s = .next ((s.moveTo ((s.pcAt x.val).idleAt + 100000)).updPc x.val (fun q =>
      { q with power := 2, owed := 0, catchAt := none })) := by
  rw [exec_lpEntry, execLpEntry]
  simp [hmode, hon, hstop, htol, hpower]

theorem exec_lpExit (x : Pc) (s : State) : exec (.lpExit x) s = execLpExit x s := rfl

theorem lpExit_wakes {x : Pc} (hpower : (s.pcAt x.val).power ≠ 0) (hstop : s.stopRefresh (stackOf x.val) = false) :
    exec (.lpExit x) s = .next (s.wakePc x.val) := by
  rw [exec_lpExit, execLpExit]
  exact congrArg _ (if_neg (not_or.2 ⟨hpower, ne_true_of_eq_false hstop⟩))

/-! ## Requests (R308 to R312) -/

theorem exec_memRequestServed (x : Pc) (cls : MemClass) (write : Bool) (p : Part) (addr : Nat) (ecc : Ecc) (s : State) :
    exec (.memRequestServed x cls write p addr ecc) s = execMemRequestServed x cls write p addr ecc s := rfl

/-- The state in which a request of a pseudo-channel without catch-up has been served: it has left its low-power
state. -/
def served (s : State) (x : Nat) : State :=
  let v := s.moveTo (s.now + exitLatency (s.pcAt x).power)
  v.updPc x (fun q => { q with
    power := 0, idleAt := v.now, lastRef := if q.power = 2 then v.now else q.lastRef, served := q.served + 1 })

/-- Without a catch-up a request waits for its pseudo-channel to wake, and for nothing else. -/
theorem served_of_no_catchUp {k : Nat} (h : (s.pcAt k).catchAt = none) :
    let w := (s.moveTo (s.now + exitLatency (s.pcAt k).power)).wakePc k
    let v := w.moveTo (((w.pcAt k).catchEnd).getD w.now)
    v.updPc k (fun q => { q.settle v.now with served := q.served + 1 }) = served s k := by
  intro w v
  have hcatch : (w.pcAt k).catchAt = none := (congrArg PcSt.catchAt (State.updPc_same _ k _)).trans h
  have hv : v = w := by
    change w.moveTo (((w.pcAt k).catchEnd).getD w.now) = w
    rw [catchEnd_of_no_catchUp hcatch]
    exact moveTo_now w
  rw [hv, updPc_congr (g := fun q => { q with served := q.served + 1 }) (by rw [settle_of_no_catchUp hcatch])]
  exact updPc_updPc _ k _ _

/-- A request within the partition's pages: a write writes its block again, a read has the outcome of its words. -/
theorem memRequestServed_eq {x : Pc} {p : Part} {addr : Nat} (cls : MemClass) (write : Bool) (ecc : Ecc)
    (hmode : (s.mcAt (x.val / 2)).mode = 1) (hstop : s.stopRefresh (stackOf x.val) = false)
    (hcatch : (s.pcAt x.val).catchAt = none) (haddr : addr < 4096 * s.pagesOf p.val) :
    let u := served s x.val
    let block := hbmKey p.val addr / 64
    exec (.memRequestServed x cls write p addr ecc) s = .next (if write then u.rewrite (· == block)
      else if ecc = .uncorrectable ∨ s.mem.bad.contains block then (u.spoil block).eccUe x.val addr
      else if ecc = .corrected then u.eccCorr x.val addr else u) := by
  have hin : ¬ 4096 * (served s x.val).pagesOf p.val ≤ addr := Nat.not_le.2 haddr
  rw [exec_memRequestServed, execMemRequestServed]
  dsimp only
  rw [if_neg (by simp [hmode, hstop]), served_of_no_catchUp hcatch, if_neg hin]
  rfl

/-- A read of a sound block whose words are good, or corrected. -/
theorem memRequestServed_sound {x : Pc} {p : Part} {addr : Nat} {ecc : Ecc} (cls : MemClass)
    (hmode : (s.mcAt (x.val / 2)).mode = 1) (hstop : s.stopRefresh (stackOf x.val) = false)
    (hcatch : (s.pcAt x.val).catchAt = none) (haddr : addr < 4096 * s.pagesOf p.val)
    (hsound : s.mem.bad.contains (hbmKey p.val addr / 64) = false) (hecc : ecc ≠ .uncorrectable) :
    let u := served s x.val
    exec (.memRequestServed x cls false p addr ecc) s =
      .next (if ecc = .corrected then u.eccCorr x.val addr else u) :=
  (memRequestServed_eq cls false ecc hmode hstop hcatch haddr).trans
    (congrArg _ (if_neg (not_or.2 ⟨hecc, ne_true_of_eq_false hsound⟩)))

end

end Sys2Proof
end

section
/-!
The statement about the rows of the memory channels.
-/

namespace Sys2Proof

open Sys2Proof.Machine

/-- Settles O47: each clause is the equation of its row in the case that its hypotheses name. -/
theorem memoryRows : Obligations.MemoryRows := by
  intro s
  refine ⟨fun x hpower hmode hcatch => ?_, fun k t0 hhot => ?_, fun k t0 hcool => ?_, fun k t0 hwarm hbelow => ?_,
    fun _ => stackTempRead_missing, fun m hmode hurgent hmoved => ?_, fun _ _ => retrainDeferExpiry_forces,
    fun m hmode => ⟨retrainDone_of_pause true hmode, retrainDone_of_pause false hmode⟩,
    fun x third hmode => ?_, fun x hmode hon hstop => ?_, fun x hpower hstop => ?_,
    fun x cls p addr hmode hstop hcatch haddr => ?_⟩
  · exact ⟨refreshDue_idle hpower hmode hcatch, refreshDue_owes hpower hmode hcatch,
      refreshDue_catches_up hpower hmode hcatch⟩
  · exact (stackTempRead_of_reading k t0 s).trans (congrArg _ (if_pos hhot))
  · have hnot : ¬ 8500 < t0 := by omega
    exact (stackTempRead_of_reading k t0 s).trans (congrArg _ ((if_neg hnot).trans (if_pos hcool)))
  · exact (stackTempRead_of_reading k t0 s).trans
      (congrArg _ ((if_neg (Int.not_lt.2 hbelow)).trans (if_neg (Int.not_le.2 hwarm))))
  · have hexec := retrainDue_of_tempMoved hmode hurgent hmoved
    refine ⟨fun hnow hmay => ?_, fun hdefers => ?_⟩
    · rwa [if_neg (ne_true_of_eq_false hnow), if_pos hmay] at hexec
    · rwa [if_pos hdefers] at hexec
  · exact ⟨parityAlert_replays hmode, parityAlert_retrains hmode⟩
  · exact ⟨lpEntry_powers_down hmode hon, lpEntry_self_refreshes hmode hon hstop⟩
  · exact ⟨_, lpExit_wakes hpower hstop, congrArg PcSt.power (State.updPc_same _ _ _),
      congrArg PcSt.idleAt (State.updPc_same _ _ _), rfl⟩
  · have hexec (write : Bool) (ecc : Ecc) := memRequestServed_eq cls write ecc hmode hstop hcatch haddr
    exact ⟨hexec true, fun ecc hbad => (hexec false ecc).trans (congrArg _ (if_pos hbad)), fun hsound =>
      ⟨memRequestServed_sound cls hmode hstop hcatch haddr hsound (by decide),
        memRequestServed_sound cls hmode hstop hcatch haddr hsound (by decide)⟩⟩

end Sys2Proof
end

section
/-!
The statement about a step.
-/

namespace Sys2Proof

open Sys2Proof.Machine

/-- A step with a command at the front of the queue runs it on the state with the rest of the queue. -/
theorem step_of_pending (s : State) (c : Instr) (rest : List Instr) :
    step { s with pending := c :: rest } = exec c { s with pending := rest } := rfl

/-- A step with an empty queue lets one nanosecond pass. -/
theorem step_of_idle (s : State) :
    step { s with pending := [] } = .next { s with pending := [], now := s.now + 1 } := rfl

/-- Settles O1: the two cases of a step. -/
theorem stepRunsTheFrontCommand : Obligations.StepRunsTheFrontCommand :=
  fun c rest s => ⟨step_of_pending s c rest, step_of_idle s⟩

end Sys2Proof
end

section
/-!
SUPPORT. What the commands of the Rudiment monitor do: one equation per command and case (16 R452 to R454; 15 R418).
-/

namespace Sys2Proof

open Sys2Proof.Machine

/-! ## What prints -/

theorem exec_help (s : State) : exec .help s = .next (s.print .help) := rfl

theorem exec_faults (s : State) :
    exec .faults s = .next
      (s.print (.faults (s.evt.sticky.map (fun x => (x.1, x.2.1, x.2.2.1))) s.evt.ferr s.fencedUnits s.fatalState)) := rfl

theorem exec_temps (s : State) :
    exec .temps s = .next (s.print (.temps ((List.range 48).map (fun n => (s.snsTemp n, s.snsState n))) s.tDie (s.tHbm 0)
      (s.tHbm 1) s.thermState)) := rfl

theorem exec_time (s : State) :
    exec .time s = .next (s.print (.time s.now s.ngl.tm.sel s.timeState s.acq.osc.state s.ngl.tm.todSec)) := rfl

theorem exec_lanes (s : State) :
    exec .lanes s = .next (s.print (.lanes ((List.range 38).map s.laneLink) ((List.range 528).filter (fun l =>
      (s.laneAt l).fenced || (s.laneAt l).vacated || (l % 33 == 32 && (s.grpAt (l / 33)).l32.isSome))))) := rfl

theorem exec_fw (s : State) : exec .fw s = .next (s.print (.fw s.fw.state s.fw.bankWord s.fw.verA s.fw.verB)) := rfl

section
variable {s : State} {id : Nat} {value : Int} {b : Bool}

/-- With firmware that runs, no parameter is out of the monitor's reach for want of it. -/
theorem reached_of_fwRuns (id : Nat) (hruns : s.fwRuns = true) : ¬ (!s.fwRuns && !hwHeld id) = true := by
  rw [hruns]
  exact Bool.false_ne_true

theorem exec_peek (id : Nat) (s : State) : exec (.peek id) s = execPeek id s := rfl

/-- A parameter that the system partition may read is shown. -/
theorem peek_shows (hread : s.readCheck s.host.sysPart.val id = none) (hruns : s.fwRuns = true) :
    exec (.peek id) s = .next ((s.peekVal id).2.print (.value (s.peekVal id).1.1 (s.peekVal id).1.2)) := by
  rw [exec_peek, execPeek, hread]
  exact congrArg _ (if_neg (reached_of_fwRuns id hruns))

/-! ## What acts while the service lock is open (16 R453) -/

theorem not_locked (hopen : s.unlocked = true) : ¬ (!s.unlocked) = true := by
  rw [hopen]
  exact Bool.false_ne_true

theorem locked_of_false (hlocked : s.unlocked = false) : (!s.unlocked) = true := by rw [hlocked, Bool.not_false]

theorem exec_poke (id : Nat) (value : Int) (s : State) : exec (.poke id value) s = execPoke id value s := rfl

theorem poke_locked (hlocked : s.unlocked = false) : exec (.poke id value) s = .next (s.print (.err .denied)) := by
  rw [exec_poke, execPoke, if_pos (locked_of_false hlocked)]

/-- A poke that the checks pass is committed and told. -/
theorem poke_unlocked (hopen : s.unlocked = true) (hruns : s.fwRuns = true) (hok : (s.pokeVal id value).1 = .ok) :
    exec (.poke id value) s = .next
      (((s.pokeVal id value).2.event 0x053 [id, word32 value]).print .done) := by
  rw [exec_poke, execPoke, if_neg (not_locked hopen), if_neg (reached_of_fwRuns id hruns)]
  exact congrArg _ (if_pos hok)

theorem exec_fwSelect (b : Bool) (s : State) : exec (.fwSelect b) s = execFwSelect b s := rfl

theorem fwSelect_locked (hlocked : s.unlocked = false) : exec (.fwSelect b) s = .next (s.print (.err .denied)) := by
  rw [exec_fwSelect, execFwSelect, if_pos (locked_of_false hlocked)]

/-- An unlocked selection of a bank with a verified image holds for the next boot. -/
theorem fwSelect_unlocked (hopen : s.unlocked = true) (hvalid : (if b then s.fw.validB else s.fw.validA) = true) :
    exec (.fwSelect b) s = .next (({ s with fw := { s.fw with next := b } } : State).print .done) := by
  rw [exec_fwSelect, execFwSelect, if_neg (not_locked hopen), hvalid]
  rfl

/-! ## reset (16 R454; 15 R418) -/

theorem exec_rudimentReset (s : State) : exec .rudimentReset s = execRudimentReset s := rfl

theorem rudimentReset_locked (hlocked : s.unlocked = false) (hfw : s.fw.state ≠ 3) :
    exec .rudimentReset s = .next (s.print (.err .denied)) := by
  rw [exec_rudimentReset, execRudimentReset, hlocked, beq_false_of_ne hfw]
  rfl

/-- A reset is taken while the lock is open, or without firmware, where no removal is under way. -/
theorem rudimentReset_acts (hmay : s.unlocked = true ∨ s.fw.state = 3) (heject : s.pwr.sup.eject = false)
    (htrip : s.pwr.therm.dieTrip = false) : exec .rudimentReset s = .next (s.moduleReset 4) := by
  have htaken : ((s.unlocked || s.fw.state == 3) && !s.pwr.sup.eject) = true := by simp [hmay, heject]
  rw [exec_rudimentReset, execRudimentReset, if_pos htaken, requestReset_of_no_trip 4 htrip]

end

end Sys2Proof
end

section
/-!
The statement about the Rudiment monitor.
-/

namespace Sys2Proof

open Sys2Proof.Machine

/-- Settles O60: each clause is the equation of its command in the case that its hypotheses name. -/
theorem rudimentRows : Obligations.RudimentRows :=
  fun s => ⟨exec_help s, exec_faults s, exec_temps s, exec_time s, exec_lanes s, exec_fw s, fun _ => peek_shows,
    fun _ _ => poke_locked, fun _ _ => poke_unlocked, fun _ => fwSelect_locked, fun _ => fwSelect_unlocked,
    rudimentReset_locked, rudimentReset_acts⟩

end Sys2Proof
end

section
/-!
SUPPORT. What the commands of block CAL do where no check refuses them: one lemma per command (17 R463, R464, R471 to
R474).
-/

namespace Sys2Proof

open Sys2Proof.Machine

section
variable {s : State} {p : Part} {tag : Nat}

theorem exec_calRun (p : Part) (tag groups dps : Nat) (s : State) :
    exec (.calRun p tag groups dps) s = execCalRun p tag groups dps s := rfl

/-- The range check of the two masks of cal.run. -/
theorem calMasks_good {groups dps : Nat} (hsome : ¬ (groups = 0 ∧ dps = 0)) (hgroups : groups < 2 ^ 16)
    (hdps : dps < 2 ^ 18) :
    (decide (groups = 0 ∧ dps = 0) || decide (2 ^ 16 ≤ groups) || decide (2 ^ 18 ≤ dps)) = false := by
  rw [decide_eq_false hsome, decide_eq_false (Nat.not_le.2 hgroups), decide_eq_false (Nat.not_le.2 hdps)]
  rfl

/-- Units that are free join the queue for their command, which counts what becomes of them. -/
theorem calRun_queues {groups dps : Nat} (hpass : Passes s p tag 0x0E01)
    (howns : s.isSystem p = true ∨ ∀ u ∈ calUnits groups dps, s.ownsCal p u = true)
    (hsome : ¬ (groups = 0 ∧ dps = 0)) (hgroups : groups < 2 ^ 16) (hdps : dps < 2 ^ 18)
    (hmax : s.parN 14 0 0x001 ≠ 0) (hmin : s.parN 14 0 0x002 ≠ 0)
    (hbusy : ∀ u ∈ calUnits groups dps, s.calBusy u = false)
    (hfenced : ∀ u ∈ calUnits groups dps, s.calFenced u = false) :
    Answers (.calRun p tag groups dps) s (fun t => Posted t p tag 0x0E01 .accepted [] ∧
      t.cal.run.queue = s.cal.run.queue ++ (calUnits groups dps).map (fun u => (u, some (p, tag))) ∧
      t.cal.run.cmds = s.cal.run.cmds ++ [(p, tag, [0, 0, 0, 0, 0])] ∧
      t = { s with host.fn := t.host.fn, cal.run := t.cal.run }) := by
  have hright : (s.isSystem p || (calUnits groups dps).all (s.ownsCal p)) = true := by
    rwa [Bool.or_eq_true, List.all_eq_true]
  have hnobusy : (calUnits groups dps).any s.calBusy = false :=
    List.any_eq_false.2 fun u hu => Bool.eq_false_iff.1 (hbusy u hu)
  have hnofence : (calUnits groups dps).any s.calFenced = false :=
    List.any_eq_false.2 fun u hu => Bool.eq_false_iff.1 (hfenced u hu)
  refine answers_of_command (exec_calRun p tag groups dps s) hpass hright ?_ ⟨⟨[], ?_⟩, ?_, ?_, ?_⟩
  · rw [calMasks_good hsome hgroups hdps, beq_false_of_ne hmax, beq_false_of_ne hmin, hnobusy, hnofence]
    rfl
  · exact (lastCpl_of_fn rfl _).trans (post_last _ _ _)
  · rw [complete_same]
    rfl
  · rw [complete_same]
    rfl
  · rw [complete_same]
    rfl

theorem exec_calStore (p : Part) (tag : Nat) (s : State) : exec (.calStore p tag) s = execCalStore p tag s := rfl

/-- Without a pending store there is nothing to write. -/
theorem calStore_of_none_pending (hpass : Passes s p tag 0x0E02) (hsys : s.isSystem p = true)
    (hpending : s.cal.store.pending = false) :
    Answers (.calStore p tag) s (fun t => Posted t p tag 0x0E02 .ok [] ∧ SameButHost s t) := by
  refine ⟨_, (next_of_command (exec_calStore p tag s) hpass hsys rfl).trans (congrArg _ (if_pos hpending)),
    complete_posted _ _ _ _ _ _ _, (taken_same s p tag 0x0E02).trans (complete_same _ _ _ _ _ _ _)⟩

/-- A pending store starts, after the one that runs, and the command waits for it. -/
theorem calStore_of_pending (hpass : Passes s p tag 0x0E02) (hsys : s.isSystem p = true)
    (hpending : s.cal.store.pending = true) :
    exec (.calStore p tag) s = .next
      (({ taken s p tag 0x0E02 with cal.store := { s.cal.store with
        cmds := s.cal.store.cmds ++ [(p, tag, decide (s.cal.store.step ≠ 0))] } } : State).startStore) :=
  (next_of_command (exec_calStore p tag s) hpass hsys rfl).trans
    (congrArg _ (if_neg (ne_false_of_eq_true hpending)))

theorem exec_calStatClear (p : Part) (tag : Nat) (g : Grp) (s : State) :
    exec (.calStatClear p tag g) s = execCalStatClear p tag g s := rfl

theorem calStatClear_clears {g : Grp} (hpass : Passes s p tag 0x0E03)
    (howns : s.isSystem p = true ∨ s.ownsGrp p g.val = true) :
    exec (.calStatClear p tag g) s = .next
      ((((taken s p tag 0x0E03).updGrp g.val (fun x => { x with statClear := true })).statClears).complete
        p tag 0x0E03 .ok []) := by
  rw [next_of_command (exec_calStatClear p tag g s) hpass (Bool.or_eq_true_iff.2 howns) rfl]

end

end Sys2Proof
end

section
/-!
The statement about the commands of reference calibration.
-/

namespace Sys2Proof

open Sys2Proof.Machine

/-- Settles O18: each clause is what its command does where no check refuses it. -/
theorem calibrationCommandsComplete : Obligations.CalibrationCommandsComplete :=
  fun _ _ _ => ⟨fun _ _ => calRun_queues, calStore_of_none_pending, calStore_of_pending, fun _ => calStatClear_clears⟩

end Sys2Proof
end

section
/-!
SUPPORT. What the rows of reference calibration and of its store do: one equation per row and case (17 R464 to R468, R471
to R474).
-/

namespace Sys2Proof

open Sys2Proof.Machine

section
variable {s : State} {u : CalUnit}

/-! ## The queue (17 R464) -/

theorem exec_calUnitStart (s : State) : exec .calUnitStart s = execCalUnitStart s := rfl

/-- The unit at the head of the queue, while none runs: abandoned when fenced, started when free, else it waits. -/
theorem calUnitStart_of_head {own : Option (Part × Nat)} {rest : List (CalUnit × Option (Part × Nat))}
    (hidle : s.cal.run.running = none) (hhead : s.cal.run.queue = (u, own) :: rest) :
    exec .calUnitStart s = .next
      (if s.calFenced u then ({ s with cal.run := { s.cal.run with queue := rest } } : State).calDone u .abandoned own
      else if s.calFree u then
        ({ s with cal.run := { s.cal.run with
          queue := rest, running := some (u, 1), runOwn := own, startedAt := s.now
          startTemp := s.calTempOf u } } : State).calBegin u
      else s) := by
  rw [exec_calUnitStart, execCalUnitStart, hidle, hhead]
  rfl

/-! ## The end of an attempt (17 R465 to R468) -/

theorem exec_calAttemptEnd (u : CalUnit) (outcome : CalEnd) (s : State) :
    exec (.calAttemptEnd u outcome) s = execCalAttemptEnd u outcome s := rfl

section
variable {n : Nat} (hrun : s.cal.run.running = some (u, n))
include hrun

/-- An attempt whose readings pass is accepted, unless the temperature has moved. -/
theorem calAttemptEnd_of_pass :
    let v := s.moveTo (s.cal.run.startedAt + calNs u)
    exec (.calAttemptEnd u .pass) s = .next
      (if v.calMoved u then v.drawFree.calFail u n v.freeVal 0 else (v.calAccept u n).calFinish u .accepted) := by
  rw [exec_calAttemptEnd, execCalAttemptEnd, hrun]
  exact congrArg _ (if_neg (not_not_intro rfl))

theorem calAttemptEnd_of_refAbsent (which : Nat) :
    exec (.calAttemptEnd u (.refAbsent which)) s = .next ((s.calFinish u .abandoned).event 0x5E5 [which]) := by
  rw [exec_calAttemptEnd, execCalAttemptEnd, hrun]
  exact congrArg _ (if_neg (not_not_intro rfl))

theorem calAttemptEnd_of_fail (quantity lane : Nat) :
    exec (.calAttemptEnd u (.fail quantity lane)) s = .next
      ((s.moveTo (s.cal.run.startedAt + calNs u)).calFail u n quantity lane) := by
  rw [exec_calAttemptEnd, execCalAttemptEnd, hrun]
  exact congrArg _ (if_neg (not_not_intro rfl))

end

/-- The third failure rejects the unit. -/
theorem calFail_of_third {n : Nat} (quantity lane : Nat) (hn : 3 ≤ n) :
    s.calFail u n quantity lane = (s.calReject u quantity lane).calFinish u .rejected := if_pos hn

/-- An earlier failure starts the next attempt. -/
theorem calFail_of_earlier {n : Nat} (quantity lane : Nat) (hn : n < 3) :
    s.calFail u n quantity lane = s.calStart u (n + 1) := if_neg (Nat.not_le.2 hn)

/-! ## The store (17 R471 to R474) -/

theorem exec_storeIntervalExpiry (s : State) : exec .storeIntervalExpiry s = execStoreIntervalExpiry s := rfl

/-- A store that is pending starts once the interval after the last one is over. -/
theorem storeIntervalExpiry_of_pending (hpending : s.cal.store.pending = true) (hidle : s.cal.store.step = 0) :
    exec .storeIntervalExpiry s = .next
      (match s.cal.store.lastAt with
        | some t => s.moveTo (t + 1000000000 * s.parN 14 0 0x003)
        | none => s).startStore := by
  rw [exec_storeIntervalExpiry, execStoreIntervalExpiry]
  exact congrArg _ (if_pos ⟨hpending, hidle⟩)

theorem exec_storeStepVerified (ok : Bool) (s : State) :
    exec (.storeStepVerified ok) s = execStoreStepVerified ok s := rfl

theorem storeStepVerified_fails (hstep : s.cal.store.step ≠ 0) :
    exec (.storeStepVerified false) s = .next
      (({ s with cal.store := { s.cal.store with step := 0, pending := true } } : State).event 0x5E3
        [b2n (!s.cal.store.active), s.cal.store.step]) := by
  rw [exec_storeStepVerified, execStoreStepVerified]
  exact congrArg _ (if_neg hstep)

/-- A step that verifies writes the inactive slot; the last one ends the store. -/
theorem storeStepVerified_passes (hstep : s.cal.store.step ≠ 0) :
    let st := s.cal.store
    let new := st.putSlot (!st.active) (s.storeStep st)
    let u := if st.step = 2 then s.drawFree.drawFree else s
    exec (.storeStepVerified true) s = .next
      (if st.step < 4 then { u with cal.store := { new with step := st.step + 1 } }
      else ({ u with cal.store := { new with step := 0, active := !st.active } } : State).answerStore) := by
  rw [exec_storeStepVerified, execStoreStepVerified]
  exact congrArg _ (if_neg hstep)

@[simp] theorem putSlot_slot_same (st : StoreSt) (b : Bool) (x : SlotSt) : (st.putSlot b x).slot b = x := by
  cases b <;> rfl

@[simp] theorem putSlot_slot_other (st : StoreSt) (b : Bool) (x : SlotSt) : (st.putSlot (!b) x).slot b = st.slot b := by
  cases b <;> rfl

/-- A slot written as it stands changes nothing. -/
@[simp] theorem putSlot_slot (st : StoreSt) (b : Bool) : st.putSlot b (st.slot b) = st := by
  cases b <;> rfl

/-- The commands of a verified store are answered and no store follows where none waits. -/
theorem answerStore_of_no_cmds (hnone : s.cal.store.cmds = []) : s.answerStore = s := by
  simp only [State.answerStore, hnone, List.filter_nil, List.map_nil, List.foldl_nil, List.isEmpty_nil, if_true]
  rw [← hnone]

/-- The erase verifies: DATA is next. -/
theorem storeStepVerified_erased (hstep : s.cal.store.step = 1) :
    exec (.storeStepVerified true) s = .next { s with cal.store := { s.cal.store with step := 2 } } := by
  rw [storeStepVerified_passes (by omega)]
  simp [hstep, State.storeStep]

/-- A slot with the header and DATA of the running store in it. -/
def dataSlot (s : State) (length sum : Nat) : SlotSt :=
  { s.cal.store.snap with gen := 0xFFFFFFFF, crc := 0xFFFFFFFF, magic := 0x53444331, format := 1, length, sum }

/-- The header and DATA verify: the CRC is next. Length and contents of DATA are free values. -/
theorem storeStepVerified_data (hstep : s.cal.store.step = 2) :
    let st := s.cal.store
    exec (.storeStepVerified true) s = .next
      { s.drawFree.drawFree with cal.store := { st.putSlot (!st.active)
        (dataSlot s (s.freeVal % 262113) (s.drawFree.freeVal % 2 ^ 32)) with step := 3 } } := by
  rw [storeStepVerified_passes (by omega)]
  simp only [hstep, State.storeStep]
  rfl

theorem eq_dataSlot {x : SlotSt} {length sum : Nat} (hx : x = dataSlot s length sum) :
    x = dataSlot s x.length x.sum ∧ x.length = length := by
  subst hx
  exact ⟨rfl, rfl⟩

/-- The CRC verifies: GENERATION is next. -/
theorem storeStepVerified_crc (hstep : s.cal.store.step = 3) :
    let st := s.cal.store
    let old := st.slot (!st.active)
    exec (.storeStepVerified true) s = .next
      { s with cal.store := { st.putSlot (!st.active) { old with crc := old.sum } with step := 4 } } := by
  rw [storeStepVerified_passes (by omega)]
  simp only [hstep, State.storeStep]
  rfl

/-- GENERATION verifies: the slot becomes the active one. -/
theorem storeStepVerified_generation (hstep : 4 ≤ s.cal.store.step) (hnone : s.cal.store.cmds = []) :
    let st := s.cal.store
    let gen := (st.slot st.active).gen
    exec (.storeStepVerified true) s = .next
      { s with cal.store := { st.putSlot (!st.active)
        { st.slot (!st.active) with gen := if gen = 0xFFFFFFFF then 1 else gen + 1 } with
          step := 0, active := !st.active } } := by
  have hput : (s.cal.store.putSlot (!s.cal.store.active) (s.storeStep s.cal.store)).cmds = [] := by
    rw [← hnone]
    cases s.cal.store.active <;> rfl
  have hwrites : s.storeStep s.cal.store = { s.cal.store.slot (!s.cal.store.active) with
      gen := if (s.cal.store.slot s.cal.store.active).gen = 0xFFFFFFFF then 1
        else (s.cal.store.slot s.cal.store.active).gen + 1 } := by
    unfold State.storeStep
    split
    iterate 3 omega
    rfl
  rw [storeStepVerified_passes (by omega), if_neg (by omega), if_neg (by omega), answerStore_of_no_cmds hput, hwrites]

end

end Sys2Proof
end

section
/-!
The statement about the rows of reference calibration.
-/

namespace Sys2Proof

open Sys2Proof.Machine

/-- Settles O59: each clause is the equation of its row in the case that its hypotheses name. -/
theorem calibrationRows : Obligations.CalibrationRows := by
  intro s
  refine ⟨fun u own rest hidle hhead => ?_, fun u n hrun => ⟨fun hstays => ?_, fun hmoved hn => ?_,
      calAttemptEnd_of_refAbsent hrun, fun q lane hn => ?_, fun q lane hn => ?_⟩,
    fun hpending hidle => ⟨fun t0 hlast => ?_, fun hlast => ?_⟩,
    fun hstep => ⟨storeStepVerified_fails hstep, storeStepVerified_erased, fun hdata => ?_, fun hcrc => ?_,
      fun hgen hnone => ?_⟩⟩
  · rw [calUnitStart_of_head hidle hhead]
    exact ⟨fun hfenced => by rw [if_pos hfenced],
      fun hfenced hfree => by rw [hfenced, if_neg Bool.false_ne_true, if_pos hfree],
      fun hfenced hfree => by rw [hfenced, if_neg Bool.false_ne_true, hfree, if_neg Bool.false_ne_true]⟩
  · exact (calAttemptEnd_of_pass hrun).trans
      (congrArg _ (if_neg fun hmoved => Nat.not_lt.2 hstays (of_decide_eq_true hmoved)))
  · exact (calAttemptEnd_of_pass hrun).trans
      (congrArg _ ((if_pos (decide_eq_true hmoved)).trans (calFail_of_earlier _ 0 hn)))
  · rw [calAttemptEnd_of_fail hrun, calFail_of_third q lane hn]
  · rw [calAttemptEnd_of_fail hrun, calFail_of_earlier q lane hn]
    rfl
  · rw [storeIntervalExpiry_of_pending hpending hidle, hlast]
  · rw [storeIntervalExpiry_of_pending hpending hidle, hlast]
  · obtain ⟨hnew, hlength⟩ := eq_dataSlot (putSlot_slot_same s.cal.store (!s.cal.store.active)
      (dataSlot s (s.freeVal % 262113) (s.drawFree.freeVal % 2 ^ 32)))
    exact ⟨_, storeStepVerified_data hdata, hnew, hlength.trans_le (Nat.le_of_lt_succ (Nat.mod_lt _ (by decide))),
      putSlot_slot_other _ _ _, rfl, rfl⟩
  · exact ⟨_, storeStepVerified_crc hcrc, putSlot_slot_same _ _ _, putSlot_slot_other _ _ _, rfl, rfl⟩
  · exact ⟨_, storeStepVerified_generation hgen hnone, rfl, rfl, putSlot_slot_same _ _ _, putSlot_slot_other _ _ _, rfl⟩

end Sys2Proof
end

section
/-!
SUPPORT. What completions, refusals and event records leave of the function pages: one lemma per operation (14 R383, R384,
R387, R389; 16 R432 to R446).
-/

namespace Sys2Proof

open Sys2Proof.Machine

/-- `g` reads nothing of a function page that a completion, a refusal or an event record changes. -/
structure OutsideRings {α : Type} (g : FnSt → α) : Prop where
  tags : ∀ f l, g { f with tags := l } = g f := by intros; rfl
  writeCpl : ∀ f c, g (f.writeCpl c) = g f := by intros; rfl
  holdCpl : ∀ f c, g (f.holdCpl c) = g f := by intros; rfl
  ferr : ∀ f e, g { f with ferr := e } = g f := by intros; rfl
  writeEvt : ∀ f r, g (f.writeEvt r) = g f := by intros; rfl
  hold : ∀ f r, g (f.hold r) = g f := by intros; rfl
  lose : ∀ f, g f.lose = g f := by intros; rfl

/-- `t` has what `g` reads of every function page as `s` has it. -/
structure SameFn {α : Type} (g : FnSt → α) (s t : State) : Prop where
  fn : ∀ k, g (t.fnAt k) = g (s.fnAt k)

section
variable {α : Type} {g : FnSt → α} {s t u : State}

theorem SameFn.refl (g : FnSt → α) (s : State) : SameFn g s s := ⟨fun _ => rfl⟩

theorem SameFn.trans (h : SameFn g s t) (k : SameFn g t u) : SameFn g s u :=
  ⟨fun i => (k.fn i).trans (h.fn i)⟩

theorem SameFn.of_host (h : t.host.fn = s.host.fn := by rfl) : SameFn g s t :=
  ⟨fun k => by rw [State.fnAt, h, State.fnAt]⟩

theorem SameFn.ite {p : Prop} [Decidable p] (h : SameFn g s t) (k : SameFn g s u) : SameFn g s (if p then t else u) := by
  split
  · exact h
  · exact k

theorem SameFn.foldl {β : Type} {f : State → β → State} {l : List β} (hf : ∀ v a, SameFn g v (f v a))
    (h : SameFn g s t) : SameFn g s (l.foldl f t) := by
  induction l generalizing t with
  | nil => exact h
  | cons a l ih => exact ih (h.trans (hf t a))

theorem updFn_sameFn (s : State) (p : Nat) {f : FnSt → FnSt} (hf : ∀ x, g (f x) = g x) : SameFn g s (s.updFn p f) := by
  refine ⟨fun k => ?_⟩
  by_cases hk : k = p
  · rw [hk, State.updFn_same, hf]
  · rw [State.updFn_other _ _ _ _ hk]

section
variable (hg : OutsideRings g)
include hg

/-! ## Completions and refusals -/

theorem post_sameFn (s : State) (p : Nat) (c : Cpl) : SameFn g s (s.post p c) := by
  have hwritten (v : State) : SameFn g v (if v.cplWritable p && (v.fnAt p).cplHeld.isEmpty
      then v.updFn p (fun f => f.writeCpl c) else v.updFn p (fun f => f.holdCpl c)) :=
    .ite (updFn_sameFn v p fun f => hg.writeCpl f c) (updFn_sameFn v p fun f => hg.holdCpl f c)
  unfold State.post
  exact .trans (.ite (updFn_sameFn s p fun f => hg.tags f _) (.refl g s)) (hwritten _)

theorem complete_sameFn (s : State) (p tag : Nat) (op : BitVec 16) (st : Status) (r : List Nat) (d : List Int) :
    SameFn g s (s.complete p tag op st r d) := post_sameFn hg s p _

theorem noteErr_same (f : FnSt) (kind detail lo hi time : Nat) : g (f.noteErr kind detail lo hi time) = g f := by
  unfold FnSt.noteErr
  split
  · rfl
  · exact hg.ferr f _

theorem fnErr_sameFn (s : State) (p kind detail lo hi : Nat) : SameFn g s (s.fnErr p kind detail lo hi) :=
  updFn_sameFn s p fun f => noteErr_same hg f kind detail lo hi s.now

theorem refuseCmd_sameFn (s : State) (p tag : Nat) (op : BitVec 16) (st : Status) (r : List Nat) :
    SameFn g s (s.refuseCmd p tag op st r) := by
  have hdone := complete_sameFn hg s p tag op st r []
  exact .ite (hdone.trans (fnErr_sameFn hg _ _ _ _ _ _)) hdone

theorem dmaFail_sameFn (s : State) (p tag : Nat) (op : BitVec 16) (a : Nat) : SameFn g s (s.dmaFail p tag op a) :=
  (complete_sameFn hg s p tag op .internal [] []).trans (fnErr_sameFn hg _ _ _ _ _ _)

/-- A command that is refused, or whose effect leaves what `g` reads, leaves it. -/
theorem command_sameFn (s : State) (p : Part) (tag : Nat) (op : BitVec 16) (rsvd right : Bool)
    (checks : List (Bool × Status × List Nat)) {f : State → State} (hf : ∀ v, SameFn g v (f v)) :
    SameFn g s (s.command p tag op rsvd right checks f) := by
  have htaken : SameFn g s (s.updFn p (fun f => f.useTag tag op)) := updFn_sameFn s p fun f => hg.tags f _
  unfold State.command
  dsimp only
  refine .ite ?_ (.ite ?_ (.ite ?_ (.ite ?_ ?_)))
  · refine (updFn_sameFn s p fun f => noteErr_same hg f _ _ _ _ _).trans (updFn_sameFn _ p fun f => ?_)
    split
    · exact hg.writeCpl f _
    · exact hg.holdCpl f _
  · exact htaken.trans (refuseCmd_sameFn hg _ _ _ _ _ _)
  · exact htaken.trans (refuseCmd_sameFn hg _ _ _ _ _ _)
  · exact htaken.trans (dmaFail_sameFn hg _ _ _ _ _)
  · split
    · exact htaken.trans (refuseCmd_sameFn hg _ _ _ _ _ _)
    · exact htaken.trans (hf _)

/-! ## Occurrences that fence nothing (16 R432 to R446) -/

theorem calDone_sameFn (s : State) (u : CalUnit) (how : CalHow) (own : Option (Part × Nat)) :
    SameFn g s (s.calDone u how own) := .foldl (fun _ _ => complete_sameFn hg ..) .of_host

theorem calDropAll_sameFn (l : List (CalUnit × Option (Part × Nat))) (s : State) : SameFn g s (calDropAll l s) := by
  induction l generalizing s with
  | nil => exact .refl g s
  | cons x l ih =>
    have hrest : SameFn g s ({ s with cal.run := { s.cal.run with queue := l } } : State) := .of_host
    exact (hrest.trans (calDone_sameFn hg _ x.1 .abandoned x.2)).trans (ih _)

omit hg in
theorem calRelease_sameFn (s : State) (u : CalUnit) : SameFn g s (s.calRelease u) := by
  cases u with
  | group k =>
    refine .foldl (fun v l => ?_) .of_host
    unfold State.calLane
    split
    · exact .refl g v
    · exact .of_host
  | dps d => exact .refl g s

theorem calAbandon_sameFn (s : State) (f : CalUnit → Bool) (all : Bool) : SameFn g s (s.calAbandon f all) := by
  unfold State.calAbandon
  split
  next => exact .refl g s
  next unit _ _ =>
    have hended : SameFn g s
        ({ s with cal.run := { s.cal.run with running := none, runOwn := none } } : State) := .of_host
    have hdone := (hended.trans (calRelease_sameFn _ unit)).trans
      (calDone_sameFn hg _ unit .abandoned s.cal.run.runOwn)
    exact .ite (.refl g s) (.ite (hdone.trans (calDropAll_sameFn hg _ _)) hdone)

theorem dropSeq_sameFn (s : State) (k : Nat) : SameFn g s (s.dropSeq k) := by
  unfold State.dropSeq
  split
  next =>
    have hended : SameFn g s (s.updSite k (fun t => { t with seqRun := none })) := .of_host
    exact hended.trans (complete_sameFn hg ..)
  next => exact .refl g s

omit hg in
theorem cutBurst_sameFn (s : State) (r : Nat) (result : SiteResult) (src : Nat) :
    SameFn g s (s.cutBurst r result src) := by
  have hstopped (v : State) : SameFn g v (v.interrupt r .c0) := by
    unfold State.interrupt
    split
    · exact .ite (.refl g v) .of_host
    · exact .refl g v
  have hcut (v : State) (f : Burst → Burst) : SameFn g v (v.updBurst r f) := by
    unfold State.updBurst
    split
    · exact .of_host
    · exact .refl g v
  exact (hstopped s).trans (hcut _ _)

theorem safeState_sameFn (s : State) (reason src : Nat) : SameFn g s (s.safeState reason src) := by
  have hcut : SameFn g s (s.ve.bursts.foldl (fun s x => s.cutBurst x.1 (invalidRes reason) src) s) :=
    .foldl (fun _ _ => cutBurst_sameFn ..) (.refl g s)
  have hdrop := hcut.foldl (f := State.dropSeq) (l := List.range 128) (dropSeq_sameFn hg)
  have hlanes (v : State) : SameFn g v v.safeAllLanes := by
    unfold State.safeAllLanes
    exact .foldl (fun _ _ => .of_host) (.refl g v)
  have hdps (v : State) : SameFn g v v.dischargeAll := by
    unfold State.dischargeAll
    exact .foldl (fun _ _ => .of_host) (.refl g v)
  have hsafe (v : State) : SameFn g v ({ v with pwr.safe := true } : State) := .of_host
  unfold State.safeState
  exact (((hdrop.trans (hlanes _)).trans (hdps _)).trans (hsafe _)).trans (calAbandon_sameFn hg _ _ _)

omit hg in
theorem hardware_sameFn (o : Occ) (s : State) : SameFn g s (s.hardware o) := by
  unfold State.hardware
  split <;> exact .of_host

omit hg in
theorem enterFatal_sameFn (s : State) (src : Nat) : SameFn g s (s.enterFatal src) := .of_host

theorem deliver_sameFn (s : State) (p : Nat) (r : EvRec) : SameFn g s (s.deliver p r) := by
  unfold State.deliver
  split
  next => exact updFn_sameFn s p fun f => hg.writeEvt f r
  next =>
    split
    · exact .of_host
    · exact .refl g s
  next => exact updFn_sameFn s p hg.lose
  next => exact updFn_sameFn s p fun f => hg.hold f r

theorem react_sameFn (rz : Occ → State → State) {o : Occ} (ho : FencesNothing o) (eff primary : Nat) (s : State) :
    SameFn g s (s.react rz o eff primary) := by
  have hfatal : SameFn g s (((s.hardware o).safeState (fatalReason o.src) o.src).enterFatal o.src) :=
    ((hardware_sameFn o s).trans (safeState_sameFn hg _ _ _)).trans (enterFatal_sameFn _ _)
  simpa [State.react, ho.chapter, ho.unit, ho.window] using hfatal.ite (.refl g s)

section
variable {rz : Occ → State → State} (hrz : ∀ o s, FencesNothing o → SameFn g s (rz o s))
include hrz

omit hg in
theorem sendLog_sameFn (r : EvRec) (s : State) : SameFn g s (s.sendLog rz r) := by
  have hqueue (dst : Nat) (f : Frame) (v : State) : SameFn g v (v.queueC3 rz dst f) := by
    unfold State.queueC3
    split
    next => exact .of_host
    next => exact .ite .of_host (.ite (.trans .of_host (hrz _ _ fencesNothing_c3Drop)) .of_host)
  exact .ite (hqueue _ _ s) (.refl g s)

theorem writeRecord_sameFn (ps : List Nat) (r : EvRec) (s : State) : SameFn g s (s.writeRecord rz ps r) := by
  have hdelivered : SameFn g s (if r.source = 0x5C4 then
      ps.foldl (fun s p => s.deliver p { r with payload := r.payload.set 1 (s.shareOf p) }) s
      else s.deliverAll ps r) :=
    .ite (.foldl (fun _ _ => deliver_sameFn hg ..) (.refl g s)) (.foldl (fun _ _ => deliver_sameFn hg ..) (.refl g s))
  have hlogged {p : Prop} [Decidable p] {v : State} (h : SameFn g s v) :
      SameFn g s (if p then v.sendLog rz r else v) := .ite (h.trans (sendLog_sameFn hrz r v)) h
  unfold State.writeRecord
  exact .ite (hlogged hdelivered) (.foldl (fun _ p => hrz _ _ (fencesNothing_evtDrop p)) (hlogged hdelivered))

theorem raiseWith_sameFn {o : Occ} (ho : FencesNothing o) (s : State) : SameFn g s (s.raiseWith rz o) := by
  have hcounted : SameFn g s
      ({ s with evt.count := Tbl.upd s.evt.count 0 o.src (satAdd · 1 0xFFFFFFFF) } : State) := .of_host
  have halarm {p : Prop} [Decidable p] {v : State} (h : SameFn g s v) :
      SameFn g s (if p then v.alarm o else v) := .ite (h.trans .of_host) h
  have hwindow (v : State) (wins : List Win) (conseq : Tbl Nat) :
      SameFn g v ({ v with evt.wins := wins, evt.conseq := conseq } : State) := .of_host
  unfold State.raiseWith
  dsimp only
  split
  next => exact ((halarm hcounted).trans (hwindow _ _ _)).trans (react_sameFn hg rz ho _ _ _)
  next =>
    exact (SameFn.ite (halarm hcounted) ((halarm hcounted).trans (writeRecord_sameFn hg hrz _ _ _))).trans
      (react_sameFn hg rz ho _ _ _)

end

/-- An occurrence that fences nothing leaves the function pages but for their rings. -/
theorem raise_sameFn (s : State) {o : Occ} (ho : FencesNothing o) : SameFn g s (s.raise o) := by
  have hraise (n : Nat) : ∀ o s, FencesNothing o → SameFn g s (raiseN n o s) := by
    induction n with
    | zero => exact fun _ s _ => .refl g s
    | succ n ih => exact fun _ s ho => raiseWith_sameFn hg ih ho s
  exact hraise 4 o s ho

end

end

end Sys2Proof
end

section
/-!
SUPPORT. What the rows of a partition's rings do: one equation per row and case (14 R379, R381 to R389; 16 R439, R440).
-/

namespace Sys2Proof

open Sys2Proof.Machine

/-! ## The doorbell (14 R382) -/

theorem exec_cmdTail (p : Part) (count : Nat) (written : List CmdEntry) (s : State) :
    exec (.cmdTail p count written) s = execCmdTail p count written s := rfl

section
variable {s : State} {p : Part} {count : Nat}

/-- A count that leaves more than 256 entries, or moves back, is ignored with kind 2. -/
theorem cmdTail_ignored (written : List CmdEntry)
    (hbad : 256 < (count % 65536 + 65536 - (s.fnAt p.val).head) % 65536 ∨
      (count % 65536 + 65536 - (s.fnAt p.val).head) % 65536 <
        ((s.fnAt p.val).tail + 65536 - (s.fnAt p.val).head) % 65536) :
    exec (.cmdTail p count written) s = .next (s.fnErr p.val 2 0x020 0 0) := by
  rw [exec_cmdTail, execCmdTail]
  exact congrArg _ (if_pos hbad)

/-- Any other count adds the entries written. -/
theorem cmdTail_adds (written : List CmdEntry)
    (hfits : (count % 65536 + 65536 - (s.fnAt p.val).head) % 65536 ≤ 256)
    (hon : ((s.fnAt p.val).tail + 65536 - (s.fnAt p.val).head) % 65536 ≤
      (count % 65536 + 65536 - (s.fnAt p.val).head) % 65536) :
    exec (.cmdTail p count written) s = .next (s.updFn p.val (fun f => { f with
      tail := count % 65536
      ring := f.ring ++ written.take ((count % 65536 + 65536 - (s.fnAt p.val).head) % 65536 -
        ((s.fnAt p.val).tail + 65536 - (s.fnAt p.val).head) % 65536) })) := by
  rw [exec_cmdTail, execCmdTail]
  exact congrArg _ (if_neg (by omega))

/-! ## The intake (14 R381, R389) -/

theorem canTake_of_nextTurn {k : Nat} (h : s.nextTurn = some k) : s.canTake k = true := by
  unfold State.nextTurn at h
  dsimp only at h
  split at h
  next hcur =>
    rw [← Option.some.inj h]
    exact (Bool.and_eq_true_iff.1 hcur).1
  next => exact List.find?_some h

theorem intake_of_canTake {k : Nat} (h : s.canTake k = true) : s.intake k = true := (Bool.and_eq_true_iff.1 h).1

theorem ring_of_canTake {k : Nat} (h : s.canTake k = true) : (s.fnAt k).ring ≠ [] := by
  intro hempty
  rw [State.canTake, hempty, Bool.and_false] at h
  exact Bool.false_ne_true h

/-- A partition that takes no commands, or has none, has no turn. -/
theorem nextTurn_ne_of_idle {k : Nat} (hidle : s.intake k = false ∨ (s.fnAt k).ring = [] ∨ s.nextTurn ≠ some k) :
    s.nextTurn ≠ some k := by
  intro hturn
  have htake := canTake_of_nextTurn hturn
  rcases hidle with hintake | hring | hother
  · rw [intake_of_canTake htake] at hintake
    exact Bool.false_ne_true hintake.symm
  · exact ring_of_canTake htake hring
  · exact hother hturn

theorem intake_of_disabled {k : Nat} (h : (s.fnAt k).enable = false) : s.intake k = false := by
  rw [State.intake, h]
  rfl

/-- A partition whose reset was not acknowledged takes no commands. -/
theorem intake_of_reset_expired {k : Nat} (h : (s.fnAt k).reset = 4) : s.intake k = false := by
  simp [State.intake, h]

theorem exec_cmdTake (p : Part) (s : State) : exec (.cmdTake p) s = execCmdTake p s := rfl

/-- The state after the entry at the head of the ring is taken, before it is checked. -/
def headTaken (s : State) (p : Part) (r : List CmdEntry) : State :=
  (s.countTurn p.val).updFn p.val (fun f => { f with ring := r, head := (f.head + 1) % 65536 })

/-- What becomes of an entry taken: it is refused by the first check that it fails, or goes on in its own row. -/
def entryChecked (s : State) (p : Part) (e : CmdEntry) : State :=
  if (opcodeLen e.opcode false).isNone then s.refuseCmd p.val e.tag e.opcode .badOpcode []
  else if (s.fnAt p.val).tags.any (fun t => t.tag == e.tag) then s.command p e.tag e.opcode true true [] (fun s => s)
  else if !cmdFormed e then s.refuseCmd p.val e.tag e.opcode .badParam []
  else s.updFn p.val (fun f => { f with
    tags := f.tags ++ [{ tag := e.tag, opcode := e.opcode, taken := true, dma := e.dma }] })

theorem cmdTake_in_turn {e : CmdEntry} {r : List CmdEntry} (hfull : (s.fnAt p.val).holdFull = false)
    (hring : (s.fnAt p.val).ring = e :: r) (hturn : s.nextTurn = some p.val) :
    exec (.cmdTake p) s = .next (entryChecked (headTaken s p r) p e) := by
  rw [exec_cmdTake, execCmdTake, hfull, if_neg Bool.false_ne_true]
  refine congrArg _ ((if_neg (not_not_intro hturn)).trans ?_)
  rw [hring]
  rfl

/-- Out of its turn a partition takes nothing. -/
theorem cmdTake_waits (hfull : (s.fnAt p.val).holdFull = false) (hturn : s.nextTurn ≠ some p.val) :
    exec (.cmdTake p) s = .next s := by
  rw [exec_cmdTake, execCmdTake, hfull, if_neg Bool.false_ne_true]
  exact congrArg _ (if_pos hturn)

/-- PART_EVENT belongs to no unit and is no window fault. -/
theorem fencesNothing_partEvent (p : Part) (payload : List Nat) (names : List Elem) :
    FencesNothing { src := 0x080 + p.val, payload, names } := by
  have hlow (a b : Nat) (ha : 0x090 ≤ a) : inR (0x080 + p.val) a b = false := by simp [inR]; omega
  have hother (n : Nat) (hn : 0x090 ≤ n) : 0x080 + p.val ≠ n := by omega
  have hsensor : inR (0x080 + p.val) 0x010 0x03F = false := by simp [inR]; omega
  exact ⟨by simp [Occ.fences, hlow, hother, hsensor], by simp [srcUnit, hlow], by simp [isWindow, hlow]⟩

/-- 512 held completions are told, and a partition that is not enabled takes nothing. -/
theorem cmdTake_tells_full (hfull : (s.fnAt p.val).holdFull = true) (hoff : (s.fnAt p.val).enable = false) :
    exec (.cmdTake p) s = .next
      ((s.updFn p.val (fun f => { f with holdFull := false })).event (0x080 + p.val) [5] [.part p.val]) := by
  have hstays : ((((s.updFn p.val (fun f => { f with holdFull := false })).event (0x080 + p.val) [5] [.part p.val])).fnAt
      p.val).enable = false := by
    rw [State.event, (raise_sameFn (g := FnSt.enable) {} _ (fencesNothing_partEvent p _ _)).fn, State.updFn_same, hoff]
  rw [exec_cmdTake, execCmdTake, hfull, if_pos rfl]
  exact congrArg _ (if_pos (nextTurn_ne_of_idle (.inl (intake_of_disabled hstays))))

theorem headTaken_fnAt (s : State) (p : Part) (r : List CmdEntry) : (headTaken s p r).fnAt p.val =
    { s.fnAt p.val with ring := r, head := ((s.fnAt p.val).head + 1) % 65536 } := State.updFn_same _ _ _

theorem headTaken_turn (s : State) (p : Part) (r : List CmdEntry) : (headTaken s p r).host.turn =
    if p.val = s.host.turn.1 ∧ s.host.turn.2 < 4 then (s.host.turn.1, s.host.turn.2 + 1) else (p.val, 1) := rfl

theorem entryChecked_bad_opcode {e : CmdEntry} (h : (opcodeLen e.opcode false).isNone = true) :
    entryChecked s p e = s.refuseCmd p.val e.tag e.opcode .badOpcode [] := if_pos h

section
variable {e : CmdEntry} (hop : (opcodeLen e.opcode false).isSome = true)
  (htag : (s.fnAt p.val).tags.any (fun t => t.tag == e.tag) = false)
include hop htag

theorem entryChecked_of_fresh : entryChecked s p e = if !cmdFormed e then s.refuseCmd p.val e.tag e.opcode .badParam []
    else s.updFn p.val (fun f => { f with
      tags := f.tags ++ [{ tag := e.tag, opcode := e.opcode, taken := true, dma := e.dma }] }) := by
  have hknown : ¬ (opcodeLen e.opcode false).isNone = true := by
    rw [Option.isNone_eq_false_iff.2 hop]
    exact Bool.false_ne_true
  rw [entryChecked, if_neg hknown, htag, if_neg Bool.false_ne_true]

theorem entryChecked_malformed (hform : cmdFormed e = false) :
    entryChecked s p e = s.refuseCmd p.val e.tag e.opcode .badParam [] := by
  rw [entryChecked_of_fresh hop htag, hform]
  rfl

theorem entryChecked_passes (hform : cmdFormed e = true) :
    entryChecked s p e = s.updFn p.val (fun f => { f with
      tags := f.tags ++ [{ tag := e.tag, opcode := e.opcode, taken := true, dma := e.dma }] }) := by
  rw [entryChecked_of_fresh hop htag, hform]
  rfl

end

/-- The checks of an entry leave the function pages but for their rings. -/
theorem entryChecked_sameFn {α : Type} {g : FnSt → α} (hg : OutsideRings g) (s : State) (p : Part) (e : CmdEntry) :
    SameFn g s (entryChecked s p e) :=
  .ite (refuseCmd_sameFn hg ..) (.ite (command_sameFn hg s p _ _ _ _ _ fun v => .refl g v)
    (.ite (refuseCmd_sameFn hg ..) (updFn_sameFn s p.val fun f => hg.tags f _)))

/-! ## Rows that change the ring's state (14 R382, R385) -/

theorem exec_cmdEnable_off (p : Part) (s : State) :
    exec (.cmdEnable p false) s = .next (s.updFn p.val (fun f => { f with enable := false })) := rfl

theorem exec_cmdEnable_on (p : Part) (s : State) :
    exec (.cmdEnable p true) s = .next
      (((s.updFn p.val (fun f => { f with enable := true })).flushCpl p.val).drainEvts p.val) := rfl

/-- RING_STOP aborts the partition's tasks, and is told where the ring ran. -/
theorem exec_ringStop (p : Part) (s : State) :
    let u := (s.updFn p.val (fun f => { f with stop := true })).abortPart p
    exec (.ringStop p) s = .next
      (if (s.fnAt p.val).stop then u else u.event (0x080 + p.val) [4] [.part p.val]) := rfl

theorem exec_ringResume (p : Part) (s : State) :
    exec (.ringResume p) s = .next (s.updFn p.val (fun f => { f with stop := false })) := rfl

/-! ## Completion and event rings (14 R379, R383, R386; 16 R439) -/

theorem exec_msixCoalTimeout (p : Part) (evt : Bool) (s : State) :
    exec (.msixCoalTimeout p evt) s = execMsixCoalTimeout p evt s := rfl

theorem exec_cplDmaError (p : Part) (addr : Nat) (s : State) :
    exec (.cplDmaError p addr) s = .next
      (((s.updFn p.val (fun f => { f with cplErr := true })).fnErr p.val 3 0 (addr % 2 ^ 32) (hi32 addr)).event
        (0x080 + p.val) [6] [.part p.val]) := rfl

theorem exec_evtDmaError (p : Part) (addr : Nat) (s : State) :
    exec (.evtDmaError p addr) s = .next
      (((s.updFn p.val (fun f => { f with evtErr := true })).fnErr p.val 4 0 (addr % 2 ^ 32) (hi32 addr)).event
        (0x080 + p.val) [7] [.part p.val]) := rfl

theorem exec_cplCons (p : Part) (count : Nat) (s : State) :
    exec (.cplCons p count) s = .next ((s.updFn p.val (fun f => { f with
      cplCons := count % 2 ^ 32, cpls := f.cpls.drop (ringFill count f.cplCons) })).flushCpl p.val) := rfl

theorem exec_evtCons (p : Part) (count : Nat) (s : State) :
    exec (.evtCons p count) s = .next ((s.updFn p.val (fun f => { f with
      evtCons := count % 2 ^ 32, evts := f.evts.drop (ringFill count f.evtCons) })).drainEvts p.val) := rfl

end

end Sys2Proof
end

section
/-!
The statements about the rings of a partition.
-/

namespace Sys2Proof

open Sys2Proof.Machine

section
variable {s : State} {p : Part}

/-- The oldest unannounced completion or event record is told where it is COAL_TIME old. -/
theorem msixCoalTimeout_tells_cpl (htime : bits (s.fnAt p.val).cplMsix 31 16 ≠ 0)
    (hfill : ringFill (s.fnAt p.val).cplProd (s.fnAt p.val).cplTold ≠ 0) :
    Answers (.msixCoalTimeout p false) s (fun t =>
      t.fnAt p.val = { s.fnAt p.val with
        cplTold := (s.fnAt p.val).cplProd, msixSent := (s.fnAt p.val).msixSent + 1 } ∧
      t = { s with host.fn := t.host.fn }) :=
  answers_of_updFn (exec_msixCoalTimeout p false s)
    ((if_neg Bool.false_ne_true).trans (if_pos (And.intro htime hfill)))

theorem msixCoalTimeout_tells_evt (htime : bits (s.fnAt p.val).evtMsix 31 16 ≠ 0)
    (hfill : ringFill (s.fnAt p.val).evtProd (s.fnAt p.val).evtTold ≠ 0) :
    Answers (.msixCoalTimeout p true) s (fun t =>
      t.fnAt p.val = { s.fnAt p.val with
        evtTold := (s.fnAt p.val).evtProd, msixSent := (s.fnAt p.val).msixSent + 1 } ∧
      t = { s with host.fn := t.host.fn }) :=
  answers_of_updFn (exec_msixCoalTimeout p true s) ((if_pos rfl).trans (if_pos (And.intro htime hfill)))

/-- An entry that passes every check is taken: its tag waits for its row, and the turn is counted. -/
theorem cmdTake_passes {e : CmdEntry} {r : List CmdEntry} (hfull : (s.fnAt p.val).holdFull = false)
    (hring : (s.fnAt p.val).ring = e :: r) (hturn : s.nextTurn = some p.val)
    (hop : (opcodeLen e.opcode false).isSome = true)
    (htag : (s.fnAt p.val).tags.any (fun t => t.tag == e.tag) = false) (hform : cmdFormed e = true) :
    Answers (.cmdTake p) s (fun t => t.fnAt p.val = { s.fnAt p.val with
        ring := r
        head := ((s.fnAt p.val).head + 1) % 65536
        tags := (s.fnAt p.val).tags ++ [{ tag := e.tag, opcode := e.opcode, taken := true, dma := e.dma }] } ∧
      t.host.turn = (if p.val = s.host.turn.1 ∧ s.host.turn.2 < 4 then (s.host.turn.1, s.host.turn.2 + 1)
        else (p.val, 1)) ∧
      t = { s with host.fn := t.host.fn, host.turn := t.host.turn }) := by
  have htag' : ((headTaken s p r).fnAt p.val).tags.any (fun t => t.tag == e.tag) = false := by rwa [headTaken_fnAt]
  have hexec := cmdTake_in_turn hfull hring hturn
  rw [entryChecked_passes hop htag' hform] at hexec
  refine ⟨_, hexec, ?_, headTaken_turn s p r, rfl⟩
  rw [State.updFn_same, headTaken_fnAt]

end

/-- Settles O57: each clause is the equation of its row in the case that its hypotheses name. -/
theorem hostRingRows : Obligations.HostRingRows := by
  intro s p
  refine ⟨fun count written => ⟨fun hfits hon => answers_of_updFn (cmdTail_adds written hfits hon) rfl,
      cmdTail_ignored written⟩,
    fun e r hfull _ hring _ hturn => ⟨fun hop => ?_, fun hop htag hform => ?_, cmdTake_passes hfull hring hturn⟩,
    fun hfull hidle => cmdTake_waits hfull (nextTurn_ne_of_idle hidle), exec_cmdEnable_off p s, exec_cmdEnable_on p s,
    ⟨fun hstop => ?_, fun hstop => ?_⟩, exec_ringResume p s, msixCoalTimeout_tells_cpl, msixCoalTimeout_tells_evt,
    fun addr => exec_cplDmaError p addr s, fun addr => exec_evtDmaError p addr s, fun count => exec_cplCons p count s,
    fun count => exec_evtCons p count s⟩
  · exact (cmdTake_in_turn hfull hring hturn).trans (congrArg _ (entryChecked_bad_opcode hop))
  · have htag' : ((headTaken s p r).fnAt p.val).tags.any (fun t => t.tag == e.tag) = false := by rwa [headTaken_fnAt]
    exact (cmdTake_in_turn hfull hring hturn).trans (congrArg _ (entryChecked_malformed hop htag' hform))
  · exact (exec_ringStop p s).trans (congrArg _ (if_pos hstop))
  · exact (exec_ringStop p s).trans (congrArg _ (if_neg (ne_true_of_eq_false hstop)))

/-! ## The counts (14 R382) -/

section
variable {s : State} {p : Part}

/-- An entry taken leaves the ring and advances CMD_HEAD, whatever its checks say. -/
theorem cmdTake_advances {e : CmdEntry} {r : List CmdEntry} (hfull : (s.fnAt p.val).holdFull = false)
    (hring : (s.fnAt p.val).ring = e :: r) (hturn : s.nextTurn = some p.val) :
    Answers (.cmdTake p) s (fun t =>
      (t.fnAt p.val).ring = r ∧ (t.fnAt p.val).head = ((s.fnAt p.val).head + 1) % 65536) := by
  refine ⟨_, cmdTake_in_turn hfull hring hturn, ?_, ?_⟩
  · rw [(entryChecked_sameFn (g := FnSt.ring) {} _ p e).fn, headTaken_fnAt]
  · rw [(entryChecked_sameFn (g := FnSt.head) {} _ p e).fn, headTaken_fnAt]

/-- A refused write of CMD_TAIL leaves CMD_TAIL and the ring, and is recorded where no error is recorded yet. -/
theorem fnErr_of_tail (s : State) (p : Part) :
    ((s.fnErr p.val 2 0x020 0 0).fnAt p.val).tail = (s.fnAt p.val).tail ∧
    ((s.fnErr p.val 2 0x020 0 0).fnAt p.val).ring = (s.fnAt p.val).ring ∧
    ((s.fnAt p.val).ferr = none →
      (((s.fnErr p.val 2 0x020 0 0).fnAt p.val).ferr.map (fun x => (x.kind, x.detail))) = some (2, 0x020)) := by
  refine ⟨(fnErr_sameFn (g := FnSt.tail) {} ..).fn _, (fnErr_sameFn (g := FnSt.ring) {} ..).fn _, fun hnone => ?_⟩
  rw [State.fnErr, State.updFn_same, FnSt.noteErr, hnone]
  rfl

/-- The completion and event registers are ring registers, which leave ENABLE as it is. -/
theorem setRing_of_ringRegister (f : FnSt) (w : Nat) {offset : Nat}
    (h : offset ∈ [0x030, 0x034, 0x038, 0x03C, 0x040, 0x044, 0x050, 0x054, 0x058, 0x05C, 0x060]) :
    ∃ g, f.setRing offset w = some g ∧ g.enable = f.enable := by
  simp only [List.mem_cons, List.not_mem_nil, or_false] at h
  rcases h with rfl | rfl | rfl | rfl | rfl | rfl | rfl | rfl | rfl | rfl | rfl <;> exact ⟨_, rfl, rfl⟩

/-- The ring registers are closed while ENABLE is 1. -/
theorem registerWrite_of_enabled {offset : Nat} (value : Word)
    (hring : offset ∈ [0x030, 0x034, 0x038, 0x03C, 0x040, 0x044, 0x050, 0x054, 0x058, 0x05C, 0x060])
    (hon : (s.fnAt p.val).enable = true) :
    exec (.registerWrite p offset value) s = .next (s.fnErr p.val 2 offset 0 0) := by
  obtain ⟨g, hset, henable⟩ := setRing_of_ringRegister (s.fnAt p.val) value.toNat hring
  rw [registerWrite_of_setRing hset, if_pos (henable.trans hon)]

end

/-- Settles O7: a doorbell by its two cases, an entry taken by what its checks leave, and a disabled ring, whose turn never
comes, also after the event of a full hold. -/
theorem commandRingCounts : Obligations.CommandRingCounts := by
  intro s p
  refine ⟨fun count written _ _ hcount => ?_,
    fun _ _ hfull _ hring _ => cmdTake_advances hfull hring,
    fun hoff => ⟨intake_of_disabled hoff, fun hfull => ?_, fun hfull => cmdTake_tells_full hfull hoff⟩,
    fun _ value => registerWrite_of_enabled value⟩
  · have hmod : count % 65536 = count := Nat.mod_eq_of_lt hcount
    refine ⟨fun hbad => ⟨cmdTail_ignored written (by rwa [hmod]), fnErr_of_tail s p⟩, fun hfits hon => ?_⟩
    have hexec := cmdTail_adds (s := s) (p := p) (count := count) written (by rwa [hmod]) (by rwa [hmod])
    rw [hmod] at hexec
    exact answers_of_updFn hexec rfl
  · exact cmdTake_waits hfull (nextTurn_ne_of_idle (.inl (intake_of_disabled hoff)))

end Sys2Proof
end

section
/-!
The statement about a partition reset without acknowledgement.
-/

namespace Sys2Proof

open Sys2Proof.Machine

section
variable {s : State} {p : Part}

/-- Completions to a list of requesters change the host functions alone. -/
theorem completeEach_same (op : BitVec 16) (st : Status) (l : List (Part × Nat)) (s : State) :
    SameButHost s (l.foldl (fun s x => s.complete x.1.val x.2 op st []) s) := by
  induction l generalizing s with
  | nil => exact .refl s
  | cons x l ih => exact (complete_same s x.1.val x.2 op st [] []).trans (ih _)

/-- The load of the control stores changes of the firmware's state the microcode alone. -/
theorem loadControl_fw (s : State) (u : UImage) : (s.loadControl u).fw = { s.fw with ucode := u } := by
  have h : ∀ (l : List Nat) (t : State),
      (l.foldl (fun s e => s.updEng e (fun x => { x with ucode := u })) t).fw = t.fw := by
    intro l
    induction l with
    | nil => exact fun t => rfl
    | cons e l ih => exact fun t => ih _
  exact h _ _

/-- What a module reset leaves of the firmware's state: it boots, from the bank selected, with the service locked. -/
theorem moduleReset_fw (s : State) (cause : Nat) : (s.moduleReset cause).fw = { s.fw with
    state := 0, bank := s.fw.next, fellBack := false, hand := 0, handCmd := none, ucodeCmd := none, ucodeTodo := []
    bootRetry := false, lastCause := cause, svcUntil := none, ucode := s.fw.ucodeOf s.fw.next } := by
  unfold State.moduleReset
  rw [loadControl_fw]

theorem resetAckTimeout_of_idle (hidle : (s.fnAt p.val).reset ≠ 1 ∨ s.fw.hand ≠ 0) :
    exec (.resetAckTimeout p) s = .next s := by
  rw [exec_resetAckTimeout, execResetAckTimeout]
  exact congrArg _ (if_neg fun h => hidle.elim (absurd h.1) (absurd h.2))

theorem partResetAck_of_not_requested (hreset : (s.fnAt p.val).reset ≠ 1) : exec (.partResetAck p) s = .next s := by
  rw [exec_partResetAck, execPartResetAck]
  exact congrArg _ (if_neg fun h => hreset h.1)

/-- Without escalation the partition stays RESETTING, takes nothing, and is told of it. -/
theorem resetAckTimeout_stays (hreset : (s.fnAt p.val).reset = 1) (hhand : s.fw.hand = 0) (hesc : s.parN 0 0 0x001 ≠ 1) :
    ∃ u : State, exec (.resetAckTimeout p) s = .next (u.event (0x080 + p.val) [3] [.part p.val]) ∧
      u.now = max s.now ((s.fnAt p.val).resetAt + 50000000) ∧ (u.fnAt p.val).reset = 4 ∧ u.intake p.val = false ∧
      u = { s with now := u.now, host.fn := u.host.fn } := by
  have hsame := completeEach_same 0x0006 .timeout (s.fnAt p.val).resetBy ((s.moveTo ((s.fnAt p.val).resetAt + 50000000)).updFn
    p.val (fun f => { f with reset := 4, resetBy := [] }))
  have hexpired := SameFn.foldl (g := FnSt.reset) (l := (s.fnAt p.val).resetBy)
    (fun v x => complete_sameFn {} v x.1.val x.2 0x0006 .timeout [] []) (.refl _
      ((s.moveTo ((s.fnAt p.val).resetAt + 50000000)).updFn p.val (fun f => { f with reset := 4, resetBy := [] })))
  have hreset4 := (hexpired.fn p.val).trans (congrArg FnSt.reset (State.updFn_same _ _ _))
  refine ⟨_, resetAckTimeout_times_out hreset hhand hesc, ?_, hreset4, intake_of_reset_expired hreset4, ?_⟩
  · rw [hsame]
    rfl
  · rw [hsame]
    rfl

/-- RESET_STATE and PART_STATUS show a reset that was not acknowledged. -/
theorem readReg_of_reset_expired (h : (s.fnAt p.val).reset = 4) :
    s.readReg p.val 0x0A8 % 8 = 4 ∧ s.readReg p.val 0x00C / 4 % 2 = 1 := by
  have hresetting : (s.fnAt p.val).resetting = true := by rw [FnSt.resetting, h]; rfl
  have hb (b : Bool) : b2n b ≤ 1 := by cases b <;> decide
  refine ⟨?_, ?_⟩
  · show s.resetState p.val % 8 = 4
    rw [State.resetState, h]
    omega
  · show s.partStatus p.val / 4 % 2 = 1
    have hon := hb (s.part p.val).enable
    have hready := hb (s.fw.state == 1 && (s.part p.val).enable && !(s.fnAt p.val).resetting)
    have hset : b2n (s.fnAt p.val).resetting = 1 := by rw [hresetting]; rfl
    unfold State.partStatus
    dsimp only
    omega

theorem functionLevelReset_requests (h1 : (s.fnAt p.val).reset ≠ 1) (h2 : (s.fnAt p.val).reset ≠ 2) :
    Answers (.functionLevelReset p) s (fun t => (t.fnAt p.val).reset = 1 ∧ (t.fnAt p.val).resetAt = s.now) := by
  obtain ⟨t, hexec, hpage, -⟩ := functionLevelReset_starts h1 h2
  exact ⟨t, hexec, congrArg FnSt.reset hpage, congrArg FnSt.resetAt hpage⟩

end

/-- Settles O8: the request, the two outcomes of its time-out, what disarms the timer, and what an expired reset shows and
takes. -/
theorem resetWithoutAcknowledgement : Obligations.ResetWithoutAcknowledgement := by
  intro s p
  refine ⟨functionLevelReset_requests, fun hreset hhand hesc => ⟨resetAckTimeout_escalates hreset hhand hesc, ?_⟩,
    resetAckTimeout_stays, resetAckTimeout_of_idle, fun hexpired => ?_⟩
  · rw [moduleReset_fw]
  · have h1 : (s.fnAt p.val).reset ≠ 1 := by omega
    obtain ⟨hstate, hstatus⟩ := readReg_of_reset_expired hexpired
    exact ⟨hstate, hstatus, intake_of_reset_expired hexpired, partResetAck_of_not_requested h1,
      functionLevelReset_requests h1 (by omega)⟩

end Sys2Proof
end

section
/-!
SUPPORT. What the commands of block SYS do where no check refuses them: one lemma per command and case (14 R390 to R396;
16 R453).
-/

namespace Sys2Proof

open Sys2Proof.Machine

section
variable {s : State} {p : Part} {tag : Nat}

theorem exec_sysNop (p : Part) (tag : Nat) (s : State) : exec (.sysNop p tag) s = execSysNop p tag s := rfl

theorem sysNop_answers (hpass : Passes s p tag 0x0001) : Answers (.sysNop p tag) s (fun t =>
    Posted t p tag 0x0001 .ok [s.fw.version, p.val] ∧ SameButHost s t) :=
  answers_of_command (exec_sysNop p tag s) hpass rfl rfl
    ⟨complete_posted _ _ _ _ _ _ _, (taken_same s p tag 0x0001).trans (complete_same _ _ _ _ _ _ _)⟩

/-! ## Parameters (14 R391 to R394) -/

theorem countCheck_inline {n : Nat} (hlo : 1 ≤ n) (hhi : n ≤ 6) : (countCheck false n).find? (·.1) = none := by
  simpa [countCheck] using And.intro (Nat.ne_of_gt hlo) hhi

theorem countCheck_list {n : Nat} (hlo : 1 ≤ n) (hhi : n ≤ 4096) : (countCheck true n).find? (·.1) = none := by
  simpa [countCheck] using And.intro (Nat.ne_of_gt hlo) hhi

/-- A read of a parameter leaves every parameter in force. -/
theorem readParam_params (s : State) (p : Nat) (staged : Bool) (id : Nat) :
    (s.readParam p staged id).2.host.params = s.host.params := by
  unfold State.readParam
  dsimp only
  split
  · rfl
  · split
    · rfl
    · split <;> rfl
    · split
      · rfl
      · split
        · dsimp only
          split <;> rfl
        · rfl

theorem readAll_params (ids : List Nat) (s : State) (p : Nat) (staged : Bool) :
    (s.readAll p staged ids).2.host.params = s.host.params := by
  induction ids generalizing s with
  | nil => rfl
  | cons id ids ih => exact (ih _).trans (readParam_params s p staged id)

theorem complete_params (s : State) (p tag : Nat) (op : BitVec 16) (st : Status) (r : List Nat) (d : List Int) :
    (s.complete p tag op st r d).host.params = s.host.params := by
  rw [complete_same s p tag op st r d]

theorem exec_sysParamGet (p : Part) (tag : Nat) (ids : List Nat) (list staged : Bool) (s : State) :
    exec (.sysParamGet p tag ids list staged) s = execSysParamGet p tag ids list staged s := rfl

theorem sysParamGet_reads {ids : List Nat} {staged : Bool} (hpass : Passes s p tag 0x0002) (hlo : 1 ≤ ids.length)
    (hhi : ids.length ≤ 6) (hgood : (taken s p tag 0x0002).idsBad p ids = none) :
    Answers (.sysParamGet p tag ids false staged) s (fun t => Posted t p tag 0x0002 .ok
      (((taken s p tag 0x0002).readAll p staged ids).1.map word32) ∧ t.host.params = s.host.params) := by
  refine answers_of_command (exec_sysParamGet p tag ids false staged s) hpass rfl (countCheck_inline hlo hhi) ?_
  rw [if_neg Bool.false_ne_true, hgood]
  exact ⟨complete_posted _ _ _ _ _ _ _,
    (complete_params _ _ _ _ _ _ _).trans (readAll_params ids (taken s p tag 0x0002) p.val staged)⟩

/-- A list command joins those whose list is being fetched, and is answered ACCEPTED. -/
theorem listCmd_joins (s : State) (p tag : Nat) (op : BitVec 16) (c : ListCmd) :
    let t := (s.updFn p (fun f => { f with listCmd := f.listCmd ++ [c] })).complete p tag op .accepted []
    Posted t p tag op .accepted [] ∧ (t.fnAt p).listCmd.getLast? = some c ∧ SameButHost s t := by
  refine ⟨complete_posted _ _ _ _ _ _ _, ?_, (updFn_same s p _).trans (complete_same _ _ _ _ _ _ _)⟩
  rw [(complete_sameFn (g := FnSt.listCmd) {} _ _ _ _ _ _ _).fn p, State.updFn_same]
  exact List.getLast?_concat

theorem sysParamGet_fetches {ids : List Nat} {staged : Bool} (hpass : Passes s p tag 0x0002) (hlo : 1 ≤ ids.length)
    (hhi : ids.length ≤ 4096) :
    Answers (.sysParamGet p tag ids true staged) s (fun t => Posted t p tag 0x0002 .accepted [] ∧
      ((t.fnAt p).listCmd.getLast?.map (fun c => (c.tag, c.pairs.map (·.1), c.set))) = some (tag, ids, false) ∧
      SameButHost s t) := by
  refine answers_of_command (exec_sysParamGet p tag ids true staged s) hpass rfl (countCheck_list hlo hhi) ?_
  obtain ⟨hpost, hlast, hsame⟩ := listCmd_joins (taken s p tag 0x0002) p tag 0x0002
    { tag, pairs := ids.map (fun i => (i, 0)), set := false, commit := false, staged }
  refine ⟨hpost, ?_, (taken_same s p tag 0x0002).trans hsame⟩
  rw [if_pos rfl, hlast]
  simp [Function.comp_def]

theorem exec_sysParamSet (p : Part) (tag : Nat) (pairs : List (Nat × Int)) (commit list : Bool) (s : State) :
    exec (.sysParamSet p tag pairs commit list) s = execSysParamSet p tag pairs commit list s := rfl

theorem sysParamSet_fetches {pairs : List (Nat × Int)} {commit : Bool} (hpass : Passes s p tag 0x0003)
    (hlo : 1 ≤ pairs.length) (hhi : pairs.length ≤ 4096) :
    Answers (.sysParamSet p tag pairs commit true) s (fun t => Posted t p tag 0x0003 .accepted [] ∧
      ((t.fnAt p).listCmd.getLast?.map (fun c => (c.tag, c.pairs, c.set, c.commit))) = some (tag, pairs, true, commit) ∧
      SameButHost s t) := by
  refine answers_of_command (exec_sysParamSet p tag pairs commit true s) hpass rfl (countCheck_list hlo hhi) ?_
  obtain ⟨hpost, hlast, hsame⟩ := listCmd_joins (taken s p tag 0x0003) p tag 0x0003
    { tag, pairs, set := true, commit, staged := false }
  refine ⟨hpost, ?_, (taken_same s p tag 0x0003).trans hsame⟩
  rw [if_pos rfl, hlast]
  rfl

/-- A set that is accepted in whole completes with its words in the state that it makes. -/
theorem sysParamSet_of_setPairs {pairs : List (Nat × Int)} {commit : Bool} {ws : List Nat} {u : State}
    (hpass : Passes s p tag 0x0003) (hlo : 1 ≤ pairs.length) (hhi : pairs.length ≤ 6)
    (hset : (taken s p tag 0x0003).setPairs p pairs commit = (.ok, ws, u)) :
    exec (.sysParamSet p tag pairs commit false) s = .next (u.complete p tag 0x0003 .ok ws) := by
  rw [next_of_command (exec_sysParamSet p tag pairs commit false s) hpass rfl (countCheck_inline hlo hhi),
    if_neg Bool.false_ne_true, hset]
  rfl

/-- Pairs that are good and fit are staged. -/
theorem setPairs_stages {pairs : List (Nat × Int)} (hgood : s.pairsBad p pairs = none)
    (hfit : ((s.stagePairs p pairs).fnAt p).staged.length ≤ 4096) :
    s.setPairs p pairs false = (.ok, [], s.stagePairs p pairs) := by
  unfold State.setPairs
  rw [hgood]
  exact (if_neg (Nat.not_lt.2 hfit)).trans (if_neg Bool.false_ne_true)

theorem sysParamSet_stages {pairs : List (Nat × Int)} (hpass : Passes s p tag 0x0003) (hlo : 1 ≤ pairs.length)
    (hhi : pairs.length ≤ 6) (hgood : (taken s p tag 0x0003).pairsBad p pairs = none)
    (hfit : (((taken s p tag 0x0003).stagePairs p pairs).fnAt p).staged.length ≤ 4096) :
    Answers (.sysParamSet p tag pairs false false) s (fun t => Posted t p tag 0x0003 .ok [] ∧
      (t.fnAt p).staged = (((taken s p tag 0x0003).stagePairs p pairs).fnAt p).staged ∧ SameButHost s t) :=
  ⟨_, sysParamSet_of_setPairs hpass hlo hhi (setPairs_stages hgood hfit), complete_posted _ _ _ _ _ _ _,
    (complete_sameFn (g := FnSt.staged) {} _ _ _ _ _ _ _).fn p,
    ((taken_same s p tag 0x0003).trans (updFn_same _ _ _)).trans (complete_same _ _ _ _ _ _ _)⟩

theorem exec_paramListDone (p : Part) (tag : Nat) (s : State) :
    exec (.paramListDone p tag) s = execParamListDone p tag s := rfl

theorem paramListDone_reads {c : ListCmd} (hfind : (s.fnAt p).listCmd.find? (fun c => c.tag == tag) = some c)
    (hget : c.set = false) :
    let u := s.updFn p (fun f => { f with listCmd := f.listCmd.filter (fun d => d.tag != tag) })
    u.idsBad p (c.pairs.map (·.1)) = none →
    Answers (.paramListDone p tag) s (fun t => lastCpl t p = some
      { tag, status := .ok, opcode := 0x0002, final := true, result := []
        data := (u.readAll p c.staged (c.pairs.map (·.1))).1 }) := by
  intro u hgood
  let r := u.readAll p c.staged (c.pairs.map (·.1))
  refine ⟨r.2.complete p tag 0x0002 .ok [] r.1, ?_, post_last _ _ _⟩
  rw [exec_paramListDone, execParamListDone, hfind]
  dsimp only
  rw [hget, if_neg Bool.false_ne_true, hgood]

theorem paramListDone_sets {c : ListCmd} {ws : List Nat} {v : State}
    (hfind : (s.fnAt p).listCmd.find? (fun c => c.tag == tag) = some c) (hset : c.set = true)
    (hdone : (s.updFn p (fun f => { f with listCmd := f.listCmd.filter (fun d => d.tag != tag) })).setPairs p c.pairs
      c.commit = (.ok, ws, v)) :
    Answers (.paramListDone p tag) s (fun t => Posted t p tag 0x0003 .ok ws ∧ SameButHost v t) := by
  refine ⟨v.complete p tag 0x0003 .ok ws, ?_, complete_posted _ _ _ _ _ _ _, complete_same _ _ _ _ _ _ _⟩
  rw [exec_paramListDone, execParamListDone, hfind]
  dsimp only
  rw [hset, if_pos rfl, hdone, if_pos rfl]

theorem exec_sysParamCommit (p : Part) (tag : Nat) (s : State) :
    exec (.sysParamCommit p tag) s = execSysParamCommit p tag s := rfl

theorem sysParamCommit_of_commit {ws : List Nat} {u : State} (hpass : Passes s p tag 0x0004)
    (hcommit : (taken s p tag 0x0004).commit p = (.ok, ws, u)) :
    Answers (.sysParamCommit p tag) s (fun t => Posted t p tag 0x0004 .ok ws ∧ SameButHost u t) := by
  refine answers_of_command (exec_sysParamCommit p tag s) hpass rfl rfl ?_
  rw [hcommit]
  exact ⟨complete_posted _ _ _ _ _ _ _, complete_same _ _ _ _ _ _ _⟩

theorem exec_sysParamDiscard (p : Part) (tag : Nat) (s : State) :
    exec (.sysParamDiscard p tag) s = execSysParamDiscard p tag s := rfl

theorem sysParamDiscard_discards (hpass : Passes s p tag 0x0005) :
    Answers (.sysParamDiscard p tag) s (fun t => Posted t p tag 0x0005 .ok [] ∧
      (t.fnAt p).staged = [] ∧ (t.fnAt p).stagedTs = [] ∧ (t.fnAt p).stagedRate = [] ∧ SameButHost s t) := by
  refine answers_of_command (exec_sysParamDiscard p tag s) hpass rfl rfl ⟨complete_posted _ _ _ _ _ _ _, ?_, ?_, ?_,
    ((taken_same s p tag 0x0005).trans (updFn_same _ _ _)).trans (complete_same _ _ _ _ _ _ _)⟩
  · rw [(complete_sameFn (g := FnSt.staged) {} _ _ _ _ _ _ _).fn p, State.updFn_same]
  · rw [(complete_sameFn (g := FnSt.stagedTs) {} _ _ _ _ _ _ _).fn p, State.updFn_same]
  · rw [(complete_sameFn (g := FnSt.stagedRate) {} _ _ _ _ _ _ _).fn p, State.updFn_same]

/-! ## Resets (14 R395, R396) -/

/-- A request for a reset of a partition that has none at once starts the time of its acknowledgement. -/
theorem requestPart_of_none {q : Nat} (hnone : (s.fnAt q).reset = 0) :
    (s.requestPart q).fnAt q = { s.fnAt q with reset := 1, resetAt := s.now } := by
  unfold State.requestPart
  rw [State.updFn_same, hnone]
  rfl

theorem taken_reset (s : State) (p : Part) (tag : Nat) (op : BitVec 16) (q : Nat) :
    ((taken s p tag op).fnAt q).reset = (s.fnAt q).reset :=
  (updFn_sameFn (g := FnSt.reset) s p (f := fun f => f.useTag tag op) fun _ => rfl).fn q

theorem exec_sysResetPartition (p : Part) (tag : Nat) (target : Part) (s : State) :
    exec (.sysResetPartition p tag target) s = execSysResetPartition p tag target s := rfl

/-- A partition that asks for its own reset gets no completion. -/
theorem sysResetPartition_own (hpass : Passes s p tag 0x0006) (hnone : (s.fnAt p).reset = 0) :
    Answers (.sysResetPartition p tag p) s (fun t => (t.fnAt p).reset = 1 ∧ (t.fnAt p).resetAt = s.now ∧
      lastCpl t p = lastCpl s p ∧ SameButHost s t) := by
  have hpage := requestPart_of_none ((taken_reset s p tag 0x0006 p).trans hnone)
  refine answers_of_command (exec_sysResetPartition p tag p s) hpass (by simp) rfl ?_
  rw [if_pos rfl]
  refine ⟨congrArg FnSt.reset hpage, congrArg FnSt.resetAt hpage, ?_,
    (taken_same s p tag 0x0006).trans (updFn_same _ _ _)⟩
  rw [lastCpl, hpage, taken, State.updFn_same]
  rfl

theorem sysResetPartition_other {target : Part} (hpass : Passes s p tag 0x0006) (hother : target ≠ p)
    (hsystem : s.isSystem p = true) (hnone : (s.fnAt target).reset = 0) :
    Answers (.sysResetPartition p tag target) s (fun t => (t.fnAt target).reset = 1 ∧ Posted t p tag 0x0006 .accepted [] ∧
      SameButHost s t) := by
  have hpage := requestPart_of_none ((taken_reset s p tag 0x0006 target).trans hnone)
  refine answers_of_command (exec_sysResetPartition p tag target s) hpass (by rw [hsystem, Bool.or_true]) rfl ?_
  rw [if_neg fun h => hother h.symm]
  refine ⟨?_, complete_posted _ _ _ _ _ _ _,
    (((taken_same s p tag 0x0006).trans (updFn_same _ _ _)).trans (updFn_same _ _ _)).trans (complete_same _ _ _ _ _ _ _)⟩
  rw [(complete_sameFn (g := FnSt.reset) {} _ _ _ _ _ _ _).fn target, State.updFn_same, hpage]

theorem exec_sysResetModule (p : Part) (tag : Nat) (s : State) :
    exec (.sysResetModule p tag) s = execSysResetModule p tag s := rfl

theorem sysResetModule_requests (hpass : Passes s p tag 0x0007) (hright : s.rightModReset p = true)
    (hin : s.pwr.sup.eject = false) : exec (.sysResetModule p tag) s = .next ((taken s p tag 0x0007).requestReset 2) := by
  have hcheck : [(s.pwr.sup.eject, Status.busy, ([] : List Nat))].find? (·.1) = none := by
    rw [hin]
    rfl
  rw [next_of_command (exec_sysResetModule p tag s) hpass hright hcheck]

/-! ## The service lock (16 R453) -/

theorem exec_sysServiceUnlock (p : Part) (tag seconds : Nat) (s : State) :
    exec (.sysServiceUnlock p tag seconds) s = execSysServiceUnlock p tag seconds s := rfl

/-- An unlock puts its seconds in place of what was left, and tells of it unless the lock was and stays closed. -/
theorem sysServiceUnlock_eq {seconds : Nat} (hpass : Passes s p tag 0x0008) (hright : s.rightService p = true)
    (hday : seconds ≤ 86400) :
    let u : State := { taken s p tag 0x0008 with fw := { s.fw with
      svcUntil := if seconds = 0 then none else some (s.now + seconds * 1000000000), svcBy := p } }
    exec (.sysServiceUnlock p tag seconds) s = .next
      ((if 0 < seconds ∨ s.fw.svcUntil.isSome then u.svcEvent p seconds else u).complete p tag 0x0008 .ok []) := by
  have hcheck : [(decide (86400 < seconds), Status.outOfRange, ([] : List Nat))].find? (·.1) = none := by
    rw [decide_eq_false (by omega)]
    rfl
  have hchange : (decide (0 < seconds) || s.fw.svcUntil.isSome) = true ↔ (0 < seconds ∨ s.fw.svcUntil.isSome = true) := by
    rw [Bool.or_eq_true, decide_eq_true_iff]
  intro u
  rw [next_of_command (exec_sysServiceUnlock p tag seconds s) hpass hright hcheck]
  exact congrArg (fun v : State => Host.Outcome.next (v.complete p tag 0x0008 .ok [])) (if_congr hchange rfl rfl)

end

end Sys2Proof
end

section
/-!
The statement about the commands of block SYS.
-/

namespace Sys2Proof

open Sys2Proof.Machine

/-- Settles O12: each clause is the lemma of its command in the case that its hypotheses name. -/
theorem systemCommandsComplete : Obligations.SystemCommandsComplete :=
  fun _ _ _ => ⟨sysNop_answers, fun _ _ => sysParamGet_reads, fun _ _ => sysParamGet_fetches, fun _ => sysParamSet_stages,
    fun _ _ _ hpass hlo hhi hset =>
      ⟨_, sysParamSet_of_setPairs hpass hlo hhi hset, complete_posted _ _ _ _ _ _ _, complete_same _ _ _ _ _ _ _⟩,
    fun _ _ => sysParamSet_fetches, fun _ => paramListDone_reads, fun _ _ _ => paramListDone_sets,
    fun hpass _ _ => sysParamCommit_of_commit hpass, sysParamDiscard_discards, sysResetPartition_own,
    fun _ => sysResetPartition_other, sysResetModule_requests, fun _ => sysServiceUnlock_eq⟩

end Sys2Proof
end

section
/-!
The statement about the service lock.
-/

namespace Sys2Proof

open Sys2Proof.Machine

section
variable {s : State} {p : Part} {tag : Nat}

theorem sysServiceUnlock_opens {seconds : Nat} (hpass : Passes s p tag 0x0008) (hright : s.rightService p = true)
    (hlo : 1 ≤ seconds) (hday : seconds ≤ 86400) :
    let u := taken s p tag 0x0008
    exec (.sysServiceUnlock p tag seconds) s = .next ((({ u with fw := { u.fw with
      svcUntil := some (s.now + seconds * 1000000000), svcBy := p } } : State).event 0x052 [p.val, seconds]).complete p tag
        0x0008 .ok []) := by
  have hsome : 0 < seconds := hlo
  refine (sysServiceUnlock_eq hpass hright hday).trans ?_
  rw [if_pos (Or.inl hsome), if_neg (Nat.ne_of_gt hsome)]
  rfl

theorem sysServiceUnlock_locks (hpass : Passes s p tag 0x0008) (hright : s.rightService p = true)
    (hopen : s.fw.svcUntil.isSome = true) :
    let u := taken s p tag 0x0008
    exec (.sysServiceUnlock p tag 0) s = .next ((({ u with fw := { u.fw with
      svcUntil := none, svcBy := p } } : State).event 0x052 [p.val, 0]).complete p tag 0x0008 .ok []) := by
  refine (sysServiceUnlock_eq hpass hright (Nat.zero_le _)).trans ?_
  rw [if_pos (Or.inr hopen), if_pos rfl]
  rfl

/-- A lock that stays closed is not told of. -/
theorem sysServiceUnlock_stays (hpass : Passes s p tag 0x0008) (hright : s.rightService p = true)
    (hclosed : s.fw.svcUntil = none) :
    Answers (.sysServiceUnlock p tag 0) s (fun t => t.fw = { s.fw with svcBy := p } ∧
      t = { s with host.fn := t.host.fn, fw := t.fw }) := by
  have hquiet : ¬ (0 < 0 ∨ s.fw.svcUntil.isSome = true) := by simp [hclosed]
  refine ⟨_, sysServiceUnlock_eq hpass hright (Nat.zero_le _), ?_⟩
  rw [if_neg hquiet, if_pos rfl, ← hclosed, complete_same]
  exact ⟨rfl, rfl⟩

theorem exec_serviceLockExpiry (s : State) : exec .serviceLockExpiry s = execServiceLockExpiry s := rfl

theorem serviceLockExpiry_locks {t0 : Nat} (hopen : s.fw.svcUntil = some t0) :
    exec .serviceLockExpiry s = .next
      (({ s with now := max s.now t0, fw.svcUntil := none } : State).event 0x052 [s.fw.svcBy.val, 0]) := by
  rw [exec_serviceLockExpiry, execServiceLockExpiry, hopen]
  rfl

theorem moduleReset_locks (s : State) (cause : Nat) : (s.moduleReset cause).fw.svcUntil = none := by rw [moduleReset_fw]

/-- A reset of the supply is a module reset to the firmware. -/
theorem supplyResetBy_locks (s : State) (stayed : Bool) (cause : Nat) : (s.supplyResetBy stayed cause).fw.svcUntil = none := by
  unfold State.supplyResetBy
  exact moduleReset_locks s (if stayed then 1 else 0)

/-- SERVICE_OPEN shows the lock. -/
theorem readReg_serviceOpen (s : State) (p : Part) :
    s.readReg p.val 0x010 / 2 ^ 5 % 2 = (if s.fw.svcUntil.isSome then 1 else 0) := by
  have hb (b : Bool) : b2n b ≤ 1 := by cases b <;> decide
  have horderly := hb s.orderlyStop
  have hbudget := hb (decide (s.sch.gov.budget < 40000))
  have hgong := hb s.evt.gong
  have hfenced := hb (!s.fencedUnits.isEmpty)
  have heject := hb s.pwr.sup.eject
  have hbit : s.moduleStatus / 2 ^ 5 % 2 = b2n s.unlocked := by
    have hopen := hb s.unlocked
    unfold State.moduleStatus
    omega
  refine (show s.readReg p.val 0x010 / 2 ^ 5 % 2 = s.moduleStatus / 2 ^ 5 % 2 from rfl).trans (hbit.trans ?_)
  unfold b2n State.unlocked
  rfl

end

/-- Settles O9: the unlock in its three cases, the expiry, the two resets, the register. -/
theorem serviceUnlock : Obligations.ServiceUnlock :=
  fun s p _ _ => ⟨sysServiceUnlock_opens, sysServiceUnlock_locks, sysServiceUnlock_stays, fun _ => serviceLockExpiry_locks,
    moduleReset_locks s, supplyResetBy_locks s, readReg_serviceOpen s p⟩

end Sys2Proof
end

section
/-!
SUPPORT. What a command changes whose effect changes the page of its own partition alone (14 R389, R390).
-/

namespace Sys2Proof

open Sys2Proof.Machine

/-- `t` differs from `s` in the function page of partition `p` alone. -/
structure SameButPage (p : Nat) (s t : State) : Prop where
  host : SameButHost s t
  other : ∀ q ≠ p, t.fnAt q = s.fnAt q

section
variable {s t u : State} {p : Nat}

theorem SameButPage.refl (p : Nat) (s : State) : SameButPage p s s := ⟨.refl s, fun _ _ => rfl⟩

theorem SameButPage.trans (h : SameButPage p s t) (k : SameButPage p t u) : SameButPage p s u :=
  ⟨h.host.trans k.host, fun q hq => (k.other q hq).trans (h.other q hq)⟩

theorem SameButPage.ite {c : Prop} [Decidable c] (h : SameButPage p s t) (k : SameButPage p s u) :
    SameButPage p s (if c then t else u) := by
  split
  · exact h
  · exact k

theorem updFn_page (s : State) (p : Nat) (f : FnSt → FnSt) : SameButPage p s (s.updFn p f) :=
  ⟨updFn_same s p f, fun _ hq => State.updFn_other _ _ _ _ hq⟩

theorem complete_page (s : State) (p tag : Nat) (op : BitVec 16) (st : Status) (r : List Nat) (d : List Int) :
    SameButPage p s (s.complete p tag op st r d) := ⟨complete_same s p tag op st r d, fun _ => post_other s p _ _⟩

theorem refuseCmd_page (s : State) (p tag : Nat) (op : BitVec 16) (st : Status) (r : List Nat) :
    SameButPage p s (s.refuseCmd p tag op st r) := by
  have hdone := complete_page s p tag op st r []
  exact .ite (hdone.trans (updFn_page _ p _)) hdone

theorem dmaFail_page (s : State) (p tag : Nat) (op : BitVec 16) (a : Nat) : SameButPage p s (s.dmaFail p tag op a) :=
  (complete_page s p tag op .internal [] []).trans (updFn_page _ p _)

/-- A command, refused or not, whose effect changes the page of its partition alone. -/
theorem command_page (s : State) (p : Part) (tag : Nat) (op : BitVec 16) (rsvd right : Bool)
    (checks : List (Bool × Status × List Nat)) {f : State → State} (hf : ∀ v, SameButPage p v (f v)) :
    SameButPage p s (s.command p tag op rsvd right checks f) := by
  have htaken := updFn_page s p (fun f => f.useTag tag op)
  unfold State.command
  dsimp only
  refine .ite ?_ (.ite ?_ (.ite ?_ (.ite ?_ ?_)))
  · exact (updFn_page s p _).trans (updFn_page _ p _)
  · exact htaken.trans (refuseCmd_page _ _ _ _ _ _)
  · exact htaken.trans (refuseCmd_page _ _ _ _ _ _)
  · exact htaken.trans (dmaFail_page _ _ _ _ _)
  · split
    · exact htaken.trans (refuseCmd_page _ _ _ _ _ _)
    · exact htaken.trans (hf _)

end

end Sys2Proof
end

section
/-!
The statement about commands that only read.
-/

namespace Sys2Proof

open Sys2Proof.Machine

/-- The answer of ve.image_info is a completion, or nothing. -/
theorem veImageInfo_page (p : Part) (tag handle entry : Nat) (v : State) :
    SameButPage p v (match v.ownImage p.val handle with
      | some x => v.complete p.val tag 0x0103 .ok (if x.mode = .loading then [0, 0, 0]
          else [x.mode.code, x.size, (x.img.demand x.resident (v.infoPeriod p.val) entry).getD 0xFFFFFFFF])
      | none => v) := by
  split
  · exact complete_page ..
  · exact .refl _ v

/-- A command that only reads is the taking of its tag, its checks and a completion. -/
theorem reading_page {c : Instr} {p : Part} {tag : Nat} {op : BitVec 16} (s : State)
    (hissued : issuedBy c = some (p, tag, op)) (hreads : onlyReads c = true) :
    ∃ t, exec c s = .next t ∧ SameButPage p s t := by
  cases c <;> cases hreads
  case sysNop | tmgGet | tmgCheck | tmuResult | schTaskInfo | supPartGet | hltFerrRead =>
    obtain ⟨rfl, -⟩ : _ = p ∧ _ := Prod.mk.inj (Option.some.inj hissued)
    exact ⟨_, rfl, command_page s _ _ _ _ _ _ fun v => complete_page v ..⟩
  case veImageInfo =>
    obtain ⟨rfl, -⟩ : _ = p ∧ _ := Prod.mk.inj (Option.some.inj hissued)
    exact ⟨_, rfl, command_page s _ _ _ _ _ _ fun v => veImageInfo_page ..⟩

/-- Settles O11: what such a command changes lies in the page of its partition. -/
theorem readingCommandsChangeNothingElse : Obligations.ReadingCommandsChangeNothingElse := by
  intro c p tag op s hissued hreads
  obtain ⟨t, hexec, hhost, hother⟩ := reading_page s hissued hreads
  exact ⟨t, hexec, hhost, fun q hq => hother q fun h => hq (Fin.ext h)⟩

end Sys2Proof
end

section
/-!
SUPPORT. What the commands of block SUP and the steps of a hand-over do where no check refuses them: one lemma per command
and case (14 R397, R401 to R403; 16 R450).
-/

namespace Sys2Proof

open Sys2Proof.Machine

section
variable {s : State} {p : Part} {tag : Nat}

/-! ## The partition table (14 R397) -/

theorem exec_supPartSet (p : Part) (tag : Nat) (rec : PartRec) (s : State) :
    exec (.supPartSet p tag rec) s = execSupPartSet p tag rec s := rfl

/-- A record that passes every check of sup.part_set. -/
theorem partSet_checks {s : State} {rec : PartRec} (hgood : s.recBad rec = false) (hrange : recInRange rec = true)
    (hheld : s.heldElsewhere rec = none) (hsums : s.sumsBad rec = false) (htaken : s.takenBusy rec = false)
    (hpages : s.pagesBusy rec.part rec.hbmPages = false) :
    ([(s.recBad rec, Status.badParam, []), (!recInRange rec, .outOfRange, []),
      ((s.heldElsewhere rec).isSome, .conflict, (s.heldElsewhere rec).toList), (s.sumsBad rec, .outOfRange, []),
      (s.takenBusy rec || s.pagesBusy rec.part rec.hbmPages, .busy, [])] : List (Bool × Status × List Nat)).find? (·.1) =
        none := by
  rw [hgood, hrange, hheld, hsums, htaken, hpages]
  rfl

theorem supPartSet_sets {rec : PartRec} (hpass : Passes s p tag 0x0C01) (hright : s.isSystem p = true)
    (hgood : s.recBad rec = false) (hrange : recInRange rec = true) (hheld : s.heldElsewhere rec = none)
    (hsums : s.sumsBad rec = false) (htaken : s.takenBusy rec = false)
    (hpages : s.pagesBusy rec.part rec.hbmPages = false) :
    Answers (.supPartSet p tag rec) s (fun t => Posted t p tag 0x0C01 .ok [] ∧
      SameButHost ((taken s p tag 0x0C01).tableEvents ((taken s p tag 0x0C01).setPart rec)) t) := by
  have hcheck := partSet_checks hgood hrange hheld hsums htaken hpages
  rw [Answers, next_of_command (exec_supPartSet p tag rec s) hpass hright hcheck]
  exact ⟨_, rfl, complete_posted _ _ _ _ _ _ _, complete_same _ _ _ _ _ _ _⟩

theorem exec_supPartGet (p : Part) (tag : Nat) (target : Part) (s : State) :
    exec (.supPartGet p tag target) s = execSupPartGet p tag target s := rfl

theorem supPartGet_reads {target : Part} (hpass : Passes s p tag 0x0C02) (hright : p = target ∨ s.isSystem p = true) :
    Answers (.supPartGet p tag target) s (fun t => lastCpl t p = some
      { tag, status := .ok, opcode := 0x0C02, final := true, result := []
        data := (recWords (s.part target)).map (fun (n : Nat) => (n : Int)) } ∧ SameButHost s t) := by
  have hmay : (p == target || s.isSystem p) = true := by
    rw [Bool.or_eq_true, beq_iff_eq]
    exact hright
  exact answers_of_command (exec_supPartGet p tag target s) hpass hmay rfl
    ⟨post_last _ _ _, (taken_same s p tag 0x0C02).trans (complete_same _ _ _ _ _ _ _)⟩

/-! ## Firmware banks (14 R401; 16 R450) -/

theorem exec_supFwLoad (p : Part) (tag : Nat) (verified : Bool) (image : FwImage) (minHandover : Nat) (s : State) :
    exec (.supFwLoad p tag verified image minHandover) s = execSupFwLoad p tag verified image minHandover s := rfl

/-- The check that no hand-over runs. -/
theorem handIdle_checks {s : State} (hidle : s.fw.hand = 0) :
    ([(decide (s.fw.hand ≠ 0), Status.busy, [])] : List (Bool × Status × List Nat)).find? (·.1) = none := by
  rw [hidle]
  rfl

/-- An image that verifies is stored in the bank that does not run. -/
theorem supFwLoad_stores {version minHandover : Nat} {ucode : UImage} (hpass : Passes s p tag 0x0C03)
    (hright : s.isSystem p = true) (hidle : s.fw.hand = 0) :
    Answers (.supFwLoad p tag true ⟨version, ucode⟩ minHandover) s (fun t =>
      Posted t p tag 0x0C03 .ok [version, b2n (decide (minHandover ≤ s.fw.version))] ∧
      t.fw = s.fw.storeImage version ucode (decide (minHandover ≤ s.fw.version)) ∧
      t = { s with host.fn := t.host.fn, fw := t.fw }) := by
  have hexec := next_of_command (exec_supFwLoad p tag true ⟨version, ucode⟩ minHandover s) hpass hright
    (handIdle_checks hidle)
  refine ⟨_, hexec, complete_posted _ _ _ _ _ _ _, ?_⟩
  dsimp only
  rw [if_neg (by decide), complete_same]
  refine ⟨rfl, ?_⟩
  rw [complete_same (taken s p tag 0x0C03)]
  rfl

/-- An image that does not verify is refused, and told of. -/
theorem supFwLoad_refuses {version minHandover : Nat} {ucode : UImage} (hpass : Passes s p tag 0x0C03)
    (hright : s.isSystem p = true) (hidle : s.fw.hand = 0) :
    exec (.supFwLoad p tag false ⟨version, ucode⟩ minHandover) s = .next
      (((taken s p tag 0x0C03).refuseCmd p tag 0x0C03 .deniedWorld []).event 0x091) := by
  rw [next_of_command (exec_supFwLoad p tag false ⟨version, ucode⟩ minHandover s) hpass hright (handIdle_checks hidle)]
  rfl

theorem exec_supFwHandover (p : Part) (tag : Nat) (s : State) :
    exec (.supFwHandover p tag) s = execSupFwHandover p tag s := rfl

theorem supFwHandover_begins (hpass : Passes s p tag 0x0C04) (hright : s.isSystem p = true) (hidle : s.fw.hand = 0)
    (hmay : s.fw.mayHand = true) (hother : s.fw.otherValid = true) :
    exec (.supFwHandover p tag) s = .next
      (({ (taken s p tag 0x0C04).complete p tag 0x0C04 .accepted [] with fw := { s.fw with
        hand := 1, state := 2, handCmd := some (p, tag), handDue := s.now + 1000000 * s.parN 0 0 0x002 } } : State).event
        0x090 [1]) := by
  have hcheck : ([(decide (s.fw.hand ≠ 0), Status.busy, []), (!s.fw.mayHand || !s.fw.otherValid, .conflict, [])] :
      List (Bool × Status × List Nat)).find? (·.1) = none := by
    rw [hidle, hmay, hother]
    rfl
  rw [next_of_command (exec_supFwHandover p tag s) hpass hright hcheck]
  dsimp only
  have hdone := complete_same (taken s p tag 0x0C04) p tag 0x0C04 .accepted [] []
  generalize (taken s p tag 0x0C04).complete p tag 0x0C04 .accepted [] = u at hdone ⊢
  rw [hdone]
  rfl

theorem exec_hltFwSelect (p : Part) (tag : Nat) (bankB : Bool) (s : State) :
    exec (.hltFwSelect p tag bankB) s = execHltFwSelect p tag bankB s := rfl

theorem hltFwSelect_selects {bankB : Bool} (hpass : Passes s p tag 0x0D06) (hright : s.isSystem p = true)
    (hvalid : (if bankB then s.fw.validB else s.fw.validA) = true) :
    Answers (.hltFwSelect p tag bankB) s (fun t => Posted t p tag 0x0D06 .ok [] ∧ t.fw = { s.fw with next := bankB } ∧
      t = { s with host.fn := t.host.fn, fw := t.fw }) := by
  have hcheck : ([(!(if bankB then s.fw.validB else s.fw.validA), Status.conflict, [])] :
      List (Bool × Status × List Nat)).find? (·.1) = none := by
    rw [hvalid]
    rfl
  refine ⟨_, next_of_command (exec_hltFwSelect p tag bankB s) hpass hright hcheck, complete_posted _ _ _ _ _ _ _, ?_⟩
  rw [complete_same]
  exact ⟨rfl, rfl⟩

/-! ## The steps of a hand-over (14 R402, R403) -/

theorem exec_handoverDrainDone (s : State) : exec .handoverDrainDone s = execHandoverDrainDone s := rfl
theorem exec_handoverDrainTimeout (s : State) : exec .handoverDrainTimeout s = execHandoverDrainTimeout s := rfl
theorem exec_handoverResume (us : Nat) (s : State) : exec (.handoverResume us) s = execHandoverResume us s := rfl
theorem exec_handoverRevert (s : State) : exec .handoverRevert s = execHandoverRevert s := rfl

theorem handoverDrainDone_freezes (hdrains : s.fw.hand = 1) (hdrained : s.drained = true) :
    exec .handoverDrainDone s = .next { s with fw := { s.fw with hand := 2, handDue := s.now + 400000000 } } := by
  rw [exec_handoverDrainDone, execHandoverDrainDone, if_pos ⟨hdrains, hdrained⟩]

theorem handoverDrainTimeout_abandons (hdrains : s.fw.hand = 1) (hnot : s.drained = false) :
    exec .handoverDrainTimeout s = .next
      (((s.moveTo s.fw.handDue).resumeFw.event 0x090 [3]).endHandover .busy []) := by
  have hlate : ¬ s.drained = true := by
    rw [hnot]
    exact Bool.false_ne_true
  rw [exec_handoverDrainTimeout, execHandoverDrainTimeout, if_pos ⟨hdrains, hlate⟩]

theorem handoverResume_resumes {us : Nat} (hfrozen : s.fw.hand = 2) (hsoon : us ≤ 400000) :
    let u := s.moveTo (s.fw.handDue - 400000000 + 1000 * us)
    let v : State := { u with fw := { s.fw with bank := !s.fw.bank, next := !s.fw.bank, mayHand := false } }
    exec (.handoverResume us) s = .next ((v.resumeFw.endHandover .ok [v.fw.version, us]).event 0x090 [2]) := by
  rw [exec_handoverResume, execHandoverResume, if_pos ⟨hfrozen, hsoon⟩]
  rfl

theorem handoverRevert_returns (hfrozen : s.fw.hand = 2) :
    exec .handoverRevert s = .next
      ((((s.moveTo s.fw.handDue).resumeFw).endHandover .internal []).event 0x090 [4]) := by
  rw [exec_handoverRevert, execHandoverRevert, if_pos hfrozen]

end

end Sys2Proof
end

section
/-!
The statements about the supervisor's commands and the hand-over.
-/

namespace Sys2Proof

open Sys2Proof.Machine

/-- Settles O22: each clause is the lemma of its command in the case that its hypotheses name. -/
theorem supervisorCommandsComplete : Obligations.SupervisorCommandsComplete :=
  fun _ _ _ => ⟨fun _ => supPartSet_sets, fun _ => supPartGet_reads, fun _ _ _ => supFwLoad_stores,
    fun _ _ _ => supFwLoad_refuses, supFwHandover_begins, fun _ => hltFwSelect_selects⟩

/-- Settles O23: the freeze, its abandonment, the resume and the return. -/
theorem handoverStepsComplete : Obligations.HandoverStepsComplete :=
  fun _ => ⟨fun hdrains hdrained => ⟨_, handoverDrainDone_freezes hdrains hdrained, rfl⟩, handoverDrainTimeout_abandons,
    fun _ => handoverResume_resumes, handoverRevert_returns⟩

end Sys2Proof
end

section
/-!
SUPPORT. What the commands of block HLT do where no check refuses them: one lemma per command and case (16 R435, R442,
R443, R445, R448, R449).
-/

namespace Sys2Proof

open Sys2Proof.Machine

section
variable {s : State} {p : Part} {tag : Nat}

/-! ## Forced occurrences and GONG_N (16 R435, R443) -/

theorem exec_hltForce (p : Part) (tag source : Nat) (payload : List Nat) (s : State) :
    exec (.hltForce p tag source payload) s = execHltForce p tag source payload s := rfl

theorem hltForce_forces {source : Nat} {payload : List Nat} (hpass : Passes s p tag 0x0D01)
    (hright : s.isSystem p = true) (hsource : source < 2048) (hfree : reservedSrc source = false)
    (hlen : payload.length ≤ 10) :
    exec (.hltForce p tag source payload) s = .next
      (((taken s p tag 0x0D01).force source payload).complete p tag 0x0D01 .ok []) := by
  have hcheck : ([(decide (2048 ≤ source) || reservedSrc source || decide (10 < payload.length), Status.badParam, [])] :
      List (Bool × Status × List Nat)).find? (·.1) = none := by
    rw [decide_eq_false (Nat.not_le.2 hsource), hfree, decide_eq_false (Nat.not_lt.2 hlen)]
    rfl
  rw [next_of_command (exec_hltForce p tag source payload s) hpass hright hcheck]

/-- A forced occurrence of a source that no unit notes elsewhere is an occurrence, marked forced. -/
theorem force_eq_raise (s : State) (source : Nat) (payload : List Nat) (hset : source ≠ 0x562) (hconv : source ≠ 0x573) :
    s.force source payload = s.raise { src := source, payload, forced := true } := by
  unfold State.force
  dsimp only
  rw [if_neg hset, if_neg fun h => hconv h.1]

theorem exec_hltAlarmAck (p : Part) (tag : Nat) (s : State) :
    exec (.hltAlarmAck p tag) s = execHltAlarmAck p tag s := rfl

/-- GONG_N is released except in the fatal state. -/
theorem hltAlarmAck_releases (hpass : Passes s p tag 0x0D02) (hright : s.isSystem p = true) :
    Answers (.hltAlarmAck p tag) s (fun t => Posted t p tag 0x0D02 .ok [] ∧
      t.evt.gong = (s.evt.fatal && s.evt.gong) ∧ (s.evt.fatal = false → t.evt.gongFirst = 0x7FF) ∧
      t = { s with host.fn := t.host.fn, evt.gong := t.evt.gong, evt.gongFirst := t.evt.gongFirst }) := by
  rw [Answers, next_of_command (exec_hltAlarmAck p tag s) hpass hright rfl]
  refine ⟨_, rfl, complete_posted _ _ _ _ _ _ _, ?_⟩
  rw [complete_same]
  cases hfatal : s.evt.fatal with
  | true =>
    have hheld : (taken s p tag 0x0D02).evt.fatal = true := hfatal
    rw [if_pos hheld]
    exact ⟨(Bool.true_and _).symm, fun h => absurd h.symm Bool.false_ne_true, rfl⟩
  | false =>
    have hfree : ¬ (taken s p tag 0x0D02).evt.fatal = true := by
      rw [show (taken s p tag 0x0D02).evt.fatal = false from hfatal]
      exact Bool.false_ne_true
    rw [if_neg hfree]
    exact ⟨(Bool.false_and _).symm, fun _ => rfl, rfl⟩

/-! ## First-error records (16 R442) -/

theorem exec_hltFerrRead (p : Part) (tag block : Nat) (s : State) :
    exec (.hltFerrRead p tag block) s = execHltFerrRead p tag block s := rfl

/-- The right to the record of a block is right enough. -/
theorem ferrBlock_right {block : Nat} (hmay : s.mayFerr p block = true) :
    (decide (14 < block) || s.mayFerr p block) = true := by rw [hmay, Bool.or_true]

theorem hltFerrRead_reads {block : Nat} (hpass : Passes s p tag 0x0D03) (hblock : block ≤ 14)
    (hmay : s.mayFerr p block = true) :
    Answers (.hltFerrRead p tag block) s (fun t => SameButHost s t ∧
      (∀ e, Tbl.find s.evt.ferr block = some e → Posted t p tag 0x0D03 .ok e.words) ∧
      (Tbl.find s.evt.ferr block = none → Posted t p tag 0x0D03 .ok [0, 0, 0, 0, 0, 0])) := by
  have hcheck : ([(decide (14 < block), Status.badParam, [])] : List (Bool × Status × List Nat)).find? (·.1) = none := by
    rw [decide_eq_false (Nat.not_lt.2 hblock)]
    rfl
  have hrecord : Tbl.find (taken s p tag 0x0D03).evt.ferr block = Tbl.find s.evt.ferr block := rfl
  rw [Answers, next_of_command (exec_hltFerrRead p tag block s) hpass (ferrBlock_right hmay) hcheck, hrecord]
  refine ⟨_, rfl, (taken_same s p tag 0x0D03).trans (complete_same _ _ _ _ _ _ _), fun e he => ?_, fun hnone => ?_⟩
  · rw [he]
    exact complete_posted _ _ _ _ _ _ _
  · rw [hnone]
    exact complete_posted _ _ _ _ _ _ _

theorem exec_hltFerrClear (p : Part) (tag block : Nat) (s : State) :
    exec (.hltFerrClear p tag block) s = execHltFerrClear p tag block s := rfl

/-- The record of one block is cleared. -/
theorem hltFerrClear_clears {block : Nat} (hpass : Passes s p tag 0x0D04) (hblock : block ≤ 14)
    (hmay : s.mayFerr p block = true) :
    Answers (.hltFerrClear p tag block) s (fun t => Posted t p tag 0x0D04 .ok [] ∧ Tbl.find t.evt.ferr block = none ∧
      (∀ b, b ≠ block → Tbl.find t.evt.ferr b = Tbl.find s.evt.ferr b) ∧
      t = { s with host.fn := t.host.fn, evt.ferr := t.evt.ferr }) := by
  have hcheck : ([(decide (14 < block) && block != 0xFF, Status.badParam, [])] :
      List (Bool × Status × List Nat)).find? (·.1) = none := by
    rw [decide_eq_false (Nat.not_lt.2 hblock)]
    rfl
  have hone : ¬ block = 0xFF := by omega
  rw [Answers, next_of_command (exec_hltFerrClear p tag block s) hpass (ferrBlock_right hmay) hcheck, if_neg hone]
  refine ⟨_, rfl, complete_posted _ _ _ _ _ _ _, ?_⟩
  rw [complete_same]
  exact ⟨Tbl.find_del_same _ _, fun b hb => Tbl.find_del_other _ _ _ hb, rfl⟩

/-- Block 0xFF clears every record that the partition may read. -/
theorem hltFerrClear_clears_all (hpass : Passes s p tag 0x0D04) :
    Answers (.hltFerrClear p tag 0xFF) s (fun t => Posted t p tag 0x0D04 .ok [] ∧
      t.evt.ferr = s.evt.ferr.filter (fun x => !s.mayErr p x.2) ∧
      t = { s with host.fn := t.host.fn, evt.ferr := t.evt.ferr }) := by
  rw [Answers, next_of_command (exec_hltFerrClear p tag 0xFF s) hpass rfl rfl, if_pos rfl]
  refine ⟨_, rfl, complete_posted _ _ _ _ _ _ _, ?_⟩
  rw [complete_same]
  exact ⟨rfl, rfl⟩

/-! ## Fences (16 R448, R449) -/

/-- Whether a fence is answered at once does not depend on the host functions. -/
theorem unfenceNow_of_sameButHost {t : State} (h : SameButHost s t) (u : RepairUnit) :
    t.unfenceNow u = s.unfenceNow u := by
  rw [h]
  cases u <;> rfl

theorem exec_hltUnfence (p : Part) (tag : Nat) (u : RepairUnit) (s : State) :
    exec (.hltUnfence p tag u) s = execHltUnfence p tag u s := rfl

/-- A unit of a kind that has fences and is not busy passes the checks. -/
theorem unfence_checks {u : RepairUnit} {busy : Bool} (hkind : u ≠ .badKind) (helement : u ≠ .badElement)
    (hidle : busy = false) :
    ([(u == .badKind, Status.badParam, []), (u == .badElement, .outOfRange, []), (busy, .busy, [])] :
      List (Bool × Status × List Nat)).find? (·.1) = none := by
  rw [beq_false_of_ne hkind, beq_false_of_ne helement, hidle]
  rfl

/-- hlt.unfence is accepted, then answered at once or by the self-test that it starts. -/
theorem hltUnfence_eq {u : RepairUnit} (hpass : Passes s p tag 0x0D05) (hright : s.rightConfig p = true)
    (hkind : u ≠ .badKind) (helement : u ≠ .badElement)
    (hpmu : ∀ l : Lane, u = .lane l → s.pmuOn (l.val / 33) = none) (hidle : ∀ x ∈ s.cal.unfence, x.1 ≠ u) :
    let v := (taken s p tag 0x0D05).complete p tag 0x0D05 .accepted []
    exec (.hltUnfence p tag u) s = .next (match s.unfenceNow u with
      | some (st, ws) => v.complete p tag 0x0D05 st ws
      | none => { v with cal.unfence := s.cal.unfence ++ [(u, p, tag)] }) := by
  intro v
  have hsame : SameButHost s v := (taken_same s p tag 0x0D05).trans (complete_same _ p tag 0x0D05 .accepted [] [])
  have hany : s.cal.unfence.any (fun x => x.1 == u) = false := by
    rw [List.any_eq_false]
    exact fun x hx => by simpa using hidle x hx
  have hexec : exec (.hltUnfence p tag u) s = .next (match v.unfenceNow u with
      | some (st, ws) => v.complete p tag 0x0D05 st ws
      | none => { v with cal.unfence := v.cal.unfence ++ [(u, p, tag)] }) := by
    refine next_of_command (exec_hltUnfence p tag u s) hpass hright (unfence_checks hkind helement ?_)
    rw [hany, Bool.or_false]
    cases u with
    | lane l => exact congrArg Option.isSome (hpmu l rfl)
    | _ => rfl
  have hcal : v.cal = s.cal := by rw [hsame]
  rw [hexec, unfenceNow_of_sameButHost hsame, hcal]

theorem hltUnfence_answers {u : RepairUnit} (hpass : Passes s p tag 0x0D05) (hright : s.rightConfig p = true)
    (hkind : u ≠ .badKind) (helement : u ≠ .badElement)
    (hpmu : ∀ l : Lane, u = .lane l → s.pmuOn (l.val / 33) = none) (hidle : ∀ x ∈ s.cal.unfence, x.1 ≠ u)
    (st : Status) (ws : List Nat) (hnow : s.unfenceNow u = some (st, ws)) :
    Answers (.hltUnfence p tag u) s (fun t => Posted t p tag 0x0D05 st ws ∧ SameButHost s t) := by
  rw [Answers, hltUnfence_eq hpass hright hkind helement hpmu hidle, hnow]
  exact ⟨_, rfl, complete_posted _ _ _ _ _ _ _,
    ((taken_same s p tag 0x0D05).trans (complete_same _ _ _ _ _ _ _)).trans (complete_same _ _ _ _ _ _ _)⟩

theorem hltUnfence_tests {u : RepairUnit} (hpass : Passes s p tag 0x0D05) (hright : s.rightConfig p = true)
    (hkind : u ≠ .badKind) (helement : u ≠ .badElement)
    (hpmu : ∀ l : Lane, u = .lane l → s.pmuOn (l.val / 33) = none) (hidle : ∀ x ∈ s.cal.unfence, x.1 ≠ u)
    (hnow : s.unfenceNow u = none) :
    Answers (.hltUnfence p tag u) s (fun t => Posted t p tag 0x0D05 .accepted [] ∧
      t.cal.unfence = s.cal.unfence ++ [(u, p, tag)] ∧
      t = { s with host.fn := t.host.fn, cal.unfence := t.cal.unfence }) := by
  rw [Answers, hltUnfence_eq hpass hright hkind helement hpmu hidle, hnow]
  refine ⟨_, rfl, complete_posted (taken s p tag 0x0D05) p tag 0x0D05 .accepted [] [], rfl, ?_⟩
  dsimp only
  rw [complete_same]
  rfl

theorem exec_unfenceSelftestDone (u : RepairUnit) (ok : Bool) (s : State) :
    exec (.unfenceSelftestDone u ok) s = execUnfenceSelftestDone u ok s := rfl

section
variable {u : RepairUnit} (hfind : s.cal.unfence.find? (fun x => x.1 == u) = some (u, p, tag))
include hfind

/-- A self-test that fails leaves the unit fenced. -/
theorem unfenceSelftestDone_fails :
    exec (.unfenceSelftestDone u false) s = .next
      (({ s with cal.unfence := s.cal.unfence.filter (fun x => x.1 != u) } : State).complete p tag 0x0D05 .fenced []) := by
  rw [exec_unfenceSelftestDone, execUnfenceSelftestDone, hfind]
  rfl

/-- A self-test that passes lifts the fence, and completes OK where no other fence of the unit is left. -/
theorem unfenceSelftestDone_passes :
    let v : State := { s with cal.unfence := s.cal.unfence.filter (fun x => x.1 != u) }
    exec (.unfenceSelftestDone u true) s = .next (if !(v.unfenceUnit u).unitFenced u then
      ((v.unfenceUnit u).event 0x057 [unitRes u]).complete p tag 0x0D05 .ok []
      else (v.unfenceUnit u).complete p tag 0x0D05 .fenced []) := by
  rw [exec_unfenceSelftestDone, execUnfenceSelftestDone, hfind]
  rfl

end

end

end Sys2Proof
end

section
/-!
The statement about the commands of block HLT.
-/

namespace Sys2Proof

open Sys2Proof.Machine

/-- Settles O24: each clause is the lemma of its command in the case that its hypotheses name. -/
theorem faultCommandsComplete : Obligations.FaultCommandsComplete := by
  intro p tag s
  refine ⟨fun source payload hpass hright hsource hfree hlen =>
      ⟨hltForce_forces hpass hright hsource hfree hlen, force_eq_raise _ source payload⟩,
    hltAlarmAck_releases, fun _ => hltFerrRead_reads, fun _ => hltFerrClear_clears, hltFerrClear_clears_all,
    fun u hpass hright hkind helement hpmu hidle => ⟨hltUnfence_answers hpass hright hkind helement hpmu hidle,
      hltUnfence_tests hpass hright hkind helement hpmu hidle⟩, fun u hfind => ?_⟩
  refine ⟨⟨_, unfenceSelftestDone_fails hfind, complete_posted _ _ _ _ _ _ _, complete_same _ _ _ _ _ _ _⟩,
    fun hlifted => ?_, fun hfenced => ?_⟩
  · rw [unfenceSelftestDone_passes hfind, hlifted]
    rfl
  · rw [Answers, unfenceSelftestDone_passes hfind, hfenced]
    exact ⟨_, rfl, complete_posted _ _ _ _ _ _ _, complete_same _ _ _ _ _ _ _⟩

end Sys2Proof
end

section
/-!
SUPPORT. What the rows of the supervisor and its firmware do: one equation per row and case (16 R434, R441, R445, R447,
R450, R453, R456).
-/

namespace Sys2Proof

open Sys2Proof.Machine

section
variable {s : State}

theorem exec_consequenceWindowClose (s : State) : exec .consequenceWindowClose s = execConsequenceWindowClose s := rfl

theorem consequenceWindowClose_of_none (hnone : s.evt.wins = []) : exec .consequenceWindowClose s = .next s := by
  rw [exec_consequenceWindowClose, execConsequenceWindowClose, hnone]

/-- A window that counted nothing closes without a record. -/
theorem consequenceWindowClose_closes {w : Win} {rest : List Win} (hfirst : s.evt.wins = w :: rest)
    (hempty : w.counted = []) :
    exec .consequenceWindowClose s = .next { s.moveTo w.close with evt := { s.evt with wins := rest } } := by
  rw [exec_consequenceWindowClose, execConsequenceWindowClose, hfirst]
  dsimp only
  rw [hempty]
  rfl

theorem exec_gongReadback (s : State) : exec .gongReadback s = .next (s.event 0x055) := rfl
theorem exec_fabricParity (s : State) : exec .fabricParity s = .next (s.event 0x056) := rfl
theorem exec_sramUe (s : State) : exec .sramUe s = .next (s.event 0x059) := rfl
theorem exec_sramCorr (s : State) : exec .sramCorr s = .next (s.event 0x058) := rfl

theorem exec_fwWatchdog (s : State) : exec .fwWatchdog s = execFwWatchdog s := rfl

theorem fwWatchdog_stops (hruns : s.fw.state = 1 ∨ s.fw.state = 2) (hthawed : s.fw.hand ≠ 2) :
    exec .fwWatchdog s = .next (({ s with fw := { s.fw with state := 3, hand := 0 } } : State).event 0x050) := by
  rw [exec_fwWatchdog, execFwWatchdog, if_pos ⟨hruns, hthawed⟩]

/-- The watchdog does not run over a freeze. -/
theorem fwWatchdog_of_frozen (hfrozen : s.fw.hand = 2) : exec .fwWatchdog s = .next s := by
  rw [exec_fwWatchdog, execFwWatchdog, if_neg fun h => h.2 hfrozen]

/-! ## Boot (16 R450) -/

theorem exec_firmwareBoot (activeOk otherOk : Bool) (failed : List Mc) (s : State) :
    exec (.firmwareBoot activeOk otherOk failed) s = execFirmwareBoot activeOk otherOk failed s := rfl

theorem exec_bootTimeout (s : State) : exec .bootTimeout s = execBootTimeout s := rfl

section
variable (hboots : s.fw.state = 0) (hreleased : s.pwr.sup.released = true)
include hboots hreleased

/-- Firmware boots while the supply is released. -/
theorem bootOpen : ¬ (s.fw.state ≠ 0 ∨ s.pwr.sup.released = false) := by simp [hboots, hreleased]

theorem firmwareBoot_active (otherOk : Bool) (failed : List Mc) :
    exec (.firmwareBoot true otherOk failed) s = .next (s.boot failed) := by
  rw [exec_firmwareBoot, execFirmwareBoot, if_neg (bootOpen hboots hreleased), if_pos rfl]

theorem firmwareBoot_other (failed : List Mc) :
    let b := !s.fw.bank
    let u : State := { s with fw := { s.fw with bank := b, fellBack := true } }
    exec (.firmwareBoot false true failed) s = .next ((u.boot failed).event 0x051 [1, b2n b]) := by
  rw [exec_firmwareBoot, execFirmwareBoot, if_neg (bootOpen hboots hreleased), if_neg Bool.false_ne_true]
  exact congrArg _ (if_pos rfl)

theorem firmwareBoot_fails (failed : List Mc) :
    exec (.firmwareBoot false false failed) s = .next { s with fw := { s.fw with state := 3 } } := by
  rw [exec_firmwareBoot, execFirmwareBoot, if_neg (bootOpen hboots hreleased), if_neg Bool.false_ne_true]
  exact congrArg _ (if_neg Bool.false_ne_true)

theorem bootTimeout_fails (hretry : s.fw.bootRetry = true) :
    exec .bootTimeout s = .next { s with fw := { s.fw with state := 3 } } := by
  rw [exec_bootTimeout, execBootTimeout, if_neg (bootOpen hboots hreleased), if_pos hretry]

theorem bootTimeout_falls_back (hfirst : s.fw.bootRetry = false) :
    let b := !s.fw.bank
    exec .bootTimeout s = .next
      (({ s with fw := { s.fw with bank := b, fellBack := true, bootRetry := true } } : State).event 0x051 [2, b2n b]) := by
  rw [exec_bootTimeout, execBootTimeout, if_neg (bootOpen hboots hreleased), hfirst]
  rfl

end

end

end Sys2Proof
end

section
/-!
The statement about the supervisor and its firmware.
-/

namespace Sys2Proof

open Sys2Proof.Machine

/-- Settles O56: each clause is the equation of its row in the case that its hypotheses name. -/
theorem supervisorRows : Obligations.SupervisorRows :=
  fun s => ⟨consequenceWindowClose_of_none,
    fun _ _ hfirst hempty => ⟨_, consequenceWindowClose_closes hfirst hempty, rfl, rfl, rfl⟩, exec_gongReadback s,
    fwWatchdog_stops, fwWatchdog_of_frozen, exec_fabricParity s, exec_sramUe s, exec_sramCorr s,
    fun failed hboots hreleased => ⟨firmwareBoot_active hboots hreleased false failed,
      firmwareBoot_other hboots hreleased failed, firmwareBoot_fails hboots hreleased failed⟩,
    fun hboots hreleased => ⟨bootTimeout_fails hboots hreleased, bootTimeout_falls_back hboots hreleased⟩,
    fun _ => serviceLockExpiry_locks⟩

end Sys2Proof
end

section
/-!
SUPPORT. What the rows of the input supply, of presence and of the eject do: one equation per row and case (15 R406 to R409,
R413 to R419, R425, R427, R428; 18 R482).
-/

namespace Sys2Proof

open Sys2Proof.Machine

section
variable {s : State} {v : Nat}

/-! ## The input voltage (15 R406 to R409) -/

theorem exec_vinOv (v : Nat) (s : State) : exec (.vinOv v) s = execVinOv v s := rfl
theorem exec_vinMate (v : Nat) (s : State) : exec (.vinMate v) s = execVinMate v s := rfl

/-- A voltage beyond the rating stops the model. -/
theorem vinWarn_beyond (hv : vinMax < v) : exec (.vinWarn v) s = .fault .beyondRating := if_pos hv
theorem vinOv_beyond (hv : vinMax < v) : exec (.vinOv v) s = .fault .beyondRating := if_pos hv
theorem vinMate_beyond (hv : vinMax < v) : exec (.vinMate v) s = .fault .beyondRating := if_pos hv

/-- The filtered voltage is noted; a crossing of the threshold is told of and moves the power budget. -/
theorem vinWarn_eq (hv : v ≤ vinMax) :
    let w := s.parN 13 0 0x002
    let below := if s.pwr.sup.below then decide (v ≤ w + 100) else decide (v < w)
    let u : State := { s with pwr.sup := { s.pwr.sup with vinFilt := v, below } }
    exec (.vinWarn v) s = .next (if below = s.pwr.sup.below then u else (u.event 0x000 [b2n below, v]).recompute) :=
  if_neg (Nat.not_lt.2 hv)

theorem exec_vinHigh (s : State) : exec .vinHigh s = execVinHigh s := rfl

theorem vinHigh_tells (hlow : s.pwr.sup.high = false) :
    exec .vinHigh s = .next (({ s with pwr.sup := { s.pwr.sup with high := true } } : State).event 0x005) := by
  rw [exec_vinHigh, execVinHigh, hlow]
  rfl

theorem exec_vinHighClear (s : State) :
    exec .vinHighClear s = .next { s with pwr.sup := { s.pwr.sup with high := false } } := rfl

theorem vinOv_within (hv : v ≤ 6200) : exec (.vinOv v) s = .next s := by
  have hrated : ¬ vinMax < v := by
    unfold vinMax
    omega
  rw [exec_vinOv, execVinOv, if_neg hrated, if_pos hv]

theorem vinOv_tells (hover : 6200 < v) (hv : v ≤ vinMax) (hreleased : s.pwr.sup.released = true) :
    exec (.vinOv v) s = .next (({ s with pwr.sup := { s.pwr.sup with vin := v } } : State).event 0x001) := by
  rw [exec_vinOv, execVinOv, if_neg (Nat.not_lt.2 hv), if_neg (Nat.not_le.2 hover)]
  exact congrArg _ (if_pos hreleased)

theorem exec_inputLimit (s : State) : exec .inputLimit s = .next (s.event 0x004) := rfl

/-! ## Resets of the supply, precharge and release (15 R413 to R419) -/

theorem exec_supplyReset (stayed : Bool) (s : State) : exec (.supplyReset stayed) s = execSupplyReset stayed s := rfl

theorem supplyReset_resets (stayed : Bool) (hreleased : s.pwr.sup.released = true) :
    exec (.supplyReset stayed) s = .next (s.supplyResetBy stayed (if s.pwr.sup.ovAt.isSome then 2 else 1)) := by
  rw [exec_supplyReset, execSupplyReset, if_pos hreleased]

theorem supplyReset_of_unreleased (stayed : Bool) (hheld : s.pwr.sup.released = false) :
    exec (.supplyReset stayed) s = .next s := by
  rw [exec_supplyReset, execSupplyReset, hheld, if_neg Bool.false_ne_true]

theorem exec_ovRecovery (s : State) : exec .ovRecovery s = execOvRecovery s := rfl

theorem ovRecovery_recovers (hov : s.pwr.sup.ovAt.isSome = true) (hheld : s.pwr.sup.released = false) :
    exec .ovRecovery s = .next
      { s with pwr.sup := { s.pwr.sup with ovAt := none, vin := min s.pwr.sup.vin 6000, precharged := false } } := by
  rw [exec_ovRecovery, execOvRecovery, if_pos ⟨hov, hheld⟩]

theorem vinMate_mates (hv : v ≤ vinMax) (hheld : s.pwr.sup.released = false) :
    exec (.vinMate v) s = .next
      { s with pwr.sup := { s.pwr.sup with vin := v, vinFilt := v, precharged := false, switchOn := false } } := by
  rw [exec_vinMate, execVinMate, if_neg (Nat.not_lt.2 hv), hheld]
  rfl

theorem prechargeComplete_closes (hheld : s.pwr.sup.released = false) (hov : s.pwr.sup.ovAt = none)
    (hv : 0 < s.pwr.sup.vin) :
    exec .prechargeComplete s = .next { s with pwr.sup := { s.pwr.sup with
        precharged := true, switchOn := true, condSince := s.now, smbFrom := s.now + 20000000 } } :=
  congrArg _ (if_pos ⟨hheld, hov, hv⟩)

theorem exec_resetRelease (ga : BitVec 6) (s : State) : exec (.resetRelease ga) s = execResetRelease ga s := rfl

theorem resetRelease_releases (ga : BitVec 6) (hheld : s.pwr.sup.released = false) (hmay : s.mayRelease = true) :
    Answers (.resetRelease ga) s (fun t =>
      t.now = 0 ∧ t.evt.tabor = true ∧ t.pwr.therm.inTrip = false ∧ t.pwr.sup.released = true ∧ t.pwr.sup.ga = ga ∧
      t = { s with now := 0, evt.tabor := true, pwr := t.pwr }) := by
  rw [Answers, exec_resetRelease, execResetRelease, if_pos ⟨hheld, hmay⟩]
  exact ⟨_, rfl, rfl, rfl, rfl, rfl, rfl, rfl⟩

/-! ## Presence and eject (15 R425, R427, R428) -/

theorem prsntNLoss_tells (hreleased : s.pwr.sup.released = true) :
    exec .prsntNLoss s = .next (({ s with pwr.sup := { s.pwr.sup with prsnt := false } } : State).event 0x008) :=
  congrArg _ (if_pos hreleased)

theorem exec_prsntNAssert (s : State) : exec .prsntNAssert s = execPrsntNAssert s := rfl

theorem prsntNAssert_of_absent (habsent : s.pwr.sup.prsnt = false) :
    exec .prsntNAssert s = .next { s with pwr.sup := { s.pwr.sup with prsnt := true, condSince := s.now } } := by
  rw [exec_prsntNAssert, execPrsntNAssert, habsent]
  rfl

theorem exec_ejectNAssert (s : State) : exec .ejectNAssert s = execEjectNAssert s := rfl

theorem ejectNAssert_starts (hin : s.pwr.sup.eject = false) (hreleased : s.pwr.sup.released = true)
    (hactive : s.pwr.sup.hp = 1) :
    let u : State := { s with pwr.sup := { s.pwr.sup with eject := true, hp := 2, ejectAt := s.now, ejected := false } }
    exec .ejectNAssert s = .next
      ((((u.event 0x5C3 [1, 0x009]).event 0x009 [1]).calAbandon (fun _ => true) true).startStore) := by
  have hopen : ¬ s.pwr.sup.eject = true := by simp [hin]
  have hnot : ¬ s.pwr.sup.released = false := by simp [hreleased]
  rw [exec_ejectNAssert, execEjectNAssert, if_neg hopen]
  dsimp only
  rw [if_neg hnot, if_pos hactive]

theorem exec_ejectNRelease (s : State) : exec .ejectNRelease s = execEjectNRelease s := rfl

theorem ejectNRelease_returns (hout : s.pwr.sup.eject = true) (hreleased : s.pwr.sup.released = true)
    (hquiescing : s.pwr.sup.hp = 2) (hgrace : s.pwr.sup.ejected = false) :
    let u : State := { s with pwr.sup := { s.pwr.sup with eject := false, hp := 1 } }
    exec .ejectNRelease s = .next
      ((if s.pwr.therm.stop.isNone then u.event 0x5C3 [0, 0x009] else u).event 0x009 [0]) := by
  have hclosed : ¬ s.pwr.sup.eject = false := by simp [hout]
  have hnot : ¬ s.pwr.sup.released = false := by simp [hreleased]
  rw [exec_ejectNRelease, execEjectNRelease, if_neg hclosed]
  dsimp only
  rw [if_neg hnot, if_pos ⟨hquiescing, hgrace⟩]

theorem exec_ejectGraceExpiry (s : State) : exec .ejectGraceExpiry s = execEjectGraceExpiry s := rfl

theorem ejectGraceExpiry_stops (hquiescing : s.pwr.sup.hp = 2) (hgrace : s.pwr.sup.ejected = false) :
    let u : State := s.moveTo (s.pwr.sup.ejectAt + 200000000)
    exec .ejectGraceExpiry s = .next
      (((({ u with pwr.sup := { u.pwr.sup with ejected := true } } : State).safeState rSUPPLY
        0x7FF).fenceTasks.fenceLong).portsOff) := by
  rw [exec_ejectGraceExpiry, execEjectGraceExpiry, if_pos ⟨hquiescing, hgrace⟩]

theorem exec_ejectSafe (s : State) : exec .ejectSafe s = execEjectSafe s := rfl

/-- Every DUT supply is off. -/
theorem dpsOff_all (hoff : ∀ d, d < 18 → (s.dpsAt d).on = false) :
    (List.range 18).all (fun d => !(s.dpsAt d).on) = true := by
  rw [List.all_eq_true]
  intro d hd
  rw [hoff d (List.mem_range.1 hd)]
  rfl

theorem ejectSafe_tells (hquiescing : s.pwr.sup.hp = 2) (hended : s.pwr.sup.ejected = true)
    (hoff : ∀ d, d < 18 → (s.dpsAt d).on = false) :
    exec .ejectSafe s = .next (({ s with pwr.sup := { s.pwr.sup with hp := 3 } } : State).event 0x00A) := by
  rw [exec_ejectSafe, execEjectSafe, if_pos ⟨hquiescing, hended⟩, if_pos (dpsOff_all hoff)]

theorem exec_pIdleMeasure (power : Nat) (s : State) : exec (.pIdleMeasure power) s = execPIdleMeasure power s := rfl

theorem pIdleMeasure_measures (power : Nat) (hquiet : s.ve.bursts = []) (hoff : ∀ d, d < 18 → (s.dpsAt d).on = false)
    (hcal : s.cal.run.running = none) :
    exec (.pIdleMeasure power) s = .next { s with pwr.sup := { s.pwr.sup with pIdle := power } } := by
  rw [exec_pIdleMeasure, execPIdleMeasure, hquiet, dpsOff_all hoff, hcal]
  rfl

/-! ## Compensation of the references (15 R428) -/

/-- One reference's part of the update: its correction moves by one LSB, where its sensor reads. -/
def refStep (s : State) (t : Tbl Int) (u : Nat) : Tbl Int :=
  match s.validTemp (refSensor u) with
  | some temp => Tbl.put t u (oneLsb (Tbl.get t 0 u) (Config.refTarget u temp))
  | none => t

/-- The correction that the update gives a reference from the correction that it has. -/
def refMoved (s : State) (u : Nat) (v : Int) : Int :=
  match s.validTemp (refSensor u) with
  | some temp => oneLsb v (Config.refTarget u temp)
  | none => v

theorem refStep_same (s : State) (t : Tbl Int) (u : Nat) :
    Tbl.get (refStep s t u) 0 u = refMoved s u (Tbl.get t 0 u) := by
  unfold refStep refMoved
  split
  · exact Tbl.get_put_same ..
  · rfl

theorem refStep_other (s : State) (t : Tbl Int) {u k : Nat} (h : k ≠ u) :
    Tbl.get (refStep s t u) 0 k = Tbl.get t 0 k := by
  unfold refStep
  split
  · exact Tbl.get_put_other _ _ _ _ _ h
  · rfl

/-- The update of the references below `n` moves each of them once and leaves the others. -/
theorem foldl_refStep (s : State) (t : Tbl Int) (n k : Nat) :
    Tbl.get ((List.range n).foldl (refStep s) t) 0 k =
      if k < n then refMoved s k (Tbl.get t 0 k) else Tbl.get t 0 k := by
  induction n with
  | zero => rfl
  | succ n ih =>
    rw [List.range_succ, List.foldl_append, List.foldl_cons, List.foldl_nil]
    by_cases hk : k = n
    · subst hk
      rw [refStep_same, ih, if_neg (Nat.lt_irrefl k), if_pos (Nat.lt_succ_self k)]
    · rw [refStep_other s _ hk, ih]
      exact if_congr (by omega) rfl rfl

theorem exec_referenceCompUpdate (s : State) : exec .referenceCompUpdate s = .next
    { s with pwr.refCorr := (List.range 67).foldl (refStep s) s.pwr.refCorr } := rfl

theorem oneLsb_of_lt {v target : Int} (h : v < target) : oneLsb v target = v + 1 := if_pos h

theorem oneLsb_of_gt {v target : Int} (h : target < v) : oneLsb v target = v - 1 :=
  (if_neg (Int.not_lt.2 h.le)).trans (if_pos h)

theorem oneLsb_of_eq {v target : Int} (h : v = target) : oneLsb v target = v := by
  subst h
  exact (if_neg (Int.lt_irrefl v)).trans (if_neg (Int.lt_irrefl v))

theorem referenceCompUpdate_moves : Answers .referenceCompUpdate s (fun t =>
    t = { s with pwr.refCorr := t.pwr.refCorr } ∧ ∀ u, u < 67 →
    (∀ temp, s.validTemp (refSensor u) = some temp →
      let v := Tbl.get s.pwr.refCorr 0 u
      let target := Config.refTarget u temp
      (v < target → Tbl.get t.pwr.refCorr 0 u = v + 1) ∧ (target < v → Tbl.get t.pwr.refCorr 0 u = v - 1) ∧
      (v = target → Tbl.get t.pwr.refCorr 0 u = v)) ∧
    (s.validTemp (refSensor u) = none → Tbl.get t.pwr.refCorr 0 u = Tbl.get s.pwr.refCorr 0 u)) := by
  refine ⟨_, exec_referenceCompUpdate s, rfl, fun u hu => ?_⟩
  have hget := (foldl_refStep s s.pwr.refCorr 67 u).trans (if_pos hu)
  refine ⟨fun temp htemp => ?_, fun hnone => ?_⟩
  · have hmoved : refMoved s u (Tbl.get s.pwr.refCorr 0 u) =
        oneLsb (Tbl.get s.pwr.refCorr 0 u) (Config.refTarget u temp) := by rw [refMoved, htemp]
    exact ⟨fun h => (hget.trans hmoved).trans (oneLsb_of_lt h), fun h => (hget.trans hmoved).trans (oneLsb_of_gt h),
      fun h => (hget.trans hmoved).trans (oneLsb_of_eq h)⟩
  · exact hget.trans (by rw [refMoved, hnone])

/-! ## The SMBus slave (18 R482) -/

theorem smbAnswers_of_ready (hpre : s.pwr.sup.precharged = true) (hfrom : s.pwr.sup.smbFrom ≤ s.now) :
    s.smbAnswers = true := by
  unfold State.smbAnswers
  rw [hpre, decide_eq_true hfrom]
  rfl

/-- A command past the register map reads 0xFF. -/
theorem smbRead_unmapped (n : Nat) {command : Nat} (hpre : s.pwr.sup.precharged = true)
    (hfrom : s.pwr.sup.smbFrom ≤ s.now) (hpast : 9 < command) :
    s.smbRead command n = (some (List.replicate n 0xFF), s) := by
  have hnone : s.smbReg command = none := by
    obtain ⟨k, rfl⟩ : ∃ k, command = k + 10 := ⟨command - 10, by omega⟩
    rfl
  have hquiet : ¬ command = 0x08 := by omega
  unfold State.smbRead
  rw [if_pos (smbAnswers_of_ready hpre hfrom), hnone, if_neg hquiet]
  rfl

theorem smbRead_hotplug (n : Nat) (hpre : s.pwr.sup.precharged = true) (hfrom : s.pwr.sup.smbFrom ≤ s.now) :
    s.smbRead 0x04 n = (some [if s.pwr.sup.released then s.pwr.sup.hp else 0], s) :=
  if_pos (smbAnswers_of_ready hpre hfrom)

theorem smbRead_of_silent (command n : Nat) (h : s.pwr.sup.precharged = false ∨ s.now < s.pwr.sup.smbFrom) :
    s.smbRead command n = (none, s) := by
  have hsilent : ¬ s.smbAnswers = true := by
    unfold State.smbAnswers
    rw [Bool.and_eq_true, decide_eq_true_iff]
    rintro ⟨hpre, hfrom⟩
    exact h.elim (fun hnot => absurd (hnot.symm.trans hpre) Bool.false_ne_true) (Nat.not_lt.2 hfrom)
  exact if_neg hsilent

end

end Sys2Proof
end

section
/-!
The statement about the input supply.
-/

namespace Sys2Proof

open Sys2Proof.Machine

/-- Settles O54: each clause is the equation of its row in the case that its hypotheses name. -/
theorem supplyRows : Obligations.SupplyRows :=
  fun s => ⟨fun _ hv => ⟨vinWarn_beyond hv, vinOv_beyond hv, vinMate_beyond hv⟩,
    fun _ hv => ⟨fun hstays => (vinWarn_eq hv).trans (congrArg _ (if_pos hstays)),
      fun hcrosses => (vinWarn_eq hv).trans (congrArg _ (if_neg hcrosses))⟩,
    vinHigh_tells, exec_vinHighClear s, fun _ => vinOv_within, fun _ => vinOv_tells, supplyReset_resets,
    supplyReset_of_unreleased, ovRecovery_recovers, exec_inputLimit s, fun _ => vinMate_mates, prechargeComplete_closes,
    resetRelease_releases, prsntNLoss_tells, prsntNAssert_of_absent, ejectNAssert_starts, ejectNRelease_returns,
    ejectGraceExpiry_stops, ejectSafe_tells, pIdleMeasure_measures, referenceCompUpdate_moves,
    fun command n => ⟨smbRead_unmapped n, smbRead_hotplug n, smbRead_of_silent command n⟩⟩

end Sys2Proof
end

section
/-!
SUPPORT. What the commands of block NGL do where no check refuses them: one lemma per command (12 R323, R348, R351 to R353;
13 R369 to R372).
-/

namespace Sys2Proof

open Sys2Proof.Machine

section
variable {s : State} {p : Part} {tag : Nat}

/-! ## Configuration, triggers, STOPs and labels (12 R323, R348, R351, R352) -/

theorem exec_nglConfig (p : Part) (tag : Nat) (s : State) : exec (.nglConfig p tag) s = execNglConfig p tag s := rfl

theorem nglConfig_configures (hpass : Passes s p tag 0x0B01) (hright : s.isSystem p = true)
    (hidle : s.linkedTask = false) :
    Answers (.nglConfig p tag) s (fun t => Posted t p tag 0x0B01 .ok [] ∧
      SameButHost (((((taken s p tag 0x0B01).complete p tag 0x0B01 .accepted []).applyConfig).configPorts).rejoin) t) := by
  have hcheck : ([(s.linkedTask, Status.busy, [])] : List (Bool × Status × List Nat)).find? (·.1) = none := by
    rw [hidle]
    rfl
  rw [Answers, next_of_command (exec_nglConfig p tag s) hpass hright hcheck]
  exact ⟨_, rfl, complete_posted _ _ _ _ _ _ _, complete_same _ _ _ _ _ _ _⟩

theorem exec_nglTrigger (p : Part) (tag : Nat) (number : NTrg) (lead : Bool) (time : Nat) (s : State) :
    exec (.nglTrigger p tag number lead time) s = execNglTrigger p tag number lead time s := rfl

theorem nglTrigger_sends {number : NTrg} {lead : Bool} {time : Nat} (hpass : Passes s p tag 0x0B02)
    (hright : (s.part p).nglTriggers.getLsbD number.val = true) (htime : s.trigOk lead time = true) :
    Answers (.nglTrigger p tag number lead time) s (fun t => Posted t p tag 0x0B02 .ok [] ∧
      SameButHost ((taken s p tag 0x0B02).sendTrig number (s.trigTime lead time)) t) := by
  have hcheck : ([(!s.trigOk lead time, Status.outOfRange, [])] : List (Bool × Status × List Nat)).find? (·.1) = none := by
    rw [htime]
    rfl
  rw [Answers, next_of_command (exec_nglTrigger p tag number lead time s) hpass hright hcheck]
  exact ⟨_, rfl, complete_posted _ _ _ _ _ _ _, complete_same _ _ _ _ _ _ _⟩

theorem exec_nglStop (p : Part) (tag linkId : Nat) (all : Bool) (result reason : Nat) (s : State) :
    exec (.nglStop p tag linkId all result reason) s = execNglStop p tag linkId all result reason s := rfl

theorem nglStop_stops {linkId : Nat} {all : Bool} {result reason : Nat} (hpass : Passes s p tag 0x0B03)
    (hright : s.ownsStop p linkId all = true) :
    Answers (.nglStop p tag linkId all result reason) s (fun t => Posted t p tag 0x0B03 .ok [] ∧
      SameButHost (((taken s p tag 0x0B03).broadcast none
        (fun s q => s.queueC0 q (.stop all linkId result reason s.node))).stopAct all linkId (stopResult result reason))
        t) := by
  rw [Answers, next_of_command (exec_nglStop p tag linkId all result reason s) hpass hright rfl]
  exact ⟨_, rfl, complete_posted _ _ _ _ _ _ _, complete_same _ _ _ _ _ _ _⟩

theorem exec_nglTimeLabel (p : Part) (tag seconds : Nat) (s : State) :
    exec (.nglTimeLabel p tag seconds) s = execNglTimeLabel p tag seconds s := rfl

theorem nglTimeLabel_labels {seconds : Nat} (hpass : Passes s p tag 0x0B04) (hright : s.isSystem p = true)
    (hrange : seconds < 2 ^ 48) (hmaster : s.timeMaster = true) :
    let u := taken s p tag 0x0B04
    let mt := (u.now + u.freeVal % 40001 - 20000 + 500000) / 1000000 * 1000000
    Answers (.nglTimeLabel p tag seconds) s (fun t => Posted t p tag 0x0B04 .ok [] ∧
      SameButHost ((u.drawFree.broadcast none
        (fun v q => v.queueC1 q (.timeLabel v.node u.domSel seconds (v.toSel mt)))).label seconds mt) t) := by
  have hcheck : ([(decide (2 ^ 48 ≤ seconds), Status.outOfRange, []), (!s.timeMaster, .conflict, [])] :
      List (Bool × Status × List Nat)).find? (·.1) = none := by
    rw [decide_eq_false (Nat.not_le.2 hrange), hmaster]
    rfl
  rw [Answers, next_of_command (exec_nglTimeLabel p tag seconds s) hpass hright hcheck]
  exact ⟨_, rfl, complete_posted _ _ _ _ _ _ _, complete_same _ _ _ _ _ _ _⟩

/-! ## CHIME (12 R353) -/

theorem exec_nglChime (p : Part) (tag : Nat) (rec : ChimeRec) (s : State) :
    exec (.nglChime p tag rec) s = execNglChime p tag rec s := rfl

theorem nglChime_orders {rec : ChimeRec} (hpass : Passes s p tag 0x0B05) (houtput : rec.output < 4)
    (hright : (s.part p).chime.getLsbD rec.output = true) (hgood : rec.rsvd = false)
    (hrange : chimeInRange s.now rec = true) :
    Answers (.nglChime p tag rec) s (fun t => Posted t p tag 0x0B05 .ok [] ∧
      t.chimeAt rec.output = (s.chimeAt rec.output).order s.now rec ∧
      t = { s with host.fn := t.host.fn, ngl.chime := t.ngl.chime }) := by
  have hmay : (decide (4 ≤ rec.output) || (s.part p).chime.getLsbD rec.output) = true := by rw [hright, Bool.or_true]
  have hcheck : ([(rec.rsvd, Status.badParam, []),
      (decide (4 ≤ rec.output) || !chimeInRange s.now rec, .outOfRange, [])] :
      List (Bool × Status × List Nat)).find? (·.1) = none := by
    rw [hgood, decide_eq_false (Nat.not_le.2 houtput), hrange]
    rfl
  rw [Answers, next_of_command (exec_nglChime p tag rec s) hpass hmay hcheck]
  refine ⟨_, rfl, complete_posted _ _ _ _ _ _ _, ?_⟩
  rw [complete_same]
  exact ⟨State.updChime_same _ _ _, rfl⟩

/-! ## Lanes (13 R369 to R372) -/

theorem exec_nglLaneScan (p : Part) (tag : Nat) (d : ScanDesc) (s : State) :
    exec (.nglLaneScan p tag d) s = execNglLaneScan p tag d s := rfl

theorem nglLaneScan_scans {d : ScanDesc} (hpass : Passes s p tag 0x0B06) (hright : s.isSystem p = true)
    (hgood : d.rsvd = false) (hrange : scanInRange d = true)
    (hhost : 6 ≤ d.lane → s.parN 11 (hostPortOf d.lane) 0x08D ≠ 0) (hlive : s.laneLive d.lane = true)
    (hidle : (s.slaneAt d.lane).scan = none) :
    Answers (.nglLaneScan p tag d) s (fun t => Posted t p tag 0x0B06 .accepted [] ∧
      (t.slaneAt d.lane).scan = some (p, tag, d, s.now) ∧
      t = { s with host.fn := t.host.fn, ngl.slane := t.ngl.slane }) := by
  have hused : (decide (6 ≤ d.lane) && s.parN 11 (hostPortOf d.lane) 0x08D == 0) = false := by
    rw [Bool.and_eq_false_imp, decide_eq_true_iff]
    exact fun h => beq_false_of_ne (hhost h)
  have hcheck : ([(d.rsvd, Status.badParam, []), (!scanInRange d, .outOfRange, []),
      (decide (6 ≤ d.lane) && s.parN 11 (hostPortOf d.lane) 0x08D == 0, .conflict, []),
      (!s.laneLive d.lane || (s.slaneAt d.lane).scan.isSome, .busy, [])] :
      List (Bool × Status × List Nat)).find? (·.1) = none := by
    rw [hgood, hrange, hused, hlive, hidle]
    rfl
  rw [Answers, next_of_command (exec_nglLaneScan p tag d s) hpass hright hcheck]
  refine ⟨_, rfl, complete_posted (taken s p tag 0x0B06) p tag 0x0B06 .accepted [] [],
    congrArg SLaneSt.scan (State.updSlane_same _ _ _), ?_⟩
  rw [complete_same]
  rfl

theorem exec_nglPrbs (p : Part) (tag lane pattern mode inject : Nat) (s : State) :
    exec (.nglPrbs p tag lane pattern mode inject) s = execNglPrbs p tag lane pattern mode inject s := rfl

/-- The checks of a test: its pattern, its mode, its lane, its rate of injected errors, and a lane that is free. -/
theorem prbs_checks {lane pattern mode inject : Nat} (hpattern : pattern ≤ 4) (hmode : mode ≤ 3) (hlane : lane < 38)
    (hinject : inject ≤ 1 ∨ (10 ≤ inject ∧ inject ≤ 40)) (hfree : s.prbsFree lane = true) :
    ([(decide (4 < pattern) || decide (3 < mode), Status.badParam, []),
      (decide (38 ≤ lane) || !(decide (inject ≤ 1) || (decide (10 ≤ inject) && decide (inject ≤ 40))), .outOfRange, []),
      (!s.prbsFree lane, .busy, [])] : List (Bool × Status × List Nat)).find? (·.1) = none := by
  have hrate : (decide (inject ≤ 1) || (decide (10 ≤ inject) && decide (inject ≤ 40))) = true := by simpa using hinject
  rw [decide_eq_false (Nat.not_lt.2 hpattern), decide_eq_false (Nat.not_lt.2 hmode),
    decide_eq_false (Nat.not_le.2 hlane), hrate, hfree]
  rfl

theorem nglPrbs_tests {lane pattern mode inject : Nat} (hpass : Passes s p tag 0x0B07) (hright : s.isSystem p = true)
    (hpattern : pattern ≤ 4) (hmode : mode ≤ 3) (hlane : lane < 38) (hinject : inject ≤ 1 ∨ (10 ≤ inject ∧ inject ≤ 40))
    (hfree : s.prbsFree lane = true) :
    Answers (.nglPrbs p tag lane pattern mode inject) s (fun t => Posted t p tag 0x0B07 .ok [] ∧
      (t.slaneAt lane).prbs = (if mode = 0 then none else some (pattern, mode, inject)) ∧
      (t.slaneAt lane).prbsLock = false ∧
      t = { s with host.fn := t.host.fn, ngl.slane := t.ngl.slane, ngl.port := t.ngl.port }) := by
  rw [Answers, next_of_command (exec_nglPrbs p tag lane pattern mode inject s) hpass hright
    (prbs_checks hpattern hmode hlane hinject hfree)]
  have hlaneAt := State.updSlane_same (taken s p tag 0x0B07) lane (fun x => { x with
    prbs := if mode = 0 then none else some (pattern, mode, inject), prbsLock := false, prbsRelock := 0 })
  refine ⟨_, rfl, complete_posted _ _ _ _ _ _ _, ?_⟩
  rw [complete_same]
  split
  · exact ⟨congrArg SLaneSt.prbs hlaneAt, congrArg SLaneSt.prbsLock hlaneAt, rfl⟩
  · exact ⟨congrArg SLaneSt.prbs hlaneAt, congrArg SLaneSt.prbsLock hlaneAt, rfl⟩

theorem exec_nglLaneRetrain (p : Part) (tag lane : Nat) (s : State) :
    exec (.nglLaneRetrain p tag lane) s = execNglLaneRetrain p tag lane s := rfl

theorem nglLaneRetrain_retrains {lane : Nat} (hpass : Passes s p tag 0x0B08) (hright : s.isSystem p = true)
    (hlane : lane < 6) (hoff : (s.portAt lane).mode ≠ .off) (htraining : (s.portAt lane).mode ≠ .training)
    (htest : (s.slaneAt lane).prbs = none) :
    exec (.nglLaneRetrain p tag lane) s = .next
      (((((taken s p tag 0x0B08).complete p tag 0x0B08 .accepted []).updPort lane
        (fun x => { x with retrainCmd := some (p, tag) })).retrainPort lane).wakeB lane) := by
  have hcheck : ([(decide (6 ≤ lane), Status.outOfRange, []), ((s.portAt lane).mode == .off ||
      (s.portAt lane).mode == .training || (s.slaneAt lane).prbs.isSome, .busy, [])] :
      List (Bool × Status × List Nat)).find? (·.1) = none := by
    rw [decide_eq_false (Nat.not_le.2 hlane), beq_false_of_ne hoff, beq_false_of_ne htraining, htest]
    rfl
  rw [next_of_command (exec_nglLaneRetrain p tag lane s) hpass hright hcheck]

end

end Sys2Proof
end

section
/-!
The statement about the commands of block NGL.
-/

namespace Sys2Proof

open Sys2Proof.Machine

/-- Settles O21: each clause is the lemma of its command. -/
theorem linkCommandsComplete : Obligations.LinkCommandsComplete :=
  fun _ _ _ => ⟨nglConfig_configures, fun _ _ _ => nglTrigger_sends, fun _ _ _ _ => nglStop_stops,
    fun _ => nglTimeLabel_labels, fun _ => nglChime_orders, fun _ => nglLaneScan_scans, fun _ _ _ _ => nglPrbs_tests,
    fun _ => nglLaneRetrain_retrains⟩

end Sys2Proof
end

section
/-!
SUPPORT. What the rows of ticks, lock and domains do: one equation per row and case (12 R331, R341 to R345).
-/

namespace Sys2Proof

open Sys2Proof.Machine

section
variable {s : State}

theorem otherDom_ne (dom : Dom) : otherDom dom.val ≠ dom.val := by
  unfold otherDom
  omega

/-! ## Sending (12 R331) -/

theorem exec_tickSend (s : State) : exec .tickSend s = execTickSend s := rfl

theorem finRange_two : List.finRange 2 = [0, 1] := by decide

theorem sent_of_none (h0 : s.sends 0 = false) (h1 : s.sends 1 = false) :
    (List.finRange 2).filter (fun d => s.sends d.val) = [] := by
  simp [finRange_two, h0, h1]

theorem sent_of_first (h0 : s.sends 0 = true) (h1 : s.sends 1 = false) :
    (List.finRange 2).filter (fun d => s.sends d.val) = [0] := by
  simp [finRange_two, h0, h1]

theorem tickSend_of_none (h0 : s.sends 0 = false) (h1 : s.sends 1 = false) : exec .tickSend s = .next s := by
  rw [exec_tickSend, execTickSend, sent_of_none h0 h1]
  rfl

/-- The tick of the one domain that is sent leaves on every port of its tree. -/
theorem tickSend_of_first (h0 : s.sends 0 = true) (h1 : s.sends 1 = false) :
    let us := s.domTime 0 / 1000 + 1
    let at_ := (s.nextTick 0).2
    let u := s.moveTo at_
    exec .tickSend s = .next (((List.range 6).filter (u.treePort 0)).foldl (fun v p =>
      v.queueC0 p (.tick 0 (v.masterOf 0) (us % 2 ^ 20) at_)) u) := by
  have hnow : [((0 : Dom), s.nextTick 0)].filter (fun x => decide (x.2.2 = (s.nextTick 0).2)) =
      [((0 : Dom), s.nextTick 0)] := List.filter_cons_of_pos (decide_eq_true rfl)
  rw [exec_tickSend, execTickSend, sent_of_first h0 h1]
  exact congrArg (fun l : List (Dom × Nat × Nat) => Host.Outcome.next (l.foldl (fun v x =>
    ((List.range 6).filter (v.treePort x.1.val)).foldl (fun v p =>
      v.queueC0 p (.tick x.1 (v.masterOf x.1.val) (x.2.1 % 2 ^ 20) (s.nextTick 0).2)) v) (s.moveTo (s.nextTick 0).2))) hnow

/-- A master's next tick is at its own next microsecond. -/
theorem nextTick_of_master (hmaster : s.isMaster 0 = true) : (s.nextTick 0).2 = 1000 * (s.domTime 0 / 1000 + 1) :=
  if_pos hmaster

/-! ## Receiving (12 R331, R341, R344) -/

theorem exec_tickReceive (rx : BlockRx) (dom : Dom) (master usLo depart arrival : Nat) (s : State) :
    exec (.tickReceive rx dom master usLo depart arrival) s = execTickReceive rx dom master usLo depart arrival s := rfl

section
variable {port : Port} {dom : Dom} {master usLo depart arrival : Nat} {crc : BitVec 8}

theorem tickReceive_bad (hup : s.portUp port.val = true) (hcrc : crc ≠ crc8 (tickBits dom.val master usLo depart)) :
    exec (.tickReceive ⟨port, crc⟩ dom master usLo depart arrival) s =
      .next ((s.moveTo (arrival / 65536)).blockErrors port.val 1) := by
  rw [exec_tickReceive, execTickReceive, if_pos hup, State.takeBlock, if_neg hcrc]

theorem tickReceive_takes (hup : s.portUp port.val = true) (hcrc : crc = crc8 (tickBits dom.val master usLo depart)) :
    exec (.tickReceive ⟨port, crc⟩ dom master usLo depart arrival) s =
      .next ((s.moveTo (arrival / 65536)).takeTick port dom master usLo depart arrival) := by
  rw [exec_tickReceive, execTickReceive, if_pos hup, takeBlock_of_good hcrc]

/-- The offset of a domain that a tick measures. -/
def tickOffset (s : State) (port : Port) (dom : Dom) (usLo depart arrival : Nat) : Int :=
  ((nearest (2 ^ 20) (s.toDomain dom.val s.now / 1000) usLo * 65536000 + depart * 128 : Nat) : Int) +
    (s.portAt port.val).delay - (arrival : Int)

/-- The domain after a tick of its master. -/
def tickTaken (s : State) (dom : Dom) (master : Nat) (v : Int) : State :=
  let x := s.domAt dom.val
  let ds := (v :: x.ds).take 16
  s.updDom dom.val (fun y => { y with
    ds, d := roundAway ds.sum ds.length, tracked := true, master, lastTick := s.now, foreign := 0
    since := if x.tracked then x.since else s.now })

/-- The domain after a tick of another master, the `n`th in a row. -/
def tickForeign (s : State) (dom : Dom) (master n : Nat) : State :=
  s.updDom dom.val (fun y => { y with lastTick := s.now, foreign := n, foreignMaster := master })

theorem tickTaken_domAt (s : State) (dom : Dom) (master : Nat) (v : Int) :
    ((tickTaken s dom master v).domAt dom.val).ds = (v :: (s.domAt dom.val).ds).take 16 ∧
    ((tickTaken s dom master v).domAt dom.val).d = roundAway ((v :: (s.domAt dom.val).ds).take 16).sum
      ((v :: (s.domAt dom.val).ds).take 16).length := by
  rw [tickTaken, State.updDom_same]
  exact ⟨rfl, rfl⟩

section
variable (hport : s.domPort dom.val = port.val) (hslave : s.isMaster dom.val = false)
include hport hslave

/-- A tick is measured on the upstream port of a domain that the module is not the master of. -/
theorem tickUpstream : (s.domPort dom.val == port.val && !s.isMaster dom.val) = true := by
  rw [hport, hslave, beq_self_eq_true]
  rfl

/-- A tick of the domain's master, or of any while none is tracked. -/
theorem takeTick_of_own (hown : ¬ ((s.domAt dom.val).tracked = true ∧ (s.domAt dom.val).master ≠ master)) :
    let w := tickTaken s dom master (tickOffset s port dom usLo depart arrival)
    s.takeTick port dom master usLo depart arrival =
      if s.ngl.tm.sel = 2 then w.selectDomain dom.val
      else if s.ngl.tm.sel = dom.val ∧ s.ngl.tm.joined then w.discipline dom.val (s.now - (s.domAt dom.val).lastTick)
      else if dom = 0 ∧ s.isMaster 1 ∧ s.parN 11 0 0x006 = 1 then w.steerFree
      else w := by
  unfold State.takeTick
  rw [if_pos (tickUpstream hport hslave)]
  dsimp only
  rw [if_neg hown]
  rfl

/-- A tick of another master is counted; the third in a row makes it the master. -/
theorem takeTick_of_foreign (htracked : (s.domAt dom.val).tracked = true) (hother : (s.domAt dom.val).master ≠ master)
    (hagain : (s.domAt dom.val).foreignMaster = master) :
    let n := (s.domAt dom.val).foreign + 1
    s.takeTick port dom master usLo depart arrival =
      if 3 ≤ n then (tickForeign s dom master n).newMaster dom.val master (tickOffset s port dom usLo depart arrival)
      else tickForeign s dom master n := by
  unfold State.takeTick
  rw [if_pos (tickUpstream hport hslave)]
  dsimp only
  rw [if_pos ⟨htracked, hother⟩, if_pos hagain]
  rfl

end

end

end

end Sys2Proof
end

section
/-!
SUPPORT. What a tick, its loss and the lock do to the domain that is selected (12 R341 to R345).
-/

namespace Sys2Proof

open Sys2Proof.Machine

section
variable {s : State} {dom : Dom} {master : Nat} {v : Int}

/-- The first domain that is tracked is selected with the offset just measured. -/
theorem selectDomain_of_first (hnone : s.ngl.tm.sel = 2) :
    let w := tickTaken s dom master v
    w.selectDomain dom.val =
      ((({ w with ngl.tm := { w.ngl.tm with sel := dom.val, c := v, inLockSince := some s.now } } : State).setOsc 2).event
        0x0F0 ([2, dom.val] ++ words64 v)).epochs := by
  intro w
  have hhead : (w.domAt dom.val).ds.headD (w.domAt dom.val).d = v := by
    rw [(tickTaken_domAt s dom master v).1]
    rfl
  have hsel : w.ngl.tm.sel = 2 := hnone
  unfold State.selectDomain
  rw [hhead, hsel]
  rfl

/-- The discipline loop slews the offset in use, notes how long it has been within 20 ps, and unlocks beyond 200 ps. -/
theorem discipline_of_tick (dt : Nat) :
    let w := tickTaken s dom master v
    let ds := (v :: (s.domAt dom.val).ds).take 16
    let c := slewed s.ngl.tm.c s.ngl.tm.slewRem dt (s.parN 11 0 0x023)
    let err := (roundAway ds.sum ds.length - c.1).natAbs
    let since := if err ≤ 1310 then some (s.ngl.tm.inLockSince.getD s.now) else none
    let n := (({ w with ngl.tm := { w.ngl.tm with c := c.1, slewRem := c.2, inLockSince := since } } : State).setOsc
      2).steerFree
    w.discipline dom.val dt = if 13107 < err then n.setLock false else n := by
  intro w
  unfold State.discipline
  rw [(tickTaken_domAt s dom master v).2]
  rfl

/-- A new master of a domain that is not selected is noted. -/
theorem newMaster_of_unselected (hsel : s.ngl.tm.sel ≠ dom.val) :
    s.newMaster dom.val master v = s.updDom dom.val (fun y => { y with
      master, ds := [v], d := v, foreign := 0, since := s.now }) := if_pos hsel

/-- A new master of the selected domain, alone tracked, gives its offset at once. -/
theorem newMaster_of_selected (hsel : s.ngl.tm.sel = dom.val) (halone : (s.domAt (otherDom dom.val)).tracked = false) :
    let n := s.updDom dom.val (fun y => { y with master, ds := [v], d := v, foreign := 0, since := s.now })
    s.newMaster dom.val master v = ({ n with ngl.tm := { n.ngl.tm with c := v } } : State).event 0x0F1 [dom.val, master] := by
  intro n
  have hother : ¬ (n.domAt (otherDom dom.val)).tracked = true := by
    rw [State.updDom_other _ _ _ _ (otherDom_ne dom), halone]
    exact Bool.false_ne_true
  have hselected : ¬ n.ngl.tm.sel ≠ dom.val := not_not_intro hsel
  exact (if_neg hselected).trans (if_neg hother)

/-! ## Loss of ticks, lock, the preferred domain -/

theorem exec_tickLoss (dom : Dom) (s : State) : exec (.tickLoss dom) s = execTickLoss dom s := rfl

/-- A domain without ticks for 3 µs is not tracked. -/
def tickLost (s : State) (dom : Dom) : State :=
  (s.moveTo ((s.domAt dom.val).lastTick + 3000)).updDom dom.val (fun x =>
    { x with tracked := false, foreign := 0, ds := [] })

theorem tickLoss_eq (htracked : (s.domAt dom.val).tracked = true) :
    exec (.tickLoss dom) s = .next (if s.ngl.tm.sel ≠ dom.val then tickLost s dom
      else if (s.domAt (otherDom dom.val)).tracked then (tickLost s dom).selectDomain (otherDom dom.val)
      else (tickLost s dom).holdover dom.val) := by
  have hother : (tickLost s dom).domAt (otherDom dom.val) = s.domAt (otherDom dom.val) :=
    State.updDom_other _ _ _ _ (otherDom_ne dom)
  rw [exec_tickLoss, execTickLoss, if_pos htracked, ← hother]
  rfl

theorem exec_timeLock (s : State) : exec .timeLock s = execTimeLock s := rfl

theorem timeLock_locks {t0 : Nat} (hin : s.ngl.tm.inLockSince = some t0) (hjoined : s.ngl.tm.joined = true)
    (hopen : s.ngl.tm.lock = false) :
    let u := s.moveTo (t0 + 10000000)
    exec .timeLock s = .next
      (({ u with ngl.tm := { u.ngl.tm with lock := true, lockedOnce := true } } : State).event 0x0F3) := by
  have hchanges : ¬ (s.moveTo (t0 + 10000000)).ngl.tm.lock = true := by
    rw [show (s.moveTo (t0 + 10000000)).ngl.tm.lock = false from hopen]
    exact Bool.false_ne_true
  rw [exec_timeLock, execTimeLock, hin]
  dsimp only
  rw [if_pos ⟨hjoined, hopen⟩, State.setLock, if_neg hchanges, Bool.or_true]

theorem exec_domainRevert (s : State) : exec .domainRevert s = execDomainRevert s := rfl

theorem domainRevert_returns (hauto : s.parN 11 0 0x022 = 1) (haway : s.ngl.tm.sel ≠ s.parN 11 0 0x021)
    (htracked : (s.domAt (s.parN 11 0 0x021)).tracked = true) :
    exec .domainRevert s = .next
      ((s.moveTo ((s.domAt (s.parN 11 0 0x021)).since + 1000000000)).selectDomain (s.parN 11 0 0x021)) := by
  rw [exec_domainRevert, execDomainRevert, if_pos ⟨hauto, haway, htracked⟩]

end

end Sys2Proof
end

section
/-!
The statement about ticks, lock and domains.
-/

namespace Sys2Proof

open Sys2Proof.Machine

/-- Settles O48: each clause is the equation of its row in the case that its hypotheses name. -/
theorem timeTickRows : Obligations.TimeTickRows := by
  intro s
  refine ⟨tickSend_of_none, fun h0 h1 => ⟨nextTick_of_master, tickSend_of_first h0 h1⟩,
    fun _ _ _ _ _ _ _ => tickReceive_bad, fun port dom master usLo depart crc arrival hup hcrc hport hslave => ?_,
    fun dom htracked => ?_, fun _ => timeLock_locks, domainRevert_returns⟩
  · intro u x us v ds w other
    have hexec := tickReceive_takes (arrival := arrival) hup hcrc
    have hown (h : ¬ (x.tracked = true ∧ x.master ≠ master)) :=
      hexec.trans (congrArg Host.Outcome.next (takeTick_of_own (s := u) hport hslave h))
    have hforeign (htracked : x.tracked = true) (hother : x.master ≠ master) (hagain : x.foreignMaster = master) :=
      hexec.trans (congrArg Host.Outcome.next (takeTick_of_foreign (s := u) hport hslave htracked hother hagain))
    refine ⟨fun _ hmaster hsel hunselected hfree => ?_, fun _ hmaster hsel hunselected hfirst hsecond hfollow => ?_,
      fun htracked hsel => ?_, fun _ hmaster hsel hjoined => ?_, fun htracked hother hagain hfew => ?_,
      fun htracked hother hagain hthird => ?_⟩
    · refine (hown fun h => h.2 hmaster).trans (congrArg _ ?_)
      have hnot : ¬ (dom = 0 ∧ s.isMaster 1 = true ∧ s.parN 11 0 0x006 = 1) := by
        rintro ⟨rfl, hsecond, hfollow⟩
        simp [hsecond, hfollow] at hfree
      exact (if_neg hsel).trans ((if_neg fun h => hunselected h.1).trans (if_neg hnot))
    · refine (hown fun h => h.2 hmaster).trans (congrArg _ ?_)
      exact (if_neg hsel).trans ((if_neg fun h => hunselected h.1).trans (if_pos ⟨hfirst, hsecond, hfollow⟩))
    · refine (hown fun h => absurd (htracked.symm.trans h.1) Bool.false_ne_true).trans (congrArg _ ?_)
      exact (if_pos hsel).trans (selectDomain_of_first (s := u) hsel)
    · refine (hown fun h => h.2 hmaster).trans (congrArg _ ?_)
      have hnone : ¬ s.ngl.tm.sel = 2 := by
        have hdom := dom.isLt
        omega
      exact (if_neg hnone).trans ((if_pos ⟨hsel, hjoined⟩).trans (discipline_of_tick (s := u) _))
    · exact (hforeign htracked hother hagain).trans (congrArg _ (if_neg (Nat.not_le.2 hfew)))
    · refine ⟨fun hsel => ?_, fun hsel halone => ?_⟩
      · refine (hforeign htracked hother hagain).trans (congrArg _ ((if_pos hthird).trans ?_))
        exact newMaster_of_unselected (s := tickForeign u dom master (x.foreign + 1)) hsel
      · refine (hforeign htracked hother hagain).trans (congrArg _ ((if_pos hthird).trans ?_))
        refine newMaster_of_selected (s := tickForeign u dom master (x.foreign + 1)) hsel ?_
        exact (congrArg DomSt.tracked (State.updDom_other _ _ _ _ (otherDom_ne dom))).trans halone
  · have hexec := tickLoss_eq htracked
    refine ⟨fun hsel => hexec.trans (congrArg _ (if_pos hsel)), fun hsel hother => ?_, fun hsel halone => ?_⟩
    · exact hexec.trans (congrArg _ ((if_neg (not_not_intro hsel)).trans (if_pos hother)))
    · refine hexec.trans (congrArg _ ((if_neg (not_not_intro hsel)).trans ((if_neg ?_).trans rfl)))
      rw [halone]
      exact Bool.false_ne_true

end Sys2Proof
end

section
/-!
SUPPORT. What a port sends and what falls due on the links: one equation per row and case (12 R333 to R338, R343, R349,
R353).
-/

namespace Sys2Proof

open Sys2Proof.Machine

section
variable {s : State}

/-! ## Triggers and the time set (12 R343, R349) -/

theorem exec_ngulosTriggerAct (number : NTrg) (s : State) :
    exec (.ngulosTriggerAct number) s = execNgulosTriggerAct number s := rfl

/-- A trigger that no site takes is no longer pending. -/
theorem ngulosTriggerAct_unmapped {number : NTrg} {x : PendTrig} (hfirst : firstTrig s.ngl.pendTrig number = some x)
    (hnone : 128 ≤ s.parN 11 number.val 0x031) :
    exec (.ngulosTriggerAct number) s = .next { s.moveTo x.t with ngl.pendTrig := s.ngl.pendTrig.erase x } := by
  rw [exec_ngulosTriggerAct, execNgulosTriggerAct, hfirst]
  exact congrArg _ (if_neg (Nat.not_lt.2 hnone))

/-- A trigger acts at its site, which runs no burst, and issues its token. -/
theorem ngulosTriggerAct_acts {number : NTrg} {x : PendTrig} (hfirst : firstTrig s.ngl.pendTrig number = some x)
    (hsite : s.parN 11 number.val 0x031 < 128) :
    let k := s.parN 11 number.val 0x031
    let u : State := { s.moveTo x.t with ngl.pendTrig := s.ngl.pendTrig.erase x }
    let v := u.occurAt k (4000 * x.t) (u.trgsOf k 7 (fun a => a == number.val)) (some x.t) x.late
    v.siteRunner k = none → exec (.ngulosTriggerAct number) s = .next
      (v.issueTok { scope := toFin 128 k (by decide), kind := 5, key := number.val, result := 0 }) := by
  intro k u v hidle
  rw [exec_ngulosTriggerAct, execNgulosTriggerAct, hfirst]
  refine congrArg _ ((if_pos hsite).trans ?_)
  change State.issueTok (match v.siteRunner k with
    | some r => _
    | none => v) _ = _
  rw [hidle]
  rfl

theorem exec_timeSetPeriodic (s : State) : exec .timeSetPeriodic s = execTimeSetPeriodic s := rfl

theorem timed_of_invalid (hinvalid : s.ngl.tm.valid = false) :
    (List.finRange 2).filter (fun d => s.sends d.val && s.ngl.tm.valid) = [] := by
  simp [finRange_two, hinvalid]

theorem timed_of_first (h0 : s.sends 0 = true) (h1 : s.sends 1 = false) (hvalid : s.ngl.tm.valid = true) :
    (List.finRange 2).filter (fun d => s.sends d.val && s.ngl.tm.valid) = [0] := by
  simp [finRange_two, h0, h1, hvalid]

theorem timeSetPeriodic_of_invalid (hinvalid : s.ngl.tm.valid = false) : exec .timeSetPeriodic s = .next s := by
  rw [exec_timeSetPeriodic, execTimeSetPeriodic, timed_of_invalid hinvalid]
  rfl

/-- The time of the one domain that is sent goes down its tree. -/
theorem timeSetPeriodic_of_first (h0 : s.sends 0 = true) (h1 : s.sends 1 = false) (hvalid : s.ngl.tm.valid = true) :
    let master := s.masterOf 0
    let hops := if s.isMaster 0 then 1 else (s.domAt 0).hops + 1
    let time := (s.domTime 0 / 1000 + 1) * 1000
    exec .timeSetPeriodic s = .next (((List.range 6).filter (fun p => s.treePort 0 p && p != s.domPort 0 &&
      (s.nglMode == 2 || Tbl.find s.ngl.route (s.portAt p).farAddr == some p))).foldl
        (fun v p => v.queueC1 p (.timeSet (v.portAt p).farAddr v.node 0 master hops time)) s) := by
  rw [exec_timeSetPeriodic, execTimeSetPeriodic, timed_of_first h0 h1 hvalid]
  rfl

/-! ## CHIME edges (12 R353) -/

section
variable {r : ChimeRec} {x : ChimeSt}

theorem chimeEdge_begins (hrest : x.level = r.invert) :
    ChimeSt.edge r x = { x with level := !x.level, state := 2, next := x.next + r.width } := if_pos hrest

/-- The last pulse of a schedule with none queued ends it. -/
theorem chimeEdge_ends (hpulse : x.level ≠ r.invert) (hqueue : x.queued = none)
    (hlast : r.period = 0 ∨ (0 < r.count ∧ r.count ≤ x.done + 1)) : ChimeSt.edge r x = { level := r.invert } := by
  unfold ChimeSt.edge
  rw [if_neg hpulse, hqueue]
  exact if_pos hlast

theorem chimeEdge_repeats (hpulse : x.level ≠ r.invert) (hqueue : x.queued = none)
    (hmore : ¬ (r.period = 0 ∨ (0 < r.count ∧ r.count ≤ x.done + 1))) :
    ChimeSt.edge r x = { x with level := r.invert, done := x.done + 1, next := r.t0 + (x.done + 1) * r.period } := by
  unfold ChimeSt.edge
  rw [if_neg hpulse, hqueue]
  exact if_neg hmore

end

theorem exec_chimeEdge (c : ChimeOut) (s : State) : exec (.chimeEdge c) s = execChimeEdge c s := rfl

theorem chimeEdge_of_schedule {c : ChimeOut} {r : ChimeRec} (hcfg : (s.chimeAt c.val).cfg = some r) :
    Answers (.chimeEdge c) s (fun t => t.chimeAt c.val = ChimeSt.edge r (s.chimeAt c.val) ∧
      t = { s.moveTo (s.chimeAt c.val).next with ngl.chime := t.ngl.chime }) := by
  rw [Answers, exec_chimeEdge, execChimeEdge, hcfg]
  exact ⟨_, rfl, State.updChime_same _ _ _, rfl⟩

/-! ## Blocks (12 R333 to R336) -/

theorem exec_blockSend (port : Port) (s : State) : exec (.blockSend port) s = execBlockSend port s := rfl

theorem not_fillDue {p : Nat} (hdue : s.fillDue p = false) : ¬ s.fillDue p = true := by
  rw [hdue]
  exact Bool.false_ne_true

section
variable {port : Port} (hup : s.portUp port.val = true)
include hup

theorem blockSend_fills (hdue : s.fillDue port.val = true) :
    exec (.blockSend port) s = .next (s.updPort port.val (PortSt.out false 0 .filler)) := by
  rw [exec_blockSend, execBlockSend]
  dsimp only
  rw [if_neg (not_portDown hup), if_pos hdue]

section
variable (hdue : s.fillDue port.val = false)
include hdue

theorem blockSend_nothing (hpick : (s.portAt port.val).pick = .nothing) : exec (.blockSend port) s = .next s := by
  rw [exec_blockSend, execBlockSend]
  dsimp only
  rw [if_neg (not_portDown hup), if_neg (not_fillDue hdue), hpick]

theorem blockSend_c0 {i : Nat} (hpick : (s.portAt port.val).pick = .c0 i) :
    exec (.blockSend port) s = .next (s.sendC0 port.val i) := by
  rw [exec_blockSend, execBlockSend]
  dsimp only
  rw [if_neg (not_portDown hup), if_neg (not_fillDue hdue), hpick]

/-- What is left of a port that sends the next frame of class C1: a credit is spent, the frame may be replayed. -/
def sentC1 (s : State) (f : Frame) (r : List Frame) (x : PortSt) : PortSt :=
  ({ x with
    c1 := r, credits := x.credits - 1, replay := x.replay ++ [(x.seq, f)], seq := (x.seq + 1) % 4096
    ackDue := if x.replay.isEmpty then s.now + 10000 else x.ackDue } : PortSt).out false x.seq f

/-- The same of class C2, which spends no credit. -/
def sentC2 (s : State) (f : Frame) (r : List Frame) (x : PortSt) : PortSt :=
  ({ x with
    c2 := r, replay := x.replay ++ [(x.seq2, f)], seq2 := (x.seq2 + 1) % 4096
    ackDue := if x.replay.isEmpty then s.now + 10000 else x.ackDue } : PortSt).out true x.seq2 f

/-- The same of class C3, which is not replayed. -/
def sentC3 (f : Frame) (r : List Frame) (x : PortSt) : PortSt := ({ x with c3 := r } : PortSt).out false 0 f

/-- The port after the frame at the front of its C3 queue, where one stands there. -/
def nextC3 (x : PortSt) : PortSt :=
  match x.c3 with
  | f :: r => sentC3 f r x
  | [] => x

section
variable {f : Frame} {r : List Frame}

theorem blockSend_c1 (hpick : (s.portAt port.val).pick = .c1) (hqueue : (s.portAt port.val).c1 = f :: r) :
    Answers (.blockSend port) s (fun t =>
      t.portAt port.val = sentC1 s f r (s.portAt port.val) ∧ t = { s with ngl.port := t.ngl.port }) := by
  refine answers_of_updPort (f := fun x => match x.c1 with
    | f :: r => sentC1 s f r x
    | [] => x) ?_ (by rw [hqueue])
  rw [exec_blockSend, execBlockSend]
  dsimp only
  rw [if_neg (not_portDown hup), if_neg (not_fillDue hdue), hpick]
  rfl

theorem blockSend_c2 (hpick : (s.portAt port.val).pick = .c2) (hqueue : (s.portAt port.val).c2 = f :: r) :
    Answers (.blockSend port) s (fun t =>
      t.portAt port.val = sentC2 s f r (s.portAt port.val) ∧ t = { s with ngl.port := t.ngl.port }) := by
  refine answers_of_updPort (f := fun x => match x.c2 with
    | f :: r => sentC2 s f r x
    | [] => x) ?_ (by rw [hqueue])
  rw [exec_blockSend, execBlockSend]
  dsimp only
  rw [if_neg (not_portDown hup), if_neg (not_fillDue hdue), hpick]
  rfl

/-- A frame of class C3 leaves; without a loss since the last, nothing tells of one. -/
theorem blockSend_c3 (hpick : (s.portAt port.val).pick = .c3) (hqueue : (s.portAt port.val).c3 = f :: r)
    (hkept : (s.portAt port.val).c3Since = 0) :
    Answers (.blockSend port) s (fun t =>
      t.portAt port.val = sentC3 f r (s.portAt port.val) ∧ t = { s with ngl.port := t.ngl.port }) := by
  have hnext : nextC3 (s.portAt port.val) = sentC3 f r (s.portAt port.val) := by rw [nextC3, hqueue]
  refine answers_of_updPort (f := nextC3) ?_ hnext
  have hnone : ¬ (((s.updPort port.val nextC3).portAt port.val).c3.length ≤ 16 ∧
      0 < ((s.updPort port.val nextC3).portAt port.val).c3Since) := by
    rw [State.updPort_same, hnext]
    exact fun h => Nat.lt_irrefl 0 (hkept ▸ h.2)
  rw [exec_blockSend, execBlockSend]
  dsimp only
  rw [if_neg (not_portDown hup), if_neg (not_fillDue hdue), hpick]
  exact congrArg _ (if_neg hnone)

end

end

end

/-! ## Alarms (12 R337) -/

theorem exec_alarmSend (event : Src) (s : State) : exec (.alarmSend event) s = execAlarmSend event s := rfl

theorem alarmSend_sends {event : Src} {n t0 p : Nat}
    (hsticky : Tbl.get s.evt.sticky (0, 0, false) event.val = (n, t0, false)) (hcount : 0 < n)
    (hon : bit (s.parN 11 0 0x041) 15 = 1) (haway : bits (s.parN 11 0 0x041) 13 0 ≠ s.node)
    (hroute : s.portTo (bits (s.parN 11 0 0x041) 13 0) = some p) :
    exec (.alarmSend event) s = .next
      (({ s with evt.sticky := Tbl.put s.evt.sticky event.val (0, t0, true) } : State).queueC2 p
        (.alarm (bits (s.parN 11 0 0x041) 13 0) s.node event n t0)) := by
  rw [exec_alarmSend, execAlarmSend, hsticky]
  dsimp only
  rw [if_pos ⟨hon, hcount, haway⟩, hroute]
  rfl

end

end Sys2Proof
end

section
/-!
The statement about what a port sends.
-/

namespace Sys2Proof

open Sys2Proof.Machine

/-- Settles O50: each clause is the equation of its row in the case that its hypotheses name. -/
theorem linkSendRows : Obligations.LinkSendRows := by
  intro s
  refine ⟨fun _ _ => ngulosTriggerAct_unmapped, fun _ _ => ngulosTriggerAct_acts, timeSetPeriodic_of_invalid,
    timeSetPeriodic_of_first, fun c r hcfg => ?_, fun port hup hdue => ?_, fun port hup hdue => ?_,
    fun _ _ _ _ hsticky hcount hon => alarmSend_sends hsticky hcount hon⟩
  · obtain ⟨t, hexec, hchime, hsame⟩ := chimeEdge_of_schedule hcfg
    exact ⟨t, hexec, fun hrest => hchime.trans (chimeEdge_begins hrest),
      fun hpulse hqueue hlast => hchime.trans (chimeEdge_ends hpulse hqueue hlast),
      fun hpulse hqueue hmore => hchime.trans (chimeEdge_repeats hpulse hqueue hmore), hsame⟩
  · obtain ⟨t, hexec, hport, hsame⟩ := answers_of_updPort (blockSend_fills hup hdue) rfl
    exact ⟨t, hexec, congrArg PortSt.sent hport, congrArg PortSt.sinceFill hport, hsame⟩
  · refine ⟨blockSend_nothing hup hdue, fun _ => blockSend_c0 hup hdue, fun f r hpick hqueue => ?_,
      fun f r hpick hqueue => ?_, fun f r hpick hqueue hkept => ?_⟩
    · obtain ⟨t, hexec, hport, hsame⟩ := blockSend_c1 hup hdue hpick hqueue
      exact ⟨t, hexec, congrArg PortSt.sent hport, congrArg PortSt.c1 hport, congrArg PortSt.credits hport,
        congrArg PortSt.replay hport, congrArg PortSt.seq hport,
        (congrArg PortSt.ackDue hport).trans (if_congr List.isEmpty_iff rfl rfl), hsame⟩
    · obtain ⟨t, hexec, hport, hsame⟩ := blockSend_c2 hup hdue hpick hqueue
      exact ⟨t, hexec, congrArg PortSt.sent hport, congrArg PortSt.c2 hport, (congrArg PortSt.credits hport :),
        congrArg PortSt.replay hport, congrArg PortSt.seq2 hport, hsame⟩
    · obtain ⟨t, hexec, hport, hsame⟩ := blockSend_c3 hup hdue hpick hqueue hkept
      exact ⟨t, hexec, congrArg PortSt.sent hport, congrArg PortSt.c3 hport, (congrArg PortSt.replay hport :), hsame⟩

end Sys2Proof
end

section
/-!
SUPPORT. What the rows of a port's training do: one equation per row and case (13 R362 to R369).
-/

namespace Sys2Proof

open Sys2Proof.Machine

section
variable {s : State} {port : Port}

/-- Two changes of a port are one. -/
theorem updPort_updPort (s : State) (k : Nat) (f g : PortSt → PortSt) :
    (s.updPort k f).updPort k g = s.updPort k (fun x => g (f x)) := by
  unfold State.updPort Tbl.upd
  simp

/-! ## TRAIN blocks (13 R363, R364, R367) -/

theorem exec_trainBlockReceive (rx : BlockRx) (phase : TrainPhase) (standby ref : Bool) (farPort node : Nat)
    (rec : RxState) (s : State) :
    exec (.trainBlockReceive rx phase standby ref farPort node rec) s =
      execTrainBlockReceive rx phase standby ref farPort node rec s := rfl

section
variable {phase : TrainPhase} {standby ref : Bool} {farPort node preset : Nat} {locked : Bool} {crc : BitVec 8}

theorem trainBlockReceive_bad (hcrc : crc ≠ crc8 (trainBits phase standby ref farPort node preset locked)) :
    exec (.trainBlockReceive ⟨port, crc⟩ phase standby ref farPort node ⟨preset, locked⟩) s = .next s := by
  rw [exec_trainBlockReceive, execTrainBlockReceive]
  exact congrArg _ (if_pos hcrc)

section
variable (hcrc : crc = crc8 (trainBits phase standby ref farPort node preset locked))
include hcrc

/-- A port in training notes what the far end says; the attempt fails where the references disagree. -/
theorem trainBlockReceive_of_training (hmode : (s.portAt port.val).mode = .training) :
    let u := (s.updPort port.val (fun x => { x with
      far := farPort, farAddr := node, farStandby := standby, farLock := locked
      phase := nextPhase x.phase phase (x.lock && locked) })).updSlane port.val (fun y => { y with far := true })
    exec (.trainBlockReceive ⟨port, crc⟩ phase standby ref farPort node ⟨preset, locked⟩) s =
      .next (if ref ≠ (s.parN 11 port.val 0x081 == 1) then u.attemptFails port.val 3 else u) := by
  rw [exec_trainBlockReceive, execTrainBlockReceive]
  refine congrArg _ ((if_neg (not_not_intro hcrc)).trans ?_)
  dsimp only
  rw [hmode]
  rfl

theorem trainBlockReceive_of_standby (hmode : (s.portAt port.val).mode = .standby) :
    exec (.trainBlockReceive ⟨port, crc⟩ phase standby ref farPort node ⟨preset, locked⟩) s =
      .next (if phase = .exit then s.updPort port.val (fun x => { x with exiting := true }) else s) := by
  rw [exec_trainBlockReceive, execTrainBlockReceive]
  refine congrArg _ ((if_neg (not_not_intro hcrc)).trans ?_)
  dsimp only
  rw [hmode]

theorem trainBlockReceive_of_active (hmode : (s.portAt port.val).mode = .active) :
    exec (.trainBlockReceive ⟨port, crc⟩ phase standby ref farPort node ⟨preset, locked⟩) s =
      .next (if phase = .enterIdle ∧ s.standbyRole port.val then s.goIdle port.val else s) := by
  rw [exec_trainBlockReceive, execTrainBlockReceive]
  refine congrArg _ ((if_neg (not_not_intro hcrc)).trans ?_)
  dsimp only
  rw [hmode]

end

end

/-! ## The end of training (13 R364, R366, R369) -/

theorem exec_trainingComplete (port : Port) (ppm : Int) (s : State) :
    exec (.trainingComplete port ppm) s = execTrainingComplete port ppm s := rfl

/-- A change of a port that keeps what the far end said of standby keeps the role. -/
theorem standbyRole_updPort (s : State) (p : Nat) {f : PortSt → PortSt} (hf : ∀ x, (f x).farStandby = x.farStandby) :
    (s.updPort p f).standbyRole p = s.standbyRole p := by
  unfold State.standbyRole
  rw [State.updPort_same, hf]
  rfl

/-- The first training of a port without standby role and on a common reference begins its counts and makes it active. -/
theorem trainingComplete_first {ppm : Int} (hmode : (s.portAt port.val).mode = .training)
    (hphase : (s.portAt port.val).phase = some .confirm) (hlock : (s.portAt port.val).lock = true)
    (hfar : (s.portAt port.val).farLock = true) (hfirst : (s.portAt port.val).retrain = false)
    (hcommon : s.parN 11 port.val 0x081 ≠ 1) (hrole : s.standbyRole port.val = false) :
    let u := (s.updPort port.val (fun x => { x with ppm, retrain := false, retry := false })).updPort port.val (fun x =>
      { x with
        credits := 16, seq := 0, seq2 := 0, rxSeq := 0, rxSeq2 := 0, lastRx := 0xFFF, held := none, stalled := false })
    let v := u.goActive port.val
    exec (.trainingComplete port ppm) s = .next
      ((if (v.portAt port.val).replay.isEmpty then v else v.replay port.val).retrainDoneCmd port.val .ok) := by
  intro u v
  have hu : u.standbyRole port.val = false := by
    refine (standbyRole_updPort _ _ ?_).trans ((standbyRole_updPort _ _ ?_).trans hrole)
    · exact fun _ => rfl
    · exact fun _ => rfl
  have hnew : ¬ (s.portAt port.val).retrain = true := by
    rw [hfirst]
    exact Bool.false_ne_true
  have hactive : ¬ u.standbyRole port.val = true := by
    rw [hu]
    exact Bool.false_ne_true
  have hmeets : ¬ (u.parN 11 port.val 0x081 = 1 ∧ 1500 < ppm.natAbs) := fun h => hcommon h.1
  rw [exec_trainingComplete, execTrainingComplete, if_pos ⟨hmode, hphase, hlock, hfar⟩]
  dsimp only
  rw [if_neg hnew, if_neg hmeets, if_neg hactive]

theorem exec_trainTimeoutExpiry (port : Port) (s : State) :
    exec (.trainTimeoutExpiry port) s = execTrainTimeoutExpiry port s := rfl

theorem trainTimeoutExpiry_fails (hmode : (s.portAt port.val).mode = .training) :
    exec (.trainTimeoutExpiry port) s = .next ((s.moveTo (s.portAt port.val).trainDue).attemptFails port.val 2) := by
  rw [exec_trainTimeoutExpiry, execTrainTimeoutExpiry, if_pos hmode]

/-! ## Block lock and the elastic buffer (13 R362, R366) -/

theorem exec_blockLockLoss (port : Port) (s : State) : exec (.blockLockLoss port) s = execBlockLockLoss port s := rfl

/-- Sixteen bad blocks are counted and told of. -/
theorem blockErrors_sixteen (s : State) (p : Nat) :
    s.blockErrors p 16 = (s.updPort p (fun x => { x with
      crcErr := satAdd x.crcErr 16 0xFFFFFFFF, errAt := some s.now })).event (0x0C3 + 8 * p) := rfl

theorem blockLockLoss_retrains (hmode : (s.portAt port.val).mode = .active) :
    let u := (s.updPort port.val (fun x =>
      { x with lock := false, crcErr := satAdd x.crcErr 16 0xFFFFFFFF, errAt := some s.now })).event (0x0C3 + 8 * port.val)
    exec (.blockLockLoss port) s =
      .next (((u.event (0x0C7 + 8 * port.val) [1]).retrainPort port.val).wakeB port.val) := by
  rw [exec_blockLockLoss, execBlockLockLoss]
  dsimp only
  rw [hmode, blockErrors_sixteen, updPort_updPort]
  rfl

theorem exec_blockLockGain (port : Port) (s : State) : exec (.blockLockGain port) s = execBlockLockGain port s := rfl

theorem blockLockGain_of_training (hmode : (s.portAt port.val).mode = .training) :
    exec (.blockLockGain port) s = .next (s.updPort port.val (fun x => { x with lock := true })) := by
  rw [exec_blockLockGain, execBlockLockGain]
  dsimp only
  rw [hmode]

theorem blockLockGain_of_exit (hmode : (s.portAt port.val).mode = .standby)
    (hexits : (s.portAt port.val).exiting = true) : exec (.blockLockGain port) s = .next (s.goActive port.val) := by
  rw [exec_blockLockGain, execBlockLockGain]
  dsimp only
  rw [hmode, if_pos hexits]

theorem exec_elasticOverflow (port : Port) (s : State) : exec (.elasticOverflow port) s = execElasticOverflow port s := rfl

theorem elasticOverflow_retrains (hup : s.portUp port.val = true) (hindependent : s.parN 11 port.val 0x081 = 1) :
    exec (.elasticOverflow port) s = .next ((s.event (0x0C7 + 8 * port.val) [4]).retrainPort port.val) := by
  rw [exec_elasticOverflow, execElasticOverflow]
  dsimp only
  rw [hup, hindependent]
  rfl

/-! ## Standby and retries (13 R367 to R369) -/

theorem exec_activityDetect (port : Port) (s : State) : exec (.activityDetect port) s = execActivityDetect port s := rfl

theorem activityDetect_exits (hmode : (s.portAt port.val).mode = .standby) :
    exec (.activityDetect port) s = .next (s.updPort port.val (fun x => { x with exiting := true })) := by
  rw [exec_activityDetect, execActivityDetect, if_pos hmode]

theorem fastExitFail_trains (hmode : (s.portAt port.val).mode = .standby) (hexits : (s.portAt port.val).exiting = true) :
    exec (.fastExitFail port) s = .next ((s.event (0x0C6 + 8 * port.val) [2]).attempt port.val 0 false false) :=
  congrArg _ (if_pos ⟨hmode, hexits⟩)

theorem standbyCheckDue_of_ok : exec (.standbyCheckDue port true) s = .next s :=
  congrArg _ (if_neg fun h => Bool.false_ne_true h.2.2.symm)

theorem standbyCheckDue_fails (hport : port.val = 1) (hmode : (s.portAt port.val).mode = .standby) :
    exec (.standbyCheckDue port false) s = .next ((s.event (0x0C7 + 8 * port.val) [5]).goDown port.val true) :=
  congrArg _ (if_pos ⟨hport, hmode, rfl⟩)

theorem exec_standbyReturn (s : State) : exec .standbyReturn s = execStandbyReturn s := rfl

theorem standbyReturn_idles (htree : s.nglMode = 1) (ha : s.portUp 0 = true) (hb : s.portUp 1 = true)
    (hrole : s.standbyRole 1 = true) :
    exec .standbyReturn s = .next ((s.moveTo ((s.portAt 0).activeAt + 1000000000)).goIdle 1) := by
  rw [exec_standbyReturn, execStandbyReturn, if_pos ⟨htree, ha, hb, hrole⟩]

theorem retryIntervalExpiry_trains (hmode : (s.portAt port.val).mode = .down)
    (htest : (s.slaneAt port.val).prbs = none) :
    exec (.retryIntervalExpiry port) s =
      .next ((s.moveTo (s.portAt port.val).trainDue).attempt port.val 0 false true) :=
  congrArg _ (if_pos ⟨hmode, htest⟩)

end

end Sys2Proof
end

section
/-!
The statement about the training of a port.
-/

namespace Sys2Proof

open Sys2Proof.Machine

/-- Settles O51: each clause is the equation of its row in the case that its hypotheses name. -/
theorem linkTrainingRows : Obligations.LinkTrainingRows := by
  intro s port
  refine ⟨fun _ _ _ _ _ _ _ _ => trainBlockReceive_bad, fun _ _ _ _ _ _ _ _ hcrc hmode => ⟨fun hsame => ?_, fun hdiffer => ?_⟩,
    fun _ _ _ _ _ _ _ hcrc hmode => ?_, fun _ _ _ _ _ _ _ hcrc hmode hrole => ?_, fun _ => trainingComplete_first,
    trainTimeoutExpiry_fails, blockLockLoss_retrains, elasticOverflow_retrains, activityDetect_exits,
    fastExitFail_trains, blockLockGain_of_training, blockLockGain_of_exit, standbyCheckDue_of_ok, standbyCheckDue_fails,
    standbyReturn_idles, retryIntervalExpiry_trains⟩
  · exact (trainBlockReceive_of_training hcrc hmode).trans (congrArg _ (if_neg (not_not_intro hsame)))
  · exact (trainBlockReceive_of_training hcrc hmode).trans (congrArg _ (if_pos hdiffer))
  · exact (trainBlockReceive_of_standby hcrc hmode).trans (congrArg _ (if_pos rfl))
  · exact (trainBlockReceive_of_active hcrc hmode).trans (congrArg _ (if_pos ⟨rfl, hrole⟩))

end Sys2Proof
end

section
/-!
SUPPORT. What the rows of serial lanes under test and of host links do: one equation per row and case (13 R358 to R360,
R371, R372; 14 R387, R388).
-/

namespace Sys2Proof

open Sys2Proof.Machine

section
variable {s : State}

/-! ## Scans and checkers (13 R371, R372) -/

theorem exec_laneScanDone (l : SLane) (counts : List Nat) (incomplete : Bool) (s : State) :
    exec (.laneScanDone l counts incomplete) s = execLaneScanDone l counts incomplete s := rfl

/-- A scan that has counted every point, or is given up, writes what it counted. -/
theorem laneScanDone_writes {l : SLane} {p : Part} {tag : Nat} {d : ScanDesc} {start : Nat} {counts : List Nat}
    {incomplete : Bool} (hscan : (s.slaneAt l.val).scan = some (p, tag, d, start))
    (hcounts : counts.length ≤ scanNp d * scanNv d ∧ (incomplete = true ∨ counts.length = scanNp d * scanNv d)) :
    exec (.laneScanDone l counts incomplete) s = .next
      (((s.moveTo (start + counts.length * scanPoint d)).updSlane l.val (fun x => { x with scan := none })).complete p.val
        tag 0x0B06 .ok [] (scanResult d start counts incomplete)) := by
  rw [exec_laneScanDone, execLaneScanDone, hscan]
  exact congrArg _ (if_pos hcounts)

theorem exec_prbsCheckerLock (l : SLane) (relock : Bool) (s : State) :
    exec (.prbsCheckerLock l relock) s = execPrbsCheckerLock l relock s := rfl

section
variable {l : SLane} {pattern mode inject : Nat}
  (htest : (s.slaneAt l.val).prbs = some (pattern, mode, inject)) (hchecks : bit mode 1 = 1)
include htest hchecks

theorem prbsCheckerLock_locks :
    exec (.prbsCheckerLock l false) s = .next (s.updSlane l.val (fun x => { x with prbsLock := true })) := by
  rw [exec_prbsCheckerLock, execPrbsCheckerLock, htest]
  dsimp only
  rw [hchecks]
  rfl

theorem prbsCheckerLock_relocks (hlocked : (s.slaneAt l.val).prbsLock = true) :
    exec (.prbsCheckerLock l true) s = .next
      (s.updSlane l.val (fun x => { x with prbsRelock := satAdd x.prbsRelock 1 0xFFFFFFFF })) := by
  rw [exec_prbsCheckerLock, execPrbsCheckerLock, htest]
  dsimp only
  rw [hchecks, hlocked]
  rfl

end

/-! ## Host links (13 R358 to R360; 14 R387, R388) -/

theorem exec_hostLinkDown (h : HPort) (refclk : Bool) (s : State) :
    exec (.hostLinkDown h refclk) s = execHostLinkDown h refclk s := rfl

/-- A host link that was up returns to Detect: its partitions see LINK_LOST, its pending values apply. -/
def linkDetects (s : State) (h : HPort) : State :=
  (((portParts h.val).foldl (fun s p => s.updFn p (fun f => { f with linkLost := true }))
    (s.updHlink h.val (fun x => { x with up := false }))).event (0x0B1 + 2 * h.val) [1]).applyAt .detect h.val

theorem hostLinkDown_eq {h : HPort} (refclk : Bool) (hup : (s.hlinkAt h.val).up = true) :
    let v := linkDetects s h
    let mode := v.parN 11 h.val 0x082
    let w := v.updHlink h.val (fun x => { x with common := mode == 1 || (mode == 0 && refclk) })
    exec (.hostLinkDown h refclk) s =
      .next (if mode = 1 ∧ refclk = false then w.event (0x0B1 + 2 * h.val) [2] else w) := by
  rw [exec_hostLinkDown, execHostLinkDown, if_pos hup]
  rfl

/-- A link whose clock is not forced takes the common clock where its reference is there. -/
theorem hostLinkDown_unforced {h : HPort} (refclk : Bool) (hup : (s.hlinkAt h.val).up = true)
    (hmode : (linkDetects s h).parN 11 h.val 0x082 ≠ 1) :
    exec (.hostLinkDown h refclk) s = .next ((linkDetects s h).updHlink h.val
      (fun x => { x with common := (linkDetects s h).parN 11 h.val 0x082 == 0 && refclk })) := by
  rw [hostLinkDown_eq refclk hup, if_neg fun hforced => hmode hforced.1, beq_false_of_ne hmode]
  rfl

/-- A forced common clock without its reference is told of. -/
theorem hostLinkDown_forced {h : HPort} (refclk : Bool) (hup : (s.hlinkAt h.val).up = true)
    (hmode : (linkDetects s h).parN 11 h.val 0x082 = 1) :
    let w := (linkDetects s h).updHlink h.val (fun x => { x with common := true })
    exec (.hostLinkDown h refclk) s = .next (if refclk = false then w.event (0x0B1 + 2 * h.val) [2] else w) := by
  rw [hostLinkDown_eq refclk hup, hmode]
  exact congrArg _ (if_congr (and_iff_right rfl) rfl rfl)

theorem exec_hostLinkUp (h : HPort) (rate width : Nat) (s : State) :
    exec (.hostLinkUp h rate width) s = execHostLinkUp h rate width s := rfl

section
variable {h : HPort} {rate width : Nat}

theorem hostLinkUp_full (hdown : (s.hlinkAt h.val).up = false) (hrate : 5 ≤ rate) (hwidth : 8 ≤ width) :
    exec (.hostLinkUp h rate width) s = .next ((portParts h.val).foldl (fun s p => (s.flushCpl p).drainEvts p)
      (s.updHlink h.val (fun x => { x with up := true, rate, width }))) := by
  have hfull : ¬ (rate < 5 ∨ width < 8) := by omega
  rw [exec_hostLinkUp, execHostLinkUp, hdown]
  dsimp only
  rw [if_neg Bool.false_ne_true, if_neg hfull]

/-- A link below its full rate or width is told of. -/
theorem hostLinkUp_degraded (hdown : (s.hlinkAt h.val).up = false) (hless : rate < 5 ∨ width < 8) :
    exec (.hostLinkUp h rate width) s = .next ((portParts h.val).foldl (fun s p => (s.flushCpl p).drainEvts p)
      ((s.updHlink h.val (fun x => { x with up := true, rate, width })).event (0x0B0 + 2 * h.val) [1])) := by
  rw [exec_hostLinkUp, execHostLinkUp, hdown]
  dsimp only
  rw [if_neg Bool.false_ne_true, if_pos hless]

/-- A link that was up has gone through Recovery. -/
theorem hostLinkUp_recovered (hup : (s.hlinkAt h.val).up = true) (hrate : 5 ≤ rate) (hwidth : 8 ≤ width) :
    exec (.hostLinkUp h rate width) s = .next ((portParts h.val).foldl (fun s p => (s.flushCpl p).drainEvts p)
      ((s.event (0x0B0 + 2 * h.val) [2]).updHlink h.val (fun x => { x with up := true, rate, width }))) := by
  have hfull : ¬ (rate < 5 ∨ width < 8) := by omega
  rw [exec_hostLinkUp, execHostLinkUp, hup]
  dsimp only
  rw [if_pos rfl, if_neg hfull]

end

end

end Sys2Proof
end

section
/-!
SUPPORT. The line code of an Ngulos lane: descrambling undoes scrambling, and finds the scrambler's state by itself
(13 R361).
-/

namespace Sys2Proof

open Sys2Proof.Machine

/-- The descrambler in the scrambler's state gives back the bits, and ends in the scrambler's state. -/
theorem descramble_scramble (l : List Bool) (h : Scrambler) : descramble h (scramble h l).1 = (l, (scramble h l).2) := by
  induction l generalizing h with
  | nil => rfl
  | cons b l ih =>
    have hbit : ((b ^^ h.tap) ^^ h.tap) = b := by rw [Bool.xor_assoc, Bool.xor_self, Bool.xor_false]
    simp only [scramble, descramble, ih, hbit]

theorem b2n_add_double (b : Bool) (n : Nat) : b2n b + 2 * n = Nat.bit b n := by
  cases b <;> simp [b2n, Nat.bit, Nat.add_comm]

/-- A bit of the number that a list of bits spells, the first bit lowest. -/
theorem testBit_spelled (l : List Bool) (i : Nat) :
    (l.foldr (fun b n => b2n b + 2 * n) 0).testBit i = l.getD i false := by
  induction l generalizing i with
  | nil => simp
  | cons b l ih =>
    rw [List.foldr_cons, b2n_add_double]
    cases i with
    | zero => rw [Nat.testBit_bit_zero, List.getD_cons_zero]
    | succ i => rw [Nat.testBit_bit_succ, ih, List.getD_cons_succ]

theorem bitsPayload_payloadBits (x : BitVec 64) : bitsPayload (payloadBits x) = x := by
  refine BitVec.eq_of_getLsbD_eq fun i hi => ?_
  rw [bitsPayload, BitVec.getLsbD_ofNat, testBit_spelled, payloadBits]
  simp [hi]

/-- The receiver in the sender's state takes the block that was sent. -/
theorem receiveBlock_sendBlock (h : Scrambler) (control : Bool) (payload : BitVec 64) :
    receiveBlock h (sendBlock h control payload).1 = (some (control, payload), (sendBlock h control payload).2) := by
  have hkind : headerKind control (!control) = some control := by cases control <;> rfl
  have hblock : receiveBlock h (sendBlock h control payload).1 =
      ((headerKind control (!control)).map (fun k =>
        (k, bitsPayload (descramble h (scramble h (payloadBits payload)).1).1)),
        (descramble h (scramble h (payloadBits payload)).1).2) := rfl
  rw [hblock, hkind, descramble_scramble, bitsPayload_payloadBits]
  rfl

/-- Two states have the same newest `k` bits. -/
def AgreeBelow (k : Nat) (h h' : Scrambler) : Prop := ∀ i < k, h.getLsbD i = h'.getLsbD i

theorem getLsbD_push_zero (h : Scrambler) (b : Bool) : (h.push b).getLsbD 0 = b := by
  simp [Scrambler.push]

theorem getLsbD_push_succ (h : Scrambler) (b : Bool) (i : Nat) :
    (h.push b).getLsbD (i + 1) = (decide (i + 1 < 58) && h.getLsbD i) := by
  simp [Scrambler.push]

theorem AgreeBelow.push {k : Nat} {h h' : Scrambler} (hk : AgreeBelow k h h') (b : Bool) :
    AgreeBelow (k + 1) (h.push b) (h'.push b) := by
  intro i hi
  cases i with
  | zero => rw [getLsbD_push_zero, getLsbD_push_zero]
  | succ i => rw [getLsbD_push_succ, getLsbD_push_succ, hk i (Nat.lt_of_succ_lt_succ hi)]

/-- Each received bit is one more that the states of two descramblers share. -/
theorem AgreeBelow.descramble {k : Nat} {h h' : Scrambler} (hk : AgreeBelow k h h') (l : List Bool) :
    AgreeBelow (k + l.length) (descramble h l).2 (descramble h' l).2 := by
  induction l generalizing k h h' with
  | nil => exact hk
  | cons b l ih =>
    have hrest := ih (hk.push b)
    rwa [Nat.add_assoc, Nat.add_comm 1] at hrest

theorem descramble_agree (h h' : Scrambler) (line : List Bool) (hlen : 58 ≤ line.length) :
    (descramble h line).2 = (descramble h' line).2 := by
  have hagree : AgreeBelow (0 + line.length) (descramble h line).2 (descramble h' line).2 :=
    AgreeBelow.descramble (fun i hi => absurd hi (Nat.not_lt_zero i)) line
  exact BitVec.eq_of_getLsbD_eq fun i hi => hagree i (by omega)

end Sys2Proof
end

section
/-!
The statement about lane tests, host links and the line code.
-/

namespace Sys2Proof

open Sys2Proof.Machine

/-- Settles O52: each row's clause is its equation in the case that its hypotheses name; the line code's two are the round
trip of a block and the agreement of descramblers. -/
theorem laneTestRows : Obligations.LaneTestRows :=
  fun _ => ⟨fun _ _ _ _ _ _ hscan hcounts => laneScanDone_writes hscan ⟨hcounts.le, .inr hcounts⟩,
    fun _ _ _ _ _ _ hscan hcounts => laneScanDone_writes hscan ⟨hcounts, .inl rfl⟩,
    fun _ _ _ _ htest hchecks => ⟨prbsCheckerLock_locks htest hchecks, prbsCheckerLock_relocks htest hchecks⟩,
    fun _ hup => ⟨fun refclk hmode => hostLinkDown_unforced refclk hup hmode, fun hmode => hostLinkDown_forced true hup hmode,
      fun hmode => hostLinkDown_forced false hup hmode⟩,
    fun _ _ _ => hostLinkUp_full, fun _ _ _ => hostLinkUp_degraded, fun _ _ _ => hostLinkUp_recovered,
    receiveBlock_sendBlock, descramble_agree⟩

end Sys2Proof
end
